-- ==== Sys2Proof/Word.lean ====
section
/-! DEFINITION. Word types of the LX-7160 and the sparse table in which the state keeps numbered things. -/

namespace Sys2Proof

/-- A general register, an address, a 64-bit control register (R11, R21). -/
abbrev Word := BitVec 64
/-- A byte of memory (R3). -/
abbrev Byte := BitVec 8
/-- A 16-bit code word (R83). -/
abbrev Half := BitVec 16
/-- A tile element (R189). -/
abbrev W32 := BitVec 32
/-- A 64-byte vector register or flit (R11, R63). -/
abbrev Vec := BitVec 512
/-- Number of a general register (R95). -/
abbrev Reg := BitVec 5
/-- Number of a vector register (R95). -/
abbrev VReg := BitVec 4
/-- Number of a tile slot (R95). -/
abbrev TileNo := BitVec 4

/-- A sparse table: numbered entries; a number that is not listed has the default the reader names. -/
abbrev Tbl (α : Type) := List (Nat × α)

end Sys2Proof
end

