-- ==== Sys2Proof/Syntax.lean ====
section
/-! DEFINITION. The instructions of LXA 1.0 and the device's own steps: one constructor of Instr for every row of the opcode table. -/

namespace Sys2Proof

/-- Second source of page 0, OP 1-18: a register or an immediate (R112), the immediate already extended by R89. -/
inductive Src where
  | reg (r : Reg)
  | imm (v : Word)
  deriving DecidableEq, Repr

/-- Second source of page 2, OP 10-15 and 18-23 (R172, R173). -/
inductive VSrc where
  | reg (r : VReg)
  | imm (v : Word)
  deriving DecidableEq, Repr

/-- Lane of VEXT and VINS: a natural immediate or a lane register (R173); no prefix is lane 0. -/
inductive Lane where
  | imm (n : BitVec 6)
  | reg (r : Reg)
  deriving DecidableEq, Repr

/-- Vector element types, codes 0-9 (R63). -/
inductive VType where
  | i8 | n8 | i16 | n16 | i32 | n32 | i64 | bf16 | hf16 | sf32
  deriving DecidableEq, Repr

/-- Memory operand of page 1 with its MOD fields (R93, R143, R144). An absent index is g0, which reads 0 and adds nothing (R91). -/
structure MemOp where
  base  : Reg
  idx   : Reg
  off   : Word
  x     : BitVec 4
  scope : BitVec 2
  order : BitVec 2
  deriving DecidableEq, Repr

/-- A host's answer to an ATS translation request (R318): no translation, or one with these rights. -/
inductive AtsAnswer where
  | absent
  | present (pa : Word) (size : BitVec 2) (r w : Bool)
  deriving DecidableEq, Repr

/-- An operation that a fabric peer sends (R158, R332). -/
inductive FabricOp where
  | read (loc : Nat) (size : Nat)
  | write (loc : Nat) (bytes : List Byte)
  | atomic (loc : Nat) (op : BitVec 5) (w64 : Bool) (x e : Word)
  deriving DecidableEq, Repr

/-- What a device fault takes away (R423). -/
inductive FaultUnit where
  | core (c : Nat) | seamRow (r : Nat) | fabricPort (p : Nat)
  deriving DecidableEq, Repr

/-- How a Seam row link's retraining ends: it is up, or it cannot train at any width (R421). -/
structure SeamTraining where
  link    : Nat
  trained : Bool
  deriving DecidableEq, Repr

/-- What a configuration request writes, if anything: PRI Enable, the Outstanding Page Request Allocation (R378, R379). -/
structure CfgWrite where
  pri   : Option Bool
  alloc : Option Nat
  deriving DecidableEq, Repr

/-- The LXA instructions (R96 to R104) and the device's steps (spec/95), in the opcode table's order. -/
inductive Instr where
  -- device steps; arguments name the unit that acts and carry what the outside world supplies
  | deviceReset (failStage failCode : BitVec 4)
  | configurationRequest (write : CfgWrite)
  | queueDescriptorWrite (q : Nat) (w : BitVec 2) (v : Word)
  | writeIndexDoorbell (q : Nat) (v : Word)
  | hostRegisterWrite (off : Nat) (v : Word)
  | msixUnmask (vec : Nat)
  | hostBar4Access (write : Bool) (off : Nat) (v : Word)
  | launchHeadCheck (q : Nat)
  | schedulerStart
  | launchImagePlaced (job : Nat)
  | launchRelease (job : Nat)
  | coreEnd (core : Nat)
  | jobEnd (job : Nat)
  | issueCycle (core : Nat)
  | ageBoost (core slot : Nat)
  | pauseWindowEnd (core slot : Nat)
  | variableLatencyResult (core slot : Nat) (r : Reg)
  | markerParkEnd (core slot : Nat)
  | branchResolve (core slot : Nat)
  | helperSlotFree (core slot : Nat)
  | engineCommandStart (core eng : Nat)
  | mmajJointStart (core : Nat)
  | engineCommandComplete (core eng idx : Nat)
  | ewaitMarkerComplete (core eng : Nat)
  | storePerform (core slot id : Nat)
  | atomicExecute (core slot id : Nat)
  | vamoExecute (core slot id : Nat)
  | remoteWriteLand (core slot id : Nat)
  | coreWindowRead (core slot id : Nat)
  | translationMissRequest (core slot id : Nat)
  | atsTranslationCompletion (req : Nat) (ans : AtsAnswer)
  | prgResponse (req : Nat) (code : BitVec 2)
  | atsInvalidationRequest (pasid : BitVec 20) (va : Word) (size : BitVec 2)
  | tlbInvalidationAck (core : Nat)
  | replayCommandReceive (core : Nat)
  | eccUncorrectable (loc : Nat) (slice : Bool)
  | eccCorrected (unit : Nat)
  | errorCountRetirement (unit : Nat)
  | agingRecalibration (bad : List Nat)
  | stagedAccessArrive (core slot id : Nat)
  | couplingAdoptionRequest (core field : Nat)
  | barrierArrival (core ch : Nat)
  | syncArrival (core : Nat)
  | barrierRelease (core ch : Nat)
  | exchangeFlitInject (xid : Nat)
  | exchangeDelivery (xid idx : Nat)
  | computeRelease (xid hold : Nat)
  | computeReleaseArrival (core : Nat)
  | portWriteArrival (idx : Nat)
  | messageArrival (idx : Nat)
  | gangForm (core : Nat)
  | herderSweepStart (core field : Nat)
  | siteRoutineStart (core field : Nat)
  | halfStepArrival (core field : Nat)
  | snapshotCopy (core : Nat)
  | vfMoveBegin (core : Nat)
  | vfMoveEnd (core : Nat)
  | thermalCapStep (core : Nat) (hot : Bool)
  | thermalStop
  | thermalReadyRestore
  | energyWindowEnd
  | timesliceSwitch (core : Nat)
  | debugStop (job : Nat)
  | stepLimitReached
  | preemptSafePoint (job : Nat)
  | preemptBetweenSafePoints (job : Nat)
  | jobResume (job : Nat) (limit : Option (Nat × Nat × Nat))
  | waitTimeout (core slot : Nat)
  | completionTrapTake (core slot : Nat)
  | seamCrcRetry (link lane : Nat)
  | seamLaneRetire (link lane : Nat)
  | seamRetrainComplete (t : SeamTraining)
  | fabricOperationReceive (port : Nat) (op : FabricOp)
  | fabricLinkDown (port : Nat)
  | fabricLinkUp (port : Nat)
  | fabricPortTimeout (port : Nat)
  | deviceFault (u : FaultUnit)
  -- page 0 (R96, R97)
  | nop | yield | stop | brk
  | pause (b : Reg)
  | trap (n : BitVec 5)
  | eret | fret
  | mov (d : Reg) (b : Src)
  | add (d a : Reg) (b : Src)
  | sub (d a : Reg) (b : Src)
  | and (d a : Reg) (b : Src)
  | or (d a : Reg) (b : Src)
  | xor (d a : Reg) (b : Src)
  | shl (d a : Reg) (b : Src)
  | shr (d a : Reg) (b : Src)
  | sar (d a : Reg) (b : Src)
  | mul (d a : Reg) (b : Src)
  | mulhs (d a : Reg) (b : Src)
  | mulhn (d a : Reg) (b : Src)
  | divs (d a : Reg) (b : Src)
  | divn (d a : Reg) (b : Src)
  | rems (d a : Reg) (b : Src)
  | remn (d a : Reg) (b : Src)
  | slt (d a : Reg) (b : Src)
  | sltn (d a : Reg) (b : Src)
  | addi (d : Reg) (imm : Word)
  | li (d : Reg) (imm : Word)
  | mix32 (d b : Reg)
  | clz (d b : Reg)
  | popc (d b : Reg)
  | bz (a : Reg) (off : Word)
  | bnz (a : Reg) (off : Word)
  | bltz (a : Reg) (off : Word)
  | bgez (a : Reg) (off : Word)
  | j (off : Word)
  | jal (off : Word)
  | jr (a : Reg)
  | jalr (a : Reg)
  -- page 1 (R98, R143)
  | ld8s (d : Reg) (m : MemOp)
  | ld8n (d : Reg) (m : MemOp)
  | ld16s (d : Reg) (m : MemOp)
  | ld16n (d : Reg) (m : MemOp)
  | ld32s (d : Reg) (m : MemOp)
  | ld32n (d : Reg) (m : MemOp)
  | ld64 (d : Reg) (m : MemOp)
  | st8 (d : Reg) (m : MemOp)
  | st16 (d : Reg) (m : MemOp)
  | st32 (d : Reg) (m : MemOp)
  | st64 (d : Reg) (m : MemOp)
  | aadd (d : Reg) (m : MemOp) (w64 : Bool)
  | aand (d : Reg) (m : MemOp) (w64 : Bool)
  | aor (d : Reg) (m : MemOp) (w64 : Bool)
  | axor (d : Reg) (m : MemOp) (w64 : Bool)
  | amins (d : Reg) (m : MemOp) (w64 : Bool)
  | amaxs (d : Reg) (m : MemOp) (w64 : Bool)
  | aminn (d : Reg) (m : MemOp) (w64 : Bool)
  | amaxn (d : Reg) (m : MemOp) (w64 : Bool)
  | aswp (d : Reg) (m : MemOp) (w64 : Bool)
  | acas (d : Reg) (m : MemOp) (w64 : Bool)
  | afadd (d : Reg) (m : MemOp)
  | afmaxa (d : Reg) (m : MemOp)
  | fence (order scope : BitVec 2)
  | tlget (d : Reg) (sel : BitVec 3)
  | tlwait (e : BitVec 2) (b : Reg)
  | ewait (e f : BitVec 2) (b : Reg)
  | pref (base idx : Reg) (off : Word)
  | vamo (v : VReg) (m : MemOp) (op : BitVec 3)
  -- page 2 (R99, R172)
  | vld (d : VReg) (base idx : Reg) (off : Word)
  | vst (d : VReg) (base idx : Reg) (off : Word)
  | vlds (ty : VType) (d : VReg) (base stride : Reg) (off : Word)
  | vsts (ty : VType) (d : VReg) (base stride : Reg) (off : Word)
  | vgatl (ty : VType) (d b : VReg) (base : Reg)
  | vsctl (ty : VType) (d b : VReg) (base : Reg)
  | vbcst (ty : VType) (d : VReg) (b : Reg)
  | vext (ty : VType) (d : Reg) (b : VReg) (lane : Lane)
  | vins (ty : VType) (d : VReg) (b : Reg) (lane : Lane)
  | vmov (d b : VReg)
  | vadd (ty : VType) (sat : Bool) (d a : VReg) (b : VSrc)
  | vsub (ty : VType) (sat : Bool) (d a : VReg) (b : VSrc)
  | vmul (ty : VType) (sat hi : Bool) (d a : VReg) (b : VSrc)
  | vfma (ty : VType) (sat : Bool) (d a : VReg) (b : VSrc)
  | vmin (ty : VType) (sat : Bool) (d a : VReg) (b : VSrc)
  | vmax (ty : VType) (sat : Bool) (d a : VReg) (b : VSrc)
  | vabs (ty : VType) (sat : Bool) (d b : VReg)
  | vneg (ty : VType) (sat : Bool) (d b : VReg)
  | vand (d a : VReg) (b : VSrc)
  | vor (d a : VReg) (b : VSrc)
  | vxor (d a : VReg) (b : VSrc)
  | vshl (ty : VType) (sat : Bool) (d a : VReg) (b : VSrc)
  | vshr (ty : VType) (d a : VReg) (b : VSrc)
  | vsar (ty : VType) (d a : VReg) (b : VSrc)
  | vcmp (ty : VType) (cond : BitVec 3) (d b c : VReg)
  | vsel (ty : VType) (d b c : VReg)
  | vcvt (src dst : VType) (k : BitVec 3) (d b : VReg)
  | vwadd (ty : VType) (sat : Bool) (part : BitVec 3) (d a b : VReg)
  | vscan (ty : VType) (sat : Bool) (op : BitVec 2) (d b : VReg) (carry : Option VReg)
  | vred (ty : VType) (sat : Bool) (op : BitVec 2) (d b : VReg) (carry : Option VReg)
  | vperm (ty : VType) (d b c : VReg)
  | vmath (ty : VType) (fn : BitVec 3) (d b : VReg)
  -- page 3 (R100, R192)
  | mma (t : TileNo) (pa pb : Reg)
  | mmaj (t : TileNo) (pa pb : Reg)
  | mld (t : TileNo) (base : Reg) (off : Word)
  | mldt (t : TileNo) (base : Reg) (off : Word)
  | mst (t : TileNo) (base : Reg) (off : Word) (z : Bool)
  | mzero (t : TileNo)
  | mrow (put : Bool) (v : VReg) (t : TileNo) (m : BitVec 5)
  | mprog (d : Reg)
  | talloc (t : TileNo) (int : Bool)
  | tfree (t : TileNo)
  | mstat (d : Reg) (clr : Bool)
  -- page 4 (R101, R204, R229)
  | cpy (a b c : Reg)
  | cpy2 (a b : Reg) (tr : Bool) (es : BitVec 2)
  | cpym (a b c : Reg)
  | cfill (a b c : Reg)
  | cprog (d b : Reg)
  | rxopen (n : BitVec 2) (w r : Bool) (a b : Reg)
  | rxclose (n : BitVec 2)
  | rxcnt (d : Reg) (n : BitVec 2)
  | rput (a b : Reg) (idx : BitVec 5)
  | rtake (d : Reg) (idx : BitVec 5)
  | rpeek (d : Reg)
  | msend (a b c : Reg)
  | mrecv (a b c : Reg)
  | mpoll (d : Reg)
  | loopb (a b c : Reg) (fin : Bool)
  | xput (v : VReg) (b c : Reg) (lvl : BitVec 2)
  | xputr (a b : Reg) (idx : BitVec 5) (lvl : BitVec 2)
  | xcnt (d : Reg) (lvl : BitVec 2)
  -- page 5 (R102, R217); levels are written less 1
  | arv (ch : BitVec 5) (b : Reg)
  | waitp (ch : BitVec 5) (b : Reg)
  | sync (lvl : BitVec 2)
  | bphase (d : Reg) (ch : BitVec 5)
  | bred (d : Reg) (ch : BitVec 5) (item : BitVec 3)
  | gang (b : Reg)
  | split
  | start (a b : Reg)
  | hjoin (b : Reg)
  | hstat (d : Reg)
  | freq (d b : Reg)
  | boost (d b : Reg)
  -- page 6 (R103, R250, R264, R278)
  | stbind (a b : Reg)
  | stdrop (a : Reg)
  | stx (x : BitVec 4) (a b : Reg) (c : Option Reg)
  | stget (d b : Reg) (tag : Bool)
  | stload (a b : Reg)
  | gate (n : BitVec 10)
  | gret
  | flddef (d b : Reg)
  | fldrun (a b : Reg)
  | fldhold (a b : Reg)
  | fldsnap (a b : Reg) (c : Option Reg)
  | fldstat (d b : Reg)
  | flddrop (a : Reg)
  -- page 7 (R104, R131, R139)
  | csrr (d : Reg) (n : BitVec 12)
  | csrw (n : BitVec 12) (a c : Reg)
  | csrs (n : BitVec 12) (a c : Reg)
  | csrc (n : BitVec 12) (a c : Reg)
  | tlbfill (a b : Reg)
  | tlbinv (a b : Reg)
  | replay (a b : Reg)
  | gtwrite (a b : Reg)
  | domsw (b : Reg)
  | spill (n : BitVec 8) (b : Reg)
  | fill (d : Reg) (n : BitVec 8)
  -- device steps at the table's end
  | jobKill (job : Nat)
  | savedJobDiscard (save : Nat)
  | firmwareUpdate (ok : Bool)
  deriving DecidableEq, Repr

end Sys2Proof
end

