-- ==== Sys2Proof/WellFormed.lean ====
section
/-! DEFINITION. Which terms of Instr an encoding of LXA exists for: the limits of R90 to R95 and of each page's field table. -/

namespace Sys2Proof

/-- v is the sign extension of its low n bits (R89). -/
def fitsS (n : Nat) (v : Word) : Bool := (v.truncate n).signExtend 64 == v

/-- v has no bit at n or above (R89, natural). -/
def fitsN (n : Nat) (v : Word) : Bool := v.toNat < 2 ^ n

/-- Code of an element type in the vector MOD payload (R63). -/
def VType.code : VType → Nat
  | .i8 => 0 | .n8 => 1 | .i16 => 2 | .n16 => 3 | .i32 => 4 | .n32 => 5 | .i64 => 6 | .bf16 => 7 | .hf16 => 8 | .sf32 => 9

/-- Width in bytes of an element type (R63). -/
def VType.width : VType → Nat
  | .i8 | .n8 => 1 | .i16 | .n16 | .bf16 | .hf16 => 2 | .i32 | .n32 | .sf32 => 4 | .i64 => 8

/-- Number of lanes (R63). -/
def VType.lanes (t : VType) : Nat := 64 / t.width

/-- The three floating-point types (R63). -/
def VType.isFloat : VType → Bool
  | .bf16 | .hf16 | .sf32 => true
  | _ => false

/-- The signed integer types (R63). -/
def VType.isSigned : VType → Bool
  | .i8 | .i16 | .i32 | .i64 => true
  | _ => false

/-- Type of a code; codes 10-15 are reserved (R63). -/
def VType.ofCode : Nat → Option VType
  | 0 => some .i8 | 1 => some .n8 | 2 => some .i16 | 3 => some .n16 | 4 => some .i32 | 5 => some .n32
  | 6 => some .i64 | 7 => some .bf16 | 8 => some .hf16 | 9 => some .sf32 | _ => none

/-- Whether the vector MOD prefix is needed: its payload is not 0 (R92, R111). -/
def modLen (payload : Nat) : Nat := if payload = 0 then 0 else 1

/-- Prefix words that a third register costs when it differs from the default (R111). -/
def regLen (needed : Bool) : Nat := if needed then 1 else 0

/-- Second source of OP 1-18: an immediate must fit the prefixes that a third register leaves (R86, R90). -/
def Src.wf (reg : Bool) : Src → Bool
  | .reg _ => true
  | .imm v => fitsS (5 + 8 * (4 - regLen reg)) v

/-- Page-1 MOD payload (R93). -/
def MemOp.modPayload (m : MemOp) : Nat := m.x.toNat * 16 + m.scope.toNat * 4 + m.order.toNat

/-- Page-1 operands: ORDER 3 is reserved, and the offset fits the prefixes left after PAGE, REG and MOD (R86, R90, R93). -/
def MemOp.wf (x3 : Nat) (forceReg : Bool) (m : MemOp) : Bool :=
  m.order != 3 &&
  fitsS (8 * (3 - regLen (forceReg || m.idx != 0 || x3 != 0) - modLen m.modPayload)) m.off

/-- Flags of the vector MOD payload in the low bits (R94). -/
def vmodPayload (ty : VType) (hi sat : Bool) : Nat := ty.code * 16 + (if hi then 2 else 0) + (if sat then 1 else 0)

/-- Second source of a vector instruction: an immediate needs an integer type and at least one free prefix (R172, R173). -/
def VSrc.wf (reg : Bool) (payload : Nat) : VSrc → Bool
  | .reg _ => true
  | .imm v => fitsS (5 + 8 * (3 - regLen reg - modLen payload)) v

/-- An arithmetic vector instruction: SAT on integers only, an immediate on integers only (R172). -/
def vArithWf (ty : VType) (sat hi : Bool) (d a : VReg) (b : VSrc) : Bool :=
  (!sat || !ty.isFloat) && (!hi || !ty.isFloat) && !(hi && sat) &&
  (match b with | .reg _ => true | .imm _ => !ty.isFloat) && b.wf (a != d) (vmodPayload ty hi sat)

/-- A lane index below the lane count (R173). -/
def Lane.wf (ty : VType) : Lane → Bool
  | .imm n => n.toNat < ty.lanes
  | .reg _ => true

/-- Part range of VWADD (R182). -/
def vwaddParts : VType → Nat
  | .i8 | .n8 => 4
  | .i16 | .n16 | .i32 | .n32 | .bf16 | .hf16 => 2
  | .i64 | .sf32 => 0

/-- X3 of VCVT: a rounding mode for float to integer, a part otherwise (R82, R185). -/
def vcvtWf (src dst : VType) (k : BitVec 3) : Bool :=
  if src.isFloat && !dst.isFloat then
    src.width == dst.width && dst != .i64 && k.toNat < 4 &&
      (match dst with | .i16 | .n16 | .i32 | .n32 => true | _ => false)
  else if src.width < dst.width then k.toNat < dst.width / src.width
  else if dst.width < src.width then k.toNat < src.width / dst.width
  else k == 0

/-- Well-formed terms: those that an encoding exists for. Device steps have no encoding and no limit here. -/
def Instr.wf : Instr → Bool
  | .mov _ b => b.wf false
  | .add d a b | .sub d a b | .and d a b | .or d a b | .xor d a b | .shl d a b | .shr d a b | .sar d a b
  | .mul d a b | .mulhs d a b | .mulhn d a b | .divs d a b | .divn d a b | .rems d a b | .remn d a b
  | .slt d a b | .sltn d a b => b.wf (a != d)
  | .addi _ v | .li _ v | .bz _ v | .bnz _ v | .bltz _ v | .bgez _ v => fitsS 37 v
  | .j v | .jal v => fitsS 42 v
  | .ld8s _ m | .ld8n _ m | .ld16s _ m | .ld16n _ m | .ld32s _ m | .ld32n _ m | .ld64 _ m
  | .st8 _ m | .st16 _ m | .st32 _ m | .st64 _ m | .afadd _ m | .afmaxa _ m => m.wf 0 false
  | .aadd _ m w | .aand _ m w | .aor _ m w | .axor _ m w | .amins _ m w | .amaxs _ m w | .aminn _ m w | .amaxn _ m w
  | .aswp _ m w | .acas _ m w => m.wf (if w then 1 else 0) false
  | .fence order _ => order == 1 || order == 2
  | .pref _ idx off => fitsS (8 * (3 - regLen (idx != 0))) off
  | .vamo _ m op => m.wf 0 true && op != 7
  | .vld _ _ idx off | .vst _ _ idx off => fitsS (8 * (3 - regLen (idx != 0))) off
  | .vlds ty _ _ _ off | .vsts ty _ _ _ off => fitsS (8 * (2 - modLen (vmodPayload ty false false))) off
  | .vext ty _ _ l => l.wf ty
  | .vins ty _ _ l => l.wf ty
  | .vadd ty sat d a b | .vsub ty sat d a b | .vfma ty sat d a b | .vmin ty sat d a b | .vmax ty sat d a b =>
      vArithWf ty sat false d a b
  | .vmul ty sat hi d a b => vArithWf ty sat hi d a b
  | .vabs ty sat _ _ | .vneg ty sat _ _ => !sat || ty.isSigned
  | .vand d a b | .vor d a b | .vxor d a b => b.wf (a != d) 0
  | .vshl ty sat d a b => !ty.isFloat && vArithWf ty sat false d a b
  | .vshr ty d a b | .vsar ty d a b => !ty.isFloat && vArithWf ty false false d a b
  | .vcmp _ cond _ _ _ => cond.toNat < 5
  | .vcvt src dst k _ _ => vcvtWf src dst k
  | .vwadd ty sat part _ _ _ => part.toNat < vwaddParts ty && (!sat || !ty.isFloat)
  | .vscan ty sat op _ _ _ | .vred ty sat op _ _ _ => op != 3 && (!sat || (!ty.isFloat && op == 0))
  | .vmath ty fn _ _ => ty.isFloat && fn.toNat < 5
  | .mld _ _ off | .mldt _ _ off => fitsS 24 off
  | .mst _ _ off z => fitsS (8 * (3 - regLen z)) off
  | .mrow _ v _ _ => v.toNat % 2 == 0
  | .cpy2 _ _ tr es => tr || es == 0
  | .rxopen _ w r _ _ => w || r
  | .bred _ _ item => item.toNat < 5
  | .stx x _ _ _ => x != 0
  | _ => true

/-- The device's own steps: rows of the opcode table that have no encoding (spec/95). -/
def Instr.isStep : Instr → Bool
  | .deviceReset _ _ | .configurationRequest _ | .queueDescriptorWrite _ _ _ | .writeIndexDoorbell _ _
  | .hostRegisterWrite _ _ | .msixUnmask _ | .hostBar4Access _ _ _ | .launchHeadCheck _ | .schedulerStart
  | .launchImagePlaced _ | .launchRelease _ | .coreEnd _ | .jobEnd _ | .issueCycle _ | .ageBoost _ _
  | .pauseWindowEnd _ _ | .variableLatencyResult _ _ _ | .markerParkEnd _ _ | .branchResolve _ _
  | .helperSlotFree _ _ | .engineCommandStart _ _ | .mmajJointStart _ | .engineCommandComplete _ _ _
  | .ewaitMarkerComplete _ _ | .storePerform _ _ _ | .atomicExecute _ _ _ | .vamoExecute _ _ _
  | .remoteWriteLand _ _ _ | .coreWindowRead _ _ _ | .translationMissRequest _ _ _ | .atsTranslationCompletion _ _
  | .prgResponse _ _ | .atsInvalidationRequest _ _ _ | .tlbInvalidationAck _ | .replayCommandReceive _
  | .eccUncorrectable _ _ | .eccCorrected _ | .errorCountRetirement _ | .agingRecalibration _
  | .stagedAccessArrive _ _ _ | .couplingAdoptionRequest _ _ | .barrierArrival _ _ | .syncArrival _
  | .barrierRelease _ _ | .exchangeFlitInject _ | .exchangeDelivery _ _ | .computeRelease _ _
  | .computeReleaseArrival _ | .portWriteArrival _ | .messageArrival _ | .gangForm _ | .herderSweepStart _ _
  | .siteRoutineStart _ _ | .halfStepArrival _ _ | .snapshotCopy _ | .vfMoveBegin _ | .vfMoveEnd _
  | .thermalCapStep _ _ | .thermalStop | .thermalReadyRestore | .energyWindowEnd | .timesliceSwitch _
  | .debugStop _ | .stepLimitReached | .preemptSafePoint _ | .preemptBetweenSafePoints _ | .jobResume _ _
  | .waitTimeout _ _ | .completionTrapTake _ _ | .seamCrcRetry _ _ | .seamLaneRetire _ _ | .seamRetrainComplete _
  | .fabricOperationReceive _ _ | .fabricLinkDown _ | .fabricLinkUp _ | .fabricPortTimeout _ | .deviceFault _
  | .jobKill _ | .savedJobDiscard _ | .firmwareUpdate _ => true
  | _ => false

end Sys2Proof
end

