-- ==== Sys2Proof/Decode.lean ====
section
/-! DEFINITION. Decoding of instruction words, prefix chains and immediates (R83 to R105), the reserved encodings by the reasons of R358 and R359, and the encoder of R111. -/

namespace Sys2Proof

/-- The n-bit value v, sign-extended to 64 bits (R7). -/
def sx (n v : Nat) : Word := (BitVec.ofNat n v).signExtend 64

/-- Bits hi down to lo of v (R7). -/
def bits (v hi lo : Nat) : Nat := v / 2 ^ lo % 2 ^ (hi + 1 - lo)

/-- Why a word sequence is no instruction. -/
inductive DecErr where
  /-- PREFIX (0x02): reason and position of the offending word, 1-5 (R358). -/
  | chain (reason pos : Nat)
  /-- ILLEGAL (0x01): reason, page and OP (R358, R359). -/
  | illegal (reason page op : Nat)
  /-- The words end inside the chain: the fetch crosses the end of what it may read (R361). -/
  | short
  deriving DecidableEq, Repr

/-- The prefixes of one chain (R85, R86). -/
structure Chain where
  imms : List (BitVec 8)
  reg  : Option (Reg × BitVec 3)
  page : Option (BitVec 8)
  mod  : Option (BitVec 8)
  deriving DecidableEq, Repr

/-- A decoded instruction: the term, its switch marker (R84), its length in words (R87), and the page and OP a trap reports (R354). -/
structure Decoded where
  instr : Instr
  mark  : Bool
  words : Nat
  page  : Nat
  op    : Nat
  deriving DecidableEq, Repr

/-- The immediate of a chain with a base field f of width w: value and number of bits (R89). -/
def immRaw (imms : List (BitVec 8)) (w f : Nat) : Nat × Nat :=
  let v := imms.foldl (fun a p => a * 256 + p.toNat) 0
  (v * 2 ^ w + f, 8 * imms.length + w)

/-- Signed immediate; no bits give 0 (R89). -/
def immS (imms : List (BitVec 8)) (w f : Nat) : Word :=
  let p := immRaw imms w f
  if p.2 = 0 then 0 else sx p.2 p.1

/-- Natural immediate (R89). -/
def immN (imms : List (BitVec 8)) (w f : Nat) : Nat := (immRaw imms w f).1

/-- Fields of a base word (R83). -/
def fOP (w : Half) : Nat := bits w.toNat 14 10
def fA (w : Half) : Nat := bits w.toNat 9 5
def fB (w : Half) : Nat := bits w.toNat 4 0

/-- One check of the decoder: the reason of R358 when it fails. Of several reserved parts of one encoding the first check in its arm gives the reason (DESIGN CHOICE, log entry 64). -/
def ck (ok : Bool) (reason : Nat) (k : Except Nat Instr) : Except Nat Instr := if ok then k else .error reason

/-- Prefixes the instruction accepts; any other is ILLEGAL reason 1 (R88, R171). -/
def Chain.only (c : Chain) (imm reg mod : Bool) (k : Except Nat Instr) : Except Nat Instr :=
  ck ((imm || c.imms.isEmpty) && (reg || c.reg.isNone) && (mod || c.mod.isNone)) 1 k

/-- A required REG prefix; its absence is ILLEGAL reason 1 (R88). -/
def Chain.needReg (c : Chain) (k : Except Nat Instr) : Except Nat Instr := ck c.reg.isSome 1 k

/-- The third register, or the default when the prefix is absent (R91). -/
def Chain.c (c : Chain) (dflt : Nat) : Nat := match c.reg with | some (r, _) => r.toNat | none => dflt

/-- The extra bits X3; 0 without a REG prefix (R91). -/
def Chain.x3 (c : Chain) : Nat := match c.reg with | some (_, x) => x.toNat | none => 0

/-- The MOD payload; 0 without a MOD prefix: type i8 without flags on page 2 (R92, R171). -/
def Chain.m (c : Chain) : Nat := match c.mod with | some p => p.toNat | none => 0

def gr (n : Nat) : Reg := BitVec.ofNat 5 n
def vr (n : Nat) : VReg := BitVec.ofNat 4 n

/-- Second source of OP 1-18 of page 0 (R112). -/
def Chain.src (c : Chain) (b : Nat) : Src := if c.imms.isEmpty then .reg (gr b) else .imm (immS c.imms 5 b)

/-- Page 0 (R96, R97). -/
def decodePage0 (c : Chain) (op a b : Nat) : Except Nat Instr :=
  let alu (f : Reg → Reg → Src → Instr) : Except Nat Instr :=
    c.only true true false (ck (c.x3 = 0) 2 (.ok (f (gr a) (gr (c.c a)) (c.src b))))
  let two (f : Reg → Reg → Instr) : Except Nat Instr := c.only false false false (.ok (f (gr a) (gr b)))
  let br (f : Reg → Word → Instr) : Except Nat Instr := c.only true false false (.ok (f (gr a) (immS c.imms 5 b)))
  let jmp (f : Word → Instr) : Except Nat Instr := c.only true false false (.ok (f (immS c.imms 10 (a * 32 + b))))
  let misc0 (i : Instr) : Except Nat Instr := c.only false false false (ck (b = 0) 3 (.ok i))
  match op with
  | 0 =>
    match a with
    | 0 => misc0 .nop
    | 1 => misc0 .yield
    | 2 => misc0 .stop
    | 3 => misc0 .brk
    | 4 => c.only false false false (.ok (.pause (gr b)))
    | 5 => c.only false false false (.ok (.trap (gr b)))
    | 6 => misc0 .eret
    | 7 => misc0 .fret
    | _ => .error 0
  | 1 => alu (fun d _ s => .mov d s)
  | 2 => alu .add
  | 3 => alu .sub
  | 4 => alu .and
  | 5 => alu .or
  | 6 => alu .xor
  | 7 => alu .shl
  | 8 => alu .shr
  | 9 => alu .sar
  | 10 => alu .mul
  | 11 => alu .mulhs
  | 12 => alu .mulhn
  | 13 => alu .divs
  | 14 => alu .divn
  | 15 => alu .rems
  | 16 => alu .remn
  | 17 => alu .slt
  | 18 => alu .sltn
  | 19 => br .addi
  | 20 => br .li
  | 21 => two .mix32
  | 22 => two .clz
  | 23 => two .popc
  | 24 => br .bz
  | 25 => br .bnz
  | 26 => br .bltz
  | 27 => br .bgez
  | 28 => jmp .j
  | 29 => jmp .jal
  | 30 =>
    match b with
    | 0 => c.only false false false (.ok (.jr (gr a)))
    | 1 => c.only false false false (.ok (.jalr (gr a)))
    | _ => .error 0
  | _ => .error 0

/-- Page-1 memory operand; an absent index is g0 (R91, R93, R144). -/
def Chain.memOp (c : Chain) (b : Nat) : MemOp :=
  { base := gr b, idx := gr (c.c 0), off := immS c.imms 0 0,
    x := BitVec.ofNat 4 (c.m / 16), scope := BitVec.ofNat 2 (c.m / 4), order := BitVec.ofNat 2 c.m }

/-- Page 1 (R98, R143). -/
def decodePage1 (c : Chain) (op a b : Nat) : Except Nat Instr :=
  let mo := c.memOp b
  let mem (f : Reg → MemOp → Instr) : Except Nat Instr :=
    c.only true true true (ck (c.x3 = 0) 2 (ck (mo.order != 3) 3 (.ok (f (gr a) mo))))
  let atom (f : Reg → MemOp → Bool → Instr) : Except Nat Instr :=
    c.only true true true (ck (c.x3 < 2) 2 (ck (mo.order != 3) 3 (.ok (f (gr a) mo (c.x3 = 1)))))
  match op with
  | 0 => mem .ld8s
  | 1 => mem .ld8n
  | 2 => mem .ld16s
  | 3 => mem .ld16n
  | 4 => mem .ld32s
  | 5 => mem .ld32n
  | 6 => mem .ld64
  | 7 => mem .st8
  | 8 => mem .st16
  | 9 => mem .st32
  | 10 => mem .st64
  | 11 => atom .aadd
  | 12 => atom .aand
  | 13 => atom .aor
  | 14 => atom .axor
  | 15 => atom .amins
  | 16 => atom .amaxs
  | 17 => atom .aminn
  | 18 => atom .amaxn
  | 19 => atom .aswp
  | 20 => atom .acas
  | 21 => mem .afadd
  | 22 => mem .afmaxa
  | 23 => c.only false false true
      (ck (a = 0 && b = 0 && mo.x == 0 && (mo.order == 1 || mo.order == 2)) 3 (.ok (.fence mo.order mo.scope)))
  | 24 => c.only false false false (ck (b < 8) 3 (.ok (.tlget (gr a) (BitVec.ofNat 3 b))))
  | 25 => c.only false false false (ck (a < 4) 3 (.ok (.tlwait (BitVec.ofNat 2 a) (gr b))))
  | 26 => c.only false false false
      (ck (a < 16) 3 (.ok (.ewait (BitVec.ofNat 2 a) (BitVec.ofNat 2 (a / 4)) (gr b))))
  | 27 => c.only true true false (ck (c.x3 = 0) 2 (ck (a = 0) 3 (.ok (.pref (gr b) mo.idx mo.off))))
  | 28 => c.needReg (ck (c.x3 < 7 && mo.order != 3) 3 (ck (a < 16) 4 (.ok (.vamo (vr a) mo (BitVec.ofNat 3 c.x3)))))
  | _ => .error 0

/-- Second source of a vector instruction (R173). -/
def Chain.vsrc (c : Chain) (b : Nat) : VSrc := if c.imms.isEmpty then .reg (vr b) else .imm (immS c.imms 5 b)

/-- Page 2 (R99, R171, R172): the prefixes have been read in any order (`Chain`); one that the instruction does not take is ILLEGAL reason 1, an X3 bit that
it does not take 2, a vector register field of 16 to 31 reason 4 (R88, R95); VEXT and VINS with both prefixes are ILLEGAL reason 3 (DESIGN CHOICE, log entry 65). -/
def decodePage2 (c : Chain) (op a b : Nat) : Except Nat Instr :=
  let m := c.m
  let hi : Bool := bits m 1 1 = 1
  let sat : Bool := bits m 0 0 = 1
  let vok (n : Nat) : Bool := n < 16
  let x0 (k : Except Nat Instr) : Except Nat Instr := ck (c.x3 = 0) 2 k
  -- the element type with the flags the instruction takes; everything else in the payload is reserved
  let ty (okT : VType → Bool) (okSat okHi : VType → Bool) (k : VType → Except Nat Instr) : Except Nat Instr :=
    match VType.ofCode (m / 16) with
    | none => .error 3
    | some t => ck (okT t && bits m 3 2 = 0 && (!sat || okSat t) && (!hi || okHi t) && !(hi && sat)) 3 (k t)
  let any : VType → Bool := fun _ => true
  let no : VType → Bool := fun _ => false
  let int : VType → Bool := fun t => !t.isFloat
  let off := immS c.imms 0 0
  let vmem (f : VReg → Reg → Reg → Word → Instr) : Except Nat Instr :=
    c.only true true false (x0 (ck (vok a) 4 (.ok (f (vr a) (gr b) (gr (c.c 0)) off))))
  let vstr (f : VType → VReg → Reg → Reg → Word → Instr) : Except Nat Instr :=
    c.needReg (x0 (ty any no no fun t => ck (vok a) 4 (.ok (f t (vr a) (gr b) (gr (c.c 0)) off))))
  let vgat (f : VType → VReg → VReg → Reg → Instr) : Except Nat Instr :=
    c.only false true true (c.needReg (x0 (ty any no no fun t =>
      ck (vok a && vok b) 4 (.ok (f t (vr a) (vr b) (gr (c.c 0)))))))
  -- OP 10-15, 21-23: an immediate with a float type is a prefix that is not accepted (R172)
  let arith (okT okSat okHi : VType → Bool) (f : VType → Bool → Bool → VReg → VReg → VSrc → Instr) : Except Nat Instr :=
    let immOk : Bool := c.imms.isEmpty || !((VType.ofCode (m / 16)).elim false VType.isFloat)
    ck immOk 1 (x0 (ty okT okSat okHi fun t =>
      ck (vok a && vok (c.c a) && (!c.imms.isEmpty || vok b)) 4 (.ok (f t sat hi (vr a) (vr (c.c a)) (c.vsrc b)))))
  let bitw (f : VReg → VReg → VSrc → Instr) : Except Nat Instr :=
    c.only true true false (x0 (ck (vok a && vok (c.c a) && (!c.imms.isEmpty || vok b)) 4
      (.ok (f (vr a) (vr (c.c a)) (c.vsrc b)))))
  let un (f : VType → Bool → VReg → VReg → Instr) : Except Nat Instr :=
    c.only false false true (ty any VType.isSigned no fun t => ck (vok a && vok b) 4 (.ok (f t sat (vr a) (vr b))))
  let lane (t : VType) (k : Lane → Except Nat Instr) : Except Nat Instr :=
    ck (c.reg.isNone || c.imms.isEmpty) 3 (
      if c.reg.isSome then k (.reg (gr (c.c 0)))
      else ck (immN c.imms 0 0 < t.lanes) 3 (k (.imm (BitVec.ofNat 6 (immN c.imms 0 0)))))
  let red (f : VType → Bool → BitVec 2 → VReg → VReg → Option VReg → Instr) : Except Nat Instr :=
    let o := c.x3 % 4
    let cy : Bool := c.x3 ≥ 4
    c.only false true true (ty any (fun t => !t.isFloat && o = 0) no fun t =>
      ck (o < 3 && (cy || c.c 0 = 0)) 3 (ck (vok a && vok b && vok (c.c 0)) 4
        (.ok (f t sat (BitVec.ofNat 2 o) (vr a) (vr b) (if cy then some (vr (c.c 0)) else none)))))
  match op with
  | 0 => vmem .vld
  | 1 => vmem .vst
  | 2 => vstr .vlds
  | 3 => vstr .vsts
  | 4 => vgat .vgatl
  | 5 => vgat .vsctl
  | 6 => c.only false false true (ty any no no fun t => ck (vok a) 4 (.ok (.vbcst t (vr a) (gr b))))
  | 7 => x0 (ty any no no fun t => lane t fun l => ck (vok b) 4 (.ok (.vext t (gr a) (vr b) l)))
  | 8 => x0 (ty any no no fun t => lane t fun l => ck (vok a) 4 (.ok (.vins t (vr a) (gr b) l)))
  | 9 => c.only false false false (ck (vok a && vok b) 4 (.ok (.vmov (vr a) (vr b))))
  | 10 => arith any int no fun t s _ => .vadd t s
  | 11 => arith any int no fun t s _ => .vsub t s
  | 12 => arith any int int .vmul
  | 13 => arith any int no fun t s _ => .vfma t s
  | 14 => arith any int no fun t s _ => .vmin t s
  | 15 => arith any int no fun t s _ => .vmax t s
  | 16 => un .vabs
  | 17 => un .vneg
  | 18 => bitw .vand
  | 19 => bitw .vor
  | 20 => bitw .vxor
  | 21 => arith int int no fun t s _ => .vshl t s
  | 22 => arith int no no fun t _ _ => .vshr t
  | 23 => arith int no no fun t _ _ => .vsar t
  | 24 => c.only false true true (c.needReg (ty any no no fun t => ck (c.x3 < 5) 3
      (ck (vok a && vok b && vok (c.c 0)) 4 (.ok (.vcmp t (BitVec.ofNat 3 c.x3) (vr a) (vr b) (vr (c.c 0)))))))
  | 25 => c.only false true true (c.needReg (x0 (ty any no no fun t =>
      ck (vok a && vok b && vok (c.c 0)) 4 (.ok (.vsel t (vr a) (vr b) (vr (c.c 0)))))))
  | 26 => c.only false true true (
      match VType.ofCode (m / 16), VType.ofCode (m % 16) with
      | some s, some d => ck (c.c 0 = 0 && vcvtWf s d (BitVec.ofNat 3 c.x3)) 3
          (ck (vok a && vok b) 4 (.ok (.vcvt s d (BitVec.ofNat 3 c.x3) (vr a) (vr b))))
      | _, _ => .error 3)
  | 27 => c.only false true true (ty (fun t => 0 < vwaddParts t) int no fun t => ck (c.x3 < vwaddParts t) 3
      (ck (vok a && vok b && vok (c.c a)) 4 (.ok (.vwadd t sat (BitVec.ofNat 3 c.x3) (vr a) (vr (c.c a)) (vr b)))))
  | 28 => red .vscan
  | 29 => red .vred
  | 30 => c.only false true true (c.needReg (x0 (ty any no no fun t =>
      ck (vok a && vok b && vok (c.c 0)) 4 (.ok (.vperm t (vr a) (vr b) (vr (c.c 0)))))))
  | 31 => c.only false true true (ty VType.isFloat no no fun t => ck (c.c 0 = 0 && c.x3 < 5) 3
      (ck (vok a && vok b) 4 (.ok (.vmath t (BitVec.ofNat 3 c.x3) (vr a) (vr b)))))
  | _ => .error 0

/-- Page 3 (R100, R192). -/
def decodePage3 (c : Chain) (op a b : Nat) : Except Nat Instr :=
  let off := immS c.imms 0 0
  let tok : Bool := a < 16
  match op with
  | 0 => c.only false true false (c.needReg (ck (c.x3 = 0) 2 (ck tok 4 (.ok (.mma (vr a) (gr b) (gr (c.c 0)))))))
  | 1 => c.only false true false (c.needReg (ck (c.x3 = 0) 2 (ck tok 4 (.ok (.mmaj (vr a) (gr b) (gr (c.c 0)))))))
  | 2 => c.only true false false (ck tok 4 (.ok (.mld (vr a) (gr b) off)))
  | 3 => c.only true false false (ck tok 4 (.ok (.mldt (vr a) (gr b) off)))
  | 4 => c.only true true false (ck (c.x3 < 2) 2 (ck (c.c 0 = 0) 3 (ck tok 4 (.ok (.mst (vr a) (gr b) off (c.x3 = 1))))))
  | 5 => c.only false false false (ck (b = 0) 3 (ck tok 4 (.ok (.mzero (vr a)))))
  | 6 => c.only true true false (ck (c.x3 < 2) 2 (ck (c.c 0 = 0 && immN c.imms 0 0 < 32) 3
      (ck (tok && b < 16 && a % 2 = 0) 4 (.ok (.mrow (c.x3 = 1) (vr a) (vr b) (gr (immN c.imms 0 0)))))))
  | 7 => c.only false false false (ck (b = 0) 3 (.ok (.mprog (gr a))))
  | 8 => c.only false false false (ck (b < 2) 3 (ck tok 4 (.ok (.talloc (vr a) (b = 1)))))
  | 9 => c.only false false false (ck (b = 0) 3 (ck tok 4 (.ok (.tfree (vr a)))))
  | 10 => c.only false false false (ck (b < 2) 3 (.ok (.mstat (gr a) (b = 1))))
  | _ => .error 0

/-- Page 4 (R101, R204, R229). -/
def decodePage4 (c : Chain) (op a b : Nat) : Except Nat Instr :=
  let idx := immN c.imms 0 0
  let three (f : Reg → Reg → Reg → Instr) : Except Nat Instr :=
    c.only false true false (c.needReg (ck (c.x3 = 0) 2 (.ok (f (gr a) (gr b) (gr (c.c 0))))))
  match op with
  | 0 => three .cpy
  | 1 => c.only false true false (ck (c.c 0 = 0 && (c.x3 % 2 = 1 || c.x3 = 0)) 3
      (.ok (.cpy2 (gr a) (gr b) (c.x3 % 2 = 1) (BitVec.ofNat 2 (c.x3 / 2)))))
  | 2 => three .cpym
  | 3 => three .cfill
  | 4 => c.only false false false (.ok (.cprog (gr a) (gr b)))
  | 5 => c.only false true false (c.needReg (ck (c.x3 < 4) 2 (ck (c.c 0 < 4 && c.x3 != 0) 3
      (.ok (.rxopen (BitVec.ofNat 2 (c.c 0)) (c.x3 % 2 = 1) (c.x3 / 2 = 1) (gr a) (gr b))))))
  | 6 => c.only false false false (ck (a < 4 && b = 0) 3 (.ok (.rxclose (BitVec.ofNat 2 a))))
  | 7 => c.only false false false (ck (b < 4) 3 (.ok (.rxcnt (gr a) (BitVec.ofNat 2 b))))
  | 8 => c.only true false false (ck (idx < 32) 3 (.ok (.rput (gr a) (gr b) (gr idx))))
  | 9 => c.only true false false (ck (b = 0 && idx < 32) 3 (.ok (.rtake (gr a) (gr idx))))
  | 10 => c.only false false false (ck (b = 0) 3 (.ok (.rpeek (gr a))))
  | 11 => c.only false true false (ck (c.x3 = 0) 2 (.ok (.msend (gr a) (gr b) (gr (c.c 0)))))
  | 12 => c.only false true false (ck (c.x3 = 0) 2 (.ok (.mrecv (gr a) (gr b) (gr (c.c 0)))))
  | 13 => c.only false false false (ck (b = 0) 3 (.ok (.mpoll (gr a))))
  | 14 => c.only false true false (c.needReg (ck (c.x3 < 2) 2 (.ok (.loopb (gr a) (gr b) (gr (c.c 0)) (c.x3 = 1)))))
  | 15 => c.only false true false (c.needReg (ck (c.x3 < 4) 2 (ck (a < 16) 4
      (.ok (.xput (vr a) (gr b) (gr (c.c 0)) (BitVec.ofNat 2 c.x3))))))
  | 16 => c.only true true false (ck (c.x3 < 4) 2 (ck (c.c 0 = 0 && idx < 32) 3
      (.ok (.xputr (gr a) (gr b) (gr idx) (BitVec.ofNat 2 c.x3)))))
  | 17 => c.only false false false (ck (1 ≤ b && b ≤ 4) 3 (.ok (.xcnt (gr a) (BitVec.ofNat 2 (b - 1)))))
  | _ => .error 0

/-- Page 5 (R102, R217). -/
def decodePage5 (c : Chain) (op a b : Nat) : Except Nat Instr :=
  let plain (ok : Bool) (i : Instr) : Except Nat Instr := c.only false false false (ck ok 3 (.ok i))
  match op with
  | 0 => plain true (.arv (gr a) (gr b))
  | 1 => plain true (.waitp (gr a) (gr b))
  | 2 => plain (1 ≤ a && a ≤ 4 && b = 0) (.sync (BitVec.ofNat 2 (a - 1)))
  | 3 => plain true (.bphase (gr a) (gr b))
  | 4 => c.only false true false (ck (c.c 0 = 0 && c.x3 < 5) 3 (.ok (.bred (gr a) (gr b) (BitVec.ofNat 3 c.x3))))
  | 5 => plain (a = 0) (.gang (gr b))
  | 6 => plain (a = 0 && b = 0) .split
  | 7 => plain true (.start (gr a) (gr b))
  | 8 => plain (a = 0) (.hjoin (gr b))
  | 9 => plain (b = 0) (.hstat (gr a))
  | 10 => plain true (.freq (gr a) (gr b))
  | 11 => plain true (.boost (gr a) (gr b))
  | _ => .error 0

/-- Page 6 (R103, R250, R264, R267, R278). (DESIGN CHOICE, log entry 65) -/
def decodePage6 (c : Chain) (op a b : Nat) : Except Nat Instr :=
  let plain (ok : Bool) (i : Instr) : Except Nat Instr := c.only false false false (ck ok 3 (.ok i))
  let optC : Option Reg := c.reg.map (fun p => p.1)
  match op with
  | 0 => plain true (.stbind (gr a) (gr b))
  | 1 => plain (b = 0) (.stdrop (gr a))
  | 2 => c.only false true true (ck c.mod.isSome 1 (ck (c.x3 = 0) 2 (ck (c.m % 16 = 0 && c.m != 0) 3
      (.ok (.stx (BitVec.ofNat 4 (c.m / 16)) (gr a) (gr b) optC)))))
  | 3 => c.only false true false (ck (c.x3 < 2) 2 (ck (c.c 0 = 0) 3 (.ok (.stget (gr a) (gr b) (c.x3 = 1)))))
  | 4 => plain true (.stload (gr a) (gr b))
  | 5 => c.only true false false (ck (c.imms.length < 2) 1 (ck (a = 0 && immN c.imms 5 b < 1024) 3
      (.ok (.gate (BitVec.ofNat 10 (immN c.imms 5 b))))))
  | 6 => plain (a = 0 && b = 0) .gret
  | 7 => plain true (.flddef (gr a) (gr b))
  | 8 => plain true (.fldrun (gr a) (gr b))
  | 9 => plain true (.fldhold (gr a) (gr b))
  | 10 => c.only false true false (ck (c.x3 = 0) 2 (.ok (.fldsnap (gr a) (gr b) optC)))
  | 11 => plain true (.fldstat (gr a) (gr b))
  | 12 => plain (b = 0) (.flddrop (gr a))
  | _ => .error 0

/-- Page 7 (R104, R131, R139). (DESIGN CHOICE, log entry 65) -/
def decodePage7 (c : Chain) (op a b : Nat) : Except Nat Instr :=
  let n := immN c.imms 5 b
  let csr (f : BitVec 12 → Reg → Reg → Instr) : Except Nat Instr :=
    c.only true true false (ck (c.x3 = 0) 2 (ck (n < 0x1000) 3 (.ok (f (BitVec.ofNat 12 n) (gr a) (gr (c.c 0))))))
  let plain (ok : Bool) (i : Instr) : Except Nat Instr := c.only false false false (ck ok 3 (.ok i))
  match op with
  | 0 => c.only true false false (ck (n < 0x1000) 3 (.ok (.csrr (gr a) (BitVec.ofNat 12 n))))
  | 1 => csr .csrw
  | 2 => csr .csrs
  | 3 => csr .csrc
  | 4 => plain true (.tlbfill (gr a) (gr b))
  | 5 => plain true (.tlbinv (gr a) (gr b))
  | 6 => plain true (.replay (gr a) (gr b))
  | 7 => plain true (.gtwrite (gr a) (gr b))
  | 8 => plain (a = 0) (.domsw (gr b))
  | 9 => c.only true false false (ck (c.imms.length < 2) 1 (ck (immN c.imms 5 a < 256) 3
      (.ok (.spill (BitVec.ofNat 8 (immN c.imms 5 a)) (gr b)))))
  | 10 => c.only true false false (ck (c.imms.length < 2) 1 (ck (n < 256) 3 (.ok (.fill (gr a) (BitVec.ofNat 8 n)))))
  | _ => .error 0

/-- The base word on its page (R96 to R105). -/
def decodeBase (page : Nat) (c : Chain) (w : Half) : Except Nat Instr :=
  match page with
  | 0 => decodePage0 c (fOP w) (fA w) (fB w)
  | 1 => decodePage1 c (fOP w) (fA w) (fB w)
  | 2 => decodePage2 c (fOP w) (fA w) (fB w)
  | 3 => decodePage3 c (fOP w) (fA w) (fB w)
  | 4 => decodePage4 c (fOP w) (fA w) (fB w)
  | 5 => decodePage5 c (fOP w) (fA w) (fB w)
  | 6 => decodePage6 c (fOP w) (fA w) (fB w)
  | 7 => decodePage7 c (fOP w) (fA w) (fB w)
  | _ => .error 0

/-- The current page of a chain so far (R86). -/
def Chain.pageNo (c : Chain) : Nat := match c.page with | some p => p.toNat | none => 0

/-- Decoding of R86, word by word; n counts the prefixes taken. (DESIGN CHOICE, log entry 64) -/
def decodeFrom (c : Chain) (n : Nat) : List Half → Except DecErr Decoded
  | [] => .error .short
  | w :: ws =>
    if c.pageNo ≠ 0 ∨ fOP w ≠ 31 then
      match decodeBase c.pageNo c w with
      | .ok i => .ok { instr := i, mark := w.msb, words := n + 1, page := c.pageNo, op := fOP w }
      | .error r => .error (.illegal r c.pageNo (fOP w))
    else if w.msb then .error (.chain 0 (n + 1))
    else if 4 ≤ n then .error (.chain 1 (n + 1))
    else
      let p : BitVec 8 := w.truncate 8
      match bits w.toNat 9 8 with
      | 0 => decodeFrom { c with imms := c.imms ++ [p] } (n + 1) ws
      | 1 => if c.reg.isSome then .error (.chain 2 (n + 1))
             else decodeFrom { c with reg := some (gr (p.toNat / 8), p.truncate 3) } (n + 1) ws
      | 2 => if c.page.isSome then .error (.chain 3 (n + 1))
             else if 7 < p.toNat then .error (.chain 5 (n + 1))
             else decodeFrom { c with page := some p } (n + 1) ws
      | _ => if c.mod.isSome then .error (.chain 4 (n + 1))
             else decodeFrom { c with mod := some p } (n + 1) ws

/-- The instruction at the head of a word sequence (R86). -/
def decode (ws : List Half) : Except DecErr Decoded :=
  decodeFrom { imms := [], reg := none, page := none, mod := none } 0 ws

/-! The encoder: fewest prefixes, in the order REG, MOD, IMM, PAGE, base word (R111). -/

/-- A base word without its S bit (R83). -/
def baseWord (op a b : Nat) : Half := BitVec.ofNat 16 (op * 1024 + a * 32 + b)

/-- A prefix word of kind k (R85). -/
def prefixWord (k p : Nat) : Half := BitVec.ofNat 16 (0x7C00 + k * 256 + p)

/-- Fewest IMM prefixes, at least lo, that hold v as a signed value over a base field of w bits (R111). -/
def immCountS (w : Nat) (v : Word) (lo : Nat) : Nat → Nat
  | 0 => lo
  | fuel + 1 => if lo + w = 0 then (if v = 0 then 0 else immCountS w v 1 fuel)
                else if fitsS (w + 8 * lo) v then lo else immCountS w v (lo + 1) fuel

/-- Fewest IMM prefixes that hold a natural value over a base field of w bits. -/
def immCountN (w v : Nat) (lo : Nat) : Nat → Nat
  | 0 => lo
  | fuel + 1 => if v < 2 ^ (w + 8 * lo) then lo else immCountN w v (lo + 1) fuel

/-- The k payloads of v above its low w bits, highest first (R89). -/
def immWords (w k v : Nat) : List Half :=
  match k with
  | 0 => []
  | k + 1 => prefixWord 0 (v / 2 ^ (w + 8 * k) % 256) :: immWords w k v

/-- A whole chain (R111). -/
def chainOf (mark : Bool) (reg : Option (Nat × Nat)) (mod : Nat) (imm : List Half) (page : Nat) (base : Half) : List Half :=
  (match reg with | some (c, x) => [prefixWord 1 (c * 8 + x)] | none => []) ++
  (if mod = 0 then [] else [prefixWord 3 mod]) ++ imm ++
  (if page = 0 then [] else [prefixWord 2 page]) ++
  [if mark then base ||| 0x8000 else base]

/-- Register-or-immediate mould of page 0, OP 1-18 (R110). -/
def encAlu (mk : Bool) (op : Nat) (d a : Reg) : Src → List Half
  | .reg b => chainOf mk (if a = d then none else some (a.toNat, 0)) 0 [] 0 (baseWord op d.toNat b.toNat)
  | .imm v =>
    let k := immCountS 5 v 1 4
    chainOf mk (if a = d then none else some (a.toNat, 0)) 0 (immWords 5 k v.toNat) 0 (baseWord op d.toNat (v.toNat % 32))

/-- A register and a signed immediate on page 0 (R90). -/
def encBr (mk : Bool) (op : Nat) (a : Reg) (v : Word) : List Half :=
  chainOf mk none 0 (immWords 5 (immCountS 5 v 0 5) v.toNat) 0 (baseWord op a.toNat (v.toNat % 32))

/-- A jump (R90). -/
def encJ (mk : Bool) (op : Nat) (v : Word) : List Half :=
  chainOf mk none 0 (immWords 10 (immCountS 10 v 0 5) v.toNat) 0 (baseWord op 0 (v.toNat % 1024))

/-- Offset without a base field (R89, R144). -/
def encOff (v : Word) : List Half := immWords 0 (immCountS 0 v 0 5) v.toNat

/-- Page 1: REG when an index or an X3 bit needs it (R111, R143). -/
def encMem (mk : Bool) (op a : Nat) (m : MemOp) (x3 : Nat) (forceReg : Bool) : List Half :=
  chainOf mk (if forceReg || m.idx != 0 || x3 != 0 then some (m.idx.toNat, x3) else none) m.modPayload
    (encOff m.off) 1 (baseWord op a m.base.toNat)

/-- Vector arithmetic with a register or an immediate (R172, R173). -/
def encVec (mk : Bool) (op mod : Nat) (d a : VReg) : VSrc → List Half
  | .reg b => chainOf mk (if a = d then none else some (a.toNat, 0)) mod [] 2 (baseWord op d.toNat b.toNat)
  | .imm v => chainOf mk (if a = d then none else some (a.toNat, 0)) mod (immWords 5 (immCountS 5 v 1 4) v.toNat) 2
      (baseWord op d.toNat (v.toNat % 32))

/-- VEXT, VINS (R173). -/
def encLane (mk : Bool) (op : Nat) (ty : VType) (a b : Nat) : Lane → List Half
  | .imm n => chainOf mk none (vmodPayload ty false false) (if n = 0 then [] else [prefixWord 0 n.toNat]) 2 (baseWord op a b)
  | .reg r => chainOf mk (some (r.toNat, 0)) (vmodPayload ty false false) [] 2 (baseWord op a b)

/-- VSCAN, VRED (R186). -/
def encRed (mk : Bool) (op : Nat) (ty : VType) (sat : Bool) (o : BitVec 2) (d b : VReg) : Option VReg → List Half
  | some c => chainOf mk (some (c.toNat, 4 + o.toNat)) (vmodPayload ty false sat) [] 2 (baseWord op d.toNat b.toNat)
  | none => chainOf mk (if o = 0 then none else some (0, o.toNat)) (vmodPayload ty false sat) [] 2 (baseWord op d.toNat b.toNat)

/-- CSR instructions: the number is a natural immediate over B (R90, R131). -/
def encCsr (mk : Bool) (op : Nat) (n : BitVec 12) (a c : Reg) : List Half :=
  chainOf mk (if c = 0 then none else some (c.toNat, 0)) 0 (immWords 5 (immCountN 5 n.toNat 0 4) n.toNat) 7
    (baseWord op a.toNat (n.toNat % 32))

/-- The words of an instruction with its switch marker (R111); a device step has none. -/
def encode (mk : Bool) (i : Instr) : List Half :=
  let w0 (a b : Nat) := chainOf mk none 0 [] 0 (baseWord 0 a b)
  let v0 (op mod : Nat) (d b : VReg) := chainOf mk none mod [] 2 (baseWord op d.toNat b.toNat)
  let v3 (op mod x : Nat) (d b c : VReg) := chainOf mk (some (c.toNat, x)) mod [] 2 (baseWord op d.toNat b.toNat)
  let ty0 (t : VType) := vmodPayload t false false
  let tySat (t : VType) (s : Bool) := vmodPayload t false s
  let p (page op a b : Nat) := chainOf mk none 0 [] page (baseWord op a b)
  let pr (page op a b : Nat) (c : Reg) (x : Nat) := chainOf mk (some (c.toNat, x)) 0 [] page (baseWord op a b)
  let px (page op a b x : Nat) := chainOf mk (if x = 0 then none else some (0, x)) 0 [] page (baseWord op a b)
  let pi (page op a b n : Nat) := chainOf mk none 0 (if n = 0 then [] else [prefixWord 0 n]) page (baseWord op a b)
  match i with
  | .nop => w0 0 0
  | .yield => w0 1 0
  | .stop => w0 2 0
  | .brk => w0 3 0
  | .pause b => w0 4 b.toNat
  | .trap n => w0 5 n.toNat
  | .eret => w0 6 0
  | .fret => w0 7 0
  | .mov d b => encAlu mk 1 d d b
  | .add d a b => encAlu mk 2 d a b
  | .sub d a b => encAlu mk 3 d a b
  | .and d a b => encAlu mk 4 d a b
  | .or d a b => encAlu mk 5 d a b
  | .xor d a b => encAlu mk 6 d a b
  | .shl d a b => encAlu mk 7 d a b
  | .shr d a b => encAlu mk 8 d a b
  | .sar d a b => encAlu mk 9 d a b
  | .mul d a b => encAlu mk 10 d a b
  | .mulhs d a b => encAlu mk 11 d a b
  | .mulhn d a b => encAlu mk 12 d a b
  | .divs d a b => encAlu mk 13 d a b
  | .divn d a b => encAlu mk 14 d a b
  | .rems d a b => encAlu mk 15 d a b
  | .remn d a b => encAlu mk 16 d a b
  | .slt d a b => encAlu mk 17 d a b
  | .sltn d a b => encAlu mk 18 d a b
  | .addi d v => encBr mk 19 d v
  | .li d v => encBr mk 20 d v
  | .mix32 d b => chainOf mk none 0 [] 0 (baseWord 21 d.toNat b.toNat)
  | .clz d b => chainOf mk none 0 [] 0 (baseWord 22 d.toNat b.toNat)
  | .popc d b => chainOf mk none 0 [] 0 (baseWord 23 d.toNat b.toNat)
  | .bz a v => encBr mk 24 a v
  | .bnz a v => encBr mk 25 a v
  | .bltz a v => encBr mk 26 a v
  | .bgez a v => encBr mk 27 a v
  | .j v => encJ mk 28 v
  | .jal v => encJ mk 29 v
  | .jr a => chainOf mk none 0 [] 0 (baseWord 30 a.toNat 0)
  | .jalr a => chainOf mk none 0 [] 0 (baseWord 30 a.toNat 1)
  | .ld8s d m => encMem mk 0 d.toNat m 0 false
  | .ld8n d m => encMem mk 1 d.toNat m 0 false
  | .ld16s d m => encMem mk 2 d.toNat m 0 false
  | .ld16n d m => encMem mk 3 d.toNat m 0 false
  | .ld32s d m => encMem mk 4 d.toNat m 0 false
  | .ld32n d m => encMem mk 5 d.toNat m 0 false
  | .ld64 d m => encMem mk 6 d.toNat m 0 false
  | .st8 d m => encMem mk 7 d.toNat m 0 false
  | .st16 d m => encMem mk 8 d.toNat m 0 false
  | .st32 d m => encMem mk 9 d.toNat m 0 false
  | .st64 d m => encMem mk 10 d.toNat m 0 false
  | .aadd d m w => encMem mk 11 d.toNat m w.toNat false
  | .aand d m w => encMem mk 12 d.toNat m w.toNat false
  | .aor d m w => encMem mk 13 d.toNat m w.toNat false
  | .axor d m w => encMem mk 14 d.toNat m w.toNat false
  | .amins d m w => encMem mk 15 d.toNat m w.toNat false
  | .amaxs d m w => encMem mk 16 d.toNat m w.toNat false
  | .aminn d m w => encMem mk 17 d.toNat m w.toNat false
  | .amaxn d m w => encMem mk 18 d.toNat m w.toNat false
  | .aswp d m w => encMem mk 19 d.toNat m w.toNat false
  | .acas d m w => encMem mk 20 d.toNat m w.toNat false
  | .afadd d m => encMem mk 21 d.toNat m 0 false
  | .afmaxa d m => encMem mk 22 d.toNat m 0 false
  | .fence o s => chainOf mk none (s.toNat * 4 + o.toNat) [] 1 (baseWord 23 0 0)
  | .tlget d sel => p 1 24 d.toNat sel.toNat
  | .tlwait e b => p 1 25 e.toNat b.toNat
  | .ewait e f b => p 1 26 (f.toNat * 4 + e.toNat) b.toNat
  | .pref b idx off => chainOf mk (if idx = 0 then none else some (idx.toNat, 0)) 0 (encOff off) 1 (baseWord 27 0 b.toNat)
  | .vamo v m o => encMem mk 28 v.toNat m o.toNat true
  | .vld d b idx off => chainOf mk (if idx = 0 then none else some (idx.toNat, 0)) 0 (encOff off) 2 (baseWord 0 d.toNat b.toNat)
  | .vst d b idx off => chainOf mk (if idx = 0 then none else some (idx.toNat, 0)) 0 (encOff off) 2 (baseWord 1 d.toNat b.toNat)
  | .vlds t d b s off => chainOf mk (some (s.toNat, 0)) (ty0 t) (encOff off) 2 (baseWord 2 d.toNat b.toNat)
  | .vsts t d b s off => chainOf mk (some (s.toNat, 0)) (ty0 t) (encOff off) 2 (baseWord 3 d.toNat b.toNat)
  | .vgatl t d b g => chainOf mk (some (g.toNat, 0)) (ty0 t) [] 2 (baseWord 4 d.toNat b.toNat)
  | .vsctl t d b g => chainOf mk (some (g.toNat, 0)) (ty0 t) [] 2 (baseWord 5 d.toNat b.toNat)
  | .vbcst t d b => chainOf mk none (ty0 t) [] 2 (baseWord 6 d.toNat b.toNat)
  | .vext t d b l => encLane mk 7 t d.toNat b.toNat l
  | .vins t d b l => encLane mk 8 t d.toNat b.toNat l
  | .vmov d b => v0 9 0 d b
  | .vadd t s d a b => encVec mk 10 (tySat t s) d a b
  | .vsub t s d a b => encVec mk 11 (tySat t s) d a b
  | .vmul t s h d a b => encVec mk 12 (vmodPayload t h s) d a b
  | .vfma t s d a b => encVec mk 13 (tySat t s) d a b
  | .vmin t s d a b => encVec mk 14 (tySat t s) d a b
  | .vmax t s d a b => encVec mk 15 (tySat t s) d a b
  | .vabs t s d b => v0 16 (tySat t s) d b
  | .vneg t s d b => v0 17 (tySat t s) d b
  | .vand d a b => encVec mk 18 0 d a b
  | .vor d a b => encVec mk 19 0 d a b
  | .vxor d a b => encVec mk 20 0 d a b
  | .vshl t s d a b => encVec mk 21 (tySat t s) d a b
  | .vshr t d a b => encVec mk 22 (ty0 t) d a b
  | .vsar t d a b => encVec mk 23 (ty0 t) d a b
  | .vcmp t cond d b c => v3 24 (ty0 t) cond.toNat d b c
  | .vsel t d b c => v3 25 (ty0 t) 0 d b c
  | .vcvt s t k d b => chainOf mk (if k = 0 then none else some (0, k.toNat)) (s.code * 16 + t.code) [] 2 (baseWord 26 d.toNat b.toNat)
  | .vwadd t s part d a b => chainOf mk (if a = d && part = 0 then none else some (a.toNat, part.toNat)) (tySat t s) [] 2
      (baseWord 27 d.toNat b.toNat)
  | .vscan t s o d b c => encRed mk 28 t s o d b c
  | .vred t s o d b c => encRed mk 29 t s o d b c
  | .vperm t d b c => v3 30 (ty0 t) 0 d b c
  | .vmath t fn d b => chainOf mk (if fn = 0 then none else some (0, fn.toNat)) (ty0 t) [] 2 (baseWord 31 d.toNat b.toNat)
  | .mma t a c => pr 3 0 t.toNat a.toNat c 0
  | .mmaj t a c => pr 3 1 t.toNat a.toNat c 0
  | .mld t b off => chainOf mk none 0 (encOff off) 3 (baseWord 2 t.toNat b.toNat)
  | .mldt t b off => chainOf mk none 0 (encOff off) 3 (baseWord 3 t.toNat b.toNat)
  | .mst t b off z => chainOf mk (if z then some (0, 1) else none) 0 (encOff off) 3 (baseWord 4 t.toNat b.toNat)
  | .mzero t => p 3 5 t.toNat 0
  | .mrow put v t m => chainOf mk (if put then some (0, 1) else none) 0 (if m = 0 then [] else [prefixWord 0 m.toNat]) 3
      (baseWord 6 v.toNat t.toNat)
  | .mprog d => p 3 7 d.toNat 0
  | .talloc t k => p 3 8 t.toNat k.toNat
  | .tfree t => p 3 9 t.toNat 0
  | .mstat d clr => p 3 10 d.toNat clr.toNat
  | .cpy a b c => pr 4 0 a.toNat b.toNat c 0
  | .cpy2 a b tr es => px 4 1 a.toNat b.toNat (es.toNat * 2 + tr.toNat)
  | .cpym a b c => pr 4 2 a.toNat b.toNat c 0
  | .cfill a b c => pr 4 3 a.toNat b.toNat c 0
  | .cprog d b => p 4 4 d.toNat b.toNat
  | .rxopen n w r a b => chainOf mk (some (n.toNat, r.toNat * 2 + w.toNat)) 0 [] 4 (baseWord 5 a.toNat b.toNat)
  | .rxclose n => p 4 6 n.toNat 0
  | .rxcnt d n => p 4 7 d.toNat n.toNat
  | .rput a b idx => pi 4 8 a.toNat b.toNat idx.toNat
  | .rtake d idx => pi 4 9 d.toNat 0 idx.toNat
  | .rpeek d => p 4 10 d.toNat 0
  | .msend a b c => chainOf mk (if c = 0 then none else some (c.toNat, 0)) 0 [] 4 (baseWord 11 a.toNat b.toNat)
  | .mrecv a b c => chainOf mk (if c = 0 then none else some (c.toNat, 0)) 0 [] 4 (baseWord 12 a.toNat b.toNat)
  | .mpoll d => p 4 13 d.toNat 0
  | .loopb a b c e => pr 4 14 a.toNat b.toNat c e.toNat
  | .xput v b c l => pr 4 15 v.toNat b.toNat c l.toNat
  | .xputr a b idx l => chainOf mk (if l = 0 then none else some (0, l.toNat)) 0
      (if idx = 0 then [] else [prefixWord 0 idx.toNat]) 4 (baseWord 16 a.toNat b.toNat)
  | .xcnt d l => p 4 17 d.toNat (l.toNat + 1)
  | .arv ch b => p 5 0 ch.toNat b.toNat
  | .waitp ch b => p 5 1 ch.toNat b.toNat
  | .sync l => p 5 2 (l.toNat + 1) 0
  | .bphase d ch => p 5 3 d.toNat ch.toNat
  | .bred d ch item => px 5 4 d.toNat ch.toNat item.toNat
  | .gang b => p 5 5 0 b.toNat
  | .split => p 5 6 0 0
  | .start a b => p 5 7 a.toNat b.toNat
  | .hjoin b => p 5 8 0 b.toNat
  | .hstat d => p 5 9 d.toNat 0
  | .freq d b => p 5 10 d.toNat b.toNat
  | .boost d b => p 5 11 d.toNat b.toNat
  | .stbind a b => p 6 0 a.toNat b.toNat
  | .stdrop a => p 6 1 a.toNat 0
  | .stx x a b c => chainOf mk (c.map (fun r => (r.toNat, 0))) (x.toNat * 16) [] 6 (baseWord 2 a.toNat b.toNat)
  | .stget d b tag => px 6 3 d.toNat b.toNat tag.toNat
  | .stload a b => p 6 4 a.toNat b.toNat
  | .gate n => pi 6 5 0 (n.toNat % 32) (n.toNat / 32)
  | .gret => p 6 6 0 0
  | .flddef d b => p 6 7 d.toNat b.toNat
  | .fldrun a b => p 6 8 a.toNat b.toNat
  | .fldhold a b => p 6 9 a.toNat b.toNat
  | .fldsnap a b c => chainOf mk (c.map (fun r => (r.toNat, 0))) 0 [] 6 (baseWord 10 a.toNat b.toNat)
  | .fldstat d b => p 6 11 d.toNat b.toNat
  | .flddrop a => p 6 12 a.toNat 0
  | .csrr d n => encCsr mk 0 n d 0
  | .csrw n a c => encCsr mk 1 n a c
  | .csrs n a c => encCsr mk 2 n a c
  | .csrc n a c => encCsr mk 3 n a c
  | .tlbfill a b => p 7 4 a.toNat b.toNat
  | .tlbinv a b => p 7 5 a.toNat b.toNat
  | .replay a b => p 7 6 a.toNat b.toNat
  | .gtwrite a b => p 7 7 a.toNat b.toNat
  | .domsw b => p 7 8 0 b.toNat
  | .spill n b => pi 7 9 (n.toNat % 32) b.toNat (n.toNat / 32)
  | .fill d n => pi 7 10 d.toNat (n.toNat % 32) (n.toNat / 32)
  | _ => []

/-! Reading a table row's number. -/

/-- The 16-bit words of a number of n words, first word in the highest bits, as the table's match values stand (PAGE prefix above the base word). (DEDUCED, log entry 25) -/
def tableWords (w : Nat) : Nat → List Half
  | 0 => []
  | n + 1 => BitVec.ofNat 16 (w / 65536 ^ n) :: tableWords w n

/-- The instruction that a table row's bits stand for: its words in address order, then words of zero. (DEDUCED, log entry 25) -/
def decodeTableWord (nbits w : Nat) : Option Instr :=
  match decode (tableWords w ((nbits + 15) / 16) ++ List.replicate 5 0) with
  | .ok d => some d.instr
  | .error _ => none

end Sys2Proof
end

