-- ==== Sys2Proof/Config.lean ====
section
/-! DEFINITION. What the LX-7160 fixes as a part, and the values the manual leaves open, each an opaque constant without a body. -/

namespace Sys2Proof.Config

/-- Logical cores in a row and in a column (R8). -/
def gridW : Nat := 64
def gridH : Nat := 32
/-- Bytes of one core memory (R11). -/
def coreBytes : Nat := 0x80000
/-- Bytes of the commons (R18). -/
def commonsBytes : Nat := 0x10000000
/-- Stacks of HBM, and bytes of each: 48 GiB (R18, R25). -/
def hbmStacks : Nat := 8
def stackBytes : Nat := 48 * 2 ^ 30
/-- Bytes of HBM: 384 GiB (R18); physical addresses at or above it name nothing (DESIGN CHOICE, log entry 14). -/
def hbmBytes : Nat := hbmStacks * stackBytes
/-- Self-window base address (R21). -/
def selfBase : Nat := 0x0F00000000000000
/-- Core-window base address (R21). -/
def coreBase : Nat := 0x0E00000000000000
/-- Commons base address (R21). -/
def commonsBase : Nat := 0x0D00000000000000
/-- Offset of the gate frames (R260, R265). (DESIGN CHOICE, log entry 21) -/
def frameBase : Nat := 0x63800
/-- Host memory stands above every device address among the memory keys, and fabric peers' memories above host memory (log entry 15). -/
def hostBase : Nat := 2 ^ 64
def peerBase : Nat := 2 ^ 65
/-- SPILLBASE at launch (R48). -/
def spillBase : Word := 0x0F00000000079800
/-- Capacity of an engine queue (R11). -/
def queueDepth : Nat := 2
/-- Commands the copy engine executes at once (R42). -/
def copyDepth : Nat := 4
/-- Writes a router holds (R230). -/
def holdStore : Nat := 64
/-- Messages of an inbox and of the staging queue (R235). -/
def inboxDepth : Nat := 32
def stagingDepth : Nat := 4
/-- Home slices (R20, R25). -/
def slices : Nat := 64
/-- Directory entries of a home slice (R242). -/
def dirPerSlice : Nat := 1024
/-- Accesses that a home slice parks (R248). -/
def parksPerSlice : Nat := 4096
/-- Commons banks in use, and physical ones of a die (R18, R20). -/
def banks : Nat := 256
def banksPerDie : Nat := 132
/-- Service cores of a die, and how many of them are in use (R10, R25). -/
def servicePerDie : Nat := 68
def serviceInUse : Nat := 64
/-- Spare compute cores of a die: rows 32 and 33 (R9, R417). -/
def spareCores : Nat := 64
/-- Entries of the core TLB and of each micro-TLB (R11). -/
def tlbEntries : Nat := 64
def microEntries : Nat := 8
/-- Entries that a cluster translation cache keeps: the spec gives no size (DESIGN CHOICE, log entry 63). -/
def ctcEntries : Nat := 1024
/-- Records of the health log (R419). -/
def healthRing : Nat := 4096

/-! Free values: no proof can see what they are. -/

/-- How eight HBM rows in sequence lie in the eight stacks, the channel of a row in its stack, and how many rows post-package repair replaces in a stack
(R417, log entry 57). (DESIGN CHOICE, log entry 57) -/
opaque hbmSpread : Nat → Nat
/-- (DESIGN CHOICE, log entry 57) -/
opaque hbmChannel : Nat → Nat
/-- (DESIGN CHOICE, log entry 57) -/
opaque repairRows : Nat → Nat
/-- Bits that one lane of a fabric port carries in 1 s (R331, R419, log entry 31). (DESIGN CHOICE, log entry 31) -/
opaque laneBits : Nat → Nat
/-- The SHA-384 measurement of a firmware image, by the image's number (R335, R424). (DESIGN CHOICE, log entry 86) -/
opaque measurement : Nat → BitVec 384
/-- Whether a buffered word that differs from memory is what a fetch gets (R149, log entry 6). (DESIGN CHOICE, log entry 6) -/
opaque staleFetch : Nat → Bool
/-- A byte that a command with overlapping source and destination leaves (R207, R208, log entry 7). (DESIGN CHOICE, log entry 7) -/
opaque overlapByte : Nat → Byte
/-- How much of the work done MPROG shows (R202, log entry 8). (DESIGN CHOICE, log entry 8) -/
opaque progressLag : Nat → Nat
/-- Energy a job is charged for itself and its traffic, and idle energy of a window, in microjoules (R342, log entry 9). (DESIGN CHOICE, log entry 9) -/
opaque jobEnergy : Nat → Nat
/-- The idle energy of a window in which no job ran. (DESIGN CHOICE, log entry 9) -/
opaque idleEnergy : Nat → Nat
/-- The idle energy of a window by core and router cycle of the jobs that ran in it, in units of 2^-64 microjoules (R342). (DESIGN CHOICE, log entry 9) -/
opaque idleRate : Nat → Nat
/-- Whether the power monitor projects that a boost stays within PLIM (R339, log entry 10). (DESIGN CHOICE, log entry 10) -/
opaque boostFits : Nat → Bool
/-- The fixed hash behind the home slice of a physical address (R20, R435, log entry 11). (DESIGN CHOICE, log entry 11) -/
opaque homeHash : Nat → Nat
/-- The slice that serves a commons bank (R242, R435, log entry 11). (DESIGN CHOICE, log entry 11) -/
opaque bankSlice : Nat → Nat
/-- The fabric port behind a physical address that names a fabric peer; none where the address names no peer (R332, log entry 32). (DESIGN CHOICE, log entry 32) -/
opaque peerPort : Nat → Option (BitVec 4)
/-- What AES-256-XTS leaves of a byte written under one key and read under another (R384, log entry 12). (DESIGN CHOICE, log entry 12) -/
opaque crossKey : Nat → Nat → Nat → Byte → Byte
/-- Firmware's choices for a launch: domain 1-63, ASID, key, STAGGER, save area and fault area addresses (R257, R322, R357, log entry 13). (DESIGN CHOICE, log entry 13) -/
opaque jobDomain : Nat → BitVec 6
/-- (DESIGN CHOICE, log entry 13) -/
opaque jobAsid : Nat → BitVec 16
/-- (DESIGN CHOICE, log entry 13) -/
opaque jobKey : Nat → BitVec 7
/-- (DESIGN CHOICE, log entry 13) -/
opaque jobStagger : Nat → BitVec 8
/-- (DESIGN CHOICE, log entry 13) -/
opaque saveAddr : Nat → Word
/-- (DESIGN CHOICE, log entry 13) -/
opaque faultAddr : Nat → Word
/-- Entry of the Retriever's firmware (R235, log entry 13). (DESIGN CHOICE, log entry 13) -/
opaque retrieverEntry : Word
/-- A value the manual does not state: bits of an undefined field or order (log entry 16). (DESIGN CHOICE, log entry 16) -/
opaque freeWord : Nat → Word

end Sys2Proof.Config
end

