-- ==== Sys2Proof/Machine/State.lean ====
section
/-! DEFINITION. The state of the LX-7160: its package, its cores and their thread slots, as plain data; the reasons a step stops; reset. -/

namespace Sys2Proof.Machine

open Sys2Proof

/-- Why the machine stops with a fault. -/
inductive Fault where
  /-- Raised by no meaning: kept so that the type has a name for a stop the manual would give; safe. -/
  | none
  deriving DecidableEq, Repr

/-- Why a step has no meaning. -/
inductive Refusal where
  /-- An instruction of the table that Dispatch rejects by name; safe: the machine stops where the hardware goes on. -/
  | notModelled (mnemonic : String)
  /-- Raised by Step when the agenda names an LXA instruction in place of a device step; safe: no such step exists. -/
  | notAStep
  deriving DecidableEq, Repr

/-- Outcome of one step of this machine. -/
abbrev Out (σ : Type) := Host.Outcome σ Fault Refusal

/-! ## Translation, traps, accesses -/

/-- A TLB entry (R374). -/
structure TlbEntry where
  asid : BitVec 16
  va   : Nat          -- page address
  size : BitVec 2
  pa   : Nat          -- physical address, or host bus address when host
  ty   : BitVec 2     -- 0 normal, 1 write-combining, 2 device, 3 strongly-ordered
  r    : Bool
  w    : Bool
  st   : Bool
  host : Bool
  key  : BitVec 7
  deriving DecidableEq, Repr

/-- Where an access goes: memory key of its first byte and the attributes that govern it (R146, R148, R259). -/
structure Place where
  key  : Nat
  ty   : BitVec 2
  r    : Bool
  w    : Bool
  st   : Bool
  host : Bool
  kidx : BitVec 7
  virt : Bool
  page : Nat           -- page address and size of the entry that translated it (R376)
  size : BitVec 2
  peer : Option (BitVec 4)   -- fabric port of a page that names a fabric peer (R332)
  deriving DecidableEq, Repr

/-- A trap on its way to a slot (R353, R354). -/
structure Trap where
  code  : BitVec 8
  defer : Bool
  page  : Nat
  op    : Nat
  addr  : Word
  info  : Word
  fpc   : Word
  map   : Option (List Nat)   -- cores set in the missing-member map, if one follows the record (R403)
  deriving DecidableEq, Repr

/-- Kinds of thread access (R150, R155, R161, R252 to R254, R352). -/
inductive AccKind where
  | load (signed : Bool)
  | store
  | atomic (op : Nat)
  | vamo (op : BitVec 3)
  | stbind
  | stdrop
  | stx (named : Option Nat)
  | stget (tag : Bool)
  deriving DecidableEq, Repr

/-- How far an access has come: ready to be performed, missing a translation, waiting for the host's translation, found without one and
waiting for its page request to go out (R378), parked on a page request with its place in the order of parking (R380), or parked at its
directory entry. -/
inductive AccPhase where
  | ready
  | miss
  | ats (req : Nat)
  | wantPage
  | pageReq (req order : Nat)
  | parked
  deriving DecidableEq, Repr

/-- What an engine command, a Herder or an instruction that reads a block asks its translation service core for (R147, R170, R373, R378);
kind is the bit of REPLAY's ACCMASK that names it (R380): 0 reads, 1 writes, 2 Herder accesses. -/
structure Ask where
  va    : Word
  write : Bool
  kind  : Nat
  phase : AccPhase
  reqs  : Nat          -- page requests sent for it (R382)
  deriving DecidableEq, Repr

/-- How far the accesses of a command, a Herder's copy or a block read have come: translations got, pages refused with a PAGE reason, what it
asks for now, the page requests counted for pages it no longer asks for and has not yet accessed, the single-copy-atomic units already read, and the numbers of those already
written (R170, R248, R309, R377, R382). -/
structure Walk where
  xlat   : List TlbEntry
  failed : List (Nat × Bool × Nat)
  ask    : Option Ask
  counted : List (Nat × Bool × Nat)
  reads  : List (Word × Nat × List Byte)
  wrote  : List Nat
  deriving DecidableEq, Repr

/-- An access of a thread that has issued and is not yet performed (R152, R299). -/
structure Access where
  id    : Nat
  kind  : AccKind
  va    : Word
  size  : Nat
  x     : BitVec 4
  scope : BitVec 2
  order : BitVec 2
  data  : Nat
  exp   : Word
  dest  : Reg
  dom   : BitVec 6
  asid  : BitVec 16
  key   : BitVec 7
  fpc   : Word
  page  : Nat
  op    : Nat
  place : Option Place
  phase : AccPhase
  reqs  : Nat          -- page requests sent for it (R382)
  mid   : Option Nat   -- what a cluster unit has read for it and not yet written back (R157)
  det   : Bool         -- made under MODE.DET (R249)
  deriving DecidableEq, Repr

/-- A value on its way back to a general register (R36). -/
structure Result where
  reg : Reg
  val : Word
  depth : Nat                 -- unresolved branches it issued under (R39)
  acq : Bool                  -- an acquire value: later accesses wait for it (R152)
  deriving DecidableEq, Repr

/-! ## Thread slots -/

/-- R26. -/
inductive SlotMode where
  | free | live | draining
  deriving DecidableEq, Repr

/-- What a slot waits for (R26, R37, R346, R400). -/
inductive Park where
  | marker                            -- R37
  | branch                            -- an older branch is unresolved (R39)
  | order                             -- held at issue by an acquire, a fence or an earlier access (R152, R162)
  | settle                            -- an instruction that comes after every earlier access and send of its thread (R230, R279)
  | queue (e : Nat)                   -- a full engine queue (R13)
  | startSlot                         -- START with no free slot (R140)
  | tile (t : Nat)                    -- TFREE waits for commands on the tile (R190)
  | tl (e : Nat) (v : Word)           -- TLWAIT (R165)
  | vecDone (v : VReg)                -- VAMO, XPUT wait for vector commands (R161, R225)
  | waitp (ch : Nat) (ph : BitVec 16) -- R219
  | sync (lvl : Nat)                  -- R54
  | rtake (idx : Nat)                 -- R231
  | mrecv                             -- R234
  | hjoin (m : Word)                  -- R141
  | arv (ch : Nat)                    -- R218
  | send (core : Nat)                 -- RPUT, MSEND behind a returned write (R230)
  | gang                              -- R237
  | partner                           -- a gang member waits for another (R50)
  | loopb                             -- R236
  | tlb (id : Nat)                    -- R147
  | walk                              -- an instruction's own block reads miss a translation, or are held (R147, R248)
  | port (p : Option (BitVec 4))      -- an instruction's own block reads wait for a fabric port (R422), or for a lost Seam row (R423)
  | acks (id : Nat)                   -- TLBINV, REPLAY (R376, R380)
  | paused (core : Nat)               -- TLBFILL of a core whose clock is paused (R386)
  | drain                             -- GATE, GRET, FRET wait for accesses and commands (R264, R267)
  | dead                              -- undelivered trap (R357)
  | brk                               -- undelivered BRK (R361)
  | ended                             -- slot 0 after STOP (R30)
  deriving DecidableEq, Repr

/-- A park with the router cycle at which it began and the LIMIT sampled then (R400). -/
structure Wait where
  kind  : Park
  since : Nat
  limit : Nat
  mark  : Bool                -- the instruction was marked: its marker's park follows (R37)
  deriving DecidableEq, Repr

/-- The matrix and copy control registers, CSRs 0x040-0x04E and 0x060-0x064 (R191). -/
structure EngCsr where
  fmta : Word
  fmtb : Word
  scla : Word
  sclb : Word
  zpa  : Word
  zpb  : Word
  plna : Word
  plnb : Word
  astr : Word
  bstr : Word
  klen : Word
  mjoin : Word
  dfmt : Word
  cstr : Word
  amaxp : Word
  cpyw : Word
  cpyh : Word
  cpyss : Word
  cpyds : Word
  cpymask : Word
  deriving DecidableEq, Repr

/-- A spill value's place (R46). -/
inductive SpillPlace where
  | tile (t col row : Nat)
  | bank (slot i : Nat)
  | memory
  deriving DecidableEq, Repr

/-- A recorded spill value (R45). -/
structure SpillEntry where
  val   : Word
  place : SpillPlace
  dom   : BitVec 6            -- domain of the group that spilled it (R260)
  deriving DecidableEq, Repr

/-- A gate-table entry (R261). -/
structure GateEntry where
  w0 : Word
  w1 : Word
  w2 : Word
  w3 : Word
  deriving DecidableEq, Repr

/-- An open gate call: the entry its GATE read, the gate number, and the command numbers at the call (R264, R265, R394). -/
structure Call where
  entry  : GateEntry
  gate   : BitVec 10
  issued : Vector Word 4
  gpc    : Word               -- the GATE's address
  deriving DecidableEq, Repr

/-- What a mispredicted branch restores (R39, R40). -/
structure Checkpoint where
  actual : Word
  guess  : Word
  g      : Vector Word 32
  pend   : BitVec 32
  more   : List Reg
  unsync : BitVec 32
  issued : Vector Word 4
  bpc    : Word               -- the branch's address
  icount  : Nat
  charged : List (Word × Nat) -- cycles, with their reason, charged to no profile entry yet (R40)
  deriving DecidableEq, Repr

/-- A gate abort that waits for its drain (R394, R395). -/
structure Abort where
  inner  : Trap
  double : Bool
  deriving DecidableEq, Repr

/-- One thread slot (R11, R26, R27, R133). -/
structure Slot where
  mode   : SlotMode
  pc     : Word
  g      : Vector Word 32
  v      : Vector Vec 16
  pend   : BitVec 32
  more   : List Reg           -- registers for which a further value is on its way besides the one that pend stands for (R37, R38)
  unsync : BitVec 32
  park   : Option Wait
  acc    : List Access
  ahead  : List Nat           -- ids of unperformed accesses with a transition before which a later access of the thread has been performed (R247)
  walk   : Walk               -- of an instruction that reads a block: STLOAD, GTWRITE, FLDDEF
  results : List Result
  fence  : Bool
  after  : List (Nat × Nat)   -- slot and id of a starter's accesses that come before this thread's first one (R140)
  traps  : List Trap
  branches : List Checkpoint
  tvec   : Word
  tcause : Word
  taddr  : Word
  tpc    : Word
  tinfo  : Word
  hnd    : Bool
  savedLevel : BitVec 2
  prio   : Word
  waitlim : Word
  asid   : BitVec 16
  dom    : BitVec 6
  key    : BitVec 7
  codebase : Word
  codelim  : Word
  ec     : EngCsr
  issued : Vector Word 4
  counter : Vector Word 4
  early  : List Nat           -- copy commands completed before an older one (R42)
  copyBytes : Tbl Nat         -- total bytes of completed copy commands (R210)
  iovf   : Bool
  dnan   : Bool
  dovf   : Bool
  spill  : Tbl SpillEntry
  calls  : List Call          -- innermost first; depth is the length (R264)
  gated  : Option GateEntry   -- entry of a GATE past its check that still waits (R262, R264)
  eff    : Nat
  boost  : Nat
  age    : Nat
  pauseLeft : Nat
  pauseOver : Bool            -- the PAUSE window ended in the last core cycle (R32)
  yielded : Bool
  abort  : Option Abort
  syncStands : Option Nat
  icount : Nat
  deriving DecidableEq, Repr

/-! ## Engines, tiles, windows, messages -/

/-- An engine command with what it sampled at issue (R41, R44, R193). -/
structure Cmd where
  id    : Nat
  num   : Nat
  slot  : Nat
  instr : Instr
  args  : List Word
  ec    : EngCsr
  dom   : BitVec 6
  asid  : BitVec 16
  key   : BitVec 7
  fpc   : Word
  page  : Nat
  op    : Nat
  depth : Nat                 -- unresolved branches it issued under: speculative while not 0 (R39)
  dead  : Bool                -- abandoned (R363)
  joint : Nat                 -- ordinal of an MMAJ in its core (R198); 0 for other commands
  srcs  : List Vec            -- vector sources read at start (R167)
  shown : Nat                 -- MPROG's DONE as last read (R202)
  brows : List (List Nat × List Nat × List Nat)  -- B operand of a joint command, read once at its start (R198): elements, scales, zero points
  walk  : Walk
  deriving DecidableEq, Repr

/-- A tile slot (R189): elements row by row. -/
structure Tile where
  alloc : Bool
  int   : Bool
  elems : List W32
  deriving DecidableEq, Repr

/-- A port register (R11, R230). -/
structure Port where
  present : Bool
  val     : Word
  deriving DecidableEq, Repr

/-- A port write, in flight or held (R230). -/
structure PortWrite where
  id  : Nat
  slot : Nat
  src : Nat
  dst : Nat
  idx : Nat
  val : Word
  returned : Bool
  deriving DecidableEq, Repr

/-- A message (R233). -/
structure Msg where
  id  : Nat
  slot : Nat
  src : Nat
  dst : Nat
  w0  : Word
  w1  : Word
  deriving DecidableEq, Repr

/-- A receive window (R211, R212, R370). -/
structure Window where
  isOpen : Bool
  w     : Bool
  r     : Bool
  base  : Nat
  len   : Nat
  cnt   : Word
  known : Bool                -- opened at least once: base and len are the last extent
  deriving DecidableEq, Repr

/-- The record of a channel's latest completed phase (R221). -/
structure Record where
  sum   : Nat
  min   : Nat
  max   : Nat
  last  : Nat
  phase : Nat
  wrap  : Bool
  rlast : Nat
  deriving DecidableEq, Repr

/-- A core's side of a channel (R215). -/
structure Chan where
  ac  : BitVec 16
  p   : BitVec 16
  last : Record
  deriving DecidableEq, Repr

/-- An ARV that waits for the accesses before it (R218). -/
structure PendArv where
  ch    : Nat
  value : BitVec 32
  slot  : Nat
  after : List Nat
  deriving DecidableEq, Repr

/-- An exchange pair of this core as sender (R224). -/
structure XPair where
  tag  : Nat
  slot : Nat
  recv : Nat
  deriving DecidableEq, Repr

/-- A posted flit: data for an offset, or a port write (R225, R226). -/
structure Post where
  lvl  : Nat
  slot : Nat
  port : Option Nat
  off  : Word
  data : Vec
  by_  : Nat
  fpc  : Word
  page : Nat
  op   : Nat
  dom  : BitVec 6
  asid : BitVec 16
  deriving DecidableEq, Repr

/-- A slot's part in the overrun flag of a level: its first refused slot number, its count, and the post that came first (R407, R408, R415). -/
structure Overrun where
  lvl   : Nat
  carried : Bool              -- the SYNC arrival in the tree carries it; one made after that arrival waits for the next
  fslot : Nat
  count : Nat
  by_   : Nat
  fpc   : Word
  page  : Nat
  op    : Nat
  deriving DecidableEq, Repr

/-- Where a Herder stands in its field's sweep (R284). -/
inductive FStage where
  | stopped | sweep | sites | routine (i : Nat) | arrive | wait | release
  deriving DecidableEq, Repr

/-- A defined field (R272, R279, R280, R297). -/
structure Field where
  desc  : List Word
  slot  : Nat
  dom   : BitVec 6
  asid  : BitVec 16
  key   : BitVec 7
  codebase : Word
  codelim  : Word
  next  : Nat
  colour : Nat
  todo  : List Nat            -- local indexes of the sites still to run in this half-step
  e     : Nat
  run   : Bool
  stage : FStage
  asked : Bool                -- adoption asked for this sweep
  live1 : Bool                -- CT1 was LIVE at the latest copy
  cts   : List Nat            -- memory keys of the bases of CT0 and CT1 (R293)
  walk  : Walk                -- of the coupling copy (R296)
  fault : Option Trap         -- taken by the defining slot when the field stands stopped (R398)
  failed : Bool               -- runs no more routines of this sweep (R397, R398)
  deriving DecidableEq, Repr

/-- V/F state of a core (R336 to R341, R366). -/
structure VF where
  level  : Nat
  mail   : Option Nat
  moving : Option Nat
  pausedAt : Nat              -- router cycle at which the move began (R386)
  lease  : Nat
  held   : Bool
  lastFreq : Option Nat
  cap    : Nat
  fmin   : Nat
  fmax   : Nat
  deriving DecidableEq, Repr

/-- A profile entry (R346). -/
structure ProfEntry where
  pc     : BitVec 32
  reason : Nat
  count  : Nat
  deriving DecidableEq, Repr

/-- A SYNC in progress on a core, with the address after it (R54). -/
inductive SyncStage where
  | none | drain (lvl : Nat) (next : Word) | arrived (lvl : Nat) (next : Word)
  deriving DecidableEq, Repr

/-- The gang's present instruction, as a member that has issued it keeps it: where the member's own issue goes on, the instruction that the leader
fetched, and its chain (R50). -/
structure GangStep where
  next  : Word
  instr : Instr
  len   : Nat
  page  : Nat
  op    : Nat
  mark  : Bool
  deriving DecidableEq, Repr

/-- Life of a core in a job (R30, R58). -/
inductive CorePhase where
  | free | placed | running | ended
  deriving DecidableEq, Repr

/-- One logical core (R11). -/
structure Core where
  phase  : CorePhase
  job    : Option Nat
  slots  : Tbl Slot
  ports  : Tbl Port
  held   : List PortWrite
  tiles  : Tbl Tile
  queue  : Tbl (List Cmd)
  exec   : Tbl (List Cmd)
  fields : Tbl Field
  windows : Tbl Window
  inbox  : List Msg
  backlog : Bool
  staging : List Msg
  heap   : Nat
  hcap   : Nat
  chans  : Tbl Chan
  arvs   : List PendArv
  smask  : Word
  domch  : Word
  segm   : Word
  jobgrid : Word
  det    : Bool
  gatesOn : Bool
  xarea  : Word
  xareaNow : Word
  spillbase : Word
  hdone  : BitVec 10
  sstep  : Word
  cycle  : Word
  xslot  : List XPair
  posts  : List Post
  overrun : List Overrun
  xcnt   : Tbl Word
  tlb    : List TlbEntry      -- oldest fill first
  mtlb   : List TlbEntry
  ctlb   : List TlbEntry
  ibuf   : Tbl Half
  gang   : BitVec 8
  gangReq : BitVec 8
  gangDone : Option GangStep  -- this member has issued the gang's present instruction (R50)
  vf     : VF
  profctl : Word
  profbase : Word
  prof   : Tbl ProfEntry
  bkpt   : Vector Word 4
  bkptHit : Bool
  rr     : Vector Nat 4
  sync   : SyncStage
  mmajIn : Nat
  slice  : Bool               -- inactive member of a SHARED pair (R344)
  sliceAt : Word              -- CYCLE at which the active member's quantum began
  deriving DecidableEq, Repr

/-! ## The package -/

/-- Whose access is parked at a directory entry: a slot's access; an engine command's, a field's or a block-reading slot's read, write or
amax merge (R78, R248); or one that no core makes: the host's, that of the peer behind a fabric port, or the device's own for a launch. -/
inductive Parker where
  | acc (slot id : Nat)
  | cmd (id : Nat)
  | field (id : Nat)
  | block (slot : Nat)
  | host (id : Nat)
  | peer (port : Nat)
  | device (launch : Nat)
  deriving DecidableEq, Repr

/-- An access parked at a directory entry (R248). A read of n bytes has one part without bytes; a write has its bytes in parts, one single-copy
atomic unit (R309), the unit-th of its command, with DNAN and DOVF of what a drain writes there (R202); need is that of R245. -/
structure Parked where
  core  : Nat
  who   : Parker
  need  : Nat
  n     : Nat
  unit  : Nat
  parts : List (Word × Place × List Byte)
  nan   : Bool := false
  ovf   : Bool := false
  deriving DecidableEq, Repr

/-- A staged object's directory entry (R242, R251, R295). -/
structure Obj where
  id    : Nat
  exts  : List (Nat × Nat)    -- memory keys and bytes of its parts, the base first
  addr  : Word                -- base address it was bound at
  binder : BitVec 6           -- domain whose class it has (R243)
  log2  : Nat
  cls   : Nat
  scope : BitVec 2
  state : Nat
  owner : Nat
  owned : Bool
  tag   : Word
  queue : List Parked         -- oldest first (R248)
  m     : Option Nat          -- highest sweep a Herder asked for (R295)
  adopted : Option Nat        -- sweep of the latest adoption of this object
  deriving DecidableEq, Repr

/-- A work queue (R319, R320). -/
structure WQueue where
  ring : Word
  ctlw : Word
  ridx : Nat
  widx : Nat
  qerr : Nat
  ctl  : Word
  num  : Nat                  -- launches numbered so far (R321)
  credit : Nat                -- starts still due in this round (R56)
  deriving DecidableEq, Repr

/-- One schedule of a launch (R224, R325). -/
structure Sched where
  tag   : Nat
  slots : Nat
  pairs : List (Nat × Nat × Nat)
  deriving DecidableEq, Repr

/-- A checked launch at the head of its queue (R326). -/
structure Head where
  num   : Nat
  pkt   : List Word
  hdr   : List Word
  memb  : List Nat
  scheds : List Sched
  args  : List Byte
  deriving DecidableEq, Repr

/-- Life of a job (R56 to R62, R357, R408). -/
inductive JobPhase where
  | claimed | placed | running | stopping (status : Nat) | saved (safe : Bool) | stopped7
  deriving DecidableEq, Repr

/-- A 64-byte fault, wait or SLOT record (R357, R403, R415), words 0 to 7, and whether a map follows. -/
structure FaultRec where
  job   : Nat
  words : List Word
  map   : Option (List Nat)   -- cores set in the missing-member map, if one follows
  deriving DecidableEq, Repr

/-- A job (R322). -/
structure Job where
  id    : Nat
  queue : Nat
  num   : Nat
  prio  : Nat
  pkt   : List Word
  hdr   : List Word
  memb  : List Nat
  scheds : List Sched
  args  : List Byte
  dom   : BitVec 6
  asid  : BitVec 16
  key   : BitVec 7
  phase : JobPhase
  tstart : Nat
  waits : List FaultRec       -- wait records of its slots, made as it stops, that follow the fault records (R403)
  save  : Option Nat
  energy : Nat
  since  : Nat                -- router cycle from which its present time in the accounting window counts (R342)
  worked : Nat                -- router cycles it has run in the window before that (R342)
  preempt : Bool              -- a launch of higher priority needs its cores (R60)
  draining : Bool             -- its slots stop at their boundaries, to be saved between safe points (R349, R364)
  deriving DecidableEq, Repr

/-- An arrival in an S-wire tree (R215, R221, R222, R399, R407). -/
structure Arrival where
  core  : Nat
  ch    : Nat
  k     : BitVec 16
  value : BitVec 32
  time  : Nat
  ovr   : Bool
  digest : Option (BitVec 32)
  deriving DecidableEq, Repr

/-- A flit of an exchange phase (R224, R227, R284). -/
structure Flit where
  slot  : Nat
  src   : Nat
  dst   : Nat
  port  : Option Nat
  off   : Word
  data  : Vec
  bytes : Nat
  by_   : Nat
  fpc   : Word
  page  : Nat
  op    : Nat
  dom   : BitVec 6
  asid  : BitVec 16
  deriving DecidableEq, Repr

/-- An exchange phase in progress (R54, R55, R284, R285). tag 1-4 is a level, 8 + f a field schedule. -/
structure Exch where
  xid   : Nat
  job   : Nat
  tag   : Nat
  ch    : Nat
  members : List Nat
  e     : Nat
  slots : Nat
  hops  : Nat
  todo  : List Flit
  air   : List Flit
  cancelled : Bool
  released : List Nat         -- cores the compute release has still to reach; empty before it is issued
  c     : Option Nat
  late  : List (Nat × Nat × Trap)   -- traps of dropped deliveries, by sender's core and slot, until the compute release reaches it (R410)
  deriving DecidableEq, Repr

/-- A launch found bad at the head of its queue, whose completion record is still to be written (R326, R328). -/
structure Verdict where
  num    : Nat
  pkt    : List Word
  status : Nat
  deriving DecidableEq, Repr

/-- A host access through BAR4 that waits at a staged object's directory entry, or behind one that does (R242, R248). -/
structure HostAccess where
  id    : Nat
  write : Bool
  off   : Nat
  val   : Word
  deriving DecidableEq, Repr

/-- A 64-byte block that has been read for a launch at its directory entry, where the read was parked (R248). -/
structure DevRead where
  launch : Nat
  block  : Nat         -- memory key over 64
  bytes  : List Byte
  poisoned : Bool
  deriving DecidableEq, Repr

/-- An outstanding ATS translation request (R318, R373): the access or command it serves. -/
structure AtsReq where
  id   : Nat
  core : Nat
  slot : Nat
  acc  : Nat
  pasid : BitVec 20
  va   : Nat
  write : Bool
  stale : List (Nat × BitVec 2)   -- pages, by address and size, invalidated while it was in flight (R381)
  deriving DecidableEq, Repr

/-- An outstanding page request (R378, R382). -/
structure PageReq where
  id   : Nat
  pasid : BitVec 20
  asid : BitVec 16
  va   : Nat
  r    : Bool
  w    : Bool
  idx  : Nat           -- PRG Index; 256 to 511 for a repeated fault (R382)
  deriving DecidableEq, Repr

/-- A read that a host or a fabric peer has asked for, completed: the port, or none for BAR4; the bytes; whether it is poisoned (R383). -/
structure ReadOut where
  port : Option Nat
  data : List Byte
  poisoned : Bool
  deriving DecidableEq, Repr

/-- A broadcast that cores acknowledge: an invalidation or a replay (R376, R380). -/
inductive Cast where
  | inv (asid : BitVec 16) (all allAsid : Bool) (va : Nat) (size : BitVec 2)
  | ats (va : Nat) (size : BitVec 2)
  | replay (a b : Word)
  deriving DecidableEq, Repr

/-- A broadcast with the cores that have still to acknowledge. -/
structure CastRec where
  id   : Nat
  what : Cast
  left : List Nat
  deriving DecidableEq, Repr

/-- A 32-byte trace record (R347). -/
structure TraceRec where
  job   : Nat
  words : List Word
  deriving DecidableEq, Repr

/-- A health-log record (R419). -/
structure HealthRec where
  time : Nat
  unit : Nat
  counter : Nat
  action : Nat
  deriving DecidableEq, Repr

/-- The repair registers of an HBM stack: rows that post-package repair has replaced, and the channel that the spare one stands in for (R417). -/
structure HbmRepair where
  rows  : List Nat
  spare : Option Nat
  deriving DecidableEq, Repr

/-- An entry of the attestation log: the image measured, by its number, and whether both signatures verified (R335, R424). -/
structure Attest where
  image : Nat
  ok    : Bool
  deriving DecidableEq, Repr

/-- A saved context (R61, R344, R364, R408). -/
structure Save where
  id    : Nat
  job   : Job
  cores : List (Nat × Core)
  mem   : List Host.Cell
  arrivals : List Arrival
  exchanges : List Exch
  writes : List PortWrite
  messages : List Msg
  time  : Nat                 -- router cycle of the save
  deriving DecidableEq, Repr

/-- MSI-X state of a vector (R328). -/
structure Msix where
  masked  : Bool
  pending : Bool
  deriving DecidableEq, Repr

/-- A row link of one plane of the Seam, or a fabric port (R417, R421, R422); half: a row link runs at half width; lost: it stays down for good (R423). -/
structure Link where
  up     : Bool
  half   : Bool
  lost   : Bool
  spares : Nat
  retries : Nat
  waiting : List FabricOp
  deriving DecidableEq, Repr

/-- Which slot issues and the instruction at hand (R12, R87): own bookkeeping, log entry 2. -/
structure Cur where
  core : Nat
  slot : Nat
  pc   : Word
  len  : Nat
  page : Nat
  op   : Nat
  mark : Bool
  held : Bool                 -- the instruction was held at issue (R26)
  deriving DecidableEq, Repr

/-- The whole machine. -/
structure State where
  mem    : List Host.Cell
  poison : Tbl Nat            -- poisoned 64-byte blocks with the ECC reason (R383)
  wkey   : Tbl Nat            -- key index, and 128 times the key's loading, under which a byte of device memory was last written (R384)
  rtime  : Word
  cores  : Tbl Core
  gates  : Tbl GateEntry
  remapix : Word
  remap  : Tbl Word           -- physical placement of a logical core (R9, R343): no result depends on it
  service : Tbl Nat           -- cluster steering: the service core that serves a cluster (R10, R417)
  banks  : Tbl Nat            -- bank steering: the physical bank behind a commons bank (R20, R417)
  ways   : Tbl (List (Nat × Option Nat))  -- way map: the retired ways of a home slice, each with the spare way in its place, if one is left (R417)
  hbm    : Tbl HbmRepair      -- stack repair registers (R417)
  spared : List Nat           -- core-memory banks with a substitute in use (R419)
  objs   : List Obj
  classes : Tbl (List Half)
  domCode : Tbl (Word × Word)
  domRange : Tbl (Nat × Nat)
  keysLoaded : BitVec 128
  keyGen : Tbl Nat            -- how often firmware has reloaded a key slot (R384)
  pageTables : List TlbEntry
  ctc    : Tbl (List TlbEntry)
  atsReqs : List AtsReq
  pageReqs : List PageReq
  answers : List (Nat × Nat)  -- page requests answered with a failure while contexts were saved, with their PAGE reasons (R379)
  priEnable : Bool            -- the host's PRI Enable
  priFailed : Bool            -- a Response Failure stands until PRI Enable is cleared and set (R379)
  priAlloc : Nat              -- Outstanding Page Request Allocation (R378)
  casts  : List CastRec
  queues : Tbl WQueue
  heads  : Tbl Head
  verdicts : Tbl Verdict
  refusals : List (Nat × Nat × Bool)   -- pages the host has refused to the device's own accesses: launch, page address, write (R323, R378)
  jobs   : List Job
  resident : List (Nat × Word × Nat × Nat)  -- image identity last placed in a core: core, IMGID, CODEOFF, CODELEN (R58)
  msix   : Tbl Msix
  msixSent : List Nat
  bar0   : Tbl Word
  health : List HealthRec
  hlcount : Word
  configRetries : Nat
  stage  : Nat
  ready  : Bool
  fail   : Bool
  failCode : BitVec 4
  failStage : BitVec 4
  bringUpFail : Option (BitVec 4 × BitVec 4)
  arrivals : List Arrival
  exchanges : List Exch
  portWrites : List PortWrite
  messages : List Msg
  trace  : List TraceRec
  faults : List FaultRec
  saves  : List Save
  safe   : List Save          -- the latest safe-point save of a debug-stopped job, kept for replay (R349)
  gone   : List (Nat × Nat)   -- core count and time of jobs that ran in the accounting window and no longer do (R342)
  reads  : List ReadOut
  hostWaits : List HostAccess -- oldest first
  devReads : List DevRead
  idle   : Nat
  windowsEnded : Nat
  windowAt : Nat              -- router cycle at which the accounting window began (R342)
  hot    : Bool
  seam   : Tbl Link           -- by row link, 4 times its row plus its plane (R417)
  fabric : Tbl Link
  errCounts : Tbl (List Nat)  -- router cycles at which each counter counted an error (R419)
  retired : List Nat
  calibrated : Nat            -- times firmware has set the cores' voltages (R419)
  attest : List Attest        -- the attestation log (R335, R424)
  firmware : Nat              -- number of the firmware image that the boot ROM loads; 0 is the one the part came with (R424)
  stepLimit : Option (Nat × Nat × Nat)
  cur    : Cur
  issuing : Bool
  cycleOf : Option Nat        -- core whose cycle has begun: the choice of its slot comes next (R31)
  agenda : List Instr
  predictions : List Word
  fresh  : Nat
  nextId : Nat
  deriving DecidableEq, Repr

/-! ## Reset -/

/-- Engine registers at launch and START (R191). (DESIGN CHOICE, log entry 1) -/
def EngCsr.reset : EngCsr :=
  { fmta := 0, fmtb := 0, scla := 0, sclb := 0, zpa := 0, zpb := 0, plna := 0, plnb := 0, astr := 0, bstr := 0,
    klen := 0, mjoin := 0, dfmt := 0, cstr := 0, amaxp := 0, cpyw := 0, cpyh := 0, cpyss := 0, cpyds := 0, cpymask := 0 }

/-- No translation asked for, no unit performed. -/
def Walk.none : Walk := { xlat := [], failed := [], ask := Option.none, counted := [], reads := [], wrote := [] }

/-- A free slot with the values of R59 and R133 (values the manual gives only for launch: DESIGN CHOICE, log entry 1). Its domain is not 0, so that DOMAIN.PRIV reads its reset value 0 (R258). -/
def Slot.reset : Slot :=
  { mode := .free, pc := 0, g := Vector.replicate 32 0, v := Vector.replicate 16 0, pend := 0, more := [], unsync := 0,
    park := none, acc := [], ahead := [], walk := Walk.none, results := [], fence := false, after := [], traps := [], branches := [],
    tvec := 0, tcause := 0, taddr := 0, tpc := 0, tinfo := 0, hnd := false, savedLevel := 0,
    prio := 1, waitlim := 0, asid := 0, dom := 1, key := 0, codebase := 0, codelim := 0,
    ec := EngCsr.reset, issued := Vector.replicate 4 0, counter := Vector.replicate 4 0,
    early := [], copyBytes := [], iovf := false, dnan := false, dovf := false,
    spill := [], calls := [], gated := none, eff := 1, boost := 0, age := 0, pauseLeft := 0, pauseOver := false, yielded := false,
    abort := none, syncStands := none, icount := 0 }

/-- No record yet: every item reads 0 (R221). -/
def Record.zero : Record := { sum := 0, min := 0, max := 0, last := 0, phase := 0, wrap := false, rlast := 0 }

/-- A channel at launch (R215). (DESIGN CHOICE, log entry 1) -/
def Chan.reset : Chan := { ac := 0, p := 0, last := Record.zero }

/-- A free tile slot (R189). -/
def Tile.reset : Tile := { alloc := false, int := false, elems := [] }

/-- A closed window (R23, R59). (DESIGN CHOICE, log entry 1) -/
def Window.reset : Window := { isOpen := false, w := false, r := false, base := 0, len := 0, cnt := 0, known := false }

/-- An empty port register (R59). (DESIGN CHOICE, log entry 1) -/
def Port.reset : Port := { present := false, val := 0 }

/-- The launch level 9 (R336). (DESIGN CHOICE, log entry 1) -/
def VF.reset : VF :=
  { level := 9, mail := none, moving := none, pausedAt := 0, lease := 0, held := false, lastFreq := none, cap := 15, fmin := 0, fmax := 15 }

/-- A core that no job occupies. (DESIGN CHOICE, log entry 1) -/
def Core.reset : Core :=
  { phase := .free, job := none, slots := [], ports := [], held := [], tiles := [], queue := [], exec := [], fields := [],
    windows := [], inbox := [], backlog := false, staging := [], heap := 0, hcap := 1024, chans := [], arvs := [],
    smask := 0, domch := 0x20, segm := 0, jobgrid := 0, det := false, gatesOn := false, xarea := 0, xareaNow := 0,
    spillbase := Config.spillBase, hdone := 0x3FF, sstep := 0, cycle := 0, xslot := [], posts := [], overrun := [],
    xcnt := [], tlb := [], mtlb := [], ctlb := [], ibuf := [], gang := 0, gangReq := 0, gangDone := none,
    vf := VF.reset, profctl := 0, profbase := 0, prof := [], bkpt := Vector.replicate 4 0, bkptHit := false,
    rr := Vector.replicate 4 0, sync := .none, mmajIn := 0, slice := false, sliceAt := 0 }

/-- A queue at reset (R319, R321). (DESIGN CHOICE, log entry 1) -/
def WQueue.reset : WQueue :=
  { ring := 0, ctlw := 0, ridx := 0, widx := 0, qerr := 0, ctl := 0, num := 0, credit := 0 }

/-- An MSI-X vector at reset (DESIGN CHOICE, log entry 1). -/
def Msix.reset : Msix := { masked := false, pending := false }

/-- A stack without repairs. (DESIGN CHOICE, log entry 1) -/
def HbmRepair.reset : HbmRepair := { rows := [], spare := none }

/-- A working link with its spares: 2 lanes of a Seam row link, 1 lane pair of a fabric port (R417; DESIGN CHOICE, log entry 1). -/
def Link.reset : Link := { up := true, half := false, lost := false, spares := 2, retries := 0, waiting := [] }
def Link.port : Link := { Link.reset with spares := 1 }

/-- The device right after device reset: nothing launched, bring-up not yet begun (R334, R335). (DESIGN CHOICE, log entry 1) -/
def State.reset : State :=
  { mem := [], poison := [], wkey := [], rtime := 0, cores := [], gates := [], remapix := 0, remap := [], service := [], banks := [], ways := [], hbm := [], spared := [], objs := [], classes := [],
    domCode := [], domRange := [], keysLoaded := 0, keyGen := [], pageTables := [], ctc := [], atsReqs := [], pageReqs := [], answers := [],
    priEnable := true, priFailed := false, priAlloc := 256, casts := [], queues := [], heads := [], verdicts := [], refusals := [], jobs := [], resident := [], msix := [], msixSent := [],
    bar0 := [], health := [], hlcount := 0, configRetries := 0, stage := 0, ready := false, fail := false,
    failCode := 0, failStage := 0, bringUpFail := none, arrivals := [], exchanges := [], portWrites := [],
    messages := [], trace := [], faults := [], saves := [], safe := [], gone := [], reads := [], hostWaits := [], devReads := [], idle := 0, windowsEnded := 0, windowAt := 0, hot := false, seam := [],
    fabric := [], errCounts := [], retired := [], calibrated := 0, attest := [], firmware := 0, stepLimit := none,
    cur := { core := 0, slot := 0, pc := 0, len := 0, page := 0, op := 0, mark := false, held := false },
    issuing := false, cycleOf := none, agenda := [], predictions := [], fresh := 0, nextId := 0 }

end Sys2Proof.Machine
end

