-- ==== Sys2Proof/Machine/Geometry.lean ====
section
/-! DEFINITION. Bit fields, core coordinates, segments of the grid, and the layout of a field's descriptor (R8, R10, R272 to R276). -/

namespace Sys2Proof.Machine

open Sys2Proof

/-! ## Bit fields and bytes -/

/-- Bits [lo + n - 1 : lo] of a word, as a number. -/
def fld (w : Word) (lo n : Nat) : Nat := (w.toNat >>> lo) % 2 ^ n

/-- Bit i of a word. -/
def bit (w : Word) (i : Nat) : Bool := fld w i 1 == 1

/-- 1 or 0. -/
def ofBool (b : Bool) : Nat := if b then 1 else 0

/-- A word with field [lo + n - 1 : lo] replaced by v. -/
def putFld (w : Word) (lo n v : Nat) : Word :=
  BitVec.ofNat 64 (w.toNat - fld w lo n * 2 ^ lo + (v % 2 ^ n) * 2 ^ lo)

/-- The two's complement reading of the low n bits of x. -/
def signed (n x : Nat) : Int := if x % 2 ^ n < 2 ^ (n - 1) then (x % 2 ^ n : Nat) else ((x % 2 ^ n : Nat) : Int) - (2 ^ n : Nat)

/-- The low n bits of an integer. -/
def wrap (n : Nat) (i : Int) : Nat := (i % (2 ^ n : Nat)).toNat

/-- Little-endian bytes of a number (R3). -/
def bytesOf : Nat → Nat → List Byte
  | 0, _ => []
  | n + 1, v => BitVec.ofNat 8 v :: bytesOf n (v / 256)

/-- The number that bytes make, the first lowest (R3). -/
def ofBytes : List Byte → Nat
  | [] => 0
  | b :: r => b.toNat + 256 * ofBytes r

/-- n divided by d, rounded up. -/
def ceilDiv (n d : Nat) : Nat := if d = 0 then 0 else (n + d - 1) / d

/-- n rounded up to a multiple of d. -/
def roundUp (n d : Nat) : Nat := ceilDiv n d * d

/-- Base-2 logarithm of a power of two up to 2^40; 0 below 2. -/
def lg (n : Nat) : Nat := ((List.range 41).filter (fun k => 2 ^ k ≤ n)).getLast?.getD 0

/-- Ranges [a, a + n) and [b, b + m) meet. -/
def meets (a n b m : Nat) : Bool := decide (0 < n ∧ 0 < m ∧ a < b + m ∧ b < a + n)

/-- The 32-bit mixing function of R290. -/
def lowbias32 (x : BitVec 32) : BitVec 32 :=
  let x := x ^^^ (x >>> 16)
  let x := x * 0x7FEB352D
  let x := x ^^^ (x >>> 15)
  let x := x * 0x846CA68B
  x ^^^ (x >>> 16)

/-! ## The grid -/

/-- Logical coordinates of a core (R8). -/
def coreX (c : Nat) : Nat := c % Config.gridW
def coreY (c : Nat) : Nat := c / Config.gridW

/-- Logical index (R8). -/
def coreAt (x y : Nat) : Nat := y * Config.gridW + x

/-- Cluster index (R10). -/
def clusterOf (c : Nat) : Nat := coreY c / 4 * 16 + coreX c / 4

/-- Die (R8). -/
def dieOf (c : Nat) : Nat := coreX c / 32

/-- Distance of two numbers. -/
def dist (a b : Nat) : Nat := if a ≤ b then b - a else a - b

/-- Hops between two cores (R15). -/
def hops (a b : Nat) : Nat := dist (coreX a) (coreX b) + dist (coreY a) (coreY b)

/-- Largest minus smallest number of a list. -/
def spread (l : List Nat) : Nat := l.foldl max 0 - l.foldl min (l.headD 0)

/-- Largest hop count between two cores of a list (R55): the larger spread of x + y and of x - y. -/
def maxHops (cs : List Nat) : Nat :=
  max (spread (cs.map (fun c => coreX c + coreY c))) (spread (cs.map (fun c => coreX c + (Config.gridH - coreY c))))

/-- Cores of a rectangle, row by row, lowest x first (R322). -/
def rectCores (x0 y0 w h : Nat) : List Nat :=
  (List.range h).flatMap (fun j => (List.range w).map (fun i => coreAt (x0 + i) (y0 + j)))

/-- Cores of a JOBGRID or RECT word (R134). -/
def gridCores (g : Word) : List Nat := rectCores (fld g 0 6) (fld g 8 5) (fld g 16 7) (fld g 24 6)

/-- Whether a core lies in a JOBGRID word's rectangle. -/
def inGrid (g : Word) (c : Nat) : Bool :=
  let x := coreX c
  let y := coreY c
  decide (c < Config.gridW * Config.gridH ∧ fld g 0 6 ≤ x ∧ x < fld g 0 6 + fld g 16 7 ∧ fld g 8 5 ≤ y ∧ y < fld g 8 5 + fld g 24 6)

/-- Cores of a gang mask in the group of eight that holds core c (R237). -/
def gangCores (c : Nat) (m : BitVec 8) : List Nat :=
  (List.range 8).filterMap (fun i => if m.getLsbD i then some (c - c % 8 + i) else none)

/-! ## Field descriptors (R272) -/

/-- Word i of a descriptor. -/
def descW (d : List Word) (i : Nat) : Word := d.getD i 0

def fNX (d : List Word) : Nat := fld (descW d 0) 0 16
def fNY (d : List Word) : Nat := fld (descW d 0) 16 16
def fNZ (d : List Word) : Nat := fld (descW d 0) 32 16
def fSTYPE (d : List Word) : Nat := fld (descW d 0) 48 2
def fNBH (d : List Word) : Nat := fld (descW d 0) 50 2
def fCOLR (d : List Word) : Nat := fld (descW d 0) 52 2
def fNCOL (d : List Word) : Nat := fld (descW d 0) 54 4
def fLEVEL (d : List Word) : Nat := fld (descW d 0) 58 2
def fCX0 (d : List Word) : Nat := fld (descW d 1) 0 6
def fCY0 (d : List Word) : Nat := fld (descW d 1) 8 5
def fPX (d : List Word) : Nat := fld (descW d 1) 16 7
def fPY (d : List Word) : Nat := fld (descW d 1) 24 6
def fCHAN (d : List Word) : Nat := fld (descW d 1) 32 5
def fHSCHED (d : List Word) : Nat := fld (descW d 1) 40 3
def fPATCH (d : List Word) : Nat := fld (descW d 2) 0 19
def fHALO (d : List Word) : Nat := fld (descW d 2) 32 19
def fSEED (d : List Word) : Word := descW d 3
def fENTRY (d : List Word) : Word := descW d 4
def fCT (d : List Word) (i : Nat) : Word := descW d (5 + i)
def fCBUF (d : List Word) : Nat := fld (descW d 7) 0 19
def fRECSZ (d : List Word) : Nat := fld (descW d 7) 32 13
def fCMODE (d : List Word) : Bool := bit (descW d 7) 48
def fRING (d : List Word) : Word := descW d 8
def fNRING (d : List Word) : Nat := fld (descW d 9) 0 16
/-- Entry i of the colour table. -/
def fCTAB (d : List Word) (i : Nat) : Nat := fld (descW d (10 + i / 16)) (4 * (i % 16)) 4

/-- Site width in bytes (R273). -/
def fW (d : List Word) : Nat := if fSTYPE d < 2 then 1 else 2
/-- Patch width and height (R273). -/
def fpx (d : List Word) : Nat := if fPX d = 0 then 0 else fNX d / fPX d
def fpy (d : List Word) : Nat := if fPY d = 0 then 0 else fNY d / fPY d
/-- Sites of the patch and of the lattice. -/
def fSites (d : List Word) : Nat := fpx d * fpy d * fNZ d
def fAll (d : List Word) : Nat := fNX d * fNY d * fNZ d
/-- Number of colours (R276). -/
def fColours (d : List Word) : Nat := if fCOLR d = 0 then 2 else if fCOLR d = 1 then 4 else fNCOL d + 1
/-- Cores of the field. -/
def fCores (d : List Word) : List Nat := rectCores (fCX0 d) (fCY0 d) (fPX d) (fPY d)
/-- Column and row of a core in the field. -/
def fA (d : List Word) (c : Nat) : Nat := coreX c - fCX0 d
def fB (d : List Word) (c : Nat) : Nat := coreY c - fCY0 d

/-- Bytes of the coupling buffer. -/
def fCBytes (d : List Word) : Nat := if fCMODE d then fRECSZ d else fSites d * fRECSZ d

/-- Neighbour strips of a core: 0 W, 1 E, 2 S, 3 N, 4 SW, 5 SE, 6 NW, 7 NE, with entries (R275). -/
def fStripLen (d : List Word) (k : Nat) : Nat :=
  if k < 2 then fNZ d * fpy d else if k < 4 then fNZ d * fpx d else 1
def fStrips (d : List Word) : Nat := if fNBH d = 2 then 8 else 4
/-- Offset of strip k in the halo area. -/
def fStripOff (d : List Word) (k : Nat) : Nat :=
  ((List.range k).map (fun i => roundUp (fStripLen d i * fW d) 64)).sum
/-- Bytes of the halo area. -/
def fHaloBytes (d : List Word) : Nat := fStripOff d (fStrips d)

/-- The core that faces strip k of a core, if it lies in the field (R284). -/
def fFacing (d : List Word) (c k : Nat) : Option Nat :=
  let a := fA d c
  let b := fB d c
  let w := decide (0 < a)
  let e := decide (a + 1 < fPX d)
  let so := decide (0 < b)
  let n := decide (b + 1 < fPY d)
  let ok := match k with
    | 0 => w | 1 => e | 2 => so | 3 => n
    | 4 => w && so | 5 => e && so | 6 => w && n | _ => e && n
  let da := if k = 0 ∨ k = 4 ∨ k = 6 then c - 1 else if k = 1 ∨ k = 5 ∨ k = 7 then c + 1 else c
  let db := if k = 2 ∨ k = 4 ∨ k = 5 then da - Config.gridW else if k = 3 ∨ k = 6 ∨ k = 7 then da + Config.gridW else da
  if ok then some db else none

/-- Coordinates of the local site l of core c (R274). -/
def fCoord (d : List Word) (c l : Nat) : Nat × Nat × Nat :=
  (fA d c * fpx d + l % fpx d, fB d c * fpy d + l / fpx d % fpy d, l / (fpx d * fpy d))

/-- Global site index (R274). -/
def fGlobal (d : List Word) (p : Nat × Nat × Nat) : Nat := (p.2.2 * fNY d + p.2.1) * fNX d + p.1

/-- Colour of a site (R276). -/
def fColour (d : List Word) (p : Nat × Nat × Nat) : Nat :=
  if fCOLR d = 0 then (p.1 + p.2.1 + p.2.2) % 2
  else if fCOLR d = 1 then p.1 % 2 + 2 * (p.2.1 % 2)
  else fCTAB d (p.1 % 4 + 4 * (p.2.1 % 4) + 16 * (p.2.2 % 4))

/-- Neighbour offsets in the order of g3 to g10 (R288). -/
def fOffsets (d : List Word) : List (Int × Int × Int) :=
  [(-1, 0, 0), (1, 0, 0), (0, -1, 0), (0, 1, 0)] ++
  (if fNBH d = 1 then [(0, 0, -1), (0, 0, 1)] else if fNBH d = 2 then [(-1, -1, 0), (1, -1, 0), (-1, 1, 0), (1, 1, 0)] else [])

/-- Neighbours of a site in that order; none where the lattice ends (R274). -/
def fNeighbours (d : List Word) (p : Nat × Nat × Nat) : List (Option (Nat × Nat × Nat)) :=
  (fOffsets d).map (fun o =>
    let x : Int := p.1 + o.1
    let y : Int := p.2.1 + o.2.1
    let z : Int := p.2.2 + o.2.2
    if 0 ≤ x ∧ x < fNX d ∧ 0 ≤ y ∧ y < fNY d ∧ 0 ≤ z ∧ z < fNZ d then some (x.toNat, y.toNat, z.toNat) else none)

/-- Offset, in core c's memory, of the value of a site that is in its patch or in one of its strips (R274, R275, R286). -/
def fSiteOff (d : List Word) (c : Nat) (p : Nat × Nat × Nat) : Nat :=
  let x0 := fA d c * fpx d
  let y0 := fB d c * fpy d
  let w := decide (p.1 < x0)
  let e := decide (x0 + fpx d ≤ p.1)
  let so := decide (p.2.1 < y0)
  let n := decide (y0 + fpy d ≤ p.2.1)
  let ly := p.2.1 - y0
  let lx := p.1 - x0
  let strip (k i : Nat) := fHALO d + fStripOff d k + i * fW d
  if w && so then strip 4 0 else if e && so then strip 5 0 else if w && n then strip 6 0 else if e && n then strip 7 0
  else if w then strip 0 (p.2.2 * fpy d + ly) else if e then strip 1 (p.2.2 * fpy d + ly)
  else if so then strip 2 (p.2.2 * fpx d + lx) else if n then strip 3 (p.2.2 * fpx d + lx)
  else fPATCH d + ((p.2.2 * fpy d + ly) * fpx d + lx) * fW d

/-- Ranges (offset, bytes) that belong to the field in each of its cores: patch, halo area, coupling buffer (R273, R397). -/
def fRanges (d : List Word) : List (Nat × Nat) :=
  [(fPATCH d, fSites d * fW d), (fHALO d, fHaloBytes d), (fCBUF d, fCBytes d)]

end Sys2Proof.Machine
end

