-- ==== Sys2Proof/Machine/Ops.lean ====
section
/-! DEFINITION. Named operations over tables, memory, cores, slots and registers; parks; fault records; taking a trap and returning from one. -/

namespace Sys2Proof.Machine

open Sys2Proof

/-! ## Tables -/

/-- Entry k of a table, d when it is not listed. -/
def tget {α : Type} : Tbl α → Nat → α → α
  | [], _, d => d
  | (k', v) :: r, k, d => if k = k' then v else tget r k d

/-- A table with entry k set; numbers stay ascending where they were. -/
def tset {α : Type} : Tbl α → Nat → α → Tbl α
  | [], k, v => [(k, v)]
  | (k', v') :: r, k, v =>
    if k = k' then (k, v) :: r else if k < k' then (k, v) :: (k', v') :: r else (k', v') :: tset r k v

/-- A table without entry k. -/
def tdel {α : Type} (t : Tbl α) (k : Nat) : Tbl α := t.filter (fun p => p.1 != k)

/-- The listed numbers of a table. -/
def tkeys {α : Type} (t : Tbl α) : List Nat := t.map (·.1)

/-! ## Memory -/

/-- What memory that lists nothing at k reads as (log entry 3). -/
def Memory.unlisted : Byte := 0

/-- Whether the keys of a memory are strictly rising and above b. -/
def Memory.rising (b : Option Nat) : List Host.Cell → Bool
  | [] => true
  | (k, v) :: r => (match b with | none => true | some x => decide (x < k)) && (v != Memory.unlisted) && Memory.rising (some k) r

/-- The one canonical form: keys strictly rising, no byte equal to the unlisted one. (DESIGN CHOICE, log entry 3) -/
def Memory.wf (m : List Host.Cell) : Bool := Memory.rising none m

/-- The byte at key k. (DESIGN CHOICE, log entry 3) -/
def Memory.read : List Host.Cell → Nat → Byte
  | [], _ => Memory.unlisted
  | (k', v) :: r, k => if k = k' then v else Memory.read r k

/-- The memory with byte v at key k, in canonical form. (DESIGN CHOICE, log entry 3) -/
def Memory.write : List Host.Cell → Nat → Byte → List Host.Cell
  | [], k, v => if v = Memory.unlisted then [] else [(k, v)]
  | (k', v') :: r, k, v =>
    if k < k' then (if v = Memory.unlisted then (k', v') :: r else (k, v) :: (k', v') :: r)
    else if k = k' then (if v = Memory.unlisted then r else (k, v) :: r)
    else (k', v') :: Memory.write r k v

/-- The memory with n bytes from key k on unlisted. -/
def Memory.erase (m : List Host.Cell) (k n : Nat) : List Host.Cell := m.filter (fun p => decide (p.1 < k ∨ k + n ≤ p.1))

/-- n bytes from key k. -/
def Memory.readBytes (m : List Host.Cell) (k : Nat) : Nat → List Byte
  | 0 => []
  | n + 1 => Memory.read m k :: Memory.readBytes m (k + 1) n

/-- Bytes written from key k. -/
def Memory.writeBytes (m : List Host.Cell) (k : Nat) : List Byte → List Host.Cell
  | [] => m
  | b :: r => Memory.writeBytes (Memory.write m k b) (k + 1) r

/-- The little-endian number of n bytes at key k (R3). -/
def Memory.readN (m : List Host.Cell) (k n : Nat) : Nat := ofBytes (Memory.readBytes m k n)

/-- The n low bytes of v written at key k (R3). -/
def Memory.writeN (m : List Host.Cell) (k n v : Nat) : List Host.Cell := Memory.writeBytes m k (bytesOf n v)

/-! ## Cores and slots -/

/-- Core c; one that is not listed is as at reset. -/
def State.core (s : State) (c : Nat) : Core := tget s.cores c Core.reset
/-- The machine with core c replaced. -/
def State.setCore (s : State) (c : Nat) (x : Core) : State := { s with cores := tset s.cores c x }
/-- A change of one core. -/
def State.onCore (s : State) (c : Nat) (f : Core → Core) : State := s.setCore c (f (s.core c))

/-- Slot t; one that is not listed is free. -/
def Core.slot (x : Core) (t : Nat) : Slot := tget x.slots t Slot.reset
/-- The core with slot t replaced. -/
def Core.setSlot (x : Core) (t : Nat) (y : Slot) : Core := { x with slots := tset x.slots t y }

/-- Slot t of core c. -/
def State.slot (s : State) (c t : Nat) : Slot := (s.core c).slot t
/-- The machine with that slot replaced. -/
def State.setSlot (s : State) (c t : Nat) (y : Slot) : State := s.setCore c ((s.core c).setSlot t y)
/-- A change of one slot. -/
def State.onSlot (s : State) (c t : Nat) (f : Slot → Slot) : State := s.setSlot c t (f (s.slot c t))

/-- The issuing slot and core. -/
def State.me (s : State) : Slot := s.slot s.cur.core s.cur.slot
/-- The machine with the issuing slot replaced. -/
def State.setMe (s : State) (y : Slot) : State := s.setSlot s.cur.core s.cur.slot y
/-- A change of the issuing slot. -/
def State.onMe (s : State) (f : Slot → Slot) : State := s.setMe (f s.me)
/-- The issuing core. -/
def State.mine (s : State) : Core := s.core s.cur.core
/-- A change of the issuing core. -/
def State.onMine (s : State) (f : Core → Core) : State := s.onCore s.cur.core f

/-- General register r; g0 reads 0 (R106). -/
def Slot.rd (x : Slot) (r : Reg) : Word := if r = 0 then 0 else x.g[r.toNat]'(r.isLt)

/-- General register r written; g0 discards (R106). -/
def Slot.wr (x : Slot) (r : Reg) (v : Word) : Slot := if r = 0 then x else { x with g := x.g.set r.toNat v r.isLt }

/-- Vector register r. -/
def Slot.vrd (x : Slot) (r : VReg) : Vec := x.v[r.toNat]'(r.isLt)
/-- Vector register r written. -/
def Slot.vwr (x : Slot) (r : VReg) (v : Vec) : Slot := { x with v := x.v.set r.toNat v r.isLt }

/-- A register bit set with one in position r; g0 has none (R36). -/
def setBit (b : BitVec 32) (r : Reg) : BitVec 32 := if r = 0 then b else b ||| ((1 : BitVec 32) <<< r.toNat)
def clearBit (b : BitVec 32) (r : Reg) : BitVec 32 := b &&& ~~~((1 : BitVec 32) <<< r.toNat)

/-- Mark r pending and unsynchronised (R36, R38); a register whose value is still on its way waits for one value more. -/
def Slot.wait (x : Slot) (r : Reg) : Slot :=
  { x with pend := setBit x.pend r, unsync := setBit x.unsync r, more := if x.pend.getLsbD r.toNat then x.more ++ [r] else x.more }

/-- Pending bits after one value for r has returned, with further ones still on their way to the registers of more: r stays pending until its last
one has (R36, R37). -/
def pendAfter (pend : BitVec 32) (more : List Reg) (r : Reg) : BitVec 32 := if more.contains r then pend else clearBit pend r

/-- PRIO.LEVEL (R35). -/
def Slot.level (x : Slot) : BitVec 2 := BitVec.ofNat 2 (fld x.prio 0 2)
def Slot.setLevel (x : Slot) (l : BitVec 2) : Slot := { x with prio := putFld x.prio 0 2 l.toNat }

/-- A slot that becomes Free: command numbers and counters survive (R29, R41), and so does the count of instructions that a step limit watches (R349);
everything else is as at launch. -/
def Slot.freed (x : Slot) : Slot :=
  { Slot.reset with issued := x.issued, counter := x.counter, early := x.early, copyBytes := x.copyBytes, icount := x.icount }

/-- Where the accesses of slot t that its ended thread has left unperformed go on: an entry of the slot table that is no slot. (DESIGN CHOICE, log entry 39) -/
def departed (t : Nat) : Nat := 64 + t

/-- Slot t of core c becomes Free; what it has left unperformed goes on without it (R29). (DESIGN CHOICE, log entry 39) -/
def State.freeSlot (s : State) (c t : Nat) : State :=
  let l := (s.slot c t).acc
  let n := (s.slot c t).ahead
  let s := s.onSlot c t Slot.freed
  if l.isEmpty then s
  else
    { s.onSlot c (departed t) (fun x => { x with acc := x.acc ++ l, ahead := x.ahead ++ n }) with
      objs := s.objs.map (fun o => { o with queue := o.queue.map (fun q => match q.who with
        | .acc u id => if q.core = c ∧ u = t then { q with who := .acc (departed t) id } else q
        | _ => q) }) }

/-- Engine counters and command numbers of context e (R41). -/
def ectx (v : Vector Word 4) (e : Nat) : Word := v[e % 4]'(Nat.mod_lt _ (by decide))
/-- Context e set. -/
def ectxSet (v : Vector Word 4) (e : Nat) (w : Word) : Vector Word 4 := v.set (e % 4) w (Nat.mod_lt _ (by decide))

/-- A value for r returns (R36): to the register, and to every checkpoint made after the instruction issued, that is from index d on. Of two values
on their way to one register, one of a marked instruction's own result (R38), the one that is written last stands. (DESIGN CHOICE, log entry 88) -/
def Slot.giveBack (x : Slot) (r : Reg) (v : Word) (d : Nat) : Slot :=
  let upd (g : Vector Word 32) := if r = 0 then g else g.set r.toNat v r.isLt
  { x with
    g := upd x.g
    pend := pendAfter x.pend x.more r
    more := x.more.erase r
    branches := x.branches.mapIdx (fun i b => if d ≤ i then { b with g := upd b.g, pend := pendAfter b.pend b.more r, more := b.more.erase r } else b) }

/-! ## Jobs -/

/-- The job of an id. -/
def State.job? (s : State) (j : Nat) : Option Job := s.jobs.find? (fun x => x.id == j)
/-- A change of one job. -/
def State.onJob (s : State) (j : Nat) (f : Job → Job) : State :=
  { s with jobs := s.jobs.map (fun x => if x.id = j then f x else x) }

/-- The job of core c, 0 when none. -/
def State.jobOf (s : State) (c : Nat) : Nat := (s.core c).job.getD 0

/-- Word i of a launch packet (R322). -/
def Job.pw (j : Job) (i : Nat) : Word := j.pkt.getD i 0

/-- Cores of a job's rectangle. -/
def Job.cores (j : Job) : List Nat := gridCores (j.pw 2)

/-- Whether core d lies in the rectangle of core c's job (R134). -/
def State.inJob (s : State) (c d : Nat) : Bool := inGrid (s.core c).jobgrid d

/-- Whether the job of core c runs and does not drain for a save. -/
def State.runs (s : State) (c : Nat) : Bool :=
  match (s.core c).job with
  | none => true
  | some j => match s.job? j with
    | none => true
    | some x => match x.phase with | .running => !x.draining | _ => false

/-- A row link of the Seam: planes 0 and 1 are the D-net's requests and responses, 2 the X-net, 3 the C-net (R15, R417). (DESIGN CHOICE, log entry 31) -/
def seamLink (row plane : Nat) : Nat := 4 * row + plane

/-- Whether a flit of a plane from core a to core b waits for a Seam row link that retrains: it crosses in the row of a (R16, R421). (DESIGN CHOICE, log entry 100) -/
def State.seamHolds (s : State) (plane a b : Nat) : Bool := dieOf a != dieOf b && !(tget s.seam (seamLink (coreY a) plane) Link.reset).up

/-- Whether the row of the Seam that a flit from core a to core b crosses is lost for good (R423). (DESIGN CHOICE, log entry 100) -/
def State.rowLost (s : State) (a b : Nat) : Bool := dieOf a != dieOf b && (tget s.seam (seamLink (coreY a) 0) Link.reset).lost

/-- Fabric port p. -/
def State.port (s : State) (p : Nat) : Link := tget s.fabric p Link.port
/-- Fabric port p replaced. -/
def State.setPort (s : State) (p : Nat) (l : Link) : State := { s with fabric := tset s.fabric p l }

/-! ## Events and records -/

/-- An event record (R347): SSTEP, core and bit 63 in word 0; the model writes kind and slot to word 1 and the address to word 2 (log entry 17). (DESIGN CHOICE, log entry 17) -/
def State.event (s : State) (c kind slot : Nat) (addr : Word) : State :=
  let w0 := BitVec.ofNat 64 (fld (s.core c).sstep 0 32 + c * 2 ^ 32 + 2 ^ 63)
  { s with trace := s.trace ++ [{ job := s.jobOf c, words := [w0, BitVec.ofNat 64 (kind * 2 ^ 32 + slot), addr, 0] }] }

/-- A health-log record and its count; the log is a ring and keeps the latest records (R419). -/
def State.log (s : State) (unit counter action : Nat) : State :=
  let l := if s.health.length < Config.healthRing then s.health else s.health.drop 1
  { s with health := l ++ [{ time := s.rtime.toNat, unit := unit, counter := counter, action := action }], hlcount := s.hlcount + 1 }

/-- The free value for this use, and the counter moved on. (DESIGN CHOICE, log entry 16) -/
def State.draw (s : State) : Nat × State := (s.fresh, { s with fresh := s.fresh + 1 })

/-! ## Parks -/

/-- A wait that begins now, with the LIMIT sampled now (R400). -/
def Slot.waitFor (x : Slot) (now : Nat) (k : Park) (mark : Bool) : Slot :=
  { x with park := some { kind := k, since := now, limit := fld x.waitlim 0 32, mark := mark } }

/-- The slot waits for k; a wait of the same kind that stands keeps its start and LIMIT (R400). -/
def Slot.parkAt (x : Slot) (now : Nat) (k : Park) : Slot :=
  match x.park with
  | some w => if w.kind = k then x else x.waitFor now k false
  | none => x.waitFor now k false

/-- Slot t of core c waits. -/
def State.park (s : State) (c t : Nat) (k : Park) : State := s.onSlot c t (fun x => x.parkAt s.rtime.toNat k)

/-- A marker's park (R37): over at once, with every register synchronised (R360), when none is pending. -/
def Slot.mark (x : Slot) (now : Nat) : Slot :=
  if x.pend = 0 then { x with park := none, unsync := 0 } else x.waitFor now .marker false

/-- The address after the SYNC in progress. -/
def SyncStage.next : SyncStage → Word
  | .none => 0
  | .drain _ n => n
  | .arrived _ n => n

/-- The level of the SYNC in progress. -/
def SyncStage.level : SyncStage → Option Nat
  | .none => Option.none
  | .drain l _ => some l
  | .arrived l _ => some l

/-- The SYNC in progress resumed by another SYNC of its level (R401). -/
def SyncStage.onto (x : SyncStage) (next : Word) : SyncStage :=
  match x with
  | .none => .none
  | .drain l _ => .drain l next
  | .arrived l _ => .arrived l next

/-- The park that began after the instruction ends; a marked instruction's own park follows (R37). -/
def Slot.unpark (x : Slot) (now : Nat) : Slot :=
  match x.park with
  | some w => if w.mark then x.mark now else { x with park := none }
  | none => x

/-- What parks as who for core c, out of every directory queue. -/
def State.unqueue (s : State) (c : Nat) (who : Parker) : State :=
  { s with objs := s.objs.map (fun o => { o with queue := o.queue.filter (fun q => !(q.core == c && q.who == who)) }) }

/-! ## Traps (R353 to R357) -/

/-- TCAUSE[18:0] (R354). -/
def Trap.cause (tr : Trap) (gang nest : Bool) : Nat :=
  tr.code.toNat + ofBool tr.defer * 2 ^ 8 + ofBool gang * 2 ^ 9 + ofBool nest * 2 ^ 10 + tr.page % 8 * 2 ^ 11 + tr.op % 32 * 2 ^ 14

/-- TCAUSE, TADDR, TPC and TINFO written (R354). -/
def Slot.trapRegs (x : Slot) (gang : Bool) (tr : Trap) : Slot :=
  { x with tcause := BitVec.ofNat 64 (tr.cause gang x.hnd), taddr := tr.addr, tpc := x.pc, tinfo := tr.info }

/-- Delivery to a handler (R355): the saved registers, the saved level, level 3, HND, the handler's address, and the park of a marker. -/
def Slot.deliver (x : Slot) (now : Nat) (gang : Bool) (tr : Trap) (vec : Word) : Slot :=
  let y := x.trapRegs gang tr
  Slot.mark { ((y.setLevel 3) : Slot) with savedLevel := x.level, hnd := true, pc := vec } now

/-- Return from a handler (R356). -/
def Slot.handlerReturn (x : Slot) : Slot := { (x.setLevel x.savedLevel) with pc := x.tpc, hnd := false }

/-- A fault record (R357); LAST is added when the job ends. (DEDUCED, log entry 36) -/
def State.faultRec (s : State) (c t : Nat) (tr : Trap) (partner waiting : Bool) : FaultRec :=
  let x := s.slot c t
  let g := (s.core c).gang
  let gang := g != 0 && t == 0
  let w7 := ofBool partner * 2 + ofBool gang * g.toNat * 4 + ofBool tr.map.isSome * 2 ^ 10 + ofBool waiting * 2 ^ 11
  { job := s.jobOf c
    words := [BitVec.ofNat 64 ((if partner then 0 else tr.cause gang x.hnd) + t * 2 ^ 19 + c * 2 ^ 23), x.pc, tr.addr, tr.info, tr.fpc,
      (s.core c).sstep, s.rtime, BitVec.ofNat 64 w7]
    map := tr.map }

/-- A fault record appended (R357). -/
def State.record (s : State) (r : FaultRec) : State := { s with faults := s.faults ++ [r] }

/-- The job of core c begins to stop with a status, unless it already stops (R357). -/
def State.stopJob (s : State) (c status : Nat) : State :=
  match (s.core c).job with
  | none => s
  | some j => s.onJob j (fun x => match x.phase with | .running => { x with phase := .stopping status } | _ => x)

/-- Cores that issue together with core c: its gang, or itself (R50). -/
def State.gangOf (s : State) (c : Nat) : List Nat := if (s.core c).gang = 0 then [c] else gangCores c (s.core c).gang

/-- A trap without a cause of its own, for a gang partner's record. -/
def Trap.blank : Trap := { code := 0, defer := false, page := 0, op := 0, addr := 0, info := 0, fpc := 0, map := none }

/-- Slot 0 of core d parks for good with the record of its trap, which its registers show (R354), or without a cause of its own as a gang partner (R357). -/
def State.halt (s : State) (d : Nat) (tr : Option Trap) : State :=
  match tr with
  | some tr => ((s.record (s.faultRec d 0 tr false false)).onSlot d 0 (fun x => x.trapRegs ((s.core d).gang != 0) tr)).park d 0 .dead
  | none => (s.record (s.faultRec d 0 { Trap.blank with fpc := (s.slot d 0).pc } true false)).park d 0 .dead

/-- Undelivered traps of control contexts that issue together: every member parks before the same instruction, with one record each (R357). -/
def State.haltAll (s : State) (c : Nat) (own : List (Nat × Trap)) : State :=
  ((s.gangOf c).foldl (fun s d => s.halt d ((own.find? (fun p => p.1 == d)).map (·.2))) s).stopJob c 6

/-- An undelivered trap (R357); the slot's registers show it (R354). -/
def State.undelivered (s : State) (c t : Nat) (tr : Trap) : State :=
  if t = 0 then s.haltAll c [(c, tr)]
  else (((s.record (s.faultRec c t tr false false)).onSlot c t (fun x => x.trapRegs false tr)).park c t .dead).stopJob c 6

/-- A BRK that cannot be delivered acts as a hardware match (R348, R361); in a gang, for every member. (DEDUCED, log entry 38) -/
def State.brkStop (s : State) (c t : Nat) : State :=
  (if t = 0 then s.gangOf c else [c]).foldl (fun s d =>
    ((s.event d 3 t (s.slot d t).pc).park d t .brk).onCore d (fun k => { k with bkptHit := true })) s

/-- A trap on the sweep thread (R398): a record, the routine abandoned, slot 11 free; FIELD reason 9 waits for the field's stop. -/
def State.routineFault (s : State) (c : Nat) (tr : Trap) : State :=
  let s := s.record (s.faultRec c 11 tr false false)
  let s := s.onCore c (fun k =>
    { k with fields := k.fields.map (fun p =>
      match p.2.stage with
      | .routine l =>
        let g := fGlobal p.2.desc (fCoord p.2.desc c l)
        let info := BitVec.ofNat 64 (9 + p.1 * 2 ^ 4 + tr.code.toNat * 2 ^ 8 + g % 2 ^ 32 * 2 ^ 16)
        let ft : Trap := { code := 0x13, defer := true, page := tr.page, op := tr.op, addr := tr.fpc, info := info, fpc := tr.fpc, map := none }
        (p.1, { p.2 with stage := .arrive, todo := [], failed := true, fault := some ft })
      | _ => p) })
  s.freeSlot c 11

/-- A gate abort begins in slot t of core d, unless one is under way (R394); the registers of a slot with the cause, own, show it (R354); of a
gang's present instruction nothing stands. -/
def State.abortAt (s : State) (d t : Nat) (tr : Trap) (own : Bool) : State :=
  let gang := t == 0 && (s.core d).gang != 0
  ((s.onSlot d t (fun x => match x.abort with
    | some _ => x
    | none => { (if own then x.trapRegs gang tr else x) with abort := some { inner := tr, double := x.hnd } })).onCore d
      (fun k => if t = 0 then { k with gangDone := none } else k)).park d t .drain

/-- A gate abort begins (R394); in a gang, in every member, each with its own trap if it has one. It ends when the slots have drained. -/
def State.beginAbort (s : State) (c t : Nat) (tr : Trap) (own : List (Nat × Trap)) : State :=
  (if t = 0 then s.gangOf c else [c]).foldl (fun s d =>
    match (if d = c then some (c, tr) else none).or (own.find? (fun p => p.1 == d)) with
    | some p => s.abortAt d t p.2 true
    | none => s.abortAt d t tr false) s

/-- A slot whose instruction at hand ends without effect: a GATE past its check and block reads under way are given up. -/
def Slot.undone (x : Slot) : Slot := { x with gated := none, walk := Walk.none }

/-- Slot t of core c so, and its block read out of the directory queue in which it waits (R353, R394). -/
def State.undo (s : State) (c t : Nat) : State := (s.unqueue c (.block t)).onSlot c t Slot.undone

/-- Slot 0 of a gang member that takes a trap together with its gang: its instruction at hand has no effect, and a SYNC that it has begun and not
arrived at is given up (R357, R401). -/
def State.gangUndone (s : State) (e : Nat) : State :=
  (s.undo e 0).onCore e (fun k => { k with
    gangDone := none
    sync := match k.sync with | .drain l n => if (k.slot 0).park.any (fun w => w.kind == .sync l) then .none else .drain l n | x => x })

/-- A trap of a gang is taken by every member, each with its own cause if it has one: none is delivered to a handler (R355, R357, R361, R394). (DEDUCED, log entry 36) -/
def State.takeGang (s : State) (own : List (Nat × Trap)) : State :=
  match own with
  | [] => s
  | (d, tr) :: _ =>
    let s := (s.gangOf d).foldl State.gangUndone s
    if tr.code = 0x17 then s.brkStop d 0
    else if (s.slot d 0).calls.isEmpty then s.haltAll d own
    else s.beginAbort d 0 tr own

/-- Slot t of core c takes a trap whose resume address is the slot's pc (R355, R357, R361, R393, R398). (DEDUCED, log entry 38) -/
def State.takeTrap (s : State) (c t : Nat) (tr : Trap) : State :=
  if t = 0 ∧ (s.core c).gang ≠ 0 then s.takeGang [(c, tr)]
  else
    let s := s.undo c t
    let x := s.slot c t
    if t = 11 ∧ tr.code ≠ 0x17 then s.routineFault c tr
    else match x.calls with
      | k :: _ =>
        if tr.code = 0x17 then s.brkStop c t
        else if bit k.entry.w0 25 && !x.hnd then s.setSlot c t (x.deliver s.rtime.toNat false tr k.entry.w3)
        else s.beginAbort c t tr []
      | [] =>
        if bit x.tvec 0 && !x.hnd then s.setSlot c t (x.deliver s.rtime.toNat false tr (BitVec.ofNat 64 (x.tvec.toNat / 4 * 4)))
        else if tr.code = 0x17 then s.brkStop c t
        else s.undelivered c t tr

/-- A completion trap waits for the slot's next instruction boundary (R353); a slot that has become free has none, and its traps go nowhere. (DESIGN CHOICE, log entry 39) -/
def State.queueTrap (s : State) (c t : Nat) (tr : Trap) : State :=
  s.onSlot c t (fun x => if x.mode = .free then x else { x with traps := x.traps ++ [tr] })

/-- An issue trap of the issuing slot: TPC and FPC hold its address (R353). -/
def State.issueTrap (s : State) (code : BitVec 8) (addr info : Word) : State :=
  s.takeTrap s.cur.core s.cur.slot
    { code := code, defer := false, page := s.cur.page, op := s.cur.op, addr := addr, info := info, fpc := s.cur.pc, map := none }

end Sys2Proof.Machine
end

