-- ==== Sys2Proof/Machine/Flags.lean ====
section
/-! DEFINITION. Words the machine composes: TINFO of each cause, MSTAT, TILES, BPHASE and the other status reads (R189, R202, R358, R367, R368, R387, R391, R395, R396, R402, R408). -/

namespace Sys2Proof.Machine

open Sys2Proof

/-- TINFO of WINDOW, PAGE, PROT and ECC (R367). -/
def memInfo (reason acc space : Nat) (asid : BitVec 16) (key : Nat) (again : Bool) : Word :=
  BitVec.ofNat 64 (reason % 16 + acc % 8 * 2 ^ 4 + space % 8 * 2 ^ 7 + asid.toNat * 2 ^ 16 + key % 128 * 2 ^ 32 + ofBool again * 2 ^ 39)

/-- TINFO of ENGINE reason 0: context, cause and detail of the refused access (R363, R368). (DEDUCED, log entry 35) -/
def engInfo0 (ctx code reason acc space : Nat) (num : Nat) : Word :=
  BitVec.ofNat 64 (ctx % 4 + code % 256 * 2 ^ 8 + reason % 16 * 2 ^ 16 + acc % 8 * 2 ^ 20 + space % 8 * 2 ^ 23 + num % 2 ^ 32 * 2 ^ 32)

/-- TINFO of ENGINE reasons 1 to 4 (R363). (DEDUCED, log entry 35) -/
def engInfo (ctx reason num : Nat) : Word := BitVec.ofNat 64 (ctx % 4 + reason % 16 * 2 ^ 4 + num % 2 ^ 32 * 2 ^ 32)

/-- TINFO of STAGE and CAP at a directory entry (R387); o is the object, if one is concerned. -/
def stageInfo (reason acc x : Nat) (o : Option Obj) : Word :=
  BitVec.ofNat 64 (reason % 32 + acc % 8 * 2 ^ 5 + x % 16 * 2 ^ 12 +
    match o with
    | none => 0
    | some o => o.state % 16 * 2 ^ 8 + o.cls % 64 * 2 ^ 16 + o.owner % 2048 * 2 ^ 22 + ofBool o.owned * 2 ^ 33)

/-- TINFO of FIELD (R396). -/
def fieldInfo (reason id inner value mreason acc : Nat) : Word :=
  BitVec.ofNat 64 (reason % 16 + id % 4 * 2 ^ 4 + inner % 256 * 2 ^ 8 + value % 2 ^ 32 * 2 ^ 16 + mreason % 16 * 2 ^ 48 + acc % 8 * 2 ^ 52)

/-- TINFO of WAITTIME (R402). -/
def waitInfo (kind : Nat) (arrived : Bool) (arg want first missing : Nat) : Word :=
  BitVec.ofNat 64 (kind % 16 + ofBool arrived * 2 ^ 7 + arg % 32 * 2 ^ 8 + want % 2 ^ 16 * 2 ^ 16 + first % 2048 * 2 ^ 32 + missing % 4096 * 2 ^ 43)

/-- TINFO of GATEABORT (R395). -/
def abortInfo (inner : BitVec 8) (gate : BitVec 10) (depth : Nat) (double : Bool) : Word :=
  BitVec.ofNat 64 (inner.toNat + gate.toNat * 2 ^ 8 + depth % 8 * 2 ^ 18 + ofBool double * 2 ^ 21)

/-- TINFO of SLOT for an overrun (R408). -/
def overrunInfo (slot lvl : Nat) (o : Overrun) : Word :=
  BitVec.ofNat 64 (slot % 16 + 2 ^ 4 + (lvl - 1) % 4 * 2 ^ 5 + o.fslot % 2 ^ 16 * 2 ^ 8 + min o.count 0xFFFF * 2 ^ 24)

/-- TILES (R189). -/
def tilesWord (t : Tbl Tile) : Word :=
  BitVec.ofNat 64 (((List.range 16).map (fun i =>
    let x := tget t i Tile.reset
    ofBool x.alloc * 2 ^ i + ofBool (x.alloc && x.int) * 2 ^ (16 + i))).sum)

/-- Presence bits of the port registers (R232). -/
def presence (p : Tbl Port) : Word :=
  BitVec.ofNat 64 (((List.range 32).map (fun i => ofBool (tget p i Port.reset).present * 2 ^ i)).sum)

/-- MPOLL (R234). -/
def pollWord (n : Nat) (backlog : Bool) : Word := BitVec.ofNat 64 (n % 64 + ofBool backlog * 2 ^ 32)

/-- BPHASE (R220). -/
def phaseWord (ch : Chan) (members seg : Nat) : Word :=
  BitVec.ofNat 64 (ch.p.toNat + ch.ac.toNat * 2 ^ 16 + members % 4096 * 2 ^ 32 + seg % 4 * 2 ^ 44)

/-- BRED (R221). -/
def recordItem (r : Record) (item : Nat) : Word :=
  BitVec.ofNat 64 (match item with
    | 0 => r.sum
    | 1 => r.min
    | 2 => r.max
    | 3 => r.last % 2048 + r.phase % 2 ^ 16 * 2 ^ 16 + ofBool r.wrap * 2 ^ 32
    | _ => r.rlast)

/-- STGET of an object (R254). -/
def objWord (o : Obj) : Word :=
  BitVec.ofNat 64 (o.state % 16 + o.cls % 64 * 2 ^ 4 + o.owner % 2048 * 2 ^ 10 + ofBool o.owned * 2 ^ 21 +
    ofBool (!o.queue.isEmpty) * 2 ^ 22 + o.log2 % 32 * 2 ^ 23 + o.scope.toNat * 2 ^ 28 + 2 ^ 30)

/-- MSTAT (R202). -/
def mstatWord (x : Slot) (busy : Bool) : Word :=
  BitVec.ofNat 64 (ofBool x.iovf + ofBool x.dnan * 2 + ofBool x.dovf * 4 + ofBool busy * 8)

/-- HSTAT (R142). -/
def hstatWord (k : Core) : Word :=
  BitVec.ofNat 64 (((List.range 13).map (fun t => ofBool ((k.slot t).mode != .free) * 2 ^ t)).sum)

/-- DOMAIN (R258). -/
def domainWord (x : Slot) : Word := BitVec.ofNat 64 (x.dom.toNat + ofBool (x.dom == 0) * 2 ^ 6 + x.key.toNat * 2 ^ 8)

/-- FLDSTAT of a defined field, live1 when CT1 is the LIVE object (R282). -/
def fieldWord (f : Field) (live1 : Bool) : Word :=
  BitVec.ofNat 64 (f.next % 2 ^ 32 + (if f.run then f.colour % 16 else 0) * 2 ^ 32 + ofBool f.run * 2 ^ 36 + 2 ^ 37 + ofBool live1 * 2 ^ 38)

end Sys2Proof.Machine
end

