-- ==== Sys2Proof/Machine/Operands.lean ====
section
/-! DEFINITION. Operand forms: second sources, memory operands, the address map (R21, R22, R112, R144, R172 to R175). -/

namespace Sys2Proof.Machine

open Sys2Proof

/-- Value of a second source (R112). -/
def srcVal (x : Slot) : Src → Word
  | .reg r => x.rd r
  | .imm v => v

/-- General registers a second source reads. -/
def srcRegs : Src → List Reg
  | .reg r => [r]
  | .imm _ => []

/-- Address of a page-1 access of size bytes (R144). -/
def memAddr (m : MemOp) (x : Slot) (size : Nat) : Word :=
  x.rd m.base + m.off + x.rd m.idx * BitVec.ofNat 64 size

/-- Address of an ACAS, which has no index (R144). -/
def memAddrNoIdx (m : MemOp) (x : Slot) : Word := x.rd m.base + m.off

/-- Address with base, index scaled by 64 and offset (R163, R174). -/
def lineAddr (x : Slot) (base idx : Reg) (off : Word) : Word := x.rd base + off + x.rd idx * 64

/-- Base plus offset (R199, R200). -/
def baseAddr (x : Slot) (base : Reg) (off : Word) : Word := x.rd base + off

/-- Whether an address is a multiple of n (R145). -/
def aligned (a : Word) (n : Nat) : Bool := a.toNat % n == 0

/-- Where an address points (R21, R22). -/
inductive Space where
  | self (off : Nat)
  | window (core off : Nat)
  | commons (off : Nat)
  | virt (va : Nat)
  | reserved
  deriving DecidableEq, Repr

/-- The space of an address (R21, R22). (DESIGN CHOICE, log entry 14) -/
def spaceOf (a : Word) : Space :=
  let hi := fld a 56 8
  if hi = 0 then .virt a.toNat
  else if hi = 0x0D then (if fld a 28 28 = 0 then .commons (fld a 0 28) else .reserved)
  else if hi = 0x0E then (if fld a 31 25 = 0 ∧ fld a 19 1 = 0 then .window (fld a 20 11) (fld a 0 19) else .reserved)
  else if hi = 0x0F then (if fld a 19 37 = 0 then .self (fld a 0 19) else .reserved)
  else .reserved

/-- SPACE of R367; a virtual address is host-shared when its translation says so. -/
def Space.code (sp : Space) (host : Bool) : Nat :=
  match sp with
  | .self _ => 4
  | .window _ _ => 3
  | .commons _ => 2
  | .virt _ => ofBool host
  | .reserved => 5

/-- Memory keys of the untranslated spaces. (DESIGN CHOICE, log entry 15) -/
def coreKey (c off : Nat) : Nat := Config.coreBase + c * 2 ^ 20 + off
/-- (DESIGN CHOICE, log entry 15) -/
def commonsKey (off : Nat) : Nat := Config.commonsBase + off
/-- (DESIGN CHOICE, log entry 15) -/
def hostKey (a : Nat) : Nat := Config.hostBase + a
/-- A byte of a fabric peer's memory (DESIGN CHOICE, log entries 15 and 32). (DESIGN CHOICE, log entry 15) -/
def peerKey (a : Nat) : Nat := Config.peerBase + a

/-- The self-window address of an offset (R22). -/
def selfAddr (off : Nat) : Word := BitVec.ofNat 64 (Config.selfBase + off)
/-- The core-window address of an offset (R22). -/
def windowAddr (c off : Nat) : Word := BitVec.ofNat 64 (Config.coreBase + c * 2 ^ 20 + off)

end Sys2Proof.Machine
end

