-- ==== Sys2Proof/Machine/Issue.lean ====
section
/-! DEFINITION. The issue of an instruction: what may issue, ORDER, waiting for branches, retirement with the switch marker (R36 to R40, R257, R353, R360). -/

namespace Sys2Proof.Machine

open Sys2Proof

/-- Which slots may issue an instruction. -/
inductive Who where
  | any          -- the sweep thread too (R289)
  | noSweep      -- all but the sweep thread
  | threads      -- slots 0 to 10
  | control      -- slot 0
  | retriever    -- slot 12
  | sweep        -- slot 11
  deriving DecidableEq, Repr

/-- What an instruction asks of the issue stage: registers read and written, variable latency (R36), waiting for branches (R39), privilege (R257), slots. -/
structure Need where
  rs : List Reg := []
  ws : List Reg := []
  var : Bool := false
  late : Bool := true
  priv : Bool := false
  who : Who := .noSweep

/-- What came of an issue: done, done with a jump, not issued, an issue trap, or a state that is already final. -/
inductive Act where
  | done (s : State)
  | go (s : State) (pc : Word)
  | wait (k : Park)
  | trap (code : BitVec 8) (addr info : Word)
  | stay (s : State)

/-- ILLEGAL with a reason (R358). -/
def Act.illegal (reason : Nat) : Act := .trap 0x01 0 (BitVec.ofNat 64 reason)
/-- ALIGN with the log of the required alignment (R358). -/
def Act.misaligned (a : Word) (log2 : Nat) : Act := .trap 0x06 a (BitVec.ofNat 64 log2)

/-- Whether slot t may issue for this rule. -/
def Who.allows (w : Who) (t : Nat) : Bool :=
  match w with
  | .any => true
  | .noSweep => t != 11
  | .threads => decide (t ≤ 10)
  | .control => t == 0
  | .retriever => t == 12
  | .sweep => t == 11

/-- The register and the reader bit of an ORDER trap, if the instruction takes one (R360). -/
def orderFault (x : Slot) (n : Need) (mark : Bool) : Option Word :=
  match n.rs.find? (fun r => x.unsync.getLsbD r.toNat) with
  | some r => some (BitVec.ofNat 64 (r.toNat + ofBool mark * 32))
  | none =>
    if mark then none
    else (n.ws.find? (fun r => x.unsync.getLsbD r.toNat)).map (fun r => BitVec.ofNat 64 r.toNat)

/-- The issue trap that does not depend on operand values, if any. (DEDUCED, log entry 34) -/
def issueFault (n : Need) (s : State) : Option (BitVec 8 × Word) :=
  if !n.who.allows s.cur.slot then some (0x0F, BitVec.ofNat 64 s.cur.slot)
  else if n.priv && s.me.dom != 0 then some (0x05, 0xFFF)
  else (orderFault s.me n s.cur.mark).map (fun i => (0x03, i))

/-- Address of the next instruction (R86). -/
def State.nextPc (s : State) : Word := s.cur.pc + BitVec.ofNat 64 s.cur.len

/-- The issuing slot waits without having issued: it was not ready (R26). -/
def State.hold (s : State) (k : Park) : State :=
  { s.park s.cur.core s.cur.slot k with cur := { s.cur with held := true } }

/-- An issue trap; while a branch is unresolved the instruction waits for it instead (R40). -/
def State.trapOrHold (s : State) (code : BitVec 8) (addr info : Word) : State :=
  if s.me.branches.isEmpty then s.issueTrap code addr info else s.hold .branch

/-- The slot after an instruction that issued: its pc, pending results and marker (R36, R37). A park that the instruction began itself stays, and the marker follows it. -/
def Slot.retired (x : Slot) (n : Need) (now : Nat) (mark : Bool) (pc : Word) : Slot :=
  let y := if n.var then n.ws.foldl Slot.wait x else x
  let z := { y with pc := pc, icount := y.icount + 1, walk := Walk.none }
  match z.park with
  | some w => { z with park := some { w with mark := mark } }
  | none => if mark then z.mark now else z

/-- The issuing slot retires its instruction. -/
def State.retire (s : State) (n : Need) (pc : Word) : State :=
  s.onMe (fun x => x.retired n s.rtime.toNat s.cur.mark pc)

/-- The issue of one instruction of the issuing slot: the checks in order, then its effect f on the state with the slot's earlier wait cleared. -/
def issue (n : Need) (f : State → Act) (s : State) : Out State :=
  .next (match issueFault n s with
    | some (code, info) => s.trapOrHold code 0 info
    | none =>
      if n.late && !s.me.branches.isEmpty then s.hold .branch
      else
        match f (s.onMe (fun x => { x with park := none })) with
        | .done s' => s'.retire n s.nextPc
        | .go s' pc => s'.retire n pc
        | .wait k => s.hold k
        | .trap code addr info => s.trapOrHold code addr info
        | .stay s' => s')

/-- The slot whose registers decide branches: the gang leader's, or the issuing slot's own (R50). -/
def State.lead (s : State) : Slot :=
  if s.cur.slot = 0 then s.slot ((s.gangOf s.cur.core).headD s.cur.core) 0 else s.me

/-- Whether the issuing slot is a gang member. -/
def State.inGang (s : State) : Bool := s.cur.slot == 0 && s.mine.gang != 0

/-- Whether every other member of the issuing core's gang has issued the instruction at hand (R50). -/
def State.lastOfGang (s : State) : Bool := (s.gangOf s.cur.core).all (fun d => d == s.cur.core || (s.core d).gangDone.isSome)

/-- The gang of the issuing core dissolves as its last member issues (R51, R124). -/
def State.dissolve (s : State) : State :=
  if s.lastOfGang then (s.gangOf s.cur.core).foldl (fun s d => s.onCore d (fun k => { k with gang := 0 })) s else s

/-- A predicted jump (R39): without a prediction, in a gang or marked, it resolves at issue; otherwise the slot goes on at the guess. (DESIGN CHOICE, log entry 5) -/
def predicted (s : State) (actual other : Word) (useGuess : Bool) : Act :=
  match s.predictions with
  | [] => .go s actual
  | p :: ps =>
    if s.inGang || s.cur.mark then .go s actual
    else
      let guess := if useGuess then p else if p = 0 then other else actual
      let x := s.me
      let b : Checkpoint := { actual := actual, guess := guess, g := x.g, pend := x.pend, more := x.more, unsync := x.unsync, issued := x.issued, bpc := s.cur.pc, icount := x.icount, charged := [] }
      .go ({ s with predictions := ps }.onMe (fun x => { x with branches := x.branches ++ [b] })) guess

end Sys2Proof.Machine
end

