-- ==== Sys2Proof/Machine/Access.lean ====
section
/-! DEFINITION. Access to memory: translation, permission, windows, poison, keys, and the reads and writes of bytes (R18 to R24, R145 to R148, R211, R212, R259, R260, R367 to R384). -/

namespace Sys2Proof.Machine

open Sys2Proof

/-! ## Translation -/

/-- Bytes of a page (R374). -/
def pageBytes (size : BitVec 2) : Nat := match size with | 0 => 2 ^ 12 | 1 => 2 ^ 16 | 2 => 2 ^ 21 | _ => 2 ^ 30

/-- Whether an entry translates va under asid. -/
def TlbEntry.hits (e : TlbEntry) (asid : BitVec 16) (va : Nat) : Bool := e.asid == asid && e.va ≤ va && decide (va < e.va + pageBytes e.size)

/-- The entry that translates va under asid. -/
def lookup (l : List TlbEntry) (asid : BitVec 16) (va : Nat) : Option TlbEntry := l.find? (fun e => e.hits asid va)

/-- The fabric port of an entry that names a fabric peer: one whose physical page lies beyond HBM (R332). (DESIGN CHOICE, log entry 32) -/
def TlbEntry.peer (e : TlbEntry) : Option (BitVec 4) := if e.host || decide (e.pa < Config.hbmBytes) then none else Config.peerPort e.pa

/-- Where an entry puts va; its va carries the tweak of its key. (DESIGN CHOICE, log entry 14) (DESIGN CHOICE, log entry 32) -/
def TlbEntry.place (e : TlbEntry) (va : Nat) : Place :=
  let pa := e.pa + (va - e.va)
  { key := if e.host then hostKey pa else if e.peer.isSome then peerKey pa else pa, ty := e.ty, r := e.r, w := e.w, st := e.st, host := e.host, kidx := e.key, virt := true, page := e.va, size := e.size, peer := e.peer }

/-- A place of an untranslated space: normal type, no key (R147). -/
def Place.plain (key : Nat) : Place := { key := key, ty := 0, r := true, w := true, st := false, host := false, kidx := 0, virt := false, page := 0, size := 0, peer := none }

/-- The place of an address in a reserved space: no byte and no object is there. -/
def Place.nowhere : Place := .plain (2 ^ 80)

/-- The place of an untranslated address of core c; none for a virtual or reserved one. -/
def plainPlace (c : Nat) : Space → Option Place
  | .self off => some (.plain (coreKey c off))
  | .window d off => some (.plain (coreKey d off))
  | .commons off => some (.plain (commonsKey off))
  | _ => none

/-- The cluster translation cache, then the firmware's device-private tables (R373). -/
def State.serviceLookup (s : State) (c : Nat) (asid : BitVec 16) (va : Nat) : Option TlbEntry :=
  match lookup (tget s.ctc (clusterOf c) []) asid va with
  | some e => some e
  | none => lookup s.pageTables asid va

/-- The translation a thread access of core c finds in the core TLB (R147). -/
def State.tlbPlace (s : State) (c : Nat) (asid : BitVec 16) (a : Word) : Option Place :=
  match spaceOf a with
  | .virt va => (lookup (s.core c).tlb asid va).map (fun e => e.place va)
  | sp => plainPlace c sp

/-- Whether two entries are for the same page and ASID. -/
def TlbEntry.same (e x : TlbEntry) : Bool := x.va == e.va && x.size == e.size && x.asid == e.asid

/-- The list without the page of e, and with room for one more: the least recently filled of cap goes (R374). -/
def makeRoom (l : List TlbEntry) (e : TlbEntry) (cap : Nat) : List TlbEntry :=
  let r := l.filter (fun x => !e.same x)
  if r.length < cap ∨ r.length < l.length then r else r.drop 1

/-- One entry filled: an entry for the same page and ASID is replaced, else the least recently filled goes (R374). -/
def fillTlb (l : List TlbEntry) (e : TlbEntry) (cap : Nat) : List TlbEntry := makeRoom l e cap ++ [e]

/-- A core with every walk of its commands, block reads and fields changed. -/
def Core.mapWalks (k : Core) (f : Walk → Walk) : Core :=
  let cmds (t : Tbl (List Cmd)) : Tbl (List Cmd) := t.map (fun p => (p.1, p.2.map (fun m => { m with walk := f m.walk })))
  { k with
    queue := cmds k.queue, exec := cmds k.exec
    slots := k.slots.map (fun p => (p.1, { p.2 with walk := f p.2.walk }))
    fields := k.fields.map (fun p => (p.1, { p.2 with walk := f p.2.walk })) }

/-- A core's TLB filled, or an entry's place taken by one that is not usable; its micro-TLBs, and what its walks have found, drop the page (R374). -/
def Core.fill (k : Core) (e : TlbEntry) (valid : Bool) : Core :=
  { k.mapWalks (fun w => { w with xlat := w.xlat.filter (fun x => !e.same x) }) with
    tlb := if valid then fillTlb k.tlb e Config.tlbEntries else makeRoom k.tlb e Config.tlbEntries
    mtlb := k.mtlb.filter (fun x => !e.same x), ctlb := k.ctlb.filter (fun x => !e.same x) }

/-! ## Who accesses, and how -/

/-- The agent of an access: its core and the domain, ASID and key of its group (R258), the translations it finds, and how far its walk has
come, and as what it parks at a directory entry (R248). -/
structure Agent where
  core : Nat
  dom  : BitVec 6
  asid : BitVec 16
  key  : BitVec 7
  tlb  : List TlbEntry
  walk : Walk
  who  : Parker
  deriving DecidableEq, Repr

/-- A thread's own accesses and block reads: the core TLB (R147). -/
def State.slotAgent (s : State) (c t : Nat) : Agent :=
  let x := s.slot c t
  { core := c, dom := x.dom, asid := x.asid, key := x.key, tlb := x.walk.xlat ++ (s.core c).tlb, walk := x.walk, who := .block t }

/-- The TLB that the accesses of engine e look in: the micro-TLB of the matrix and of the copy load pipe, otherwise the core TLB (R147, R170). (DESIGN CHOICE, log entry 75) -/
def Core.pipeTlb (k : Core) (e : Nat) : List TlbEntry := match e with | 0 => k.mtlb | 2 => k.ctlb | _ => k.tlb

/-- A command's accesses: the translations it has got, then those of its engine's TLB. -/
def State.cmdAgent (s : State) (c e : Nat) (m : Cmd) : Agent :=
  { core := c, dom := m.dom, asid := m.asid, key := m.key, tlb := m.walk.xlat ++ (s.core c).pipeTlb e, walk := m.walk, who := .cmd m.id }

/-- A Herder's accesses for field id. -/
def State.fieldAgent (s : State) (c id : Nat) (f : Field) : Agent :=
  { core := c, dom := f.dom, asid := f.asid, key := f.key, tlb := f.walk.xlat ++ (s.core c).tlb, walk := f.walk, who := .field id }

/-- An access of slot t that has issued. -/
def Access.agent (a : Access) (c t : Nat) : Agent :=
  { core := c, dom := a.dom, asid := a.asid, key := a.key, tlb := [], walk := Walk.none, who := .acc t a.id }

/-- Whether an access waits on a page request (R378). -/
def AccPhase.onPage : AccPhase → Bool
  | .pageReq _ _ => true
  | _ => false

/-- Whether a walk waits on a page request for the page of an address: only REPLAY releases it (R380, R381). -/
def Walk.onPage (w : Walk) (a : Word) : Bool := w.ask.any (fun q => q.phase.onPage && q.va.toNat / 2 ^ 12 == a.toNat / 2 ^ 12)

/-- The place an agent finds for an address. -/
def Agent.place (g : Agent) (a : Word) : Option Place :=
  match spaceOf a with
  | .virt va => if g.walk.onPage a then none else (lookup g.tlb g.asid va).map (fun e => e.place va)
  | sp => plainPlace g.core sp

/-- ACC codes of R367 that write. -/
def accWrites (acc : Nat) : Bool := acc == 1 || acc == 2 || acc == 3 || acc == 5
/-- ACC codes that read. -/
def accReads (acc : Nat) : Bool := acc == 0 || acc == 2 || acc == 3 || acc == 4 || acc == 6

/-! ## Refusals -/

/-- A refusal: cause code, REASON, SPACE and the page's key (R367). -/
structure Deny where
  code   : Nat
  reason : Nat
  space  : Nat
  key    : Nat
  deriving DecidableEq, Repr

/-- The gate frames of a core (R260). -/
def inFrames (off n : Nat) : Bool := meets off n Config.frameBase 0x16000

/-- Whether a range of a core's memory belongs to another domain, or to the gate frames (R260). (DESIGN CHOICE, log entry 85) -/
def State.foreign (s : State) (d : Nat) (dom : BitVec 6) (off n : Nat) : Bool :=
  dom != 0 && (((s.core d).gatesOn && inFrames off n) || s.domRange.any (fun p => p.1 != dom.toNat && meets off n p.2.1 p.2.2))

/-- Whether a range of core d's memory meets a running field's patch, halo area or coupling buffer (R291, R397). -/
def State.fieldGuard (s : State) (d off n : Nat) : Bool :=
  (s.core d).fields.any (fun p => p.2.run && (fRanges p.2.desc).any (fun r => meets off n r.1 r.2))

/-- Whether it meets those of a running field other than the one on channel ch: its halo flits have no business there (R397). (DESIGN CHOICE, log entry 74) -/
def State.haloGuard (s : State) (d ch off n : Nat) : Bool :=
  (s.core d).fields.any (fun p => p.2.run && fCHAN p.2.desc != ch && (fRanges p.2.desc).any (fun r => meets off n r.1 r.2))

/-- The ECC reason of a poisoned block that n bytes at a key touch (R383). -/
def State.poisoned (s : State) (key n : Nat) : Option Nat :=
  if n = 0 then none else (s.poison.find? (fun p => decide (key / 64 ≤ p.1 ∧ p.1 ≤ (key + n - 1) / 64))).map (·.2)

/-- An open window of kind w or r that holds offset o. -/
def Window.holds (x : Window) (write : Bool) (o : Nat) : Bool :=
  x.isOpen && (if write then x.w else x.r) && decide (x.base ≤ o ∧ o < x.base + x.len)

/-- The lowest-numbered open window of a core that holds offset o (R211). -/
def Core.windowAt (k : Core) (write : Bool) (o : Nat) : Option Nat :=
  (List.range 4).find? (fun i => (tget k.windows i Window.reset).holds write o)

/-- The judgement of a remote write of n bytes at offset o of core d, as the windows stand (R212, R369, R370). -/
def State.judgeRemote (s : State) (d : Nat) (dom : BitVec 6) (o n : Nat) : Option Deny :=
  let k := s.core d
  if s.foreign d dom o n then some ⟨0x07, 3, 3, 0⟩
  else if s.fieldGuard d o n then some ⟨0x07, 0, 3, 0⟩
  else match (List.range n).find? (fun i => (k.windowAt true (o + i)).isNone) with
    | none => none
    | some i =>
      match (List.range 4).find? (fun w =>
          let x := tget k.windows w Window.reset
          x.known && !x.isOpen && x.w && decide (x.base ≤ o + i ∧ o + i < x.base + x.len)) with
      | some w => some ⟨0x19, w, 3, 0⟩
      | none => some ⟨0x07, 0, 3, 0⟩

/-- The kind of access that a permission is asked for (R371): thread plain, atomic on AADD, ASWP or ACAS at system scope, other atomic, VAMO, engine. -/
inductive AccShape where
  | plain | hostAtomic | atomic | vamo | engine
  deriving DecidableEq, Repr

/-- The permission of a translated access of n bytes; a page with key index 0 needs no loaded key slot (DESIGN CHOICE, log entry 66). -/
def State.permit (s : State) (g : Agent) (p : Place) (acc n : Nat) (sh : AccShape) : Option Deny :=
  let sp := ofBool p.host
  let k := p.kidx.toNat
  if !p.host && p.peer.isNone && decide (Config.hbmBytes < p.key + n) then some ⟨0x09, 3, sp, 0⟩
  else if (accReads acc && acc != 2 && acc != 3 && !p.r) || (accWrites acc && !p.w) then some ⟨0x0A, 0, sp, k⟩
  else if p.kidx != 0 && p.kidx != g.key && g.dom != 0 then some ⟨0x0A, 1, sp, k⟩
  else if (sh == .engine && (p.ty == 2 || p.ty == 3)) || ((sh == .atomic || sh == .hostAtomic || sh == .vamo) && (p.ty == 1 || p.ty == 2)) || (sh == .vamo && p.ty == 3)
    then some ⟨0x0A, 2, sp, k⟩
  else if p.host && (sh == .atomic || sh == .vamo) then some ⟨0x0A, 3, sp, k⟩
  else if p.kidx != 0 && !s.keysLoaded.getLsbD k then some ⟨0x0A, 4, sp, k⟩
  else none

/-- Whether the access lacks a right that a host-shared page must grant, so that a page request goes out in place of PROT (R378). -/
def Place.lacks (p : Place) (acc : Nat) : Bool := p.host && ((accReads acc && acc != 2 && acc != 3 && !p.r) || (accWrites acc && !p.w))

/-- The refusal of an access of n bytes at address a, placed at p, before any staged object is asked; windows for writes are judged at landing. (DEDUCED, log entry 34) -/
def State.deny (s : State) (g : Agent) (a : Word) (n : Nat) (p : Place) (acc : Nat) (sh : AccShape) : Option Deny :=
  let ecc := if accReads acc then s.poisoned p.key n else none
  match spaceOf a with
  | .self off =>
    if sh == .vamo then some ⟨0x07, 5, 4, 0⟩
    else if s.foreign g.core g.dom off n then some ⟨0x07, 3, 4, 0⟩
    else if accWrites acc && s.fieldGuard g.core off n then some ⟨0x13, 11, 4, 0⟩
    else ecc.map (fun r => ⟨0x14, r, 4, 0⟩)
  | .window d off =>
    if sh == .atomic || sh == .hostAtomic || sh == .vamo then some ⟨0x07, 5, 3, 0⟩
    else if accWrites acc then s.judgeRemote d g.dom off n
    else if s.foreign d g.dom off n then some ⟨0x07, 3, 3, 0⟩
    else if (List.range n).any (fun i => ((s.core d).windowAt false (off + i)).isNone) then some ⟨0x07, 1, 3, 0⟩
    else ecc.map (fun r => ⟨0x14, r, 3, 0⟩)
  | .commons _ => ecc.map (fun r => ⟨0x14, r, 2, 0⟩)
  | .virt _ =>
    match s.permit g p acc n sh with
    | some d => some d
    | none => ecc.map (fun r => ⟨0x14, r, ofBool p.host, p.kidx.toNat⟩)
  | .reserved => some ⟨0x07, 6, 5, 0⟩

/-! ## Staged objects found by place (R241, R242) -/

/-- Whether an object holds the byte at a key. -/
def Obj.holds (o : Obj) (key : Nat) : Bool := o.exts.any (fun e => decide (e.1 ≤ key ∧ key < e.1 + e.2))

/-- The bound object that holds the byte at a key. -/
def State.objAt (s : State) (key : Nat) : Option Obj := s.objs.find? (fun o => o.holds key)

/-- Whether a place can lie in a staged object: commons, or a page with ST (R241). -/
def Place.stageable (p : Place) : Bool := p.st || (!p.virt && decide (Config.commonsBase ≤ p.key ∧ p.key < Config.coreBase))

/-- The object that governs an access (R242). (DESIGN CHOICE, log entry 104) -/
def State.objOf (s : State) (p : Place) : Option Obj := if p.stageable then s.objAt p.key else none

/-- Under DET, a write to translated memory or commons outside every object is refused with CAP (R153, R390). -/
def State.capDeny (s : State) (c : Nat) (a : Word) (p : Place) (acc : Nat) : Option Deny :=
  if (s.core c).det && accWrites acc && (s.objOf p).isNone then
    match spaceOf a with
    | .commons _ => some ⟨0x0C, 0, 2, 0⟩
    | .virt _ => some ⟨0x0C, 0, ofBool p.host, 0⟩
    | _ => none
  else none

/-! ## Bytes -/

/-- Whether a place is device memory, which its page's key encrypts. -/
def Place.sealed (p : Place) : Bool := p.virt && !p.host && p.peer.isNone

/-- A key index together with how often firmware has loaded its slot: the key itself (R384). (DESIGN CHOICE, log entry 12) -/
def State.keyOf (s : State) (k : BitVec 7) : Nat := k.toNat + 128 * tget s.keyGen k.toNat 0

/-- A byte of device memory as a place's key reads it: a byte written under another key, or under this index before its slot was reloaded, gives
other bits (R384, log entry 12). (DESIGN CHOICE, log entry 12) -/
def State.readByte (s : State) (p : Place) (i : Nat) : Byte :=
  let b := Memory.read s.mem (p.key + i)
  if p.sealed then
    match s.wkey.find? (fun w => w.1 == p.key + i) with
    | some w => if w.2 = s.keyOf p.kidx then b else Config.crossKey w.2 (s.keyOf p.kidx) (p.key + i) b
    | none => b
  else b

def State.readAt (s : State) (p : Place) (n : Nat) : List Byte := (List.range n).map (s.readByte p)

/-- Poison after a write of n bytes: blocks written whole are clean (R383). -/
def clearPoison (t : Tbl Nat) (key n : Nat) : Tbl Nat :=
  t.filter (fun p => !decide (key ≤ p.1 * 64 ∧ p.1 * 64 + 64 ≤ key + n))

/-- Bytes written at a place. -/
def State.writeAt (s : State) (p : Place) (bs : List Byte) : State :=
  let s := { s with mem := Memory.writeBytes s.mem p.key bs, poison := clearPoison s.poison p.key bs.length }
  if p.sealed then { s with wkey := (List.range bs.length).foldl (fun t i => tset t (p.key + i) (s.keyOf p.kidx)) s.wkey }
  else s

/-- Arrived-byte counters after n bytes landed at offset o of core d (R211, R212). -/
def State.countLanding (s : State) (d o n : Nat) : State :=
  (List.range n).foldl (fun s i =>
    match (s.core d).windowAt true (o + i) with
    | some w => s.onCore d (fun k => { k with windows := tset k.windows w (let x := tget k.windows w Window.reset; { x with cnt := x.cnt + 1 }) })
    | none => s) s

/-- A permitted write of bytes at address a: a remote one counts in the owner's window. -/
def State.writeThrough (s : State) (a : Word) (p : Place) (bs : List Byte) : State :=
  let s' := s.writeAt p bs
  match spaceOf a with
  | .window d off => s'.countLanding d off bs.length
  | _ => s'

/-! ## Core memory of the machine's own agents -/

/-- Word of 8 bytes at an offset of core c. -/
def State.coreWord (s : State) (c off : Nat) : Word := BitVec.ofNat 64 (Memory.readN s.mem (coreKey c off) 8)
def State.setCoreWord (s : State) (c off : Nat) (v : Word) : State :=
  { s with mem := Memory.writeN s.mem (coreKey c off) 8 v.toNat, poison := clearPoison s.poison (coreKey c off) 8 }

/-- A word that core c's hardware writes for a group of domain dom at an address that the group has set: the gate frames, other domains' ranges and
the ranges of a running field are out of its reach, and the word is dropped there (R260, R265, R397). (DESIGN CHOICE, log entry 74) -/
def State.ownWord (s : State) (c : Nat) (dom : BitVec 6) (off : Nat) (v : Word) : State :=
  if s.foreign c dom off 8 || s.fieldGuard c off 8 then s else s.setCoreWord c off v

/-- The place of spill value n of slot t in core c's memory (R46, R48): of SPILLBASE the low 19 bits count. (DESIGN CHOICE, log entry 87) -/
def State.spillOff (s : State) (c t n : Nat) : Nat := fld (s.core c).spillbase 0 19 + t * 2048 + n * 8

end Sys2Proof.Machine
end

