-- ==== Sys2Proof/Machine/Fetch.lean ====
section
/-! DEFINITION. Fetching and decoding at the issuing slot's program counter (R83 to R88, R122, R149, R359, R361, R383). -/

namespace Sys2Proof.Machine

open Sys2Proof

/-- The offset in core memory of a code address. -/
def codeOff (pc : Word) : Nat := fld pc 0 19

/-- The 16-bit word at an offset of core c's memory (R3). -/
def State.coreHalf (s : State) (c off : Nat) : Half := BitVec.ofNat 16 (Memory.readN s.mem (coreKey c off) 2)

/-- PAGE, OP and length in bytes of the instruction at a slot's pc. (DEDUCED, log entry 22) -/
def State.opAt (s : State) (c t : Nat) : Nat × Nat × Nat :=
  let pc := (s.slot c t).pc
  match decode ((List.range 5).map (fun i => s.coreHalf c (codeOff pc + 2 * i))) with
  | .ok d => (d.page, d.op, 2 * d.words)
  | .error _ => (0, 0, 0)

/-- A trap of slot t that no instruction of its own has raised: FPC is where the slot stands, PAGE and OP those of the instruction there (R354). (DEDUCED, log entry 22) -/
def State.standTrap (s : State) (c t code : Nat) (addr info : Word) : Trap :=
  let o := s.opAt c t
  { code := BitVec.ofNat 8 code, defer := true, page := o.1, op := o.2.1, addr := addr, info := info, fpc := (s.slot c t).pc, map := none }

/-- The word a fetch gets: a buffered word that differs from memory may still be returned (R149, log entry 6). (DESIGN CHOICE, log entry 6) -/
def State.fetchHalf (s : State) (c off : Nat) : Half × State :=
  let now := s.coreHalf c off
  let old := tget (s.core c).ibuf off now
  if old = now then (now, s) else (if Config.staleFetch s.fresh then old else now, { s with fresh := s.fresh + 1 })

/-- Up to n words from an address, none at or beyond the limit (R361). -/
def State.fetchWords (c : Nat) (lim : Word) : Nat → Word → State → List Half × State
  | 0, _, s => ([], s)
  | n + 1, pc, s =>
    if lim.toNat ≤ pc.toNat then ([], s)
    else
      let r := s.fetchHalf c (codeOff pc)
      let q := State.fetchWords c lim n (pc + 2) r.2
      (r.1 :: q.1, q.2)

/-- The words of a decoded chain stay in the instruction buffer, without limit; no others enter it. (DESIGN CHOICE, log entry 102) -/
def bufferWords (off : Nat) (b : Tbl Half) : List Half → Tbl Half
  | [] => b
  | w :: r => bufferWords (off + 2) (tset b off w) r

/-- The trap of a fetch: its pc is the fetch address (R361, R383); an instruction that no member of a gang can issue is every member's own trap (R357). -/
def State.fetchTrap (s : State) (code : BitVec 8) (defer : Bool) (page op : Nat) (addr info : Word) : State :=
  let tr : Trap := { code := code, defer := defer, page := page, op := op, addr := addr, info := info, fpc := s.me.pc, map := none }
  if s.cur.slot = 0 ∧ s.mine.gang ≠ 0 ∧ (code = 0x01 ∨ code = 0x02) then s.takeGang ((s.gangOf s.cur.core).map (fun d => (d, tr)))
  else s.takeTrap s.cur.core s.cur.slot tr

/-- What a fetch brings: an instruction with the state after it, or the state in which its trap is taken. -/
inductive Fetched where
  | ok (i : Instr) (s : State)
  | trapped (s : State)

/-- How many of the fetched words decoding reads: the shortest prefix that decides (R86, R383). -/
def wordsRead (l : List Half) : Nat :=
  ((List.range l.length).find? (fun n => match decode (l.take n) with | .error .short => false | _ => true)).getD l.length

/-- Fetch and decode at the issuing slot's pc; a poisoned word among those that decoding reads is an ECC failure whatever they hold (R86, R361, R383). (DEDUCED, log entry 29) (DEDUCED, log entry 37) (DESIGN CHOICE, log entry 64) -/
def State.fetch (s : State) : Fetched :=
  let c := s.cur.core
  let x := s.me
  let outside := decide (x.pc.toNat < x.codebase.toNat ∨ x.codelim.toNat ≤ x.pc.toNat)
  let odd := x.pc.toNat % 2 == 1
  if outside || odd then .trapped (s.fetchTrap 0x04 false 0 0 x.pc (BitVec.ofNat 64 (ofBool outside + ofBool odd * 2)))
  else
    let r := State.fetchWords c x.codelim 5 x.pc s
    let d := decode r.1
    let named : Nat × Nat := match d with | .ok d => (d.page, d.op) | _ => (0, 0)
    match s.poisoned (coreKey c (codeOff x.pc)) (2 * wordsRead r.1), d with
    | some e, _ => .trapped (s.fetchTrap 0x14 true named.1 named.2 x.pc (memInfo e 7 4 x.asid 0 false))
    | none, .error .short => .trapped (s.fetchTrap 0x04 false 0 0 x.pc 4)
    | none, .error (.chain reason pos) => .trapped (r.2.fetchTrap 0x02 false 0 31 0 (BitVec.ofNat 64 (reason + pos * 2 ^ 4)))
    | none, .error (.illegal reason page op) => .trapped (r.2.fetchTrap 0x01 false page op 0 (BitVec.ofNat 64 reason))
    | none, .ok d =>
      let t := r.2.onCore c (fun k => { k with ibuf := bufferWords (codeOff x.pc) k.ibuf (r.1.take d.words) })
      .ok d.instr { t with cur := { s.cur with pc := x.pc, len := 2 * d.words, page := d.page, op := d.op, mark := d.mark, held := false } }

end Sys2Proof.Machine
end

