-- ==== Sys2Proof/Machine/Float.lean ====
section
/-! DEFINITION. Number formats and exact arithmetic with one rounding (R63 to R67, R74, R75, R77, R79, R81, R82). -/

namespace Sys2Proof.Machine

open Sys2Proof

/-- Infinity and NaN of a format (R65, R66). -/
inductive Special where
  | ieee | nanOnly | none
  deriving DecidableEq, Repr

/-- A floating-point format (R65): exponent bits, mantissa bits, bias. -/
structure Fmt where
  eb : Nat
  mb : Nat
  bias : Nat
  sp : Special
  deriving DecidableEq, Repr

def Fmt.sf32 : Fmt := ⟨8, 23, 127, .ieee⟩
def Fmt.bf16 : Fmt := ⟨8, 7, 127, .ieee⟩
def Fmt.hf16 : Fmt := ⟨5, 10, 15, .ieee⟩
def Fmt.f8e5 : Fmt := ⟨5, 2, 15, .ieee⟩
def Fmt.f8e4 : Fmt := ⟨4, 3, 7, .nanOnly⟩
def Fmt.f6e3 : Fmt := ⟨3, 2, 3, .none⟩
def Fmt.f6e2 : Fmt := ⟨2, 3, 1, .none⟩

/-- Bits of a format. -/
def Fmt.bits (f : Fmt) : Nat := 1 + f.eb + f.mb
/-- Largest finite magnitude's bits (R65). -/
def Fmt.maxFin (f : Fmt) : Nat :=
  match f.sp with
  | .ieee => (2 ^ f.eb - 1) * 2 ^ f.mb - 1
  | .nanOnly => 2 ^ (f.eb + f.mb) - 2
  | .none => 2 ^ (f.eb + f.mb) - 1
/-- Infinity of an IEEE format, without sign. -/
def Fmt.inf (f : Fmt) : Nat := (2 ^ f.eb - 1) * 2 ^ f.mb
/-- Canonical NaN (R67); a format without one has its largest finite number in its place (R77). -/
def Fmt.nan (f : Fmt) : Nat :=
  match f.sp with
  | .ieee => f.inf + 2 ^ (f.mb - 1)
  | .nanOnly => 2 ^ (f.eb + f.mb) - 1
  | .none => f.maxFin

/-- An exact value: NaN, an infinity, or sign, magnitude m × 2^e (m = 0 is a signed zero). -/
inductive FVal where
  | nan
  | inf (neg : Bool)
  | fin (neg : Bool) (m : Nat) (e : Int)
  deriving DecidableEq, Repr

/-- Value of an encoding (R66). -/
def Fmt.decode (f : Fmt) (b : Nat) : FVal :=
  let neg := b / 2 ^ (f.eb + f.mb) % 2 == 1
  let ex := b / 2 ^ f.mb % 2 ^ f.eb
  let m := b % 2 ^ f.mb
  let emin : Int := 1 - (f.bias : Int) - (f.mb : Int)
  if f.sp = .ieee ∧ ex = 2 ^ f.eb - 1 then (if m = 0 then .inf neg else .nan)
  else if f.sp = .nanOnly ∧ ex = 2 ^ f.eb - 1 ∧ m = 2 ^ f.mb - 1 then .nan
  else if ex = 0 then .fin neg m emin
  else .fin neg (2 ^ f.mb + m) (emin + (ex : Int) - 1)

/-- Rounding modes of R82. -/
inductive Mode where
  | rne | rtz | rdn | rup
  deriving DecidableEq, Repr

/-- m / 2^r to an integer, by mode; neg is the sign of the value. -/
def roundShift (mode : Mode) (neg : Bool) (m r : Nat) : Nat :=
  let q := m / 2 ^ r
  let rem := m % 2 ^ r
  let up := match mode with
    | .rne => decide (2 ^ r < 2 * rem) || (decide (2 * rem = 2 ^ r) && q % 2 == 1)
    | .rtz => false
    | .rdn => neg && rem != 0
    | .rup => !neg && rem != 0
  if rem = 0 then q else if up then q + 1 else q

/-- Magnitude bits of m × 2^e rounded to nearest even without an exponent bound above (R74, R77). -/
def Fmt.roundMag (f : Fmt) (m : Nat) (e : Int) : Nat :=
  if m = 0 then 0
  else
    let emin : Int := 1 - (f.bias : Int) - (f.mb : Int)
    let q : Int := max emin (e + Nat.log2 m - f.mb)
    let n := if q ≤ e then m * 2 ^ (e - q).toNat else roundShift .rne false m (q - e).toNat
    (q - emin).toNat * 2 ^ f.mb + n

/-- Sign bit. -/
def Fmt.sign (f : Fmt) (neg : Bool) : Nat := ofBool neg * 2 ^ (f.eb + f.mb)

/-- Rounded bits, and whether a finite value overflowed; sat keeps finite and infinite values at the largest finite one (R76, R77). (DESIGN CHOICE, log entry 101) -/
def Fmt.encode (f : Fmt) (sat : Bool) : FVal → Nat × Bool
  | .nan => (f.nan, false)
  | .inf neg => if sat || f.sp != .ieee then (f.sign neg + f.maxFin, true) else (f.sign neg + f.inf, false)
  | .fin neg m e =>
    let b := f.roundMag m e
    if b ≤ f.maxFin then (f.sign neg + b, false)
    else if sat || f.sp != .ieee then (f.sign neg + f.maxFin, true) else (f.sign neg + f.inf, true)

/-- Rounding to nearest even with overflow to infinity (R74). -/
def Fmt.round (f : Fmt) (v : FVal) : Nat := (f.encode false v).1

/-- The exact integer m × 2^(e - low) of a finite value. -/
def scaled (neg : Bool) (m : Nat) (e low : Int) : Int := (if neg then -1 else 1) * ((m * 2 ^ (e - low).toNat : Nat) : Int)

/-- An integer times 2^e; z is the sign of a zero. -/
def FVal.ofInt (i : Int) (e : Int) (z : Bool) : FVal := if i = 0 then .fin z 0 e else .fin (decide (i < 0)) i.natAbs e

/-- Exact sum (R75). -/
def FVal.add : FVal → FVal → FVal
  | .nan, _ => .nan
  | _, .nan => .nan
  | .inf a, .inf b => if a = b then .inf a else .nan
  | .inf a, .fin .. => .inf a
  | .fin .., .inf b => .inf b
  | .fin a m e, .fin b n g =>
    let low := min e g
    FVal.ofInt (scaled a m e low + scaled b n g low) low (a && b)

/-- Exact product (R75). -/
def FVal.mul : FVal → FVal → FVal
  | .nan, _ => .nan
  | _, .nan => .nan
  | .inf a, .inf b => .inf (a != b)
  | .inf a, .fin b n _ => if n = 0 then .nan else .inf (a != b)
  | .fin a m _, .inf b => if m = 0 then .nan else .inf (a != b)
  | .fin a m e, .fin b n g => .fin (a != b) (m * n) (e + g)

/-- Sign inverted. -/
def FVal.neg : FVal → FVal
  | .nan => .nan
  | .inf a => .inf (!a)
  | .fin a m e => .fin (!a) m e

/-- Sign 0. -/
def FVal.abs : FVal → FVal
  | .nan => .nan
  | .inf _ => .inf false
  | .fin _ m e => .fin false m e

def FVal.isNan : FVal → Bool
  | .nan => true
  | _ => false

/-- A key that orders values of one format, -0 below +0 (R79). -/
def Fmt.order (f : Fmt) (b : Nat) : Int :=
  let mag := b % 2 ^ (f.eb + f.mb)
  if b / 2 ^ (f.eb + f.mb) % 2 = 1 then -(mag : Int) - 1 else mag

/-- VMIN and VMAX of a format (R79). -/
def Fmt.pick (f : Fmt) (larger : Bool) (a b : Nat) : Nat :=
  if (f.decode a).isNan || (f.decode b).isNan then f.nan
  else if (if larger then decide (f.order a < f.order b) else decide (f.order b < f.order a)) then b else a

/-- Less-than of values, -0 equal to +0, false for NaN (R183). -/
def FVal.lt : FVal → FVal → Bool
  | .nan, _ => false
  | _, .nan => false
  | .inf a, .inf b => a && !b
  | .inf a, .fin .. => a
  | .fin .., .inf b => !b
  | .fin a m e, .fin b n g => let low := min e g; decide (scaled a m e low < scaled b n g low)

def FVal.eqv (a b : FVal) : Bool := !a.isNan && !b.isNan && !FVal.lt a b && !FVal.lt b a

/-- A finite value to an integer by mode (R82). -/
def toIntBy (mode : Mode) (neg : Bool) (m : Nat) (e : Int) : Int :=
  let n := if 0 ≤ e then m * 2 ^ e.toNat else roundShift mode neg m (-e).toNat
  if neg then -(n : Int) else n

/-- Float to integer of bounds lo and hi: saturates, NaN gives 0 (R82). -/
def FVal.toInt (v : FVal) (mode : Mode) (lo hi : Int) : Int :=
  match v with
  | .nan => 0
  | .inf neg => if neg then lo else hi
  | .fin neg m e => max lo (min hi (toIntBy mode neg m e))

/-! ## Functions of VMATH (R81) -/

/-- Bits of the integer square root still to try, from bit k down. -/
def isqrtFrom (n : Nat) : Nat → Nat → Nat
  | 0, r => r
  | k + 1, r => let t := r + 2 ^ k; isqrtFrom n k (if t * t ≤ n then t else r)

/-- Floor of the square root. -/
def isqrt (n : Nat) : Nat := isqrtFrom n (Nat.log2 n / 2 + 1) 0

/-- Precision of the fixed-point work, far beyond what the formats need (log entry 18). -/
def mathBits : Nat := 320

/-- A positive value whose first bits are q × 2^e, with a sticky bit below them when it is not exact. -/
def sticky (q : Nat) (exact : Bool) (e : Int) : FVal := .fin false (2 * q + ofBool (!exact)) (e - 1)

/-- 1 / (m × 2^e). -/
def recip (neg : Bool) (m : Nat) (e : Int) : FVal :=
  let k := Nat.log2 m + 64
  let q := 2 ^ k / m
  match sticky q (2 ^ k % m == 0) (-(k : Int) - e) with
  | .fin _ a b => .fin neg a b
  | v => v

/-- Square root of m × 2^e: the exponent is made even and 128 bits are kept. -/
def sqrtV (m : Nat) (e : Int) : FVal :=
  let m' := if e % 2 = 0 then m else 2 * m
  let e' := if e % 2 = 0 then e else e - 1
  let n := m' * 2 ^ 128
  let r := isqrt n
  sticky r (r * r == n) (e' / 2 - 64)

/-- 1 / sqrt(m × 2^e). -/
def rsqrtV (m : Nat) (e : Int) : FVal :=
  let m' := if e % 2 = 0 then m else 2 * m
  let e' := if e % 2 = 0 then e else e - 1
  let k := 2 * (Nat.log2 m' + 64)
  let n := 2 ^ k / m'
  let r := isqrt n
  sticky r (2 ^ k % m' == 0 && r * r == n) (-(e' / 2) - (k / 2 : Nat))

/-- Product of 2^(2^-i) over the set fraction bits, by repeated square roots; bits are read from the top. -/
def exp2Frac : Nat → Nat → Nat → Nat → Nat
  | 0, _, _, acc => acc
  | n + 1, frac, root, acc =>
    let root := isqrt (root * 2 ^ mathBits)
    exp2Frac n frac root (if frac / 2 ^ n % 2 = 1 then acc * root / 2 ^ mathBits else acc)

/-- 2^x. (DEDUCED, log entry 18) -/
def exp2V (neg : Bool) (m : Nat) (e : Int) : FVal :=
  if m = 0 then .fin false 1 0
  else if 0 ≤ e + (Nat.log2 m : Int) - 12 then (if neg then .fin false 1 (-5000) else .fin false 1 5000)
  else
    let k := (-e).toNat
    let t : Int := (if neg then -1 else 1) * ((if 0 ≤ e then m * 2 ^ e.toNat else m : Nat) : Int)
    let i := t / ((2 ^ k : Nat) : Int)
    let frac := (t % ((2 ^ k : Nat) : Int)).toNat
    if frac = 0 then .fin false 1 i
    else sticky (exp2Frac k frac (2 * 2 ^ mathBits) (2 ^ mathBits)) false (i - mathBits)

/-- n bits of log2 of y / 2^mathBits in [1, 2), by squaring. -/
def log2Frac : Nat → Nat → Nat → Nat
  | 0, _, acc => acc
  | n + 1, y, acc =>
    let y := y * y / 2 ^ mathBits
    if y / 2 ^ mathBits ≥ 2 then log2Frac n (y / 2) (2 * acc + 1) else log2Frac n y (2 * acc)

/-- log2 of a positive m × 2^e: exact for powers of two, else 130 fraction bits and a sticky bit. (DEDUCED, log entry 18) -/
def log2V (m : Nat) (e : Int) : FVal :=
  let l := Nat.log2 m
  let ex : Int := e + l
  if m = 2 ^ l then FVal.ofInt ex 0 false
  else
    let y := m * 2 ^ mathBits / 2 ^ l
    FVal.ofInt (2 * (ex * ((2 ^ 130 : Nat) : Int) + (log2Frac 130 y 0 : Nat)) + 1) (-131) false

/-- VMATH's functions with their special inputs (R81). (DEDUCED, log entry 18) -/
def mathFn (fn : Nat) (v : FVal) : FVal :=
  match v with
  | .nan => .nan
  | .inf neg =>
    match fn with
    | 0 => if neg then .fin false 0 0 else .inf false
    | 1 => if neg then .nan else .inf false
    | 2 => .fin neg 0 0
    | 3 => if neg then .nan else .fin false 0 0
    | _ => if neg then .nan else .inf false
  | .fin neg m e =>
    match fn with
    | 0 => exp2V neg m e
    | 1 => if m = 0 then .inf true else if neg then .nan else log2V m e
    | 2 => if m = 0 then .inf neg else recip neg m e
    | 3 => if m = 0 then .inf neg else if neg then .nan else rsqrtV m e
    | _ => if m = 0 then .fin neg 0 0 else if neg then .nan else sqrtV m e

end Sys2Proof.Machine
end

