-- ==== Sys2Proof/Machine/Lanes.lean ====
section
/-! DEFINITION. What the vector instructions compute on lanes, and the functions of scalar and vector atomics (R63, R64, R79, R80, R155, R161, R178 to R187). -/

namespace Sys2Proof.Machine

open Sys2Proof

/-! ## Lanes -/

/-- Lanes of w bits, the lowest first (R63). -/
def lanesOf (w : Nat) (v : Vec) : List Nat := (List.range (512 / w)).map (fun i => v.toNat / 2 ^ (i * w) % 2 ^ w)

/-- A number from lanes of w bits. -/
def joinLanes (w : Nat) : List Nat → Nat
  | [] => 0
  | x :: r => x % 2 ^ w + 2 ^ w * joinLanes w r

def ofLanes (w : Nat) (l : List Nat) : Vec := BitVec.ofNat 512 (joinLanes w l)

/-- 64 bytes of a vector, and back. -/
def vecBytes (v : Vec) : List Byte := bytesOf 64 v.toNat
def bytesVec (l : List Byte) : Vec := BitVec.ofNat 512 (ofBytes l)

/-- Bits of a lane. -/
def laneBits (t : VType) : Nat := 8 * t.width

/-- Format of a float type. -/
def laneFmt : VType → Fmt
  | .bf16 => .bf16
  | .hf16 => .hf16
  | _ => .sf32

/-- A lane's integer value, signed or natural by type. -/
def laneInt (t : VType) (x : Nat) : Int := if t.isSigned then signed (laneBits t) x else (x : Int)

/-- Bounds of an integer type of w bits. -/
def intLo (sgn : Bool) (w : Nat) : Int := if sgn then -((2 ^ (w - 1) : Nat) : Int) else 0
def intHi (sgn : Bool) (w : Nat) : Int := if sgn then ((2 ^ (w - 1) : Nat) : Int) - 1 else ((2 ^ w : Nat) : Int) - 1

/-- R64: wrap, or with SAT the nearest bound. -/
def narrow (sgn sat : Bool) (w : Nat) (i : Int) : Nat :=
  wrap w (if sat then max (intLo sgn w) (min (intHi sgn w) i) else i)

/-! ## Arithmetic of R181 -/

/-- The two-source arithmetic operations (R180). -/
inductive VOp where
  | add | sub | mul | fma | min | max | shl | shr | sar
  deriving DecidableEq, Repr

/-- Integer lanes. -/
def laneIntOp (op : VOp) (t : VType) (sat hi : Bool) (x y z : Nat) : Nat :=
  let w := laneBits t
  let sg := t.isSigned
  let a := laneInt t x
  let b := laneInt t y
  let n := narrow sg sat w
  match op with
  | .add => n (a + b)
  | .sub => n (a - b)
  | .mul => if hi then wrap w (a * b / ((2 ^ w : Nat) : Int)) else n (a * b)
  | .fma => n (laneInt t z + a * b)
  | .min => if a ≤ b then x else y
  | .max => if a ≤ b then y else x
  | .shl => n (a * ((2 ^ (y % w) : Nat) : Int))
  | .shr => x / 2 ^ (y % w)
  | .sar => wrap w (signed w x / ((2 ^ (y % w) : Nat) : Int))

/-- A zero product, exact or after rounding, has the signs' exclusive OR; the exact product carries it (R79). -/
def laneFloatOp (op : VOp) (f : Fmt) (x y z : Nat) : Nat :=
  let a := f.decode x
  let b := f.decode y
  match op with
  | .add => f.round (a.add b)
  | .sub => f.round (a.add b.neg)
  | .mul => f.round (a.mul b)
  | .fma => f.round ((f.decode z).add (a.mul b))
  | .min => f.pick false x y
  | .max => f.pick true x y
  | _ => 0

def laneOp (op : VOp) (t : VType) (sat hi : Bool) (x y z : Nat) : Nat :=
  if t.isFloat then laneFloatOp op (laneFmt t) x y z else laneIntOp op t sat hi x y z

/-- OP 10-15, 21-23 over all lanes; z is the old destination (R180). -/
def vecOp (op : VOp) (t : VType) (sat hi : Bool) (a b z : Vec) : Vec :=
  let w := laneBits t
  ofLanes w (((lanesOf w a).zip ((lanesOf w b).zip (lanesOf w z))).map (fun p => laneOp op t sat hi p.1 p.2.1 p.2.2))

/-- An immediate second source in every lane (R173). -/
def immVec (w : Nat) (v : Word) : Vec := ofLanes w (List.replicate (512 / w) (v.toNat % 2 ^ w))

/-- VABS and VNEG (R181). -/
def laneAbs (t : VType) (sat : Bool) (y : Nat) : Nat :=
  if t.isFloat then (laneFmt t).round ((laneFmt t).decode y).abs
  else if t.isSigned then narrow true sat (laneBits t) (laneInt t y).natAbs else y
def laneNeg (t : VType) (sat : Bool) (y : Nat) : Nat :=
  if t.isFloat then (laneFmt t).round ((laneFmt t).decode y).neg
  else narrow t.isSigned sat (laneBits t) (-(laneInt t y))

def vecMap (w : Nat) (f : Nat → Nat) (b : Vec) : Vec := ofLanes w ((lanesOf w b).map f)

/-! ## Moving lanes (R178, R179, R184) -/

/-- Lane n replaced. -/
def putLane (w n x : Nat) (v : Vec) : Vec := ofLanes w ((lanesOf w v).set n x)

/-- Lane n of v, extended to a general register (R178). -/
def extLane (t : VType) (n : Nat) (v : Vec) : Word :=
  let x := (lanesOf (laneBits t) v).getD n 0
  match t with
  | .i8 | .i16 | .i32 | .i64 => BitVec.ofInt 64 (signed (laneBits t) x)
  | _ => BitVec.ofNat 64 x

/-- VPERM (R179). -/
def vecPerm (t : VType) (b c : Vec) : Vec :=
  let w := laneBits t
  let tab := lanesOf w b
  ofLanes w ((lanesOf w c).map (fun j => if j / 2 ^ (w - 1) % 2 = 1 then 0 else tab.getD (j % tab.length) 0))

/-- VSEL (R184). -/
def vecSel (t : VType) (old b c : Vec) : Vec :=
  let w := laneBits t
  ofLanes w (((lanesOf w old).zip ((lanesOf w b).zip (lanesOf w c))).map (fun p => if p.2.2 != 0 then p.2.1 else p.1))

/-- A condition of VCMP on two lanes (R183). -/
def laneCmp (t : VType) (cond : Nat) (x y : Nat) : Bool :=
  let f := laneFmt t
  let eq := if t.isFloat then (f.decode x).eqv (f.decode y) else x == y
  let lt := if t.isFloat then FVal.lt (f.decode x) (f.decode y) else decide (laneInt t x < laneInt t y)
  match cond with
  | 0 => eq
  | 1 => !eq
  | 2 => lt
  | 3 => lt || eq
  | _ => eq

/-- VCMP (R183). -/
def vecCmp (t : VType) (cond : Nat) (b c : Vec) : Vec :=
  let w := laneBits t
  let lc := lanesOf w c
  ofLanes w (((lanesOf w b).zip lc).map (fun p =>
    if (if cond = 4 then lc.any (laneCmp t 4 p.1) else laneCmp t cond p.1 p.2) then 2 ^ w - 1 else 0))

/-! ## Widening, conversion (R182, R185) -/

/-- VWADD: lanes of the destination (R182). -/
def vecWadd (t : VType) (sat : Bool) (p : Nat) (first b : Vec) : Vec :=
  let wd := if t.width = 4 then 64 else 32
  let ld := 512 / wd
  let src := lanesOf (laneBits t) b
  ofLanes wd ((lanesOf wd first).mapIdx (fun i f =>
    let x := src.getD (p * ld + i) 0
    if t.isFloat then Fmt.sf32.round ((Fmt.sf32.decode f).add ((laneFmt t).decode x))
    else
      let a : Int := if t.isSigned then signed wd f else (f : Int)
      narrow t.isSigned sat wd (a + laneInt t x)))

/-- Mode of R82. -/
def modeOf (k : Nat) : Mode := match k with | 0 => .rne | 1 => .rtz | 2 => .rdn | _ => .rup

/-- One lane converted (R185). -/
def laneCvt (src dst : VType) (k x : Nat) : Nat :=
  let wd := laneBits dst
  match src.isFloat, dst.isFloat with
  | false, false => narrow dst.isSigned true wd (laneInt src x)
  | false, true => (laneFmt dst).round (FVal.ofInt (laneInt src x) 0 false)
  | true, true => (laneFmt dst).round ((laneFmt src).decode x)
  | true, false => wrap wd (((laneFmt src).decode x).toInt (modeOf k) (intLo dst.isSigned wd) (intHi dst.isSigned wd))

/-- VCVT over a vector; old is the destination's old value (R185). -/
def vecCvt (src dst : VType) (k : Nat) (old b : Vec) : Vec :=
  let ws := laneBits src
  let wd := laneBits dst
  let l := lanesOf ws b
  if wd > ws then ofLanes wd ((List.range (512 / wd)).map (fun i => laneCvt src dst k (l.getD (k * (512 / wd) + i) 0)))
  else if wd < ws then
    ofLanes wd ((lanesOf wd old).mapIdx (fun i o =>
      if k * (512 / ws) ≤ i ∧ i < (k + 1) * (512 / ws) then laneCvt src dst k (l.getD (i - k * (512 / ws)) 0) else o))
  else ofLanes wd (l.map (laneCvt src dst k))

/-! ## Scans and reductions (R186) -/

/-- One step of a scan. -/
def scanStep (t : VType) (sat : Bool) (op : Nat) (acc x : Nat) : Nat :=
  laneOp (match op with | 0 => .add | 1 => .min | _ => .max) t sat false acc x 0

/-- Running values, an optional carry first; without one lane 0 passes as it is (R67, R186). (DEDUCED, log entry 89) -/
def scanLanes (t : VType) (sat : Bool) (op : Nat) : Option Nat → List Nat → List Nat
  | _, [] => []
  | none, x :: r => x :: scanLanes t sat op (some x) r
  | some a, x :: r => let y := scanStep t sat op a x; y :: scanLanes t sat op (some y) r

/-- VSCAN: the carry is the last lane of its register. -/
def vecScan (t : VType) (sat : Bool) (op : Nat) (b : Vec) (carry : Option Vec) : Vec :=
  let w := laneBits t
  ofLanes w (scanLanes t sat op (carry.map (fun c => (lanesOf w c).getLast?.getD 0)) (lanesOf w b))

/-- VRED: the carry is lane 0; the result goes to lane 0. -/
def vecRed (t : VType) (sat : Bool) (op : Nat) (b : Vec) (carry : Option Vec) : Vec :=
  let w := laneBits t
  ofLanes w [(scanLanes t sat op (carry.map (fun c => (lanesOf w c).headD 0)) (lanesOf w b)).getLast?.getD 0]

/-- VMATH (R187). -/
def vecMath (t : VType) (fn : Nat) (b : Vec) : Vec :=
  vecMap (laneBits t) (fun x => (laneFmt t).round (mathFn fn ((laneFmt t).decode x))) b

/-! ## Atomics (R155, R161) -/

/-- The function of a scalar atomic, by its OP on page 1; w is the width, e the expected value of ACAS (R155). -/
def atomicFn (op w old x e : Nat) : Nat :=
  let so := signed w old
  let sx := signed w x
  match op with
  | 11 => (old + x) % 2 ^ w
  | 12 => old &&& x
  | 13 => old ||| x
  | 14 => old ^^^ x
  | 15 => if so ≤ sx then old else x
  | 16 => if so ≤ sx then x else old
  | 17 => min old x
  | 18 => max old x
  | 19 => x
  | 20 => if old = e then x else old
  | 21 => Fmt.sf32.round ((Fmt.sf32.decode old).add (Fmt.sf32.decode x))
  | _ => if (Fmt.sf32.decode old).isNan || (Fmt.sf32.decode x).isNan then 0x7FC00000 else max (old % 2 ^ 31) (x % 2 ^ 31)

/-- VAMO's combination of 64 bytes, by X3 (R161). -/
def vamoFn (op : Nat) (old x : Vec) : Vec :=
  match op with
  | 0 => vecOp .add .i32 false false old x old
  | 2 => vecOp .add .sf32 false false old x old
  | 4 => vecOp .max .sf32 false false old x old
  | 6 => vecOp .add .bf16 false false old x old
  | 1 => vecOp .add .i64 false false old x old
  | 3 => vecOp .min .i64 false false old x old
  | _ => vecOp .max .i64 false false old x old

end Sys2Proof.Machine
end

