-- ==== Sys2Proof/Machine/Staged.lean ====
section
/-! DEFINITION. Staged objects: class entries, the check and the step at a directory entry, parking and its recheck (R241 to R255, R295, R352, R387 to R390), and how a performed or refused access leaves its slot. -/

namespace Sys2Proof.Machine

open Sys2Proof

/-! ## Accesses that leave their slot -/

/-- Whether the access writes a general register. -/
def AccKind.returns : AccKind → Bool
  | .load _ | .atomic _ | .stget _ => true
  | _ => false

/-- ACC of R367 and R387. -/
def AccKind.acc : AccKind → Nat
  | .load _ => 0
  | .store => 1
  | .atomic _ => 2
  | .vamo _ => 3
  | _ => 6

/-- The scope of an access: system on a strongly-ordered page, whatever the instruction says (R148, R311). -/
def Access.span (a : Access) : Nat := match a.place with | some p => if p.ty = 3 then 3 else a.scope.toNat | none => a.scope.toNat

/-- The order that governs an access: its page's type overrides the instruction's (R148, R311). -/
def Access.ord (a : Access) : Nat :=
  match a.place with
  | some p => if p.ty = 3 then 2 else if p.ty = 1 ∨ p.ty = 2 then 0 else a.order.toNat
  | none => a.order.toNat

/-- A slot without one access. -/
def Slot.dropAcc (x : Slot) (id : Nat) : Slot := { x with acc := x.acc.filter (fun a => a.id != id), ahead := x.ahead.filter (· != id) }

/-- Whether it is a load, store, atomic or VAMO: what an acquire side keeps behind itself (R247). -/
def AccKind.isData : AccKind → Bool
  | .load _ | .store | .atomic _ | .vamo _ => true
  | _ => false

/-- A slot one access of which is performed: the earlier ones with a transition that are not have been passed by it (R247). -/
def Slot.passAcc (x : Slot) (a : Access) : Slot :=
  let y := x.dropAcc a.id
  if a.kind.isData then { y with ahead := y.ahead ++ (y.acc.filter (fun b => b.x != 0 && decide (b.id < a.id) && !y.ahead.contains b.id)).map (·.id) } else y

/-- A park on a translation ends when its access has one, or is gone (R147). -/
def State.endTlbPark (s : State) (c t id : Nat) : State :=
  s.onSlot c t (fun x => match x.park with
    | some w => if w.kind = .tlb id then x.unpark s.rtime.toNat else x
    | none => x)

/-- A performed access: its value, if it returns one, is on its way to the register (R36). -/
def State.finishAcc (s : State) (c t : Nat) (a : Access) (v : Word) : State :=
  let s := s.onSlot c t (fun x =>
    let x := x.passAcc a
    if a.kind.returns && a.dest != 0 then { x with results := x.results ++ [{ reg := a.dest, val := v, depth := 0, acq := decide (1 ≤ a.ord) }] } else x)
  s.endTlbPark c t a.id

/-- An abandoned or withdrawn access: not performed; it writes 0 to its destination and clears the pending bit (R353, R389). -/
def State.abandonAcc (s : State) (c t : Nat) (a : Access) : State :=
  let s := (s.unqueue c (.acc t a.id)).onSlot c t (fun x =>
    let x := x.dropAcc a.id
    if a.kind.returns then x.giveBack a.dest 0 0 else x)
  s.endTlbPark c t a.id

/-- A completion trap of an access (R353). -/
def Access.trap (a : Access) (code : Nat) (info : Word) : Trap :=
  { code := BitVec.ofNat 8 code, defer := true, page := a.page, op := a.op, addr := a.va, info := info, fpc := a.fpc, map := none }

/-- The id of the running field of core c whose ranges an address of its own memory meets; 0 when none (R396). -/
def State.fieldIdAt (s : State) (c : Nat) (a : Word) (n : Nat) : Nat :=
  match (s.core c).fields.find? (fun p => p.2.run && (fRanges p.2.desc).any (fun r => meets (fld a 0 19) n r.1 r.2)) with
  | some p => p.1
  | none => 0

/-- A refused access: abandoned, and its trap waits for the slot's next boundary (R353, R367). -/
def State.refuseAcc (s : State) (c t : Nat) (a : Access) (d : Deny) : State :=
  let info := if d.code = 0x13 then fieldInfo d.reason (s.fieldIdAt c a.va a.size) 0 0 0 0 else memInfo d.reason a.kind.acc d.space a.asid (if d.code = 0x0A then d.key else 0) (decide (5 ≤ a.reqs))
  (s.abandonAcc c t a).queueTrap c t (a.trap d.code info)

/-! ## Class entries (R243, R244) -/

def entNext (e : Nat) : Nat := e % 16
def entAccess (e : Nat) : Nat := e / 2 ^ 4 % 4
def entSide (e : Nat) : Nat := e / 2 ^ 6 % 4
def entOwner (e : Nat) : Nat := e / 2 ^ 8 % 4
def entFault (e : Nat) : Bool := e / 2 ^ 10 % 2 == 1
def entValid (e : Nat) : Bool := e / 2 ^ 11 % 2 == 1

/-- Entry (state, transition) of an object's class. -/
def State.entry (s : State) (o : Obj) (st x : Nat) : Nat :=
  ((tget s.classes (o.binder.toNat * 64 + o.cls) []).getD (16 * st + x) 0).toNat

/-- The sides a transition may have from any state: acquire, release (R247, log entry 19). (DEDUCED, log entry 19) -/
def State.sides (s : State) (o : Obj) (x : Nat) : Nat :=
  (List.range 16).foldl (fun n st => let e := s.entry o st x; if x != 0 && entValid e then n ||| entSide e else n) 0

/-- The object with an id replaced. -/
def State.onObj (s : State) (id : Nat) (f : Obj → Obj) : State :=
  { s with objs := s.objs.map (fun o => if o.id = id then f o else o) }

/-! ## The check of R245 -/

/-- What a check comes to. -/
inductive DirRes where
  | legal (e : Nat)
  | park
  | fault (reason : Nat)
  deriving DecidableEq, Repr

/-- need: 1 load, 2 store, 3 atomic or VAMO, 0 STX; plain STX needs a capability as every transition does. -/
def State.dirCheck (s : State) (o : Obj) (caller need x : Nat) (stx : Bool) : DirRes :=
  let e0 := s.entry o o.state 0
  let e := s.entry o o.state x
  let illegal (f : Bool) (reason : Nat) : DirRes := if f then .fault reason else .park
  if !entValid e then illegal (entFault e0) 0
  else if need &&& entAccess e != need then illegal (entFault e) 1
  else if x != 0 && entOwner e == 2 && !stx then .fault 3
  else if need == 2 || need == 3 || x != 0 then
    let det := (s.core caller).det
    let cap := (o.owned && o.owner == caller) || (x != 0 && entOwner e == 1 && !o.owned && !det)
    if cap then .legal e else illegal (entFault e) 2
  else .legal e

/-- need of R245 for an access. -/
def AccKind.need : AccKind → Nat
  | .load _ => 1
  | .store => 2
  | .atomic _ | .vamo _ => 3
  | _ => 0

/-- Whether it is an STX. -/
def AccKind.isStx : AccKind → Bool
  | .stx _ => true
  | _ => false

/-- The object after transition x with entry e (R246). -/
def Obj.move (o : Obj) (e caller : Nat) (k : AccKind) (tag : Nat) : Obj :=
  let o := { o with state := entNext e }
  let o := match entOwner e with
    | 1 => { o with owner := caller, owned := true }
    | 2 => { o with owner := (match k with | .stx (some n) => n | _ => caller), owned := true }
    | 3 => { o with owned := false }
    | _ => o
  if k.isStx then { o with tag := BitVec.ofNat 64 tag } else o

/-! ## Data parts (R150, R154, R161) -/

/-- Sign or zero extension of a loaded value. -/
def extend (sgn : Bool) (size v : Nat) : Word := if sgn then BitVec.ofInt 64 (signed (8 * size) v) else BitVec.ofNat 64 v

/-- The value that an access writes at its place, from the old one it has read there; none for one that writes nothing (R155, R161). -/
def Access.newBytes (a : Access) (old : List Byte) : Option (List Byte) :=
  match a.kind with
  | .store => some (bytesOf a.size a.data)
  | .atomic op => some (bytesOf a.size (atomicFn op (8 * a.size) (ofBytes old) a.data a.exp.toNat))
  | .vamo op => some (vecBytes (vamoFn op.toNat (bytesVec old) (BitVec.ofNat 512 a.data)))
  | _ => none

/-- The value that an access returns, from the old one. -/
def Access.value (a : Access) (old : List Byte) : Word :=
  match a.kind with
  | .load sg => extend sg a.size (ofBytes old)
  | .atomic _ => BitVec.ofNat 64 (ofBytes old)
  | _ => 0

/-- The read, write or read-modify-write of an access at its place, performed for all observers at once (R299, R304, R305, R307): the state after it and the value it returns. (DEDUCED, log entry 48) -/
def State.dataPart (s : State) (a : Access) (p : Place) : State × Word :=
  let old := s.readAt p a.size
  (match a.newBytes old with | some bs => s.writeThrough a.va p bs | none => s, a.value old)

/-! ## Coupling objects of fields (R293 to R295) -/

/-- The memory key of an object's base. -/
def Obj.base (o : Obj) : Nat := (o.exts.headD (0, 0)).1

/-- Whether an object is CT0 or CT1 of a defined field, of a core or of a saved context (R297). -/
def State.couples (s : State) (o : Obj) : Bool :=
  let at_ (k : Core) := k.fields.any (fun f => f.2.cts.contains o.base)
  s.cores.any (fun p => at_ p.2) || s.saves.any (fun v => v.cores.any (fun p => at_ p.2))

/-- The id that core c gives to the field of a coupling object; 0 when it has none (R396). -/
def State.coupleId (s : State) (c : Nat) (o : Obj) : Nat :=
  match (s.core c).fields.find? (fun f => f.2.cts.contains o.base) with
  | some p => p.1
  | none => 0

/-- The M for which a legal SEAL of this data is late (R295). -/
def State.lateSeal (s : State) (o : Obj) (x data : Nat) : Option Nat :=
  if x == 2 && s.couples o then o.m.filter (fun m => decide (data % 2 ^ 32 ≤ m)) else none

/-- STAGE, CAP and FIELD as completion traps of an access (R387, R397). -/
def State.stageFault (s : State) (c t : Nat) (a : Access) (o : Option Obj) (reason : Nat) : State :=
  (s.abandonAcc c t a).queueTrap c t (a.trap 0x0B (stageInfo reason a.kind.acc a.x.toNat o))
/-- FIELD as a completion trap of an access (R396). -/
def State.fieldFault (s : State) (c t : Nat) (a : Access) (base : Word) (reason id value : Nat) : State :=
  (s.abandonAcc c t a).queueTrap c t { a.trap 0x13 (fieldInfo reason id 0 value 0 0) with addr := base }

/-! ## Parked accesses (R248) -/

/-- The home slice of a memory key: that of the commons bank, or by the fixed hash (R20, R242). (DESIGN CHOICE, log entry 11) -/
def homeOf (key : Nat) : Nat :=
  (if Config.commonsBase ≤ key ∧ key < Config.coreBase then Config.bankSlice ((key - Config.commonsBase) / 64 % Config.banks) else Config.homeHash key) % Config.slices

/-- Whether the store of parked accesses of an object's home slice is full. (DESIGN CHOICE, log entry 11) -/
def State.parksFull (s : State) (o : Obj) : Bool :=
  decide (Config.parksPerSlice ≤ ((s.objs.filter (fun x => homeOf x.base == homeOf o.base)).map (fun x => x.queue.length)).sum)

/-- A parked access joins the queue of its object, once. (DEDUCED, log entry 59) -/
def State.enqueue (s : State) (id : Nat) (q : Parked) : State :=
  s.onObj id (fun o => if o.queue.contains q then o else { o with queue := o.queue ++ [q] })

/-- A change of the walk behind a parked read or write. -/
def State.onWalk (s : State) (c : Nat) (who : Parker) (f : Walk → Walk) : State :=
  let cmds (id : Nat) (t : Tbl (List Cmd)) : Tbl (List Cmd) :=
    t.map (fun p => (p.1, p.2.map (fun m => if m.id = id then { m with walk := f m.walk } else m)))
  match who with
  | .acc _ _ | .host _ | .peer _ | .device _ => s
  | .cmd id => s.onCore c (fun k => { k with exec := cmds id k.exec, queue := cmds id k.queue })
  | .field id => s.onCore c (fun k => { k with fields := k.fields.map (fun p => if p.1 = id then (p.1, { p.2 with walk := f p.2.walk }) else p) })
  | .block t => s.onSlot c t (fun x => { x with walk := f x.walk })

/-- The access of a queue element that is a thread's. -/
def State.accOf (s : State) (q : Parked) : Option (Nat × Access) :=
  match q.who with
  | .acc t id => ((s.slot q.core t).acc.find? (fun a => a.id == id)).map (fun a => (t, a))
  | _ => none

/-- The check of a queue element now. (DEDUCED, log entry 59) -/
def State.parkedCheck (s : State) (o : Obj) (q : Parked) : DirRes :=
  match s.accOf q with
  | some (_, a) => s.dirCheck o q.core a.kind.need a.x.toNat a.kind.isStx
  | none => s.dirCheck o q.core q.need 0 false

/-- A legal access of object o performed as one step: data, transition, value (R246). -/
def State.performAt (s : State) (o : Obj) (c t : Nat) (a : Access) (e : Nat) : State :=
  let r := match a.place with
    | some p => s.dataPart a p
    | none => (s, 0)
  let s := (r.1.unqueue c (.acc t a.id)).onObj o.id (fun o => if a.x != 0 then o.move e c a.kind a.data else o)
  s.finishAcc c t a r.2

/-- Whether an access is a thread's ADOPT or RETIRE of a defined field's coupling object, which only Herders make (R294, R397). -/
def State.herdersOnly (s : State) (o : Obj) (a : Access) : Bool := (a.x == 3 || a.x == 4) && s.couples o

/-- The ECC refusal of an access that reads a poisoned block (R383). -/
def State.eccDeny (s : State) (a : Access) : Option Deny :=
  match a.place with
  | some p => if a.kind.need % 2 = 1 then (s.poisoned p.key a.size).map (fun r => ⟨0x14, r, (spaceOf a.va).code p.host, p.kidx.toNat⟩) else none
  | none => none

/-- A thread's legal access of object o, now or after a park: a transition that is the Herders' alone takes FIELD reason 8, a late SEAL reason 7, a
read of a block poisoned meanwhile ECC; every other one is performed (R294, R295, R383, R397). -/
def State.performOrLate (s : State) (o : Obj) (c t : Nat) (a : Access) (e : Nat) : State :=
  if s.herdersOnly o a then s.fieldFault c t a o.addr 8 (s.coupleId c o) 0
  else match s.lateSeal o a.x.toNat a.data, s.eccDeny a with
    | some m, _ => s.fieldFault c t a o.addr 7 (s.coupleId c o) m
    | none, some d => s.refuseAcc c t a d
    | none, none => s.performAt o c t a e

/-- The page requests that a walk counts for an ask, besides those it counts for other pages (R382). -/
def Walk.count (w : Walk) (q : Ask) : List (Nat × Bool × Nat) :=
  let page := q.va.toNat / 2 ^ 12
  let l := w.counted.filter (fun k => !(k.1 == page && k.2.1 == q.write))
  if q.reqs = 0 then l else (page, q.write, q.reqs) :: l

/-- A walk with the bytes read at an address kept; its count of that page's requests begins anew (R382). -/
def Walk.latch (w : Walk) (a : Word) (bs : List Byte) : Walk :=
  { w with reads := (a, bs.length, bs) :: w.reads, counted := w.counted.filter (fun q => q.1 != a.toNat / 2 ^ 12 || q.2.1) }
/-- A walk with write unit k, of bytes at these addresses, done; its counts of their pages' requests begin anew (R382). -/
def Walk.wroteUnit (w : Walk) (k : Nat) (at_ : List Word) : Walk :=
  { w with wrote := k :: w.wrote, counted := w.counted.filter (fun q => !q.2.1 || !at_.any (fun a => a.toNat / 2 ^ 12 == q.1)) }

/-- The data of an engine's write unit, or its amax merge, a read-modify-write (R78, R155); bytes that cover their aligned block clear its poison
(R383). -/
def State.unitWrite (s : State) (need : Nat) (parts : List (Word × Place × List Byte)) : State :=
  let s := parts.foldl (fun s r =>
    s.writeThrough r.1 r.2.1 (if need = 3 then bytesOf 4 (atomicFn 22 32 (ofBytes (s.readAt r.2.1 4)) (ofBytes r.2.2) 0) else r.2.2)) s
  match parts with
  | (a, p, _) :: _ => if (parts.map (fun r => r.1.toNat % 64)).eraseDups.length = 64 then { s with poison := clearPoison s.poison (p.key - a.toNat % 64) 64 } else s
  | [] => s

/-- Whether a parked access reads a block that has been poisoned meanwhile (R383). -/
def State.readsPoison (s : State) (q : Parked) : Bool :=
  q.need % 2 == 1 && (match q.parts with | (_, p, bs) :: _ => (s.poisoned p.key (if q.need = 1 then q.n else bs.length)).isSome | [] => false)

/-- The sticky bits of the elements that a drain's write unit holds, set in the slot of the command (R77, R202). -/
def State.stick (s : State) (c : Nat) (who : Parker) (nan ovf : Bool) : State :=
  match who with
  | .cmd id =>
    match ((s.core c).exec.flatMap (·.2)).find? (fun m => m.id == id) with
    | some m => s.onSlot c m.slot (fun x => { x with dnan := x.dnan || nan, dovf := x.dovf || ovf })
    | none => s
  | _ => s

/-- An engine's, Herder's or block's parked read or write performed: its command finds it done. One that meets poison is left to its command, which
the poison then refuses (R383). -/
def State.performUnit (s : State) (q : Parked) : State :=
  if s.readsPoison q then s
  else if q.need = 1 then
    match q.parts with
    | (a, p, _) :: _ => s.onWalk q.core q.who (fun w => w.latch a (s.readAt p q.n))
    | [] => s
  else ((s.unitWrite q.need q.parts).stick q.core q.who q.nan q.ovf).onWalk q.core q.who (fun w => w.wroteUnit q.unit (q.parts.map (·.1)))

/-! ## Accesses that no core makes: the host's, a fabric peer's, and the device's own (R158, R242, R317, R323, R332)

They are checked at the directory entry as accesses of a caller that can hold no capability, and park there as others do (R245, R248). -/

/-- The core number that stands for none. -/
def noCore : Nat := 2048

/-- Whether a staged object lets an agent that is no core read or write the byte at a key: it can hold no capability (R242, R245). (DEDUCED, log entry 56) -/
def State.admits (s : State) (key : Nat) (write : Bool) : Bool :=
  match s.objAt key with
  | some o => !write && (match s.dirCheck o noCore 1 0 false with | .legal _ => true | _ => false)
  | none => true

/-- Whether the entry that governs such an access says that it faults rather than parks (R245). (DEDUCED, log entry 56) -/
def State.faultsFor (s : State) (key : Nat) (write : Bool) : Bool :=
  match s.objAt key with
  | some o => (match s.dirCheck o noCore (if write then 2 else 1) 0 false with | .fault _ => true | _ => false)
  | none => false

/-- Whether such an access stands in an object's queue. (DEDUCED, log entry 59) -/
def State.queued (s : State) (who : Parker) : Bool := s.objs.any (fun o => o.queue.any (fun q => q.core == noCore && q.who == who))

/-- Such an access to the byte at a key joins the queue of its object; while the slice's store is full it is sent again (R248). (DEDUCED, log entry 59) -/
def State.parkOther (s : State) (who : Parker) (key : Nat) (write : Bool) : State :=
  match s.objAt key with
  | some o =>
    if s.parksFull o then s
    else s.enqueue o.id { core := noCore, who := who, need := if write then 2 else 1, n := 1, unit := 0, parts := [(0, .plain key, [])] }
  | none => s

/-- A read for a host or a fabric peer completes; poison goes with it (R383). -/
def State.readOut (s : State) (port : Option Nat) (key n : Nat) : State :=
  { s with reads := s.reads ++ [{ port := port, data := Memory.readBytes s.mem key n, poisoned := (s.poisoned key n).isSome }] }

/-- A host access through BAR4, one event on its aligned 8-byte unit. -/
def State.hostPerform (s : State) (a : HostAccess) : State :=
  if a.write then s.writeAt (.plain (commonsKey a.off)) (bytesOf 8 a.val.toNat) else s.readOut none (commonsKey a.off) 8

/-- A BAR4 access that comes to its unit: it waits behind an older one there; one that the unit's object does not admit parks, or, where the entry says
that it faults, is not performed (R245, R248). (DEDUCED, log entry 56) -/
def State.hostArrive (s : State) (a : HostAccess) : State :=
  let key := commonsKey a.off
  let wait : State := { s with hostWaits := s.hostWaits ++ [a] }
  if s.hostWaits.any (fun b => b.off == a.off) then wait
  else if s.admits key a.write then s.hostPerform a
  else if s.faultsFor key a.write then s
  else wait.parkOther (.host a.id) key a.write

/-- Waiting BAR4 accesses, oldest first: those that stand in no object's queue come again. (DEDUCED, log entry 56) -/
def State.hostServe (s : State) : List HostAccess → State
  | [] => s
  | a :: r => (if s.queued (.host a.id) then { s with hostWaits := s.hostWaits ++ [a] } else s.hostArrive a).hostServe r

/-- A parked host access performed; those that waited behind it arrive. -/
def State.hostParked (s : State) (id : Nat) : State :=
  match s.hostWaits.find? (fun a => a.id == id) with
  | some a => ({ s with hostWaits := [] }.hostPerform a).hostServe (s.hostWaits.filter (fun b => b.id != id))
  | none => s

/-- Whether n bytes at a key are device memory that a peer can name: HBM or the commons. (DESIGN CHOICE, log entry 14) -/
def peerReach (key n : Nat) : Bool := decide (key + n ≤ Config.hbmBytes ∨ (Config.commonsBase ≤ key ∧ key + n ≤ Config.commonsBase + Config.commonsBytes))

/-- A peer's operation performed; a write or atomic clears the poison of what it covers, a read takes poison along (R158, R332, R383). An atomic reads the
stored byte of encrypted memory as under its own key, and leaves it so. (DESIGN CHOICE, log entry 32) (DEDUCED, log entry 56) (DESIGN CHOICE, log entry 103) -/
def State.peerOp (s : State) (port : Nat) (op : FabricOp) : State :=
  match op with
  | .read loc n => if peerReach loc n then s.readOut (some port) loc n else s
  | .write loc bs => if peerReach loc bs.length then s.writeAt (.plain loc) bs else s
  | .atomic loc o w64 x e =>
    let n := if w64 then 8 else 4
    if !peerReach loc n || loc % n != 0 || (s.poisoned loc n).isSome then s
    else
      let m := 2 ^ (8 * n)
      s.writeAt (.plain loc) (bytesOf n (atomicFn o.toNat (8 * n) (Memory.readN s.mem loc n) (x.toNat % m) (e.toNat % m)))

/-- The bytes that a peer's operation touches, and whether it may write them. -/
def peerKeys : FabricOp → List Nat × Bool
  | .read loc n => (List.range' loc n, false)
  | .write loc bs => (List.range' loc bs.length, true)
  | .atomic loc _ w64 _ _ => (List.range' loc (if w64 then 8 else 4), true)

/-- Whether the staged objects that a peer's operation touches let it be performed (R242, R245). (DEDUCED, log entry 56) -/
def State.peerAdmits (s : State) (op : FabricOp) : Bool := (peerKeys op).1.all (fun k => s.admits k (peerKeys op).2)

/-- Whether one of them says that it faults: it is then not performed (R245). (DEDUCED, log entry 56) -/
def State.peerFaults (s : State) (op : FabricOp) : Bool := (peerKeys op).1.any (fun k => s.faultsFor k (peerKeys op).2)

/-- A peer's operation parks at the first object that does not admit it. -/
def State.peerPark (s : State) (port : Nat) (op : FabricOp) : State :=
  match (peerKeys op).1.find? (fun k => !s.admits k (peerKeys op).2) with
  | some k => s.parkOther (.peer port) k (peerKeys op).2
  | none => s

/-- Operations of a port in order up to one that parks: the state, and what waits (R248, R332). (DEDUCED, log entry 56) -/
def State.peerOps (s : State) (port : Nat) : List FabricOp → State × List FabricOp
  | [] => (s, [])
  | op :: r =>
    if s.peerAdmits op then ((s.unqueue noCore (.peer port)).peerOp port op).peerOps port r
    else if s.queued (.peer port) then (s, op :: r)
    else if s.peerFaults op then s.peerOps port r
    else (s.peerPark port op, op :: r)

/-- The parked operation of a port, the oldest that waits there, has found its object ready: it is performed unless another object stops it; those that
waited behind it arrive, while the port is up. -/
def State.peerParked (s : State) (port : Nat) : State :=
  let n := if (s.port port).up then (s.port port).waiting.length else 1
  let r := s.peerOps port ((s.port port).waiting.take n)
  r.1.setPort port { s.port port with waiting := r.2 ++ (s.port port).waiting.drop n }

/-- The block of a key read for a launch, and kept until the device comes back to it. (DEDUCED, log entry 56) -/
def State.devLatch (s : State) (launch key : Nat) : State :=
  let k := key / 64 * 64
  { s with devReads := s.devReads ++ [{ launch := launch, block := key / 64, bytes := Memory.readBytes s.mem k 64, poisoned := (s.poisoned k 64).isSome }] }

/-- A queue element that is legal now leaves the queue, performed. (DEDUCED, log entry 59) -/
def State.performParked (s : State) (o : Obj) (q : Parked) (e : Nat) : State :=
  let s := s.onObj o.id (fun o => { o with queue := o.queue.filter (fun k => k != q) })
  match s.accOf q with
  | some (t, a) => s.performOrLate o q.core t a e
  | none => match q.who with
    | .acc _ _ => s
    | .host id => s.hostParked id
    | .peer p => s.peerParked p
    | .device l => q.parts.foldl (fun s r => s.devLatch l r.2.1.key) s
    | _ => s.performUnit q

/-- The number that stands for core c in the queues while its job is saved under an id: its parked accesses keep their places (R61). (DEDUCED, log entry 59) -/
def awayCore (save c : Nat) : Nat := noCore * (2 + save) + c

/-- The oldest parked access of an object that is legal now; those of saved jobs wait for the resume. (DEDUCED, log entry 59) -/
def State.nextLegal (s : State) (o : Obj) : Option (Parked × Nat) :=
  o.queue.findSome? (fun q => if 2 * noCore ≤ q.core then none else match s.parkedCheck o q with | .legal e => some (q, e) | _ => none)

/-- A change of the core numbers of everything parked; none takes it out. -/
def State.mapParked (s : State) (f : Nat → Option Nat) : State :=
  { s with objs := s.objs.map (fun o => { o with queue := o.queue.filterMap (fun q => (f q.core).map (fun c => { q with core := c })) }) }

/-- The recheck after a transition: the oldest legal access is performed, and again (R248). (DEDUCED, log entry 59) -/
def State.recheck : Nat → State → Nat → State
  | 0, s, _ => s
  | n + 1, s, id =>
    match s.objs.find? (fun o => o.id == id) with
    | none => s
    | some o =>
      match s.nextLegal o with
      | none => s
      | some (q, e) => State.recheck n (s.performParked o q e) id

/-- The recheck of one object's whole queue. -/
def State.recheckObj (s : State) (id : Nat) : State :=
  match s.objs.find? (fun o => o.id == id) with
  | none => s
  | some o => State.recheck o.queue.length s id

/-! ## Binding (R251, R252, R352, R388) -/

/-- The physical parts of n bytes from a virtual address, page by page; none where a page is not translated or has no ST bit. (DESIGN CHOICE, log entry 105) -/
def State.extents (s : State) (c : Nat) (asid : BitVec 16) : Nat → Nat → Nat → Option (List (Nat × Nat))
  | 0, _, _ => none
  | fuel + 1, va, n =>
    match (match lookup (s.core c).tlb asid va with | some e => some e | none => s.serviceLookup c asid va) with
    | none => none
    | some e =>
      if !e.st then none
      else
        let part := min n (pageBytes e.size - (va - e.va))
        let here := ((e.place va).key, part)
        if n ≤ part then some [here] else (State.extents s c asid fuel (va + part) (n - part)).map (here :: ·)

/-- The parts of a region at address a, if R241 lets it be bound. -/
def State.region (s : State) (c : Nat) (asid : BitVec 16) (a : Word) (log2 : Nat) : Option (List (Nat × Nat)) :=
  if log2 < 8 ∨ 30 < log2 ∨ a.toNat % 2 ^ log2 ≠ 0 then none
  else
    let parts := match spaceOf a with
      | .commons off => if off + 2 ^ log2 ≤ Config.commonsBytes then some [(commonsKey off, 2 ^ log2)] else none
      | .virt va => s.extents c asid (2 ^ log2 / 2 ^ 12 + 1) va (2 ^ log2)
      | _ => none
    match parts with
    | none => none
    | some l => if s.objs.any (fun o => o.exts.any (fun e => l.any (fun f => meets e.1 e.2 f.1 f.2))) then none else some l

/-- The reason for which a STBIND is refused, or the object it binds (R251, R388). (DESIGN CHOICE, log entry 11) (DESIGN CHOICE, log entry 82) -/
def State.bindCheck (s : State) (c : Nat) (a : Access) : Except Nat Obj :=
  let w : Word := BitVec.ofNat 64 a.data
  let log2 := fld w 10 5
  match s.region c a.asid a.va log2 with
  | none => .error 5
  | some l =>
    let o : Obj := { id := s.nextId, exts := l, addr := a.va, binder := a.dom, log2 := log2, cls := fld w 0 6, scope := BitVec.ofNat 2 (fld w 15 2), state := fld w 6 4, owner := fld w 17 11, owned := bit w 28, tag := 0, queue := [], m := none, adopted := none }
    if fld w 29 35 ≠ 0 ∨ fld w 15 2 = 0 ∨ entValid (s.entry o o.state 0) = false ∨ (o.owned = true ∧ s.inJob c o.owner = false) ∨ (o.owned = false ∧ (s.core c).det = true) then .error 6
    else if Config.dirPerSlice ≤ (s.objs.filter (fun x => homeOf x.base == homeOf o.base)).length then .error 7 else .ok o

/-! ## An access at its directory entry -/

/-- Whether an object to be bound would give an acquire side to the transition of an access in flight before which a later access of its thread has been
performed: the bind comes after that access (R247). (DEDUCED, log entry 19) -/
def State.bindPassed (s : State) (o : Obj) : Bool :=
  s.cores.any (fun k => k.2.slots.any (fun x => x.2.acc.any (fun a =>
    x.2.ahead.contains a.id && a.place.any (fun p => o.holds p.key) && s.sides o a.x.toNat % 2 == 1)))

/-- An illegal access joins the queue of its object; while its slice's store is full it is sent again (R248). -/
def State.parkAcc (s : State) (c t : Nat) (a : Access) (o : Obj) : State :=
  if s.parksFull o then s
  else
    (s.onSlot c t (fun y => { y with acc := y.acc.map (fun b => if b.id = a.id then { b with phase := .parked } else b) })).enqueue o.id
      { core := c, who := .acc t a.id, need := a.kind.need, n := a.size, unit := 0, parts := [] }

/-- A data access or STX that reaches object o (R245 to R248, R294, R295). (DEDUCED, log entry 59) -/
def State.arriveAt (s : State) (c t : Nat) (a : Access) (o : Obj) : State :=
  let x := a.x.toNat
  if s.herdersOnly o a then s.fieldFault c t a o.addr 8 (s.coupleId c o) 0
  else match s.dirCheck o c a.kind.need x a.kind.isStx with
    | .fault r => s.stageFault c t a (some o) r
    | .park => s.parkAcc c t a o
    | .legal e =>
      let s := s.performOrLate o c t a e
      if x != 0 then s.recheckObj o.id else s

/-- STBIND, STDROP, STGET, STX and staged data accesses at the directory (R242). (DESIGN CHOICE, log entry 83) STGET.tag of a byte in no bound object is 0. (DESIGN CHOICE, log entry 93) -/
def State.arrive (s : State) (c t : Nat) (a : Access) (p : Place) : State :=
  match a.kind with
  | .stbind =>
    match s.bindCheck c a with
    | .error r => s.stageFault c t a none r
    | .ok o => if s.bindPassed o then s else { s with objs := s.objs ++ [o], nextId := s.nextId + 1 }.finishAcc c t a 0
  | .stdrop =>
    match s.objOf p with
    | none => s.stageFault c t a none 8
    | some o =>
      if o.base ≠ p.key ∨ (o.owned = true ∧ o.owner ≠ c) ∨ o.queue ≠ [] then s.stageFault c t a (some o) 8
      else { s with objs := s.objs.filter (fun x => x.id != o.id) }.finishAcc c t a 0
  | .stget tag =>
    match s.objOf p with
    | none => s.finishAcc c t a 0
    | some o => s.finishAcc c t a (if tag then o.tag else objWord o)
  | .stx named =>
    match s.objOf p with
    | none => s.stageFault c t a none 4
    | some o =>
      if (match named with | some n => !s.inJob c n | none => false) then s.stageFault c t a (some o) 11
      else s.arriveAt c t a o
  | _ =>
    match s.objOf p with
    | none => s.stageFault c t a none 4
    | some o => s.arriveAt c t a o

end Sys2Proof.Machine
end

