-- ==== Sys2Proof/Machine/Memory.lean ====
section
/-! DEFINITION. Page 1 and the staged instructions of page 6 at issue, and the steps that perform their accesses (R143 to R166, R241 to R255, R299, R301). -/

namespace Sys2Proof.Machine

open Sys2Proof

/-! ## Issue of an access -/

/-- Whether a list of accesses holds a STBIND or STDROP made before access a: the object that a will find may be another than now. -/
def rebinds (l : List Access) (a : Access) : Bool := l.any (fun b => (b.kind == .stbind || b.kind == .stdrop) && decide (b.id < a.id))

/-- The sides of an access's transition as its object is bound now (R247). (DEDUCED, log entry 19) -/
def State.accSides (s : State) (a : Access) : Nat := if a.x = 0 then 0 else (a.place.bind s.objOf).elim 0 (fun o => s.sides o a.x.toNat)

/-- Whether the transition of an unperformed access may be an acquire: by its object's class; one whose object is still to be bound, or may be
dropped and bound anew before it, counts as one (R247, R352). (DEDUCED, log entry 19) -/
def State.mayAcquire (s : State) (l : List Access) (a : Access) : Bool :=
  a.x != 0 && (a.phase != .parked && ((a.place.bind s.objOf).isNone || rebinds l a) || s.accSides a % 2 == 1)

/-- Whether an unperformed access of list l holds the next access of the slot at issue (R152, R247). -/
def Access.holds (s : State) (l : List Access) (a : Access) : Bool :=
  (match a.kind with
    | .store => a.ord == 2
    | .load _ | .atomic _ | .vamo _ => decide (1 ≤ a.ord)
    | _ => false) ||
  s.mayAcquire l a

/-- Whether stores or atomics that the starter of the issuing slot made before START are still to be performed (R140). -/
def State.startHeld (s : State) (x : Slot) : Bool := x.after.any (fun q => s.mine.slots.any (fun y => y.2.acc.any (fun a => a.id == q.2)))

/-- Whether a fence holds the slot's next access (R162). -/
def Slot.fenced (x : Slot) : Bool := x.fence && !x.acc.isEmpty

/-- Whether an access has no translation as yet: its location and its page's type are still to be found. -/
def AccPhase.untranslated : AccPhase → Bool
  | .ready | .parked => false
  | _ => true

/-- Whether the slot's next load, store, atomic or VAMO is held at issue (R140, R147, R152, R162, R247). (DESIGN CHOICE, log entry 73) -/
def State.memHeld (s : State) (x : Slot) : Bool :=
  x.results.any (·.acq) || x.fenced || x.acc.any (fun a => a.phase.untranslated) || x.acc.any (fun a => a.holds s x.acc) || s.startHeld x

/-- What an access is made of at issue. -/
structure Req where
  kind  : AccKind
  va    : Word
  size  : Nat
  x     : BitVec 4 := 0
  scope : BitVec 2 := 0
  order : BitVec 2 := 0
  data  : Nat := 0
  exp   : Word := 0
  dest  : Reg := 0

/-- R159: an atomic that a host-shared page admits. -/
def AccKind.shape (k : AccKind) (scope : Nat) : AccShape :=
  match k with
  | .atomic op => if (op == 11 || op == 19 || op == 20) && scope == 3 then .hostAtomic else .atomic
  | .vamo _ => .vamo
  | _ => .plain

/-- A store of the sweep thread must stay in the self window and out of every field's ranges (R289, R398). -/
def State.sweepStoreBad (s : State) (r : Req) : Bool :=
  s.cur.slot == 11 && r.kind == .store &&
  (match spaceOf r.va with
    | .self off => s.mine.fields.any (fun p => (fRanges p.2.desc).any (fun q => meets off r.size q.1 q.2))
    | _ => true)

/-- The access a request makes at issue, with its translation if the core TLB has one. A staged instruction may name a reserved space: there is
no object there (R388). -/
def State.mkAccess (s : State) (r : Req) : Access :=
  let x := s.me
  let pl := if spaceOf r.va = .reserved then some Place.nowhere else s.tlbPlace s.cur.core x.asid r.va
  let miss := match pl with
    | none => (match spaceOf r.va with | .virt _ => true | _ => false)
    | some p => p.lacks r.kind.acc
  { id := s.nextId, kind := r.kind, va := r.va, size := r.size, x := r.x, scope := r.scope, order := r.order, data := r.data, exp := r.exp, dest := r.dest, dom := x.dom, asid := x.asid, key := x.key, fpc := s.cur.pc, page := s.cur.page, op := s.cur.op, place := if miss then none else pl, phase := if miss then .miss else .ready, reqs := 0, mid := none, det := s.mine.det }

/-- The access enters the slot's list; on a miss the thread parks at it (R147). -/
def State.putAccess (s : State) (a : Access) : State :=
  let s := { s with nextId := s.nextId + 1 }
  s.onMe (fun x =>
    let x := { x with acc := x.acc ++ [a], fence := false }
    if a.phase = .miss then x.waitFor s.rtime.toNat (.tlb a.id) false else x)

/-- Issue of one access: alignment, space, the sweep thread's limits, ordering, then the access itself. -/
def access (n : Need) (f : Slot → Req) (s : State) : Out State :=
  issue n (fun s =>
    let r := f s.me
    if !aligned r.va r.size then .misaligned r.va (lg r.size)
    else if s.sweepStoreBad r then .trap 0x0F r.va (BitVec.ofNat 64 s.cur.slot)
    else if spaceOf r.va = .reserved then .trap 0x07 r.va (memInfo 6 r.kind.acc 5 s.me.asid 0 false)
    else if s.memHeld s.me then .wait .order
    else .done (s.putAccess (s.mkAccess r))) s

/-- A load (R150). -/
def loadOp (sgn : Bool) (size : Nat) (d : Reg) (m : MemOp) (s : State) : Out State :=
  access { rs := [m.base, m.idx], ws := [d], var := true, who := .any }
    (fun x => { kind := .load sgn, va := memAddr m x size, size := size, x := m.x, scope := m.scope, order := m.order, dest := d }) s

/-- A store (R150). -/
def storeOp (size : Nat) (d : Reg) (m : MemOp) (s : State) : Out State :=
  access { rs := [d, m.base, m.idx], who := .any }
    (fun x => { kind := .store, va := memAddr m x size, size := size, x := m.x, scope := m.scope, order := m.order, data := (x.rd d).toNat % 2 ^ (8 * size) }) s

/-- A scalar atomic (R154); op is its OP. -/
def atomicOp (op : Nat) (d : Reg) (m : MemOp) (w64 : Bool) (s : State) : Out State :=
  let size := if w64 then 8 else 4
  access { rs := [d, m.base, m.idx], ws := [d], var := true }
    (fun x => { kind := .atomic op, va := (if op = 20 then memAddrNoIdx m x else memAddr m x size), size := size, x := m.x, scope := m.scope, order := m.order, data := (x.rd d).toNat % 2 ^ (8 * size), exp := if op = 20 then BitVec.ofNat 64 ((x.rd m.idx).toNat % 2 ^ (8 * size)) else 0, dest := d }) s

/-- LD8S (R150). -/
def execLd8s (d : Reg) (m : MemOp) (s : State) : Out State := loadOp true 1 d m s
/-- LD8N (R150). -/
def execLd8n (d : Reg) (m : MemOp) (s : State) : Out State := loadOp false 1 d m s
/-- LD16S (R150). -/
def execLd16s (d : Reg) (m : MemOp) (s : State) : Out State := loadOp true 2 d m s
/-- LD16N (R150). -/
def execLd16n (d : Reg) (m : MemOp) (s : State) : Out State := loadOp false 2 d m s
/-- LD32S (R150). -/
def execLd32s (d : Reg) (m : MemOp) (s : State) : Out State := loadOp true 4 d m s
/-- LD32N (R150). -/
def execLd32n (d : Reg) (m : MemOp) (s : State) : Out State := loadOp false 4 d m s
/-- LD64 (R150). -/
def execLd64 (d : Reg) (m : MemOp) (s : State) : Out State := loadOp false 8 d m s
/-- ST8 (R150). -/
def execSt8 (d : Reg) (m : MemOp) (s : State) : Out State := storeOp 1 d m s
/-- ST16 (R150). -/
def execSt16 (d : Reg) (m : MemOp) (s : State) : Out State := storeOp 2 d m s
/-- ST32 (R150). -/
def execSt32 (d : Reg) (m : MemOp) (s : State) : Out State := storeOp 4 d m s
/-- ST64 (R150). -/
def execSt64 (d : Reg) (m : MemOp) (s : State) : Out State := storeOp 8 d m s
/-- AADD (R155). -/
def execAadd (d : Reg) (m : MemOp) (w64 : Bool) (s : State) : Out State := atomicOp 11 d m w64 s
/-- AAND (R155). -/
def execAand (d : Reg) (m : MemOp) (w64 : Bool) (s : State) : Out State := atomicOp 12 d m w64 s
/-- AOR (R155). -/
def execAor (d : Reg) (m : MemOp) (w64 : Bool) (s : State) : Out State := atomicOp 13 d m w64 s
/-- AXOR (R155). -/
def execAxor (d : Reg) (m : MemOp) (w64 : Bool) (s : State) : Out State := atomicOp 14 d m w64 s
/-- AMINS (R155). -/
def execAmins (d : Reg) (m : MemOp) (w64 : Bool) (s : State) : Out State := atomicOp 15 d m w64 s
/-- AMAXS (R155). -/
def execAmaxs (d : Reg) (m : MemOp) (w64 : Bool) (s : State) : Out State := atomicOp 16 d m w64 s
/-- AMINN (R155). -/
def execAminn (d : Reg) (m : MemOp) (w64 : Bool) (s : State) : Out State := atomicOp 17 d m w64 s
/-- AMAXN (R155). -/
def execAmaxn (d : Reg) (m : MemOp) (w64 : Bool) (s : State) : Out State := atomicOp 18 d m w64 s
/-- ASWP (R155). -/
def execAswp (d : Reg) (m : MemOp) (w64 : Bool) (s : State) : Out State := atomicOp 19 d m w64 s
/-- ACAS (R155). -/
def execAcas (d : Reg) (m : MemOp) (w64 : Bool) (s : State) : Out State := atomicOp 20 d m w64 s
/-- AFADD (R155): 32 bits only. -/
def execAfadd (d : Reg) (m : MemOp) (s : State) : Out State := atomicOp 21 d m false s
/-- AFMAXA (R155): 32 bits only. -/
def execAfmaxa (d : Reg) (m : MemOp) (s : State) : Out State := atomicOp 22 d m false s

/-! ## Fence, prefetch, timelines -/

/-- FENCE (R162): later accesses wait for the earlier ones; .sc.core waits for them itself and then empties the instruction buffer, so that
every later fetch reads what they stored (R149). -/
def execFence (order scope : BitVec 2) (s : State) : Out State :=
  issue { who := .any }
    (fun s =>
      if order = 2 ∧ scope = 0 then
        if s.me.acc.isEmpty then .done (s.onMine (fun k => { k with ibuf := [] })) else .wait .order
      else .done (s.onMe (fun x => { x with fence := !x.acc.isEmpty }))) s

/-- PREF (R163): changes no architectural state; it reads its registers as every instruction does (R360). (DEDUCED, log entry 90) -/
def execPref (base idx : Reg) (_off : Word) (s : State) : Out State := issue { rs := [base, idx], who := .any } .done s

/-- TLGET (R164): the value is on its way back with variable latency. -/
def execTlget (d : Reg) (sel : BitVec 3) (s : State) : Out State :=
  issue { ws := [d], var := true, who := .any }
    (fun s => .done (s.onMe (fun x =>
      let e := sel.toNat % 4
      let v := if sel.getLsbD 2 then ectx x.issued e else ectx x.counter e
      if d = 0 then x else { x with results := x.results ++ [{ reg := d, val := v, depth := 0, acq := false }] }))) s

/-- TLWAIT (R165). -/
def execTlwait (e : BitVec 2) (b : Reg) (s : State) : Out State :=
  issue { rs := [b], who := .any }
    (fun s => if (s.me.rd b).toNat ≤ (ectx s.me.counter e.toNat).toNat then .done s else .wait (.tl e.toNat (s.me.rd b))) s

/-- Whether a queued or executing vector command of the slot writes v. -/
def vdestOf : Instr → Option VReg
  | .vld d _ _ _ | .vlds _ d _ _ _ | .vgatl _ d _ _ | .vbcst _ d _ | .vins _ d _ _ | .vmov d _ | .vadd _ _ d _ _ | .vsub _ _ d _ _
  | .vmul _ _ _ d _ _ | .vfma _ _ d _ _ | .vmin _ _ d _ _ | .vmax _ _ d _ _ | .vabs _ _ d _ | .vneg _ _ d _ | .vand d _ _ | .vor d _ _
  | .vxor d _ _ | .vshl _ _ d _ _ | .vshr _ d _ _ | .vsar _ d _ _ | .vcmp _ _ d _ _ | .vsel _ d _ _ | .vcvt _ _ _ d _ | .vwadd _ _ _ d _ _
  | .vscan _ _ _ d _ _ | .vred _ _ _ d _ _ | .vperm _ d _ _ | .vmath _ _ d _ => some d
  | _ => none

/-- Commands of engine e, executing first. -/
def Core.cmds (k : Core) (e : Nat) : List Cmd := tget k.exec e [] ++ tget k.queue e []

/-- Whether an earlier vector command of slot t that writes v has not completed (R161, R225). -/
def Core.vecBusy (k : Core) (t : Nat) (v : VReg) : Bool := (k.cmds 1).any (fun m => m.slot == t && vdestOf m.instr == some v)

/-- VAMO (R161): vA is read at issue, after the wait for earlier vector commands that write it. -/
def execVamo (v : VReg) (m : MemOp) (op : BitVec 3) (s : State) : Out State :=
  issue { rs := [m.base, m.idx] }
    (fun s =>
      let x := s.me
      let a := memAddr m x 64
      if !aligned a 64 then .misaligned a 6
      else if spaceOf a = .reserved then .trap 0x07 a (memInfo 6 3 5 x.asid 0 false)
      else if s.memHeld x then .wait .order
      else if s.mine.vecBusy s.cur.slot v then .wait (.vecDone v)
      else .done (s.putAccess (s.mkAccess { kind := .vamo op, va := a, size := 64, x := m.x, scope := m.scope, order := m.order, data := (x.vrd v).toNat }))) s

/-! ## Staged instructions (R250) -/

/-- STBIND (R251). -/
def execStbind (a b : Reg) (s : State) : Out State :=
  issue { rs := [a, b] } (fun s =>
    if s.memHeld s.me then .wait .order
    else .done (s.putAccess (s.mkAccess { kind := .stbind, va := s.me.rd a, size := 1, data := (s.me.rd b).toNat }))) s

/-- STDROP (R252): a release. -/
def execStdrop (a : Reg) (s : State) : Out State :=
  issue { rs := [a] } (fun s =>
    if s.memHeld s.me then .wait .order
    else .done (s.putAccess (s.mkAccess { kind := .stdrop, va := s.me.rd a, size := 1, order := 1 }))) s

/-- STX (R253). -/
def execStx (x : BitVec 4) (a b : Reg) (c : Option Reg) (s : State) : Out State :=
  issue { rs := [a, b] ++ c.toList } (fun s =>
    if s.memHeld s.me then .wait .order
    else .done (s.putAccess (s.mkAccess { kind := .stx (c.map (fun r => fld (s.me.rd r) 0 11)), va := s.me.rd a, size := 1, x := x, data := (s.me.rd b).toNat }))) s

/-- STGET (R254): no acquire holds it. -/
def execStget (d b : Reg) (tag : Bool) (s : State) : Out State :=
  issue { rs := [b], ws := [d], var := true } (fun s =>
    if s.me.fenced || s.startHeld s.me then .wait .order
    else .done (s.putAccess (s.mkAccess { kind := .stget tag, va := s.me.rd b, size := 1, dest := d }))) s

/-! ## Performing accesses -/

/-- Bytes that an access names, for the order of accesses to one location: a STBIND's and a STDROP's whole region (R251, R252). -/
def State.reach (s : State) (a : Access) : Nat :=
  match a.kind with
  | .stbind => 2 ^ fld (BitVec.ofNat 64 a.data) 10 5
  | .stdrop => (a.place.bind s.objOf).elim 1 (fun o => 2 ^ o.log2)
  | _ => a.size

/-- Whether an access overlaps an earlier one, by memory or by address (R152). -/
def State.overlaps (s : State) (b a : Access) : Bool :=
  meets b.va.toNat (s.reach b) a.va.toNat (s.reach a) ||
  (match a.place, b.place with
    | some p, some q => meets p.key a.size q.key b.size
    | _, _ => false)

/-- Whether an access writes or moves an object: a store, atomic or VAMO, or one with a transition (R249). (DEDUCED, log entry 94) -/
def Access.changes (a : Access) : Bool := a.x != 0 || (match a.kind with | .store | .atomic _ | .vamo _ => true | _ => false)

/-- Whether two accesses of a thread under MODE.DET write or move one object: they keep program order (R249). (DEDUCED, log entry 94) -/
def State.detOrder (s : State) (b a : Access) : Bool :=
  a.det && a.changes && b.changes &&
  (match a.place.bind s.objOf, b.place.bind s.objOf with
    | some o, some p => o.id == p.id
    | _, _ => false)

/-- Whether an earlier access of its thread keeps its place before this one: one location, both on device pages, both on pages of one fabric
peer, or, under MODE.DET, both changes of one object (R148, R152, R249, R332); one that is to be translated afresh may be any of these (R376). (DEDUCED, log entry 94) -/
def State.before (s : State) (b a : Access) : Bool :=
  s.overlaps b a || b.phase.untranslated || s.detOrder b a ||
  (match a.place, b.place with
    | some p, some q => (p.ty == 2 && q.ty == 2) || (p.peer.isSome && p.peer == q.peer)
    | _, _ => false)

/-- Whether an access waits until every earlier one of list l is performed: release, SC, STDROP, a transition that may release (R152, R247, R252). (DESIGN CHOICE, log entry 73) -/
def State.releases (s : State) (a : Access) : Bool :=
  (match a.kind with
    | .store | .atomic _ | .vamo _ => decide (1 ≤ a.ord)
    | .load _ => a.ord == 2
    | .stdrop => true
    | _ => false) ||
  decide (2 ≤ s.accSides a)

/-- The accesses before id, and the access itself. -/
def Slot.splitAcc (x : Slot) (id : Nat) : List Access × Option Access :=
  (x.acc.takeWhile (fun a => a.id != id), x.acc.find? (fun a => a.id == id))

/-- Whether the fabric port that a place names, if it names one, is up (R332, R422). (DESIGN CHOICE, log entry 32) -/
def State.portUp (s : State) (p : Place) : Bool := p.peer.all (fun q => (s.port q.toNat).up)

/-- Whether an access comes after those of a list that program order keeps before it (R148, R152); a load, store, atomic or VAMO after each transition
with an acquire side as its object is bound now, too (R247). (DEDUCED, log entry 19) -/
def State.follows (s : State) (before : List Access) (a : Access) : Bool :=
  if s.releases a then before.isEmpty else !before.any (fun b => s.before b a || a.kind.isData && s.accSides b % 2 == 1)

/-- Whether an access of list l moves on by itself: not parked at a directory entry, behind nothing that is, and not one that its object's full store
sends back (R248, R254). -/
def State.moves (s : State) (l : List Access) (b : Access) : Bool :=
  match b.phase with
  | .parked => false
  | .ready => s.follows (l.takeWhile (fun q => q.id != b.id)) b && !(full b)
  | _ => true
where
  full (b : Access) : Bool := match b.kind with | .stget _ => false | _ => (b.place.bind s.objOf).any s.parksFull

/-- Whether an access has its turn: ready, and after the earlier ones that program order keeps before it (R148, R152); a STGET parks on
nothing: it comes only after those that move on by themselves (R254). -/
def State.hasTurn (s : State) (before : List Access) (a : Access) : Bool :=
  a.phase == .ready &&
  (match a.kind with
    | .stget _ => !before.any (fun b => s.before b a && s.moves before b)
    | _ => s.follows before a)

/-- Whether an access may be performed now: it has its turn, and the fabric port that it goes through, if any, is up (R332, R422). -/
def State.mayPerform (s : State) (before : List Access) (a : Access) : Bool := a.place.any s.portUp && s.hasTurn before a

/-- Whether an access finds the store of parked accesses full at its object's home, and is sent again and again (R248). -/
def State.resends (s : State) (c : Nat) (a : Access) : Bool :=
  match a.kind, a.place.bind s.objOf with
  | .stbind, _ | .stdrop, _ | .stget _, _ | _, none => false
  | _, some o => s.parksFull o && s.dirCheck o c a.kind.need a.x.toNat a.kind.isStx == .park

/-- Whether a Seam row link that an access of core c to an address, or its answer, crosses is lost (R423). -/
def State.rowCut (s : State) (c : Nat) (va : Word) : Bool := match spaceOf va with | .window d _ => s.rowLost c d || s.rowLost d c | _ => false

/-- Whether an access can never go on its way: the fabric port, or the Seam row link that it or its answer crosses, is lost (R422, R423). -/
def State.cutOff (s : State) (c : Nat) (a : Access) : Bool :=
  a.phase == .ready && (a.place.any (fun p => p.peer.any (fun q => (s.port q.toNat).lost)) || s.rowCut c a.va)

/-- Whether an access of a slot of core c is still in flight: on its way to a translation, or to be performed, if only once its port is up again; not one
that is parked or cut off, nor one that waits behind such a one. -/
def State.goes (s : State) (c : Nat) (x : Slot) : Bool :=
  x.acc.any (fun a => match a.phase with
    | .miss | .ats _ => true
    | _ => s.hasTurn (x.splitAcc a.id).1 a && !s.resends c a && !s.cutOff c a)

/-- The kind of step that performs an access. -/
inductive Via where
  | load | store | atomic | vamo | window | remote | staged
  deriving DecidableEq, Repr

/-- The kind of step that performs an access (R150, R154, R242). -/
def State.via (s : State) (a : Access) : Via :=
  let staged := a.x != 0 || (match a.place with | some p => (s.objOf p).isSome | none => false)
  match a.kind with
  | .stbind | .stdrop | .stx _ | .stget _ => .staged
  | .load _ => if staged then .staged else (match spaceOf a.va with | .window _ _ => .window | _ => .load)
  | .store => if staged then .staged else (match spaceOf a.va with | .window _ _ => .remote | _ => .store)
  | .atomic _ => if staged then .staged else .atomic
  | .vamo _ => if staged then .staged else .vamo

/-- Whether a core-window access of core c is held on its way: the target's clock is paused for a V/F move (R338), or a Seam row link that its
request or its answer crosses retrains (R421). -/
def State.targetPaused (s : State) (c : Nat) (a : Word) : Bool :=
  match spaceOf a with
  | .window d _ => (s.core d).vf.moving.isSome || s.seamHolds 0 c d || s.seamHolds 1 d c
  | _ => false

/-- Whether an atomic executes in its cluster unit: core or cluster scope, in the commons or device-private memory outside every object (R157); one on a strongly-ordered page has system scope (R148). (DEDUCED, log entry 48) -/
def State.inClusterUnit (s : State) (a : Access) (p : Place) : Bool :=
  (match a.kind with | .atomic _ => true | _ => false) && decide (a.scope.toNat ≤ 1) && p.ty != 3 && (s.objOf p).isNone &&
  (match spaceOf a.va with | .commons _ => true | .virt _ => !p.host && p.peer.isNone | _ => false)

/-- Whether the cluster unit of core c is between the read and the write of another atomic on the same location (R157). (DEDUCED, log entry 48) -/
def State.unitBusy (s : State) (c : Nat) (a : Access) (p : Place) : Bool :=
  s.cores.any (fun k => clusterOf k.1 == clusterOf c && k.2.slots.any (fun x => x.2.acc.any (fun b =>
    b.id != a.id && b.mid.isSome && b.place.any (fun q => meets q.key b.size p.key a.size))))

/-- An access of slot (c, t) that no object and no refusal stops: one step, or, in a cluster unit, a read and later a write (R157, R305). (DEDUCED, log entry 48) -/
def State.performData (s : State) (c t : Nat) (a : Access) (p : Place) : State :=
  if s.inClusterUnit a p then
    match a.mid with
    | none =>
      if s.unitBusy c a p then s
      else s.onSlot c t (fun x => { x with acc := x.acc.map (fun b => if b.id = a.id then { b with mid := some (ofBytes (s.readAt p a.size)) } else b) })
    | some v =>
      let old := bytesOf a.size v
      (match a.newBytes old with | some bs => s.writeAt p bs | none => s).finishAcc c t a (a.value old)
  else let r := s.dataPart a p; r.1.finishAcc c t a r.2

/-- An access of slot (c, t) performed: refused, sent through its directory entry, or done. (DESIGN CHOICE, log entry 106) -/
def State.perform (s : State) (c t : Nat) (a : Access) (p : Place) : State :=
  let g := a.agent c t
  let acc := a.kind.acc
  let plain := match a.kind with | .stbind | .stdrop | .stx _ | .stget _ => false | _ => true
  match (if plain then s.deny g a.va a.size p acc (a.kind.shape a.span) else none) with
  | some d => s.refuseAcc c t a d
  | none =>
    match s.via a with
    | .staged => s.arrive c t a p
    | _ =>
      match s.capDeny c a.va p acc with
      | some d => s.refuseAcc c t a d
      | none => s.performData c t a p

/-- The access id of slot (c, t), performed if it may be and goes by way of v; otherwise nothing happens. -/
def performStep (v : Via) (c t id : Nat) (s : State) : State :=
  match (s.slot c t).splitAcc id with
  | (before, some a) =>
    match a.place with
    | some p => if s.mayPerform before a && s.via a == v && !s.targetPaused c a.va then s.perform c t a p else s
    | none => s
  | (_, none) => s

/-- STORE_PERFORM. -/
def execStorePerform (c t id : Nat) (s : State) : Out State := .next (performStep .store c t id s)
/-- ATOMIC_EXECUTE (R157): one step, or two in a cluster unit. (DEDUCED, log entry 48) -/
def execAtomicExecute (c t id : Nat) (s : State) : Out State := .next (performStep .atomic c t id s)
/-- VAMO_EXECUTE (R161). -/
def execVamoExecute (c t id : Nat) (s : State) : Out State := .next (performStep .vamo c t id s)
/-- CORE_WINDOW_READ (R23, R369). -/
def execCoreWindowRead (c t id : Nat) (s : State) : Out State := .next (performStep .window c t id s)
/-- STAGED_ACCESS_ARRIVE (R242, R245). -/
def execStagedAccessArrive (c t id : Nat) (s : State) : Out State := .next (performStep .staged c t id s)

/-- The first result for register r, and the rest. -/
def takeResult (r : Reg) : List Result → Option (Result × List Result)
  | [] => none
  | q :: l => if q.reg = r then some (q, l) else (takeResult r l).map (fun p => (p.1, q :: p.2))

/-- The oldest load of the slot with destination r that goes straight to its home and may be performed. -/
def State.readyLoad (s : State) (x : Slot) (r : Reg) : Option (Access × Place) :=
  x.acc.findSome? (fun a =>
    match a.place with
    | some p => if s.via a = .load ∧ a.dest = r ∧ s.mayPerform (x.splitAcc a.id).1 a = true then some (a, p) else none
    | none => none)

/-- A value that has returned is written and its pending bit cleared (R36). -/
def State.deliverResult (s : State) (c t : Nat) (r : Reg) : State :=
  match takeResult r (s.slot c t).results with
  | some (q, rest) => s.onSlot c t (fun x => { x with results := rest }.giveBack q.reg q.val q.depth)
  | none => s

/-- VARIABLE_LATENCY_RESULT: a value that is on its way, else the read of the oldest load of r, whose value then returns (R36, R150). -/
def execVariableLatencyResult (c t : Nat) (r : Reg) (s : State) : Out State :=
  .next (match takeResult r (s.slot c t).results with
    | some _ => s.deliverResult c t r
    | none =>
      match s.readyLoad (s.slot c t) r with
      | some (a, p) => (s.perform c t a p).deliverResult c t r
      | none => s)

/-- MARKER_PARK_END: no register is pending; every register of the slot is synchronised (R37, R360). -/
def execMarkerParkEnd (c t : Nat) (s : State) : Out State :=
  let x := s.slot c t
  .next (match x.park with
    | some w => if w.kind = .marker ∧ x.pend = 0 then s.setSlot c t { x with park := none, unsync := 0 } else s
    | none => s)

end Sys2Proof.Machine
end

