-- ==== Sys2Proof/Machine/Engine.lean ====
section
/-! DEFINITION. The engines' queues, numbering, progress and accesses, shared by vector, matrix, copy and field commands (R13, R41 to R44, R166 to R170, R193 to R195, R205, R363, R368). -/

namespace Sys2Proof.Machine

open Sys2Proof

/-! ## Entering a queue -/

/-- The number the slot's next command to engine e takes (R41). -/
def Slot.nextNum (x : Slot) (e : Nat) : Nat := (ectx x.issued e).toNat + 1

/-- A command of the issuing slot with what it samples now (R44). -/
def State.mkCmd (s : State) (e : Nat) (i : Instr) (args : List Word) (joint : Nat) : Cmd :=
  let x := s.me
  { id := s.nextId, num := x.nextNum e, slot := s.cur.slot, instr := i, args := args, ec := x.ec, dom := x.dom, asid := x.asid, key := x.key, fpc := s.cur.pc, page := s.cur.page, op := s.cur.op, depth := x.branches.length, dead := false, joint := joint, srcs := [], shown := 0, brows := [], walk := Walk.none }

/-- The command enters its queue and takes its number; an MMAJ that is not speculative takes its place among the core's MMAJs (R41, R198). -/
def State.putCmd (s : State) (e : Nat) (i : Instr) (args : List Word) : State :=
  let j := (match i with | .mmaj _ _ _ => s.me.branches.isEmpty | _ => false)
  let m := s.mkCmd e i args (if j then s.mine.mmajIn + 1 else 0)
  let s := { s with nextId := s.nextId + 1 }
  let s := s.onMe (fun x => { x with issued := ectxSet x.issued e (ectx x.issued e + 1) })
  s.onMine (fun k => { k with queue := tset k.queue e (tget k.queue e [] ++ [m]), mmajIn := k.mmajIn + ofBool j })

/-- Whether an instruction is an EWAIT. -/
def isEwait : Instr → Bool
  | .ewait _ _ _ => true
  | _ => false

/-- Whether a command is a marker. -/
def Cmd.isMarker (m : Cmd) : Bool := isEwait m.instr

/-- Issue of a command once its checks passed: a full queue stalls; a fence holds a vector, matrix or copy command (R13, R169, R194, R277, R301). -/
def enter (e : Nat) (i : Instr) (args : List Word) (s : State) : Act :=
  if s.me.fenced && e != 3 && !isEwait i then .wait .order
  else if Config.queueDepth ≤ (tget s.mine.queue e []).length then .wait (.queue e)
  else .done (s.putCmd e i args)

/-- ENGINE reasons 1 to 3, an issue trap (R363). -/
def engTrap (ctx reason : Nat) (addr : Word) (s : State) : Act := .trap 0x15 addr (engInfo ctx reason (s.me.nextNum ctx))

/-- EWAIT (R166): a marker in the queue of e that waits for context f. -/
def execEwait (e f : BitVec 2) (b : Reg) (s : State) : Out State :=
  issue { rs := [b], late := false } (fun s =>
    if e = f ∧ s.me.nextNum e.toNat ≤ (s.me.rd b).toNat then engTrap e.toNat 1 0 s
    else enter e.toNat (.ewait e f b) [s.me.rd b] s) s

/-! ## Accesses of engines and Herders -/

/-- What an engine's access comes to: done, held for now, parked at an object's directory entry (R248), without a translation, behind a fabric
port whose link is down (R422) or, with no port named, a Seam row that is lost (R423), or refused, with the state as far as its command had written. -/
inductive EngRes (α : Type) where
  | ok (a : α)
  | wait
  | park (obj : Nat) (q : Parked)
  | miss (va : Word) (write : Bool)
  | port (p : Option (BitVec 4))
  | deny (s : State) (va : Word) (acc : Nat) (d : Deny)

def EngRes.bind {α β : Type} (r : EngRes α) (f : α → EngRes β) : EngRes β :=
  match r with
  | .ok a => f a
  | .wait => .wait
  | .park o q => .park o q
  | .miss v w => .miss v w
  | .port p => .port p
  | .deny s v a d => .deny s v a d

/-- The same result, with another form of what parks. -/
def EngRes.parkAs {α : Type} (r : EngRes α) (f : Parked → Parked) : EngRes α :=
  match r with
  | .park o q => .park o (f q)
  | r => r

/-- Whether the job of a core has a PASID (R318). -/
def State.pv (s : State) (c : Nat) : Bool :=
  match (s.core c).job.bind s.job? with
  | some j => bit (j.pw 19) 20
  | none => false
def State.pasid (s : State) (c : Nat) : BitVec 20 :=
  match (s.core c).job.bind s.job? with
  | some j => BitVec.ofNat 20 (fld (j.pw 19) 0 20)
  | none => 0

/-- The PAGE reason with which firmware has refused the page of an address to a walk (R377). -/
def Walk.refusal (w : Walk) (a : Word) (write : Bool) : Option Nat :=
  (w.failed.find? (fun f => f.1 == a.toNat / 2 ^ 12 && f.2.1 == write)).map (·.2.2)

/-- The bytes of a unit that has been read, by itself or as part of a longer one. -/
def Walk.bytes (w : Walk) (a : Word) (n : Nat) : Option (List Byte) :=
  (w.reads.find? (fun r => decide ((a - r.1).toNat + n ≤ r.2.1))).map (fun r => (r.2.2.drop (a - r.1).toNat).take n)

/-- Whether a unit has been read. -/
def Walk.has (w : Walk) (a : Word) (n : Nat) : Bool := (w.bytes a n).isSome

/-- The byte that has been read at an address. -/
def Walk.byteAt (w : Walk) (a : Word) : Byte :=
  match w.reads.find? (fun r => decide ((a - r.1).toNat < r.2.1)) with
  | some r => r.2.2.getD (a - r.1).toNat 0
  | Option.none => 0

/-- The place of an access of n bytes that one aligned 64-byte block holds, once nothing refuses or holds it: an engine's, or a block read of a
thread's own instruction (R195, R245, R249, R338, R371, R377). (DEDUCED, log entry 35) -/
def State.unitPlace (s : State) (g : Agent) (sh : AccShape) (a : Word) (n acc need : Nat) : EngRes Place :=
  match spaceOf a with
  | .reserved => .deny s a acc ⟨0x07, 6, 5, 0⟩
  | sp =>
    match g.walk.refusal a (accWrites acc), g.place a with
    | some r, _ => .deny s a acc ⟨0x09, r, ofBool (r != 0), 0⟩
    | none, none => .miss a (accWrites acc)
    | none, some p =>
      if p.lacks acc then .miss a (accWrites acc)
      else if s.rowCut g.core a then .port none
      else if s.targetPaused g.core a then .wait
      else match s.deny g a n p acc sh with
        | some d => .deny s a acc d
        | none =>
          match s.objOf p with
          | some o =>
            match s.dirCheck o g.core need 0 false with
            | .legal _ => .ok p
            | .park => .park o.id { core := g.core, who := g.who, need := need, n := n, unit := 0, parts := [(a, p, [])] }
            | .fault r => .deny s a acc ⟨0x0B, r, sp.code p.host, 0⟩
          | none =>
            match s.capDeny g.core a p acc with
            | some d => .deny s a acc d
            | none => match p.peer with
              | some q => if s.portUp p then .ok p else .port (some q)
              | none => .ok p

/-- The place of an engine's access. (DEDUCED, log entry 35) -/
def State.engPlace (s : State) (g : Agent) (a : Word) (n acc need : Nat) : EngRes Place := s.unitPlace g .engine a n acc need

/-- n bytes read as one unit; one read before keeps its bytes. -/
def State.unitRead (s : State) (g : Agent) (sh : AccShape) (acc : Nat) (a : Word) (n : Nat) : EngRes (List Byte) :=
  if n = 0 then .ok []
  else match g.walk.bytes a n with
    | some l => .ok l
    | none => (s.unitPlace g sh a n acc 1).bind (fun p => .ok (s.readAt p n))

/-- A unit read by an engine; acc is 4. -/
def State.engRead (s : State) (g : Agent) (acc : Nat) (a : Word) (n : Nat) : EngRes (List Byte) := s.unitRead g .engine acc a n

/-- A write unit: runs of bytes of one aligned 64-byte block, written in one step (R309), with DNAN and DOVF of the elements that a drain writes there
(R202). -/
structure WriteUnit where
  parts : List (Word × List Byte)
  nan   : Bool := false
  ovf   : Bool := false
  deriving DecidableEq, Repr

/-- The write unit of one run of bytes. -/
def WriteUnit.run (r : Word × List Byte) : WriteUnit := { parts := [r] }

/-- The places of a write unit's runs; a unit is refused whole, at its first address. -/
def State.unitPlaces (s : State) (g : Agent) (first : Word) : List (Word × List Byte) → EngRes (List (Word × Place × List Byte))
  | [] => .ok []
  | (a, bs) :: r =>
    match s.engPlace g a bs.length 5 2 with
    | .deny t _ acc d => .deny t first acc d
    | q => q.bind (fun p => (s.unitPlaces g first r).bind (fun l => .ok ((a, p, bs) :: l)))

/-- Write unit k of a command, unless it has been done. -/
def State.engWrite (s : State) (g : Agent) (k : Nat) (u : WriteUnit) : EngRes State :=
  if u.parts.isEmpty || g.walk.wrote.contains k then .ok s
  else
    let all := u.parts.filterMap (fun r => (g.place r.1).map (fun p => (r.1, p, r.2)))
    ((s.unitPlaces g (u.parts.headD (0, [])).1 u.parts).parkAs (fun q => { q with unit := k, parts := all, nan := u.nan, ovf := u.ovf })).bind (fun ps =>
      .ok ((s.unitWrite 2 ps).stick g.core g.who u.nan u.ovf))

/-- A run of bytes cut at aligned 64-byte blocks: fuel pieces of (address, bytes) (R205, R309). -/
def pieces : Nat → Word → Nat → List (Word × Nat)
  | 0, _, _ => []
  | f + 1, a, n =>
    if n = 0 then []
    else
      let m := min n (64 - a.toNat % 64)
      (a, m) :: pieces f (a + BitVec.ofNat 64 m) (n - m)

/-- The units of n bytes from any address. -/
def unitsOf (a : Word) (n : Nat) : List (Word × Nat) := pieces (n / 64 + 2) a n

/-- A read unit: the parts of one aligned 64-byte block that a command reads in one step (R309). -/
abbrev ReadUnit := List (Word × Nat)

/-- A part joined to the units of a list: two in one aligned 64-byte block are one unit (R309). -/
def joinUnit (u : Word × Nat) : List ReadUnit → List ReadUnit
  | [] => [[u]]
  | v :: r => if (v.headD u).1.toNat / 64 = u.1.toNat / 64 then (v ++ [u]) :: r else v :: joinUnit u r

/-- The units of several runs: each the parts of one aligned 64-byte block that they touch (R309). -/
def blockUnits (runs : List (Word × Nat)) : List ReadUnit := (runs.flatMap (fun r => unitsOf r.1 r.2)).foldl (fun l u => joinUnit u l) []

/-- The bytes from a unit's first to its last; what lies between its parts is not the command's. -/
def ReadUnit.hull : ReadUnit → Word × Nat
  | [] => (0, 0)
  | u :: r => r.foldl (fun h v =>
      let lo := min h.1.toNat v.1.toNat
      (BitVec.ofNat 64 lo, max (h.1.toNat + h.2) (v.1.toNat + v.2) - lo)) u

/-- The parts of a read unit allowed, one after another; what parks is the unit whole. -/
def State.partsOk (s : State) (g : Agent) (h : Word × Nat) : ReadUnit → EngRes Unit
  | [] => .ok ()
  | (a, n) :: r =>
    ((s.engPlace g a n 4 1).parkAs (fun q => { q with n := h.2, parts := q.parts.map (fun x => (h.1, { x.2.1 with key := x.2.1.key - (a - h.1).toNat }, [])) })).bind
      (fun _ => s.partsOk g h r)

/-- A unit read by an engine, all its parts in one step (R309). -/
def State.partsRead (s : State) (g : Agent) (u : ReadUnit) : EngRes (List Byte) :=
  let h := u.hull
  match g.walk.bytes h.1 h.2 with
  | some l => .ok l
  | none => (s.partsOk g h u).bind (fun _ => .ok ((g.place h.1).elim [] (fun p => s.readAt p h.2)))

/-- Read units allowed, one after another: what a command reads at one time may still park, or be refused, only unit by unit (R309). -/
def State.unitsOk (s : State) (g : Agent) : List ReadUnit → EngRes Unit
  | [] => .ok ()
  | u :: r => if g.walk.has u.hull.1 u.hull.2 then s.unitsOk g r else (s.partsOk g u.hull u).bind (fun _ => s.unitsOk g r)

/-- Bytes split over the units that hold them. -/
def fillUnits : List (Word × Nat) → List Byte → List (Word × List Byte)
  | [], _ => []
  | (a, n) :: r, bs => (a, bs.take n) :: fillUnits r (bs.drop n)

/-- Bytes to any address, as write units (R309). -/
def cutBytes (a : Word) (bs : List Byte) : List (Word × List Byte) := fillUnits (unitsOf a bs.length) bs

def State.readUnits (s : State) (g : Agent) (sh : AccShape) (acc : Nat) : List (Word × Nat) → EngRes (List Byte)
  | [] => .ok []
  | (a, n) :: r => (s.unitRead g sh acc a n).bind (fun l => (s.readUnits g sh acc r).bind (fun q => .ok (l ++ q)))

/-- n bytes from any address. -/
def State.engReadN (s : State) (g : Agent) (acc : Nat) (a : Word) (n : Nat) : EngRes (List Byte) := s.readUnits g .engine acc (unitsOf a n)

/-- Write units from number k on, in order. -/
def State.engWrites (s : State) (g : Agent) (k : Nat) : List WriteUnit → EngRes State
  | [] => .ok s
  | u :: r => (s.engWrite g k u).bind (fun s => s.engWrites g (k + 1) r)

/-- The byte that runs of bytes, a later one over an earlier, put at an address. -/
def runByte (l : List (Word × List Byte)) (a : Word) : Option Byte := l.reverse.findSome? (fun r => r.2[(a - r.1).toNat]?)

/-- Runs of bytes of one aligned 64-byte block, each byte once, in ascending order. -/
def blockRuns (block : Nat) (l : List (Word × List Byte)) : List (Word × List Byte) :=
  (List.range 64).foldr (fun i r =>
    let a := BitVec.ofNat 64 (64 * block + i)
    match runByte l a, r with
    | none, r => r
    | some b, (x, bs) :: q => if x = a + 1 then (a, b :: bs) :: q else (a, [b]) :: (x, bs) :: q
    | some b, [] => [(a, [b])]) []

/-- A run of bytes joined to the blocks of a list. -/
def joinRun (w : Word × List Byte) : List (Nat × List (Word × List Byte)) → List (Nat × List (Word × List Byte))
  | [] => [(w.1.toNat / 64, [w])]
  | v :: r => if v.1 = w.1.toNat / 64 then (v.1, v.2 ++ [w]) :: r else v :: joinRun w r

/-- Runs of bytes written one after another as write units, each all that they write in one aligned 64-byte block (R309). -/
def blockWrites (l : List (Word × List Byte)) : List WriteUnit :=
  ((l.flatMap (fun r => cutBytes r.1 r.2)).foldl (fun q w => joinRun w q) []).map (fun b =>
    { parts := match b.2 with | [r] => [r] | l => blockRuns b.1 l })

/-! ## What a copy reads and writes -/

/-- Whether a rectangle word lies in a job's rectangle; one without cores does. -/
def rectInside (r g : Word) : Bool :=
  fld r 16 7 == 0 || fld r 24 6 == 0 ||
  decide (fld g 0 6 ≤ fld r 0 6 ∧ fld r 0 6 + fld r 16 7 ≤ fld g 0 6 + fld g 16 7 ∧ fld g 8 5 ≤ fld r 8 5 ∧ fld r 8 5 + fld r 24 6 ≤ fld g 8 5 + fld g 24 6)

/-- Bytes of a copy command (R210). -/
def copyTotal (m : Cmd) : Nat :=
  match m.instr with
  | .cpy2 _ _ _ _ => fld m.ec.cpyw 0 40 * fld m.ec.cpyh 0 32
  | .cpy _ _ _ | .cpym _ _ _ | .cfill _ _ _ => fld (m.args.getD 2 0) 0 40
  | _ => 0

/-- Runs of source bytes in processing order (R206 to R208). -/
def copyRuns (m : Cmd) : List (Word × Nat) :=
  let b := m.args.getD 1 0
  match m.instr with
  | .cpy _ _ _ | .cpym _ _ _ => [(b, copyTotal m)]
  | .cpy2 _ _ _ _ => (List.range (fld m.ec.cpyh 0 32)).map (fun i => (b + BitVec.ofNat 64 i * m.ec.cpyss, fld m.ec.cpyw 0 40))
  | _ => []

/-- Address of source byte i (R206 to R208). -/
def copySrc (m : Cmd) (i : Nat) : Word :=
  match m.instr with
  | .cpy2 _ _ _ _ =>
    let w := fld m.ec.cpyw 0 40
    m.args.getD 1 0 + BitVec.ofNat 64 (i / w) * m.ec.cpyss + BitVec.ofNat 64 (i % w)
  | _ => m.args.getD 1 0 + BitVec.ofNat 64 i

/-- Address to which byte i goes in destination d: a core for CPYM, otherwise the only one (R206 to R209). -/
def copyDst (m : Cmd) (d i : Nat) : Word :=
  let a := m.args.getD 0 0
  match m.instr with
  | .cpy2 _ _ tr es =>
    let w := fld m.ec.cpyw 0 40
    let r := i / w
    let b := i % w
    let n := 2 ^ es.toNat
    if tr then a + BitVec.ofNat 64 (b / n) * m.ec.cpyds + BitVec.ofNat 64 (r * n + b % n)
    else a + BitVec.ofNat 64 r * m.ec.cpyds + BitVec.ofNat 64 b
  | .cpym _ _ _ => windowAddr d (a.toNat + i)
  | _ => a + BitVec.ofNat 64 i

/-- Destinations of a copy (R208). -/
def copyTo (m : Cmd) : List Nat :=
  match m.instr with
  | .cpym _ _ _ => if rectInside m.ec.cpymask 0 then [] else gridCores m.ec.cpymask
  | _ => [0]

/-- A flit: destination, aligned 64-byte block, and the bytes the command writes there (R205). -/
structure CopyFlit where
  dest  : Nat
  block : Nat
  idx   : List Nat
  deriving DecidableEq, Repr

/-- Byte i joins the flit of its block. -/
def joinFlit (d b i : Nat) : List CopyFlit → List CopyFlit
  | [] => [{ dest := d, block := b, idx := [i] }]
  | f :: r => if f.dest = d ∧ f.block = b then { f with idx := f.idx ++ [i] } :: r else f :: joinFlit d b i r

/-- The flits of a copy, in the order of the first byte of each. -/
def copyFlits (m : Cmd) : List CopyFlit :=
  (List.range (copyTotal m)).foldl (fun l i =>
    (copyTo m).foldl (fun l d => joinFlit d ((copyDst m d i).toNat / 64) i l) l) []

/-- CPROG of an executing copy: the bytes before the first of a flit that is not yet performed (R210). -/
def copyProgress (m : Cmd) : Nat :=
  (copyFlits m).zipIdx.foldl (fun b f => if m.walk.wrote.contains f.2 then b else min b (f.1.idx.headD b)) (copyTotal m)

/-- Source units of a copy: rows of CPY2 that share an aligned 64-byte block share its unit (R205, R309). -/
def copyReads (m : Cmd) : List ReadUnit :=
  match m.instr with
  | .cpy2 _ _ _ _ => blockUnits (copyRuns m)
  | _ => (copyRuns m).flatMap (fun r => (unitsOf r.1 r.2).map (fun u => [u]))

/-! ## Completion -/

/-- The counter moved over numbers already completed out of order (R41, R42). -/
def advance : Nat → Nat → List Nat → Nat × List Nat
  | 0, n, l => (n, l)
  | f + 1, n, l => if l.contains (n + 1) then advance f (n + 1) (l.filter (· != n + 1)) else (n, l)

/-- A command counted completed on its context (R41). -/
def Slot.countDone (x : Slot) (e num : Nat) : Slot :=
  if e = 2 then
    let r := advance (x.early.length + 1) (ectx x.counter 2).toNat (num :: x.early)
    { x with counter := ectxSet x.counter 2 (BitVec.ofNat 64 r.1), early := r.2 }
  else { x with counter := ectxSet x.counter e (BitVec.ofNat 64 num) }

/-- The executing command of m's id, as it stands now. -/
def State.cmdNow (s : State) (c e : Nat) (m : Cmd) : Cmd := ((tget (s.core c).exec e []).find? (fun q => q.id == m.id)).getD m

/-- Read units of an executing command read, those that have not been read, and kept (R309). -/
def State.latchUnits (s : State) (c e : Nat) (m : Cmd) : List ReadUnit → EngRes State
  | [] => .ok s
  | u :: r =>
    let g := s.cmdAgent c e (s.cmdNow c e m)
    (s.partsRead g u).bind (fun b =>
      (if g.walk.has u.hull.1 u.hull.2 then s else s.onWalk c (.cmd m.id) (fun w => w.latch u.hull.1 b)).latchUnits c e m r)

/-- A copy's work recorded for CPROG (R210, R363). -/
def Slot.copied (x : Slot) (e num n : Nat) : Slot := if e = 2 ∧ n ≠ 0 then { x with copyBytes := tset x.copyBytes num n } else x

/-- A command leaves its engine, completed (R41); of a copy that is abandoned, CPROG keeps the work done. -/
def State.leave (s : State) (c e : Nat) (m : Cmd) (work : Nat) : State :=
  let s := (s.unqueue c (.cmd m.id)).onCore c (fun k => { k with exec := tset k.exec e ((tget k.exec e []).filter (fun q => q.id != m.id)) })
  s.onSlot c m.slot (fun x => (x.countDone e m.num).copied e m.num work)

/-- A command leaves its engine, performed. -/
def State.finishCmd (s : State) (c e : Nat) (m : Cmd) : State := s.leave c e m (copyTotal m)

/-- A trap of a command at its slot (R363). -/
def Cmd.trap (m : Cmd) (addr info : Word) : Trap :=
  { code := 0x15, defer := true, page := m.page, op := m.op, addr := addr, info := info, fpc := m.fpc, map := none }

/-- An abandoned command counts as completed; a VEXT gives 0 (R353, R363). -/
def State.dropCmd (s : State) (c e : Nat) (m : Cmd) : State :=
  let s := s.leave c e m (copyProgress (s.cmdNow c e m))
  match m.instr with
  | .vext _ d _ _ => s.onSlot c m.slot (fun x => x.giveBack d 0 0)
  | _ => s

/-- A refused access abandons its command with ENGINE reason 0 (R363, R368). -/
def State.refuseCmd (s : State) (c e : Nat) (m : Cmd) (va : Word) (acc : Nat) (d : Deny) : State :=
  (s.dropCmd c e m).queueTrap c m.slot (m.trap va (engInfo0 e d.code d.reason acc d.space m.num))

/-- A walk's access parks at an object, unless its slice's store is full: then it is sent again (R248). (DEDUCED, log entry 59) -/
def State.parkUnit (s : State) (obj : Nat) (q : Parked) : State :=
  match s.objs.find? (fun o => o.id == obj) with
  | some o => if s.parksFull o then s else s.enqueue obj q
  | none => s

/-- A command's outcome applied: performed, left waiting, parked, or abandoned. A miss leaves it for TRANSLATION_MISS_REQUEST. -/
def State.settle (s : State) (c e : Nat) (m : Cmd) (r : EngRes State) : State :=
  match r with
  | .ok t => t.finishCmd c e m
  | .wait | .miss _ _ | .port _ => s
  | .park o q => s.parkUnit o q
  | .deny t va acc d => t.refuseCmd c e m va acc d

/-- A command with an id in place of its old self. -/
def State.setCmd (s : State) (c e : Nat) (m : Cmd) : State :=
  s.onCore c (fun k => { k with exec := tset k.exec e ((tget k.exec e []).map (fun q => if q.id = m.id then m else q)) })

/-- Whether core c's clock runs: no V/F move is in progress (R338), and it is not the paused side of a SHARED pair (R344). -/
def State.clockOn (s : State) (c : Nat) : Bool := (s.core c).vf.moving.isNone && !(s.core c).slice

/-- The head of a queue, if nothing of its core's commands keeps it: not speculative, its predecessors done as the engine's order asks, no marker
before it (R42, R166). -/
def State.queueHead (s : State) (c e : Nat) : Option Cmd :=
  match tget (s.core c).queue e [] with
  | [] => none
  | m :: _ =>
    let run := tget (s.core c).exec e []
    if m.depth = 0 ∧ run.any Cmd.isMarker = false ∧ (if e = 2 then m.isMarker = true ∨ run.length < Config.copyDepth else run.isEmpty = true) then some m else none

/-- The head of a queue, if it may start now: its core has the clock too. -/
def State.startable (s : State) (c e : Nat) : Option Cmd := if s.clockOn c then s.queueHead c e else none

/-- The head of the queue moves to execution as m. -/
def State.beginCmd (s : State) (c e : Nat) (m : Cmd) : State :=
  s.onCore c (fun k => { k with queue := tset k.queue e ((tget k.queue e []).drop 1), exec := tset k.exec e (tget k.exec e [] ++ [m]) })

/-- Whether the count that an EWAIT marker waits for is reached (R166). -/
def State.markerReached (s : State) (c : Nat) (m : Cmd) : Bool :=
  match m.instr with
  | .ewait _ f _ => decide ((m.args.getD 0 0).toNat ≤ (ectx (s.slot c m.slot).counter f.toNat).toNat)
  | _ => false

/-- EWAIT_MARKER_COMPLETE (R166). -/
def execEwaitMarkerComplete (c e : Nat) (s : State) : Out State :=
  .next (match (tget (s.core c).exec e []).find? Cmd.isMarker with
    | some m => if s.markerReached c m then s.finishCmd c e m else s
    | none => s)

end Sys2Proof.Machine
end

