-- ==== Sys2Proof/Machine/Channels.lean ====
section
/-! DEFINITION. S-wire channels: arrivals, phases, reductions and SYNC up to its arrival (R53, R54, R214 to R222, R401, R405). -/

namespace Sys2Proof.Machine

open Sys2Proof

/-! ## Members and levels -/

/-- Channel ch of a core. -/
def Core.chan (k : Core) (ch : Nat) : Chan := tget k.chans ch Chan.reset
/-- Channel ch replaced. -/
def Core.setChan (k : Core) (ch : Nat) (x : Chan) : Core := { k with chans := tset k.chans ch x }

/-- Whether a core is a member of a channel (R53). -/
def Core.member (k : Core) (ch : Nat) : Bool := bit k.smask ch

/-- Segmentation of a channel (R214). -/
def Core.segMode (k : Core) (ch : Nat) : Nat := fld k.segm (2 * ch) 2

/-- Members of the segment of channel ch that holds core c, in ascending index (R214). -/
def State.members (s : State) (c ch : Nat) : List Nat :=
  let k := s.core c
  (gridCores k.jobgrid).filter (fun d => (s.core d).member ch &&
    (match k.segMode ch with | 1 => dieOf d == dieOf c | 2 => clusterOf d == clusterOf c | _ => true))

/-- Release latency of a segment (R17, R214). -/
def releaseLatency (l : List Nat) : Nat := if l.any (fun d => dieOf d != dieOf (l.headD 0)) then 44 else 28

/-- The channel of a level, when the level is present (R53). -/
def Core.levelChan (k : Core) (l : Nat) : Option Nat :=
  if 1 ≤ l ∧ l ≤ 4 ∧ bit k.domch (6 * (l - 1) + 5) = true then some (fld k.domch (6 * (l - 1)) 5) else none

/-- The present level whose channel this is, if any. -/
def Core.chanLevel (k : Core) (ch : Nat) : Option Nat := [1, 2, 3, 4].find? (fun l => k.levelChan l == some ch)

/-- Whether a field defined on the core has this channel (R216). -/
def Core.fieldChan (k : Core) (ch : Nat) : Bool := k.fields.any (fun p => fCHAN p.2.desc == ch)

/-- The next arrival number of a core on a channel: phases done, arrivals standing in the tree, and one (R215). -/
def State.nextArrival (s : State) (c ch : Nat) : BitVec 16 :=
  ((s.core c).chan ch).p + BitVec.ofNat 16 (s.arrivals.filter (fun a => a.core == c && a.ch == ch)).length + 1

/-- An arrival enters the tree now (R215, R218, R222). -/
def State.enterArrival (s : State) (c ch : Nat) (value : BitVec 32) (ovr : Bool) (digest : Option (BitVec 32)) : State :=
  { s with arrivals := s.arrivals ++ [{ core := c, ch := ch, k := s.nextArrival c ch, value := value, time := s.rtime.toNat, ovr := ovr, digest := digest }] }

/-- One more arrival in AC. -/
def Core.countArrival (k : Core) (ch : Nat) : Core := k.setChan ch { k.chan ch with ac := (k.chan ch).ac + 1 }

/-! ## Instructions -/

/-- What must be performed before an arrival or a send of a slot: its accesses, port writes and messages (R218, R230). -/
def State.outstanding (s : State) (c t : Nat) : List Nat :=
  (s.slot c t).acc.map (·.id) ++ (s.slot c (departed t)).acc.map (·.id) ++ (s.portWrites.filter (fun w => w.src == c && w.slot == t)).map (·.id) ++
  (s.messages.filter (fun m => m.src == c && m.slot == t)).map (·.id)

/-- ARV (R215, R216, R218): the arrival follows the accesses before it into the tree. -/
def execArv (ch : BitVec 5) (b : Reg) (s : State) : Out State :=
  issue { rs := [b], who := .threads } (fun s =>
    let k := s.mine
    let n := ch.toNat
    let x := k.chan n
    if !k.member n || (k.chanLevel n).isSome || k.fieldChan n then .illegal 6
    else if x.ac - x.p = 32767 then .wait (.arv n)
    else
      let p : PendArv := { ch := n, value := (s.me.rd b).setWidth 32, slot := s.cur.slot, after := s.outstanding s.cur.core s.cur.slot }
      .done (s.onMine (fun k => { k.countArrival n with arvs := k.arvs ++ [p] }))) s

/-- Whether a core's phase has reached ph (R219). (DEDUCED, log entry 62) -/
def phaseReached (p ph : BitVec 16) : Bool := decide (0 ≤ (p - ph).toInt)

/-- WAITP: phases compare by 16-bit difference, so one more than 32,767 ahead reads as past (R219, R406; DEDUCED, log entry 62). -/
def execWaitp (ch : BitVec 5) (b : Reg) (s : State) : Out State :=
  issue { rs := [b], who := .threads } (fun s =>
    let ph : BitVec 16 := (s.me.rd b).setWidth 16
    if !s.mine.member ch.toNat then .illegal 6
    else if phaseReached (s.mine.chan ch.toNat).p ph then .done s
    else .wait (.waitp ch.toNat ph)) s

/-- BPHASE (R220). -/
def execBphase (d : Reg) (ch : BitVec 5) (s : State) : Out State :=
  issue { ws := [d], who := .threads } (fun s =>
    let k := s.mine
    if !k.member ch.toNat then .illegal 6
    else .done (s.onMe (fun x => x.wr d (phaseWord (k.chan ch.toNat) (s.members s.cur.core ch.toNat).length (k.segMode ch.toNat))))) s

/-- BRED (R221). -/
def execBred (d : Reg) (ch : BitVec 5) (item : BitVec 3) (s : State) : Out State :=
  issue { ws := [d], who := .threads } (fun s =>
    if !s.mine.member ch.toNat then .illegal 6
    else .done (s.onMe (fun x => x.wr d (recordItem (s.mine.chan ch.toNat).last item.toNat)))) s

/-- The issuing slot parks in SYNC; a marker follows the compute release (R37, R54). -/
def State.syncPark (s : State) (l : Nat) : State :=
  (s.park s.cur.core s.cur.slot (.sync l)).onMe (fun x => { x with park := x.park.map (fun w => { w with mark := s.cur.mark }) })

/-- SYNC (R54, R217, R401, R405): it begins the drain and parks until its compute release; a core whose arrival stands only resumes the wait, and
once that phase is over it goes on. (DEDUCED, log entry 41) -/
def execSync (lvl : BitVec 2) (s : State) : Out State :=
  issue { who := .control } (fun s =>
    let l := lvl.toNat + 1
    let k := s.mine
    match k.levelChan l with
    | none => .illegal 3
    | some ch =>
      if !k.member ch then .illegal 6
      else if k.sync = .none then
        if s.me.syncStands = some l then .done (s.onMe (fun x => { x with syncStands := none }))
        else .stay (((s.onMine (fun k => { k with sync := .drain l s.nextPc })).onMe (fun x => { x with syncStands := none })).syncPark l)
      else if k.sync.level = some l then .stay ((s.onMine (fun k => { k with sync := k.sync.onto s.nextPc })).syncPark l)
      else .wait (.sync l)) s

/-! ## Device steps -/

/-- BARRIER_ARRIVAL: the oldest ARV of a channel whose earlier accesses are performed enters the tree (R218), before
an older one that still waits (R215). (DESIGN CHOICE, log entry 92) -/
def execBarrierArrival (c ch : Nat) (s : State) : Out State :=
  let k := s.core c
  .next (match k.arvs.find? (fun p => p.ch == ch && !p.after.any (fun i => (s.outstanding c p.slot).contains i)) with
    | some p => (s.onCore c (fun k => { k with arvs := k.arvs.erase p })).enterArrival c ch p.value false none
    | none => s)

/-- Whether a core has drained for SYNC: slots 0 to 10 have no access, remote write, message or engine command outstanding (R54). -/
def State.drained (s : State) (c : Nat) : Bool :=
  let k := s.core c
  (List.range 11).all (fun t => (s.outstanding c t).isEmpty) &&
  [0, 1, 2].all (fun e => !(k.cmds e).any (fun m => decide (m.slot ≤ 10)))

/-- SYNC_ARRIVAL (R54, R222, R407): the core arrives with RTIME and its overrun flag. -/
def execSyncArrival (c : Nat) (s : State) : Out State :=
  let k := s.core c
  .next (match k.sync with
    | .drain l n =>
      match k.levelChan l with
      | some ch =>
        if s.drained c then
          let s := s.onCore c (fun k => { k.countArrival ch with sync := .arrived l n })
          let s := s.onSlot c 0 (fun x => { x with syncStands := some l })
          let s := s.onCore c (fun k => { k with overrun := k.overrun.map (fun o => if o.lvl = l then { o with carried := true } else o) })
          s.enterArrival c ch (s.rtime.setWidth 32) (k.overrun.any (fun o => o.lvl == l)) none
        else s
      | none => s
    | _ => s)

/-! ## Phases -/

/-- The arrivals that complete the next phase of the segment of core c, one for every member; none while one is missing (R215). -/
def State.phaseArrivals (s : State) (c ch : Nat) : Option (List Arrival) :=
  (s.members c ch).mapM (fun d => s.arrivals.find? (fun a => a.core == d && a.ch == ch && a.k == ((s.core d).chan ch).p + 1))

/-- The record of a phase (R221, R222). -/
def recordOf (l : List Arrival) (phase : Nat) : Record :=
  let vals := l.map (fun a => a.value.toNat)
  let times := l.map (·.time)
  let tmax := times.foldl max 0
  let tmin := times.foldl min tmax
  let lasts := (l.filter (fun a => a.time == tmax)).map (·.core)
  { sum := vals.sum, min := vals.foldl min (vals.headD 0), max := vals.foldl max 0, last := lasts.foldl min (lasts.headD 0), phase := phase,
    wrap := tmin / 2 ^ 32 != tmax / 2 ^ 32, rlast := tmax }

/-- Router cycle of a phase's release (R215). (DESIGN CHOICE, log entry 27) -/
def phaseTime (l : List Arrival) : Nat := (l.map (·.time)).foldl max 0 + releaseLatency (l.map (·.core))

/-- The phase completes: P advances and the record is delivered at every member (R215, R221). -/
def State.completePhase (s : State) (ch : Nat) (l : List Arrival) : State :=
  let mem := l.map (·.core)
  let s := { s with arrivals := s.arrivals.filter (fun a => !l.contains a) }
  mem.foldl (fun s d => s.onCore d (fun k =>
    let x := k.chan ch
    k.setChan ch { x with p := x.p + 1, last := recordOf l (x.p + 1).toNat })) s

end Sys2Proof.Machine
end

