-- ==== Sys2Proof/Machine/Copy.lean ====
section
/-! DEFINITION. Page 4, OP 0 to 7: copy commands and receive windows (R204 to R213, R363, R370). -/

namespace Sys2Proof.Machine

open Sys2Proof

/-! ## Issue -/

/-- A copy command with a length: bits [63:40] must be 0 (R204). -/
def copyCmd (i : Instr) (a b c : Reg) (s : State) : Out State :=
  issue { rs := [a, b, c], late := false } (fun s =>
    if fld (s.me.rd c) 40 24 ≠ 0 then engTrap 2 2 0 s else enter 2 i [s.me.rd a, s.me.rd b, s.me.rd c] s) s

/-- CPY (R206). -/
def execCpy (a b c : Reg) (s : State) : Out State := copyCmd (.cpy a b c) a b c s

/-- CFILL (R209). -/
def execCfill (a b c : Reg) (s : State) : Out State := copyCmd (.cfill a b c) a b c s

/-- CPY2 (R207): a transpose needs its width and bases in elements (ENGINE reason 3). (DEDUCED, log entry 72) -/
def execCpy2 (a b : Reg) (tr : Bool) (es : BitVec 2) (s : State) : Out State :=
  issue { rs := [a, b], late := false } (fun s =>
    let n := 2 ^ es.toNat
    let x := s.me
    if tr && !aligned (x.rd a) n then engTrap 2 3 (x.rd a) s
    else if tr && !aligned (x.rd b) n then engTrap 2 3 (x.rd b) s
    else if tr && fld x.ec.cpyw 0 40 % n != 0 then engTrap 2 3 0 s
    else enter 2 (.cpy2 a b tr es) [x.rd a, x.rd b] s) s

/-- CPYM (R208). -/
def execCpym (a b c : Reg) (s : State) : Out State :=
  issue { rs := [a, b, c], late := false } (fun s =>
    let x := s.me
    if fld (x.rd c) 40 24 ≠ 0 ∨ Config.coreBytes ≤ (x.rd a).toNat ∨ rectInside x.ec.cpymask s.mine.jobgrid = false then engTrap 2 2 0 s
    else enter 2 (.cpym a b c) [x.rd a, x.rd b, x.rd c] s) s

/-! ## Performing flits -/

/-- The memory of a copy's source bytes. -/
def State.copyKeys (s : State) (c : Nat) (m : Cmd) : List (Nat × Nat) :=
  ((copyRuns m).flatMap (fun r => unitsOf r.1 r.2)).filterMap (fun q => ((s.cmdAgent c 2 m).place q.1).map (fun p => (p.key, q.2)))

/-- Source units that must be read before a flit: those of its own bytes, and, for CPY, those that it overwrites (R206). -/
def State.copyNeeds (s : State) (c : Nat) (m : Cmd) (f : CopyFlit) : List ReadUnit :=
  let g := s.cmdAgent c 2 m
  let srcs := f.idx.map (copySrc m)
  let clobbers (u : Word × Nat) : Bool := (match m.instr with | .cpy _ _ _ => true | _ => false) &&
    (match g.place u.1, g.place (copyDst m f.dest (f.idx.headD 0)) with
      | some p, some q => meets p.key u.2 (q.key - q.key % 64) 64
      | _, _ => false)
  (copyReads m).filter (fun q => let u := q.hull; srcs.any (fun a => decide ((a - u.1).toNat < u.2)) || clobbers u)

/-- The byte that a copy writes at index i (R206, R207, R209); where source and destination of CPY2 or CPYM overlap it is, freely, the old
byte, the byte read, or the source's present byte (log entry 7). (DESIGN CHOICE, log entry 7) -/
def State.copyByte (s : State) (c : Nat) (m : Cmd) (i : Nat) (p : Place) (n : Nat) : Byte :=
  let read := m.walk.byteAt (copySrc m i)
  match m.instr with
  | .cfill _ _ _ => BitVec.ofNat 8 (fld (m.args.getD 1 0) (8 * (((m.args.getD 0 0).toNat + i) % 8)) 8)
  | .cpy _ _ _ => read
  | _ =>
    if (s.copyKeys c m).any (fun r => meets r.1 r.2 p.key 1) then
      match (Config.overlapByte n).toNat % 3 with
      | 0 => s.readByte p 0
      | 1 => read
      | _ => match (s.cmdAgent c 2 m).place (copySrc m i) with | some q => s.readByte q 0 | none => read
    else read

/-- Places of a flit's bytes; a flit is refused whole, at its first address (R370). -/
def State.flitPlaces (s : State) (c : Nat) (m : Cmd) (f : CopyFlit) : List Nat → EngRes (List (Nat × Place))
  | [] => .ok []
  | i :: l =>
    match s.engPlace (s.cmdAgent c 2 m) (copyDst m f.dest i) 1 5 2 with
    | .deny t _ acc d => .deny t (copyDst m f.dest (f.idx.headD i)) acc d
    | r => r.bind (fun p => (s.flitPlaces c m f l).bind (fun q => .ok ((i, p) :: q)))

/-- Flit j of a copy, performed whole, its source bytes read first (R205, R206). -/
def State.copyFlit (s : State) (c : Nat) (m : Cmd) (j : Nat) (f : CopyFlit) : EngRes State :=
  (s.latchUnits c 2 m (s.copyNeeds c m f)).bind (fun s =>
    let m := s.cmdNow c 2 m
    let n := s.fresh
    let part (q : Nat × Place) : Word × Place × List Byte := (copyDst m f.dest q.1, q.2, [s.copyByte c m q.1 q.2 (n + q.1)])
    let all := f.idx.filterMap (fun i => ((s.cmdAgent c 2 m).place (copyDst m f.dest i)).map (fun p => part (i, p)))
    ((s.flitPlaces c m f f.idx).parkAs (fun q => { q with n := f.idx.length, unit := j, parts := all })).bind (fun ps =>
      .ok (({ s with fresh := n + copyTotal m }.unitWrite 2 (ps.map part)).onWalk c (.cmd m.id) (fun w => w.wroteUnit j (f.idx.map (copyDst m f.dest))))))

/-- The flits of a copy still to be performed, with their numbers. -/
def flitsLeft (m : Cmd) : List (CopyFlit × Nat) := (copyFlits m).zipIdx.filter (fun f => !m.walk.wrote.contains f.2)

/-- Flits performed one after another. -/
def State.copyFlitsRun (s : State) (c : Nat) (m : Cmd) : List (CopyFlit × Nat) → EngRes State
  | [] => .ok s
  | f :: l => (s.copyFlit c m f.2 f.1).bind (fun t => t.copyFlitsRun c m l)

/-- What is left of an executing copy: its source, then its flits (R205, R206). (DESIGN CHOICE, log entry 26) -/
def State.copyEffect (s : State) (c : Nat) (m : Cmd) : EngRes State :=
  (s.latchUnits c 2 m (copyReads m)).bind (fun s => s.copyFlitsRun c m (flitsLeft m))

/-- A copy whose flit is about to park keeps the source units that must be read before that flit (R206, R248). -/
def State.latchParked (s : State) (c : Nat) (m : Cmd) (q : Parked) : State :=
  match (copyFlits m)[q.unit]? with
  | some f => (match s.latchUnits c 2 m (s.copyNeeds c m f) with | .ok t => t | _ => s)
  | none => s

/-- A command's outcome applied, as its engine keeps what it has read (R206, R248). -/
def State.settleCmd (s : State) (c e : Nat) (m : Cmd) (r : EngRes State) : State :=
  match r with
  | .park o q => (if e = 2 ∧ q.need = 2 then s.latchParked c m q else s).parkUnit o q
  | r => s.settle c e m r

/-- One step of an executing command applied; it does not complete the command. -/
def State.settleUnit (s : State) (c e : Nat) (m : Cmd) (r : EngRes State) : State :=
  match r with
  | .ok t => t
  | r => s.settleCmd c e m r

/-! ## Progress and windows -/

/-- CPROG (R210). -/
def execCprog (d b : Reg) (s : State) : Out State :=
  issue { rs := [b], ws := [d] } (fun s =>
    let x := s.me
    let n := (x.rd b).toNat
    let v := match (tget s.mine.exec 2 []).find? (fun m => m.slot == s.cur.slot && m.num == n) with
      | some m => if m.isMarker then 0 else copyProgress m
      | none => tget x.copyBytes n 0
    .done (s.onMe (fun x => x.wr d (BitVec.ofNat 64 v)))) s

/-- RXOPEN (R211). -/
def execRxopen (n : BitVec 2) (w r : Bool) (a b : Reg) (s : State) : Out State :=
  issue { rs := [a, b] } (fun s =>
    let len := (s.me.rd b).toNat
    match spaceOf (s.me.rd a) with
    | .self off =>
      if off % 64 ≠ 0 ∨ len = 0 ∨ len % 64 ≠ 0 ∨ Config.coreBytes < off + len then .illegal 3
      else .done (s.onMine (fun k => { k with windows := tset k.windows n.toNat { isOpen := true, w := w, r := r, base := off, len := len, cnt := 0, known := true } }))
    | _ => .illegal 3) s

/-- RXCLOSE (R212): the extent and the counter stay. -/
def execRxclose (n : BitVec 2) (s : State) : Out State :=
  issue {} (fun s => .done (s.onMine (fun k =>
    { k with windows := tset k.windows n.toNat (let x := tget k.windows n.toNat Window.reset; { x with isOpen := false }) }))) s

/-- RXCNT (R212). -/
def execRxcnt (d : Reg) (n : BitVec 2) (s : State) : Out State :=
  issue { ws := [d] } (fun s => .done (s.onMe (fun x => x.wr d (tget s.mine.windows n.toNat Window.reset).cnt))) s

end Sys2Proof.Machine
end

