-- ==== Sys2Proof/Machine/Gate.lean ====
section
/-! DEFINITION. Gate calls: GATE, GRET, the gate table, domain switches, and the end of an abort (R256 to R269, R391 to R395). -/

namespace Sys2Proof.Machine

open Sys2Proof

/-! ## Entries -/

def GateEntry.valid (e : GateEntry) : Bool := bit e.w0 0
def GateEntry.vsave (e : GateEntry) : Bool := bit e.w0 1
def GateEntry.vpass (e : GateEntry) : Nat := fld e.w0 2 4
def GateEntry.narg (e : GateEntry) : Nat := fld e.w0 6 3
def GateEntry.nres (e : GateEntry) : Nat := fld e.w0 9 3
def GateEntry.tdom (e : GateEntry) : BitVec 6 := BitVec.ofNat 6 (fld e.w0 12 6)
def GateEntry.tkey (e : GateEntry) : BitVec 7 := BitVec.ofNat 7 (fld e.w0 18 7)
def GateEntry.tasid (e : GateEntry) : BitVec 16 := BitVec.ofNat 16 (fld e.w0 32 16)

/-- An invalid entry (R261). -/
def GateEntry.none : GateEntry := { w0 := 0, w1 := 0, w2 := 0, w3 := 0 }

def State.gateEntry (s : State) (n : Nat) : GateEntry := tget s.gates n GateEntry.none

/-- Entry reserved fields, VPASS and ENTRY as GTWRITE checks them (R392). -/
def GateEntry.ok (e : GateEntry) : Bool := fld e.w0 26 6 == 0 && fld e.w0 48 16 == 0 && decide (e.vpass ≤ 8) && !bit e.w1 0

/-! ## Frames (R265; the layout inside is the model's, log entry 21) -/

/-- Core-memory offset of frame (slot, depth). (DESIGN CHOICE, log entry 21) -/
def frameOff (t d : Nat) : Nat := Config.frameBase + (4 * t + d) * 0x800

/-- The engine registers in CSR order. -/
def EngCsr.words (e : EngCsr) : List Word :=
  [e.fmta, e.fmtb, e.scla, e.sclb, e.zpa, e.zpb, e.plna, e.plnb, e.astr, e.bstr, e.klen, e.mjoin, e.dfmt, e.cstr, e.amaxp, e.cpyw, e.cpyh, e.cpyss, e.cpyds, e.cpymask]

/-- Engine registers from a list in that order. -/
def EngCsr.ofWords (l : List Word) : EngCsr :=
  let w (i : Nat) := l.getD i 0
  { fmta := w 0, fmtb := w 1, scla := w 2, sclb := w 3, zpa := w 4, zpb := w 5, plna := w 6, plnb := w 7, astr := w 8, bstr := w 9, klen := w 10, mjoin := w 11, dfmt := w 12, cstr := w 13, amaxp := w 14, cpyw := w 15, cpyh := w 16, cpyss := w 17, cpyds := w 18, cpymask := w 19 }

/-- Words of a frame: g8 to g31; DOM, KEY and ASID; code region; TVEC; return address; engine registers. (DESIGN CHOICE, log entry 21) -/
def Slot.frameWords (x : Slot) (ret : Word) : List Word :=
  (List.range 24).map (fun i => x.rd (BitVec.ofNat 5 (8 + i))) ++
  [BitVec.ofNat 64 (x.dom.toNat + x.key.toNat * 2 ^ 8 + x.asid.toNat * 2 ^ 16), x.codebase, x.codelim, x.tvec, ret] ++ x.ec.words

/-- Words written at an offset of core c, 8 bytes each. -/
def State.putWords (s : State) (c : Nat) : Nat → List Word → State
  | _, [] => s
  | off, w :: r => (s.setCoreWord c off w).putWords c (off + 8) r

/-- Offset of vector register v in a frame. (DESIGN CHOICE, log entry 21) -/
def frameVec (off v : Nat) : Nat := off + 0x400 + v * 64

/-- Vector registers from number a on, saved in a frame; each takes a whole block, which is clean then (R383). -/
def State.saveVecs (s : State) (c off a : Nat) (x : Slot) : State :=
  (List.range' a (16 - a)).foldl (fun s v =>
    s.writeAt (.plain (coreKey c (frameVec off v))) (bytesOf 64 (x.vrd (BitVec.ofNat 4 v)).toNat)) s

/-- Vector registers from number a on: from the frame, or 0. -/
def State.loadVecs (s : State) (c off a : Nat) (saved : Bool) (x : Slot) : Slot :=
  (List.range' a (16 - a)).foldl (fun x v =>
    x.vwr (BitVec.ofNat 4 v) (if saved then BitVec.ofNat 512 (Memory.readN s.mem (coreKey c (frameVec off v)) 64) else 0)) x

/-- General registers from a to b set to 0. -/
def Slot.scrub (x : Slot) (a b : Nat) : Slot := (List.range' a (b + 1 - a)).foldl (fun x r => x.wr (BitVec.ofNat 5 r) 0) x

/-- g8 to g31 and the caller's group and registers back from a frame (R267). -/
def State.restoreFrame (s : State) (c off : Nat) (x : Slot) : Slot :=
  let w (i : Nat) := s.coreWord c (off + 8 * i)
  let x := (List.range 24).foldl (fun x i => x.wr (BitVec.ofNat 5 (8 + i)) (w i)) x
  { x with dom := BitVec.ofNat 6 (fld (w 24) 0 6), key := BitVec.ofNat 7 (fld (w 24) 8 7), asid := BitVec.ofNat 16 (fld (w 24) 16 16), codebase := w 25, codelim := w 26, tvec := w 27, ec := EngCsr.ofWords ((List.range 20).map (fun i => w (29 + i))) }

/-- The return address in a frame. -/
def State.frameRet (s : State) (c off : Nat) : Word := s.coreWord c (off + 8 * 28)

/-! ## GATE and GRET -/

/-- The reason for which a GATE of slot t of core c fails, if it does (R264, R391). -/
def State.gateFault (s : State) (c t : Nat) (n : BitVec 10) : Option Nat :=
  let x := s.slot c t
  let e := x.gated.getD (s.gateEntry n.toNat)
  if !(s.core c).gatesOn then some 4
  else if !e.valid then some 0
  else if !bit e.w2 x.dom.toNat then some 1
  else if 4 ≤ x.calls.length then some 2
  else none

/-- Whether a slot has pending registers, accesses, or commands on contexts 0 to 2 (R264). -/
def State.busy (s : State) (c t : Nat) : Bool :=
  let x := s.slot c t
  x.pend != 0 || !x.acc.isEmpty || [0, 1, 2].any (fun e => ((s.core c).cmds e).any (fun m => m.slot == t))

/-- The cores whose slot issues together with the issuing one. -/
def State.together (s : State) : List Nat := if s.cur.slot = 0 then s.gangOf s.cur.core else [s.cur.core]

/-- Members of the issuing slot's gang that have still to issue the instruction at hand (R50). -/
def State.waiting (s : State) : List Nat := s.together.filter (fun d => s.cur.slot != 0 || (s.core d).gangDone.isNone)

/-- The entry that a GATE of slot t of core d reads is fixed: the check is past (R262). (DESIGN CHOICE, log entry 21) -/
def State.latchGate (s : State) (d t : Nat) (n : BitVec 10) : State :=
  s.onSlot d t (fun x => { x with gated := some (x.gated.getD (s.gateEntry n.toNat)) })

/-- Offset of spill entry n in a frame (R265). (DESIGN CHOICE, log entry 21) -/
def frameSpill (off n : Nat) : Nat := off + 0x300 + 8 * n

/-- GATE (R264 to R266): the check in every member, the wait, the frame, the scrub and the switch. -/
def execGate (n : BitVec 10) (s : State) : Out State :=
  let s0 := s
  issue { who := .threads } (fun s =>
    let c := s.cur.core
    let t := s.cur.slot
    match s.gateFault c t n with
    | some r => .trap 0x0D 0 (BitVec.ofNat 64 (n.toNat + r * 2 ^ 10))
    | none =>
      if s.waiting.any (fun d => (s.gateFault d t n).isSome) then .wait .partner
      else
        let e := s.me.gated.getD (s.gateEntry n.toNat)
        if s.waiting.any (fun d => s.busy d t) then .stay ((s0.waiting.foldl (fun s d => s.latchGate d t n) s0).hold .drain)
        else
          let s := s.waiting.foldl (fun s d => s.latchGate d t n) s
          let x := s.me
          let off := frameOff t x.calls.length
          let r := tget s.domCode e.tdom.toNat (0, 0)
          let s := s.putWords c off (x.frameWords s.nextPc)
          let s := s.putWords c (frameSpill off 0) (List.replicate 32 0)
          let s := if e.vsave then s.saveVecs c off e.vpass x else s
          let y := s.loadVecs c off e.vpass false (x.scrub (e.narg + 1) 31)
          let call : Call := { entry := e, gate := n, issued := x.issued, gpc := s.cur.pc }
          .go (s.setMe { y with unsync := 0, ec := EngCsr.reset, tvec := 0, dom := e.tdom, key := e.tkey, asid := e.tasid, codebase := r.1, codelim := r.2, calls := call :: x.calls, gated := none }) e.w1) s

/-- GRET (R267): the state of a handler ends too (R393); at depth 0, on the Retriever too, it fails (R391). (DESIGN CHOICE, log entry 84) -/
def execGret (s : State) : Out State :=
  issue {} (fun s =>
    let c := s.cur.core
    let t := s.cur.slot
    match s.me.calls with
    | [] => .trap 0x0D 0 (BitVec.ofNat 64 (3 * 2 ^ 10))
    | k :: r =>
      if s.waiting.any (fun d => s.busy d t) then .wait .drain
      else
        let x := s.me
        let off := frameOff t r.length
        let y := s.restoreFrame c off (x.scrub (k.entry.nres + 1) 7)
        let y := s.loadVecs c off k.entry.vpass k.entry.vsave y
        let y := if x.hnd then y.setLevel x.savedLevel else y
        .go (s.setMe { y with unsync := 0, calls := r, hnd := false }) (s.frameRet c off)) s

/-! ## Aborts (R394, R395) -/

/-- GATEABORT at the caller of call k, now at depth d (R395). -/
def Abort.trap (a : Abort) (k : Call) (d : Nat) : Trap :=
  { code := 0x0E, defer := false, page := 6, op := 5, addr := a.inner.fpc, info := abortInfo a.inner.code k.gate (d + 1) a.double, fpc := k.gpc, map := none }

/-- Slot t of core c one level unwound, and GATEABORT for its caller: registers scrubbed and restored, traps of the call gone (R394). -/
def State.unwound (s : State) (c t : Nat) : Option (Slot × Trap) :=
  let x := s.slot c t
  match x.calls, x.abort with
  | k :: r, some a =>
    let off := frameOff t r.length
    let y := if x.hnd then x.setLevel x.savedLevel else x
    let y := s.loadVecs c off 0 false (y.scrub 1 31)
    let y := s.restoreFrame c off y
    let y := if k.entry.vsave then s.loadVecs c off k.entry.vpass true y else y
    some ({ y with unsync := 0, traps := [], calls := r, hnd := false, abort := none, park := none, pc := s.frameRet c off, gated := none }, a.trap k r.length)
  | _, _ => none

/-- The caller's slot with GATEABORT as a status, if it asks for that (R395). -/
def Slot.status (y : Slot) (gang : Bool) (a : Trap) : Option Slot :=
  if y.calls.isEmpty && bit y.tvec 1 then some ((y.trapRegs gang a).wr 1 (BitVec.ofNat 64 (2 ^ 63 + fld a.info 0 8))) else none

/-- The abort of slot t of core c ends, in a gang for every member at once; then GATEABORT is returned as a status or raised: in a gang one
trap, each member with its own cause (R357, R394, R395). -/
def State.finishAbort (s : State) (c t : Nat) : State :=
  let l := if t = 0 then s.gangOf c else [c]
  let gang := t == 0 && (s.core c).gang != 0
  let r := l.foldl (fun (q : State × List (Nat × Trap)) d =>
    match q.1.unwound d t with
    | some (y, a) =>
      match y.status gang a with
      | some z => (q.1.setSlot d t z, q.2)
      | none => (q.1.setSlot d t y, q.2 ++ [(d, a)])
    | none => q) (s, [])
  match r.2 with
  | [] => r.1
  | (d, a) :: _ =>
    if !gang then r.1.takeTrap c t a
    else if (r.1.slot d 0).calls.isEmpty then r.1.haltAll d r.2 else r.1.beginAbort d 0 a r.2

/-! ## The gate table and domains -/

/-- A read of a block by the issuing instruction itself, as its thread's loads read (R255, R262). (DEDUCED, log entry 46) -/
def State.blockRead (s : State) (a : Word) (n : Nat) : EngRes (List Byte) :=
  s.readUnits (s.slotAgent s.cur.core s.cur.slot) .plain 0 (unitsOf a n)

/-- The page requests that a walk has sent for a page and direction so far (R382). -/
def Walk.asked (w : Walk) (va : Word) (write : Bool) : Nat :=
  match w.ask.filter (fun q => q.va.toNat / 2 ^ 12 == va.toNat / 2 ^ 12 && q.write == write), w.counted.find? (fun q => q.1 == va.toNat / 2 ^ 12 && q.2.1 == write) with
  | some q, _ => q.reqs
  | Option.none, some q => q.2.2
  | Option.none, Option.none => 0

/-- The staged object behind an address of a block that the issuing slot reads. -/
def State.blockObj (s : State) (va : Word) : Option Obj := ((s.slotAgent s.cur.core s.cur.slot).place va).bind s.objOf

/-- Its refusal: a completion trap of the issuing slot, with the instruction issued and without effect (R367, R387). (DEDUCED, log entry 46) -/
def State.blockDenied (s : State) (va : Word) (d : Deny) : State :=
  let info := if d.code = 0x0B then stageInfo d.reason 0 0 (s.blockObj va)
    else memInfo d.reason 0 d.space s.me.asid (if d.code = 0x0A then d.key else 0) (decide (5 ≤ s.me.walk.asked va false))
  s.queueTrap s.cur.core s.cur.slot { code := BitVec.ofNat 8 d.code, defer := true, page := s.cur.page, op := s.cur.op, addr := va, info := info, fpc := s.cur.pc, map := none }

/-- WINDOW reason 6, an issue trap, of an instruction that reads a block at an address in a reserved space (R367, R369). (DEDUCED, log entry 46) -/
def State.blockNowhere (s : State) (a : Word) : Act := .trap 0x07 a (memInfo 6 0 5 s.me.asid 0 false)

/-- Whether the issuing slot's own read of n bytes at a waits for its earlier accesses: to one of them in memory or by address, by the order of device
pages or of one fabric peer, or, on a strongly-ordered page, for all (R148, R152). (DEDUCED, log entry 46) -/
def State.blockHeld (s : State) (a : Word) (n : Nat) : Bool :=
  s.memHeld s.me || (unitsOf a n).any (fun u =>
    let r : Access := { s.mkAccess { kind := .load false, va := u.1, size := u.2 } with place := (s.slotAgent s.cur.core s.cur.slot).place u.1 }
    !s.follows s.me.acc r)

/-- A walk that asks for the page of an address; one that already asks for it goes on asking (R147, R378, R382), and one that is parked on a page request
stays so until REPLAY, whatever else it misses meanwhile (R380, R381). -/
def Walk.askFor (w : Walk) (va : Word) (write : Bool) (kind : Nat) : Walk :=
  if w.ask.any (fun q => q.phase.onPage || (q.va.toNat / 2 ^ 12 == va.toNat / 2 ^ 12 && q.write == write)) then w
  else { w with ask := some { va := va, write := write, kind := kind, phase := .miss, reqs := w.asked va write }, counted := w.ask.elim w.counted w.count }

/-- What an instruction does whose block read is not done: the state is the one that its issue began from (R147, R248). (DEDUCED, log entry 46) -/
def State.blockWait {α : Type} (s : State) (kind : Nat) (r : EngRes α) : Act :=
  match r with
  | .miss va w => .stay ((s.onMe (fun x => { x with walk := x.walk.askFor va w kind })).hold .walk)
  | .park o q => .stay ((s.parkUnit o q).hold .walk)
  | .port p => .stay (s.hold (.port p))
  | _ => .stay (s.hold .walk)

/-- GTWRITE (R262, R392). (DEDUCED, log entry 46) -/
def execGtwrite (a b : Reg) (s : State) : Out State :=
  let s0 := s
  issue { rs := [a, b], priv := true } (fun s =>
    let x := s.me
    if !aligned (x.rd b) 32 then .misaligned (x.rd b) 5
    else if fld (x.rd a) 10 54 ≠ 0 then .illegal 3
    else if spaceOf (x.rd b) = .reserved then s.blockNowhere (x.rd b)
    else if s.blockHeld (x.rd b) 32 then .wait .order
    else match s.blockRead (x.rd b) 32 with
      | .ok l =>
        let w (i : Nat) : Word := BitVec.ofNat 64 (ofBytes ((l.drop (8 * i)).take 8))
        let e : GateEntry := { w0 := w 0, w1 := w 1, w2 := w 2, w3 := w 3 }
        if e.ok then .done { s with gates := tset s.gates (fld (x.rd a) 0 10) e } else .illegal 3
      | .deny _ va _ d => .done (s.blockDenied va d)
      | r => s0.blockWait 0 r) s

/-- DOMSW (R263, R434). -/
def execDomsw (b : Reg) (s : State) : Out State :=
  issue { rs := [b], priv := true } (fun s =>
    let w := s.me.rd b
    let r := tget s.domCode (fld w 0 6) (0, 0)
    .done (s.onMe (fun x => { x with dom := BitVec.ofNat 6 (fld w 0 6), key := BitVec.ofNat 7 (fld w 8 7), asid := BitVec.ofNat 16 (fld w 32 16), codebase := r.1, codelim := r.2 }))) s

end Sys2Proof.Machine
end

