-- ==== Sys2Proof/Machine/Matrix.lean ====
section
/-! DEFINITION. Page 3: tiles, matrix commands, operands, accumulation and drains (R68 to R78, R189 to R203). -/

namespace Sys2Proof.Machine

open Sys2Proof

/-! ## Formats (R68, R70) -/

def isFloatCode (f : Nat) : Bool := decide (f ≤ 6)
def isF6 (f : Nat) : Bool := f == 5 || f == 6
def isQ (f : Nat) : Bool := f == 10 || f == 11
def isNibble (f : Nat) : Bool := f == 9 || f == 11
/-- Bits of one element in its row; 4 for F6, whose other two bits stand in the second plane (R69). -/
def codeBits (f : Nat) : Nat := match f with | 0 | 1 => 16 | 2 => 32 | 5 | 6 | 9 | 11 => 4 | _ => 8

/-- Layout of a float format code. -/
def codeFmt (f : Nat) : Fmt :=
  match f with | 0 => .bf16 | 1 => .hf16 | 2 => .sf32 | 3 => .f8e4 | 4 => .f8e5 | 5 => .f6e3 | _ => .f6e2

/-- Permitted pairs, in either order (R70). -/
def pairOk (a b : Nat) : Bool :=
  let f6 (x : Nat) := decide (x ≤ 6) && x != 2
  let i3 (x : Nat) := x == 7 || x == 8 || x == 9
  (f6 a && f6 b) || (a == 2 && b == 2) || (i3 a && i3 b) || (isQ a && (i3 b || isQ b)) || (i3 a && isQ b)

/-- Whether a pair accumulates integers. -/
def pairInt (a b : Nat) : Bool := !isFloatCode a && !isQ a && !isQ b

/-- Format code and group size of FMTA or FMTB (R191). -/
def fmtCode (w : Word) : Nat := fld w 0 4
def groupCode (w : Word) : Nat := fld w 4 2
def groupSize (w : Word) : Nat := 32 * 2 ^ groupCode w

/-- Group size that governs a pair (R70). -/
def pairGroup (fa fb : Word) : Nat := if isQ (fmtCode fa) then groupSize fa else groupSize fb

/-- KLEN's packing of one operand (R196). -/
def packOk (f k : Nat) : Bool := (!isF6 f || k % 4 == 0) && (!isNibble f || k % 2 == 0)

/-- FORMAT's reason for a pair, if any (R362). -/
def formatFault (fa fb klen : Word) : Option Nat :=
  let a := fmtCode fa
  let b := fmtCode fb
  let k := fld klen 0 20
  if 12 ≤ a ∨ 12 ≤ b then some 1
  else if !pairOk a b then some 0
  else if (isQ a && groupCode fa == 3) || (isQ b && groupCode fb == 3) then some 3
  else if isQ a && isQ b && groupCode fa != groupCode fb then some 4
  else if ((isQ a || isQ b) && k % pairGroup fa fb != 0) || !packOk a k || !packOk b k then some 5
  else none

/-! ## Tiles -/

def State.tile (s : State) (c : Nat) (t : TileNo) : Tile := tget (s.core c).tiles t.toNat Tile.reset
def State.setTile (s : State) (c : Nat) (t : TileNo) (x : Tile) : State := s.onCore c (fun k => { k with tiles := tset k.tiles t.toNat x })
/-- Element t[m, n] (R189). -/
def Tile.el (x : Tile) (m n : Nat) : W32 := x.elems.getD (32 * m + n) 0
/-- A tile from a function of row and column. -/
def tileOf (x : Tile) (f : Nat → Nat → W32) : Tile := { x with elems := (List.range 1024).map (fun i => f (i / 32) (i % 32)) }

/-- TILE as an issue trap (R362). -/
def Act.tile (t : TileNo) (reason : Nat) : Act := .trap 0x12 0 (BitVec.ofNat 64 (t.toNat + reason * 2 ^ 4))
/-- FORMAT as an issue trap (R362). -/
def Act.format (reason : Nat) : Act := .trap 0x11 0 (BitVec.ofNat 64 reason)

/-- The tile a matrix command names. -/
def tileNamed : Instr → Option TileNo
  | .mma t _ _ | .mmaj t _ _ | .mld t _ _ | .mldt t _ _ | .mst t _ _ _ | .mzero t | .mrow _ _ t _ => some t
  | _ => none

/-! ## Issue -/

/-- A stride register's limit: a multiple of 64, of 128 for F6 (R191). -/
def strideOk (w : Word) (f : Nat) : Bool := fld w 0 32 % (if isF6 f then 128 else 64) == 0

/-- Operand-side checks of MMA and MMAJ: stride and scale table (ENGINE 2), then operand and plane addresses (ENGINE 3) (R363). -/
def sideFault (fmt str scl pln p : Word) : Option (Nat × Word) :=
  let f := fmtCode fmt
  if !strideOk str f || (isQ f && !aligned scl 2) then some (2, 0)
  else if !aligned p 64 then some (3, p)
  else if isF6 f && !aligned pln 64 then some (3, pln)
  else none

/-- MMA (R193, R197). -/
def execMma (t : TileNo) (pa pb : Reg) (s : State) : Out State :=
  issue { rs := [pa, pb], late := false } (fun s =>
    let x := s.me
    let e := x.ec
    let ti := s.tile s.cur.core t
    if !ti.alloc then .tile t 0
    else match formatFault e.fmta e.fmtb e.klen with
      | some r => .format r
      | none =>
        if ti.int != pairInt (fmtCode e.fmta) (fmtCode e.fmtb) then .tile t 3
        else match (match sideFault e.fmta e.astr e.scla e.plna (x.rd pa) with | some r => some r | none => sideFault e.fmtb e.bstr e.sclb e.plnb (x.rd pb)) with
          | some r => engTrap 0 r.1 r.2 s
          | none => enter 0 (.mma t pa pb) [x.rd pa, x.rd pb] s) s

/-- Cores of an MMAJ's segment (R198). -/
def segment (c log2w : Nat) : List Nat := (List.range (2 ^ log2w)).map (fun i => c - c % 2 ^ log2w + i)

/-- MMAJ (R198, R362): a member other than the lowest checks only its own side, since it reads neither FMTB nor KLEN: reserved codes and group code 3 of
FMTA, and an integer tile under an FMTA that no pair accumulates as integers. (DEDUCED, log entry 20) -/
def execMmaj (t : TileNo) (pa pb : Reg) (s : State) : Out State :=
  issue { rs := [pa, pb], late := false } (fun s =>
    let x := s.me
    let e := x.ec
    let ti := s.tile s.cur.core t
    let low := s.cur.core % 2 ^ fld e.mjoin 0 2 == 0
    let ff := if low then formatFault e.fmta e.fmtb e.klen else if 12 ≤ fmtCode e.fmta then some 1 else if isQ (fmtCode e.fmta) ∧ groupCode e.fmta = 3 then some 3 else none
    if !ti.alloc then .tile t 0
    else match ff with
      | some r => .format r
      | none =>
        if (if low then ti.int != pairInt (fmtCode e.fmta) (fmtCode e.fmtb) else ti.int && !pairInt (fmtCode e.fmta) (fmtCode e.fmta)) then .tile t 3
        else match (match sideFault e.fmta e.astr e.scla e.plna (x.rd pa) with | some r => some r | none => if low then sideFault e.fmtb e.bstr e.sclb e.plnb (x.rd pb) else none) with
          | some r => engTrap 0 r.1 r.2 s
          | none => enter 0 (.mmaj t pa pb) [x.rd pa, x.rd pb] s) s

/-- MLD and MLDT at issue (R199). -/
def loadTile (i : Instr) (t : TileNo) (base : Reg) (off : Word) (s : State) : Out State :=
  issue { rs := [base], late := false } (fun s =>
    let a := baseAddr s.me base off
    if !(s.tile s.cur.core t).alloc then .tile t 0
    else if !strideOk s.me.ec.cstr 0 then engTrap 0 2 0 s
    else if !aligned a 64 then engTrap 0 3 a s
    else enter 0 i [a] s) s

/-- MLD (R199). -/
def execMld (t : TileNo) (base : Reg) (off : Word) (s : State) : Out State := loadTile (.mld t base off) t base off s
/-- MLDT (R199). -/
def execMldt (t : TileNo) (base : Reg) (off : Word) (s : State) : Out State := loadTile (.mldt t base off) t base off s

/-- Whether a drain code is forbidden for a tile's kind (R76). -/
def drainForbidden (f : Nat) (int : Bool) : Bool := if int then !(f == 2 || f == 7 || f == 8 || f == 9) else !(decide (f ≤ 6))

/-- MST (R200). -/
def execMst (t : TileNo) (base : Reg) (off : Word) (z : Bool) (s : State) : Out State :=
  issue { rs := [base], late := false } (fun s =>
    let e := s.me.ec
    let a := baseAddr s.me base off
    let ti := s.tile s.cur.core t
    let f := fld e.dfmt 0 4
    if !ti.alloc then .tile t 0
    else if 12 ≤ f then .format 1
    else if drainForbidden f ti.int then .format 2
    else if bit e.dfmt 4 && ti.int then .format 6
    else if !strideOk e.cstr f || (bit e.dfmt 4 && !aligned e.amaxp 4) then engTrap 0 2 0 s
    else if !aligned a 64 then engTrap 0 3 a s
    else if isF6 f && !aligned e.plna 64 then engTrap 0 3 e.plna s
    else enter 0 (.mst t base off z) [a] s) s

/-- MZERO (R201). -/
def execMzero (t : TileNo) (s : State) : Out State :=
  issue { late := false } (fun s => if !(s.tile s.cur.core t).alloc then .tile t 0 else enter 0 (.mzero t) [] s) s

/-- MROW (R201). -/
def execMrow (put : Bool) (v : VReg) (t : TileNo) (m : BitVec 5) (s : State) : Out State :=
  issue { late := false } (fun s => if !(s.tile s.cur.core t).alloc then .tile t 0 else enter 0 (.mrow put v t m) [] s) s

/-! ## Thread instructions -/

/-- Spill values move to core memory (R47): those whose place meets p. -/
def Slot.spillsOut (p : SpillPlace → Bool) (x : Slot) : Slot :=
  { x with spill := x.spill.map (fun e => if p e.2.place then (e.1, { e.2 with place := .memory }) else e) }

/-- The memory bytes of spill values that move (R46): slot t, entry n at SPILLBASE + t × 2 KiB + n × 8, for the domain that spilled it (R260). (DESIGN CHOICE, log entry 74) -/
def State.spillBytes (s : State) (c t : Nat) (p : SpillPlace → Bool) : State :=
  (s.slot c t).spill.foldl (fun s e => if p e.2.place then s.ownWord c e.2.dom (s.spillOff c t e.1) e.2.val else s) s

/-- All spill values of a core at places p moved to memory. -/
def State.moveSpills (s : State) (c : Nat) (p : SpillPlace → Bool) : State :=
  (List.range 13).foldl (fun s t => (s.spillBytes c t p).onSlot c t (Slot.spillsOut p)) s

/-- TALLOC (R190): spill values leave the tile, then every element is 0. -/
def execTalloc (t : TileNo) (int : Bool) (s : State) : Out State :=
  issue {} (fun s =>
    let c := s.cur.core
    if (s.tile c t).alloc then .tile t 1
    else .done ((s.moveSpills c (fun p => match p with | .tile u _ _ => u == t.toNat | _ => false)).setTile c t { alloc := true, int := int, elems := [] })) s

/-- TFREE (R190): waits while a matrix command names the tile. -/
def execTfree (t : TileNo) (s : State) : Out State :=
  issue {} (fun s =>
    if !(s.tile s.cur.core t).alloc then .tile t 2
    else if (s.mine.cmds 0).any (fun m => tileNamed m.instr == some t) then .wait (.tile t.toNat)
    else .done (s.setTile s.cur.core t Tile.reset)) s

/-- MSTAT (R202). -/
def execMstat (d : Reg) (clr : Bool) (s : State) : Out State :=
  issue { ws := [d] } (fun s =>
    let busy := (s.mine.cmds 0).any (fun m => m.slot == s.cur.slot)
    .done (s.onMe (fun x =>
      let y := x.wr d (mstatWord x busy)
      if clr then { y with iovf := false, dnan := false, dovf := false } else y))) s

/-! ## Operands (R68, R69, R72, R196) -/

/-- Nibble i of packed bytes (R68). -/
def nibble (b : List Byte) (i : Nat) : Nat := (b.getD (i / 2) 0).toNat / 16 ^ (i % 2) % 16
/-- 2-bit entry i (R69). -/
def crumb (b : List Byte) (i : Nat) : Nat := (b.getD (i / 4) 0).toNat / 4 ^ (i % 4) % 4

/-- Raw element k of a row's bytes and its 2-bit plane. -/
def rawEl (f : Nat) (row plane : List Byte) (k : Nat) : Nat :=
  if isF6 f then nibble row k * 4 + crumb plane k
  else match codeBits f with
    | 4 => nibble row k
    | 8 => (row.getD k 0).toNat
    | 16 => ofBytes ((row.drop (2 * k)).take 2)
    | _ => ofBytes ((row.drop (4 * k)).take 4)

/-- Integer value of an integer or quantised code. -/
def intEl (f raw : Nat) : Int := match f with | 7 => signed 8 raw | 9 => signed 4 raw | _ => (raw : Int)

/-- One operand as sampled: format, address, stride, plane, scale table, zero points. -/
structure Operand where
  fmt : Word
  p   : Word
  str : Word
  pln : Word
  scl : Word
  zp  : Word

/-- What is read of one row: raw elements, scales and zero points per group. -/
structure OpRow where
  els : List Nat
  scl : List Nat
  zps : List Nat

/-- The runs of bytes that row i of an operand of k elements in groups of g takes: elements, plane, scales, zero points (R69, R72, R196). -/
def Operand.runs (o : Operand) (k g i : Nat) : List (Word × Nat) :=
  let f := fmtCode o.fmt
  let ng := if g = 0 then 0 else k / g
  [(o.p + BitVec.ofNat 64 (i * fld o.str 0 32), ceilDiv (k * codeBits f) 8),
    (o.pln + BitVec.ofNat 64 (i * (fld o.str 0 32 / 2)), if isF6 f then ceilDiv (k * 2) 8 else 0),
    (o.scl + BitVec.ofNat 64 (2 * (i * ng)), if isQ f then 2 * ng else 0),
    if f = 10 then (o.zp + BitVec.ofNat 64 (i * ng), ng)
    else if f = 11 then (o.zp + BitVec.ofNat 64 (i * ng / 2), if ng = 0 then 0 else (i * ng + ng - 1) / 2 - i * ng / 2 + 1)
    else (o.zp, 0)]

/-- The bytes of each run of a list. -/
def State.readRuns (s : State) (a : Agent) : List (Word × Nat) → EngRes (List (List Byte))
  | [] => .ok []
  | r :: l => (s.engReadN a 4 r.1 r.2).bind (fun b => (s.readRuns a l).bind (fun q => .ok (b :: q)))

/-- Row i of an operand of k elements in groups of g (R69, R72, R196). -/
def State.readRow (s : State) (a : Agent) (o : Operand) (k g i : Nat) : EngRes OpRow :=
  let f := fmtCode o.fmt
  let ng := if g = 0 then 0 else k / g
  (s.readRuns a (o.runs k g i)).bind (fun l =>
    let part (j : Nat) : List Byte := l.getD j []
    .ok { els := (List.range k).map (rawEl f (part 0) (part 1))
          scl := (List.range ng).map (fun j => ofBytes (((part 2).drop (2 * j)).take 2))
          zps := (List.range ng).map (fun j => if f = 10 then ((part 3).getD j 0).toNat else nibble (part 3) (i * ng + j - i * ng / 2 * 2)) })

/-- The read units of the 32 rows of operands: a block that two of them touch is one unit (R309). -/
def operandUnits (k g : Nat) (l : List Operand) : List ReadUnit := blockUnits (l.flatMap (fun o => (List.range 32).flatMap (o.runs k g)))

def State.readRows (s : State) (a : Agent) (o : Operand) (k g : Nat) : List Nat → EngRes (List OpRow)
  | [] => .ok []
  | i :: r => (s.readRow a o k g i).bind (fun x => (s.readRows a o k g r).bind (fun l => .ok (x :: l)))

/-! ## Accumulation (R73) -/

/-- Float steps in ascending k, each rounded once. -/
def accFloat (fa fb : Nat) (acc : Nat) (l : List (Nat × Nat)) : Nat :=
  l.foldl (fun acc p => Fmt.sf32.round ((Fmt.sf32.decode acc).add (((codeFmt fa).decode p.1).mul ((codeFmt fb).decode p.2)))) acc

/-- Integer steps, with the sticky overflow. -/
def accInt (fa fb : Nat) (acc : Nat × Bool) (l : List (Nat × Nat)) : Nat × Bool :=
  l.foldl (fun q p =>
    let v := signed 32 q.1 + intEl fa p.1 * intEl fb p.2
    (wrap 32 v, q.2 || decide (v < -(2 ^ 31) ∨ 2 ^ 31 ≤ v))) acc

/-- Quantised groups in ascending order. -/
def accQuant (fa fb g acc : Nat) (ra rb : OpRow) (n : Nat) : Nat :=
  (List.range n).foldl (fun acc j =>
    let za : Int := if isQ fa then (ra.zps.getD j 0 : Nat) else 0
    let zb : Int := if isQ fb then (rb.zps.getD j 0 : Nat) else 0
    let t := (List.range g).foldl (fun (t : Int) i =>
      t + (intEl fa (ra.els.getD (j * g + i) 0) - za) * (intEl fb (rb.els.getD (j * g + i) 0) - zb)) 0
    let sa := if isQ fa then Fmt.hf16.decode (ra.scl.getD j 0) else .fin false 1 0
    let sb := if isQ fb then Fmt.hf16.decode (rb.scl.getD j 0) else .fin false 1 0
    let sc := Fmt.sf32.decode (Fmt.sf32.round (sa.mul sb))
    let y := Fmt.sf32.round ((FVal.ofInt t 0 false).mul sc)
    Fmt.sf32.round ((Fmt.sf32.decode acc).add (Fmt.sf32.decode y))) acc

/-- One element of the product (R73). -/
def accEl (fa fb : Word) (k : Nat) (acc : W32) (ra rb : OpRow) : W32 × Bool :=
  let a := fmtCode fa
  let b := fmtCode fb
  if isFloatCode a && isFloatCode b then (BitVec.ofNat 32 (accFloat a b acc.toNat (ra.els.zip rb.els)), false)
  else if pairInt a b then let r := accInt a b (acc.toNat, false) (ra.els.zip rb.els); (BitVec.ofNat 32 r.1, r.2)
  else (BitVec.ofNat 32 (accQuant a b (pairGroup fa fb) acc.toNat ra rb (k / pairGroup fa fb)), false)

/-- A tile with a product added; the flag says that an integer step overflowed. -/
def mulTile (fa fb : Word) (k : Nat) (t : Tile) (ra rb : List OpRow) : Tile × Bool :=
  let z : OpRow := { els := [], scl := [], zps := [] }
  let l := (List.range 1024).map (fun i => accEl fa fb k (t.el (i / 32) (i % 32)) (ra.getD (i / 32) z) (rb.getD (i % 32) z))
  ({ t with elems := l.map (·.1) }, l.any (·.2))

def opA (m : Cmd) : Operand := { fmt := m.ec.fmta, p := m.args.getD 0 0, str := m.ec.astr, pln := m.ec.plna, scl := m.ec.scla, zp := m.ec.zpa }
def opB (m : Cmd) : Operand := { fmt := m.ec.fmtb, p := m.args.getD 1 0, str := m.ec.bstr, pln := m.ec.plnb, scl := m.ec.sclb, zp := m.ec.zpb }

/-- The group size of a command's operands; 0 without a quantised one. -/
def opGroup (m : Cmd) : Nat :=
  if isQ (fmtCode m.ec.fmta) || isQ (fmtCode m.ec.fmtb) then pairGroup m.ec.fmta m.ec.fmtb else 0

/-- The product of R197 for core c. -/
def State.mmaEffect (s : State) (c : Nat) (t : TileNo) (m : Cmd) : EngRes State :=
  let k := fld m.ec.klen 0 20
  let fa := m.ec.fmta
  let fb := m.ec.fmtb
  let g := opGroup m
  if k = 0 then .ok s
  else
    (s.unitsOk (s.cmdAgent c 0 m) (operandUnits k g [opA m, opB m])).bind (fun _ =>
    (s.readRows (s.cmdAgent c 0 m) (opA m) k g (List.range 32)).bind (fun ra =>
    (s.readRows (s.cmdAgent c 0 m) (opB m) k g (List.range 32)).bind (fun rb =>
      let r := mulTile fa fb k (s.tile c t) ra rb
      .ok ((s.setTile c t r.1).onSlot c m.slot (fun x => { x with iovf := x.iovf || r.2 })))))

/-- A joint product whose pair of formats no member could check: the manual states no result, so the tile is free values (log entry 20). -/
def State.freeTile (s : State) (c : Nat) (t : TileNo) : State :=
  let n := s.fresh
  { s with fresh := n + 1024 }.setTile c t { s.tile c t with elems := (List.range 1024).map (fun i => (Config.freeWord (n + i)).truncate 32) }

/-! ## Loads and drains (R76 to R78, R199, R200) -/

/-- The 32 memory rows that MLD and MLDT load. -/
def loadRuns (m : Cmd) : List (Word × Nat) :=
  (List.range 32).map (fun i => (m.args.getD 0 0 + BitVec.ofNat 64 (i * fld m.ec.cstr 0 32), 128))

/-- MLD, or MLDT when tr. -/
def State.mldEffect (s : State) (c : Nat) (t : TileNo) (tr : Bool) (m : Cmd) : EngRes State :=
  (s.unitsOk (s.cmdAgent c 0 m) (blockUnits (loadRuns m))).bind (fun _ =>
  (s.readRuns (s.cmdAgent c 0 m) (loadRuns m)).bind (fun rows =>
    let w (i j : Nat) : W32 := BitVec.ofNat 32 (ofBytes (((rows.getD i []).drop (4 * j)).take 4))
    .ok (s.setTile c t (tileOf (s.tile c t) (fun i j => if tr then w j i else w i j)))))

/-- One element converted: bits, DNAN, DOVF (R76, R77). (DESIGN CHOICE, log entry 78) -/
def drainEl (f : Nat) (sat int : Bool) (x : W32) : Nat × Bool × Bool :=
  if f = 2 then (x.toNat, false, false)
  else if int then
    let w := codeBits f
    let lo := intLo (f != 8) w
    let hi := intHi (f != 8) w
    let v := signed 32 x.toNat
    (wrap w (if sat then max lo (min hi v) else v), false, decide (v < lo ∨ hi < v))
  else
    let v := Fmt.sf32.decode x.toNat
    let r := (codeFmt f).encode sat v
    (r.1, v.isNan && isF6 f, r.2)

/-- Packed bytes of values of w bits each, lowest first. -/
def packBits (w : Nat) (l : List Nat) : List Byte := bytesOf (ceilDiv (w * l.length) 8) (joinLanes w l)

/-- The converted elements of row i of a drain. -/
def drainRow (m : Cmd) (t : Tile) (i : Nat) : List (Nat × Bool × Bool) :=
  (List.range 32).map (fun j => drainEl (fld m.ec.dfmt 0 4) (bit m.ec.dfmt 5) t.int (t.el i j))

/-- Address of row i of a drain, and of its 2-bit plane (R69, R200). -/
def drainAddr (m : Cmd) (i : Nat) : Word := m.args.getD 0 0 + BitVec.ofNat 64 (i * fld m.ec.cstr 0 32)
def planeAddr (m : Cmd) (i : Nat) : Word := m.ec.plna + BitVec.ofNat 64 (i * (fld m.ec.cstr 0 32 / 2))

/-- The runs of bytes of row i of a drain: its row, and its 2-bit plane for F6 (R68, R69). -/
def drainRuns (m : Cmd) (t : Tile) (i : Nat) : List (Word × List Byte) :=
  let f := fld m.ec.dfmt 0 4
  let vals := (drainRow m t i).map (·.1)
  (drainAddr m i, if isF6 f then packBits 4 (vals.map (· / 4)) else packBits (codeBits f) vals) ::
  (if isF6 f then [(planeAddr m i, packBits 2 (vals.map (· % 4)))] else [])

/-- The aligned 64-byte block in which element n of row i of a drain lies, by its row's bytes. -/
def drainBlock (m : Cmd) (i n : Nat) : Nat := (drainAddr m i + BitVec.ofNat 64 (n * codeBits (fld m.ec.dfmt 0 4) / 8)).toNat / 64

/-- Whether some element of a drain in a block has a property of its conversion. -/
def drainAny (m : Cmd) (rows : List (List (Nat × Bool × Bool))) (block : Nat) (p : Nat × Bool × Bool → Bool) : Bool :=
  rows.zipIdx.any (fun r => r.1.zipIdx.any (fun e => p e.1 && drainBlock m r.2 e.2 == block))

/-- The write units of a drain: its 32 rows in order, a later one over an earlier, by aligned 64-byte blocks, each with the status bits of its elements
(R77, R200, R202, R309). -/
def drainAll (m : Cmd) (t : Tile) : List WriteUnit :=
  let rows := (List.range 32).map (drainRow m t)
  (blockWrites ((List.range 32).flatMap (drainRuns m t))).map (fun u =>
    let b := (u.parts.headD (0, [])).1.toNat / 64
    { u with nan := drainAny m rows b (·.2.1), ovf := drainAny m rows b (·.2.2) })

/-- For each row of a drain, which of the write units that hold its bytes are done. -/
def drainDone (m : Cmd) (t : Tile) : List (List Bool) :=
  let units := (drainAll m t).zipIdx
  (List.range 32).map (fun i =>
    let blocks := (drainRuns m t i).flatMap (fun r => (unitsOf r.1 r.2.length).map (fun u => u.1.toNat / 64))
    (units.filter (fun u => blocks.contains ((u.1.parts.headD (0, [])).1.toNat / 64))).map (fun u => m.walk.wrote.contains u.2))

/-- The amax of a drained tile (R78). -/
def amaxOf (t : Tile) : Nat :=
  (List.range 1024).foldl (fun a i => atomicFn 22 32 a ((t.el (i / 32) (i % 32)).toNat) 0) 0

/-- Why an address takes no AFMAXA although the engine may write there (R371, R383). -/
def State.mergeFault (s : State) (g : Agent) (a : Word) : Option Deny :=
  match spaceOf a, g.place a with
  | .window _ _, _ => some ⟨0x07, 5, 3, 0⟩
  | sp, some p =>
    if p.ty = 1 then some ⟨0x0A, 2, ofBool p.host, p.kidx.toNat⟩
    else if p.host then some ⟨0x0A, 3, 1, p.kidx.toNat⟩
    else (s.poisoned p.key 4).map (fun e => ⟨0x14, e, sp.code p.host, 0⟩)
  | _, none => none

/-- AFMAXA at device scope by the engine, unit k of its drain: an atomic at its address (R78, R155, R245, R371). -/
def State.engAmax (s : State) (g : Agent) (k : Nat) (a : Word) (v : Nat) : EngRes State :=
  if g.walk.wrote.contains k then .ok s
  else
    let bs := bytesOf 4 v
    let r := (s.engPlace g a 4 5 3).parkAs (fun q => { q with unit := k, parts := q.parts.map (fun x => (x.1, x.2.1, bs)) })
    match r, s.mergeFault g a with
    | .ok _, some d => .deny s a 5 d
    | .park _ _, some d => .deny s a 5 d
    | r, _ => r.bind (fun p => .ok (s.unitWrite 3 [(a, p, bs)]))

/-- MST (R200). -/
def State.mstEffect (s : State) (c : Nat) (t : TileNo) (z : Bool) (m : Cmd) : EngRes State :=
  let ti := s.tile c t
  (s.engWrites (s.cmdAgent c 0 m) 0 (drainAll m ti)).bind (fun s =>
  (if bit m.ec.dfmt 4 then s.engAmax (s.cmdAgent c 0 m) (drainAll m ti).length m.ec.amaxp (amaxOf ti) else .ok s).bind (fun s =>
    .ok (if z then s.setTile c t { s.tile c t with elems := [] } else s)))

/-- The other vector register of an MROW pair. -/
def oddOf (v : VReg) : VReg := v ||| 1

/-- MROW (R201). -/
def State.mrowEffect (s : State) (c : Nat) (put : Bool) (v : VReg) (t : TileNo) (row : Nat) (m : Cmd) : EngRes State :=
  let ti := s.tile c t
  if put then
    let l := lanesOf 32 (m.srcs.getD 0 0) ++ lanesOf 32 (m.srcs.getD 1 0)
    .ok (s.setTile c t (tileOf ti (fun i j => if i = row then BitVec.ofNat 32 (l.getD j 0) else ti.el i j)))
  else
    let l (b : Nat) := ofLanes 32 ((List.range 16).map (fun j => (ti.el row (b + j)).toNat))
    .ok (s.onSlot c m.slot (fun x => (x.vwr v (l 0)).vwr (oddOf v) (l 16)))

/-- What a matrix command does when it completes; a started MMAJ is joined by MMAJ_JOINT_START. -/
def State.matEffect (s : State) (c : Nat) (m : Cmd) : EngRes State :=
  match m.instr with
  | .mma t _ _ => s.mmaEffect c t m
  | .mld t _ _ => s.mldEffect c t false m
  | .mldt t _ _ => s.mldEffect c t true m
  | .mst t _ _ z => s.mstEffect c t z m
  | .mzero t => .ok (s.setTile c t { s.tile c t with elems := [] })
  | .mrow put v t r => s.mrowEffect c put v t r.toNat m
  | _ => .ok s

/-! ## Units and progress (R202, R309) -/

/-- Whether a joint command has the B operand to read for its segment: the lowest member's keeps B's address until B has been read (R198). (DEDUCED, log entry 44) -/
def Cmd.readsB (m : Cmd) : Bool :=
  (match m.instr with | .mmaj _ _ _ => true | _ => false) && m.args.length == 2 && m.brows.isEmpty && fld m.ec.klen 0 20 != 0

/-- What a matrix command that executes reads, unit by unit; of a joint command, B is the lowest member's to read (R198). -/
def matReads (m : Cmd) : List ReadUnit :=
  let k := fld m.ec.klen 0 20
  match m.instr with
  | .mma _ _ _ => operandUnits k (opGroup m) [opA m, opB m]
  | .mmaj _ _ _ => operandUnits k (opGroup m) (if m.readsB then [opB m, opA m] else [opA m])
  | .mld _ _ _ | .mldt _ _ _ => blockUnits (loadRuns m)
  | _ => []

/-- What a drain writes, unit by unit. -/
def State.matWrites (s : State) (c : Nat) (m : Cmd) : List WriteUnit :=
  match m.instr with
  | .mst t _ _ _ => drainAll m (s.tile c t)
  | _ => []

/-- Work that an executing matrix command has performed: rows loaded or written; the k steps of a product are all taken when it completes (R202). (DESIGN CHOICE, log entry 8) -/
def State.matWork (s : State) (c : Nat) (m : Cmd) : Nat :=
  match m.instr with
  | .mld _ _ _ | .mldt _ _ _ =>
    ((loadRuns m).takeWhile (fun r => (unitsOf r.1 r.2).all (fun u => m.walk.has u.1 u.2))).length
  | .mst t _ _ _ => ((drainDone m (s.tile c t)).takeWhile (fun l => l.all id)).length
  | _ => 0

/-- MPROG (R202): the work done, or a free value below it that never decreases (log entry 8). (DESIGN CHOICE, log entry 8) -/
def execMprog (d : Reg) (s : State) : Out State :=
  issue { ws := [d], var := true } (fun s =>
    let c := s.cur.core
    let put (s : State) (v : Word) : Act := .done (s.onMe (fun x => if d = 0 then x else { x with results := x.results ++ [{ reg := d, val := v, depth := 0, acq := false }] }))
    match (tget s.mine.exec 0 []).find? (fun m => m.slot == s.cur.slot) with
    | none => put s 0
    | some m =>
      let done := max m.shown (Config.progressLag s.fresh % (s.matWork c m + 1))
      put ({ s with fresh := s.fresh + 1 }.setCmd c 0 { m with shown := done }) (BitVec.ofNat 64 (done + m.num % 2 ^ 32 * 2 ^ 32))) s

end Sys2Proof.Machine
end

