-- ==== Sys2Proof/Machine/Threads.lean ====
section
/-! DEFINITION. Helpers and gangs: START, HJOIN, GANG, SPLIT and the steps that free a helper's slot and form a gang (R28, R29, R47, R49 to R51, R140, R141, R237, R238). -/

namespace Sys2Proof.Machine

open Sys2Proof

/-! ## Helpers -/

/-- The lowest free helper slot (R28). -/
def Core.freeHelper (k : Core) : Option Nat := (List.range' 1 10).find? (fun t => (k.slot t).mode == .free)

/-- HDONE with bit t set or cleared (R137). -/
def Core.setDone (k : Core) (t : Nat) (v : Bool) : Core :=
  let b : BitVec 10 := (1 : BitVec 10) <<< (t - 1)
  { k with hdone := if v then k.hdone ||| b else k.hdone &&& ~~~b }

/-- A helper placed in a free slot (R28, R133, R140): entry, argument, the starter's group, and the accesses that come before its own. -/
def Slot.helper (x st : Slot) (t : Nat) (entry arg : Word) : Slot :=
  let y : Slot := { x.freed with mode := .live, pc := entry, asid := st.asid, dom := st.dom, key := st.key, codebase := st.codebase, codelim := st.codelim }
  { y.wr 1 arg with after := (st.acc.filter (fun a => match a.kind with | .load _ | .stget _ => false | _ => true)).map (fun a => (t, a.id)) }

/-- START (R140): spill values leave the slot's bank first (R47); the slot number comes back with variable latency. -/
def execStart (a b : Reg) (s : State) : Out State :=
  issue { rs := [a, b], ws := [a], var := true, who := .threads } (fun s =>
    let c := s.cur.core
    match s.mine.freeHelper with
    | none => .wait .startSlot
    | some t =>
      let st := s.me
      let s := s.moveSpills c (fun p => match p with | .bank u _ => u == t | _ => false)
      let s := s.onCore c (fun k => k.setDone t false)
      let s := s.onSlot c t (fun x => x.helper st s.cur.slot (st.rd a) (st.rd b))
      .done (s.onMe (fun x => if a = 0 then x else { x with results := x.results ++ [{ reg := a, val := BitVec.ofNat 64 t, depth := 0, acq := false }] }))) s

/-- Whether every helper named by a mask is done, and every access it has issued performed (R141). -/
def Core.joined (k : Core) (m : Word) : Bool :=
  (List.range' 1 10).all (fun t => !bit m t || (k.hdone.getLsbD (t - 1) && (k.slot (departed t)).acc.isEmpty))

/-- HJOIN (R141). -/
def execHjoin (b : Reg) (s : State) : Out State :=
  issue { rs := [b], who := .threads } (fun s => if s.mine.joined (s.me.rd b) then .done s else .wait (.hjoin (s.me.rd b))) s

/-- HELPER_SLOT_FREE (R29): the stopped helper's commands and registers are done and its spill values move to core memory. (DESIGN CHOICE, log entry 39) -/
def execHelperSlotFree (c t : Nat) (s : State) : Out State :=
  let x := s.slot c t
  let k := s.core c
  .next (if 1 ≤ t ∧ t ≤ 10 ∧ x.mode = .draining ∧ x.pend = 0 ∧ [0, 1, 2, 3].all (fun e => !(k.cmds e).any (fun m => m.slot == t)) = true then
      ((s.spillBytes c t (fun p => p != .memory)).freeSlot c t).onCore c (fun k => k.setDone t true)
    else s)

/-! ## Gangs -/

/-- The masks of R237 that include a core's own bit. -/
def gangMaskOk (c : Nat) (w : Word) : Bool :=
  ([0x03, 0x0C, 0x30, 0xC0, 0x0F, 0xF0, 0xFF] : List Word).contains w && bit w (c % 8)

/-- GANG (R237): the thread parks with its request until GANG_FORM. (DESIGN CHOICE, log entry 81) -/
def execGang (b : Reg) (s : State) : Out State :=
  issue { rs := [b], who := .control } (fun s =>
    let w := s.me.rd b
    if s.inGang then .illegal 6
    else if !gangMaskOk s.cur.core w then .illegal 3
    else .stay ((s.onMine (fun k => { k with gangReq := w.setWidth 8 })).onMe (fun x => x.waitFor s.rtime.toNat .gang s.cur.mark))) s

/-- Whether a core waits in GANG with a mask. -/
def State.asksGang (s : State) (c : Nat) (m : BitVec 8) : Bool :=
  (s.core c).gangReq == m && (match (s.slot c 0).park with | some w => w.kind == .gang | none => false)

/-- GANG_FORM (R237): four router cycles after the last GANG every member goes on at the leader's next address. (DESIGN CHOICE, log entry 27) (DEDUCED, log entry 36) (DESIGN CHOICE, log entry 107) -/
def execGangForm (c : Nat) (s : State) : Out State :=
  let m := (s.core c).gangReq
  let mem := gangCores c m
  let since := (mem.map (fun d => match (s.slot d 0).park with | some w => w.since | none => 0)).foldl max 0
  .next (if m ≠ 0 ∧ mem.all (fun d => s.asksGang d m) = true ∧ since + 4 ≤ s.rtime.toNat then
      let lead := mem.headD c
      let pc := (s.slot lead 0).pc + 4
      mem.foldl (fun s d =>
        (s.onCore d (fun k => { k with gang := m, gangReq := 0, gangDone := none })).onSlot d 0 (fun x =>
          { x with pc := pc, icount := x.icount + 1 }.unpark s.rtime.toNat)) s
    else s)

/-- SPLIT (R51, R238): the gang dissolves as its last member issues it; without a gang nothing happens. -/
def execSplit (s : State) : Out State :=
  issue { who := .threads } (fun s =>
    .done (if s.cur.slot = 0 then s.dissolve else s)) s

end Sys2Proof.Machine
end

