-- ==== Sys2Proof/Machine/Csr.lean ====
section
/-! DEFINITION. Control registers, SPILL and FILL (R35, R45 to R48, R53, R131 to R139, R191, R223, R258, R343, R345, R348, R354, R400). -/

namespace Sys2Proof.Machine

open Sys2Proof

/-! ## Reading -/

/-- Engine register i of 0x040 to 0x04E, then 0x060 to 0x064. -/
def engIndex (n : Nat) : Option Nat := if 0x040 ≤ n ∧ n ≤ 0x04E then some (n - 0x040) else if 0x060 ≤ n ∧ n ≤ 0x064 then some (n - 0x060 + 15) else none

/-- The value of a register as the issuing slot reads it (R133); none for a number that names none. (DEDUCED, log entry 60) -/
def State.csrRead (s : State) (n : Nat) : Option Word :=
  let c := s.cur.core
  let k := s.mine
  let x := s.me
  match engIndex n with
  | some i => some (x.ec.words.getD i 0)
  | none =>
    match n with
    | 0x000 => some (BitVec.ofNat 64 s.cur.slot)
    | 0x001 => some (BitVec.ofNat 64 c)
    | 0x002 => some (BitVec.ofNat 64 (coreX c + coreY c * 2 ^ 8))
    | 0x003 => some k.jobgrid
    | 0x004 => some k.sstep
    | 0x005 => some k.cycle
    | 0x006 => some s.rtime
    | 0x007 => some 0x0100
    | 0x008 => some 0x1FF
    | 0x009 => some 0
    | 0x00A => some 0x00104040  -- MESHCAP (R309, R310)
    | 0x010 => some x.tvec
    | 0x011 => some x.tcause
    | 0x012 => some x.taddr
    | 0x013 => some x.tpc
    | 0x014 => some x.tinfo
    | 0x020 => some x.prio
    | 0x021 => some x.waitlim
    | 0x022 => some (BitVec.ofNat 64 (k.hdone.toNat * 2))
    | 0x023 => some k.spillbase
    | 0x024 => some (tilesWord k.tiles)
    | 0x030 => some (x.asid.setWidth 64)
    | 0x031 => some (domainWord x)
    | 0x032 => some (BitVec.ofNat 64 (ofBool k.det))
    | 0x033 => some x.codebase
    | 0x034 => some x.codelim
    | 0x050 => some k.smask
    | 0x051 => some k.domch
    | 0x052 => some k.xarea
    | 0x080 => some k.profctl
    | 0x081 => some k.profbase
    | 0x0D0 => some s.remapix
    | 0x0D1 => some (tget s.remap s.remapix.toNat 0)
    | 0x0D4 => some k.bkpt[0]
    | 0x0D5 => some k.bkpt[1]
    | 0x0D6 => some k.bkpt[2]
    | 0x0D7 => some k.bkpt[3]
    | _ => none

/-! ## Writing -/

/-- Writable bits of engine register i (R191). -/
def engMask (i : Nat) : Word :=
  match i with
  | 0 | 1 => 0x3F
  | 8 | 9 | 13 => 0xFFFFFFFF
  | 10 => 0xFFFFF
  | 11 => 0x3
  | 12 => 0x3F
  | 15 => 0xFFFFFFFFFF
  | 16 => 0xFFFFFFFF
  | 19 => 0x3F7F1F3F
  | _ => 0xFFFFFFFFFFFFFFFF

/-- The register with its writable bits taken from v; reserved bits and read-only fields keep their values (R131). -/
def masked (m old v : Word) : Word := (old &&& ~~~m) ||| (v &&& m)

/-- XAREA values that a write may leave (R223). -/
def xareaOk (w : Word) : Bool := fld w 32 20 % 64 == 0 && decide (fld w 0 19 + fld w 32 20 ≤ Config.coreBytes)

/-- What a write to a register comes to. -/
inductive CsrRes where
  | ok (s : State)
  | bad          -- refused value (R223)
  | readOnly     -- UR, or no register
  deriving Repr

/-- Register n set to v (R131). (DEDUCED, log entry 60) -/
def State.csrWrite (s : State) (n : Nat) (v : Word) : CsrRes :=
  let x := s.me
  match engIndex n with
  | some i => .ok (s.setMe { x with ec := EngCsr.ofWords (x.ec.words.set i (v &&& engMask i)) })
  | none =>
    match n with
    | 0x010 => .ok (s.setMe { x with tvec := v })
    | 0x020 => .ok (s.setMe { x with prio := v &&& 0x3 })
    | 0x021 => .ok (s.setMe { x with waitlim := v &&& 0xFFFFFFFF })
    | 0x023 => .ok (s.onMine (fun k => { k with spillbase := v }))
    | 0x052 =>
      let w := v &&& 0x000FFFFF0007FFC0
      if xareaOk w then .ok (s.onMine (fun k => { k with xarea := w })) else .bad
    | 0x080 => .ok (s.onMine (fun k => { k with profctl := masked 0x1F k.profctl v }))
    | 0x081 => .ok (s.onMine (fun k => { k with profbase := v }))
    | 0x0D0 => .ok { s with remapix := v &&& 0x7FF }
    | 0x0D1 => .ok { s with remap := tset s.remap s.remapix.toNat (v &&& 0x1FFFFFF) }
    | 0x0D4 => .ok (s.onMine (fun k => { k with bkpt := k.bkpt.set 0 v }))
    | 0x0D5 => .ok (s.onMine (fun k => { k with bkpt := k.bkpt.set 1 v }))
    | 0x0D6 => .ok (s.onMine (fun k => { k with bkpt := k.bkpt.set 2 v }))
    | 0x0D7 => .ok (s.onMine (fun k => { k with bkpt := k.bkpt.set 3 v }))
    | _ => .readOnly

/-! ## Instructions -/

/-- A privileged number outside domain 0 (R132, R359). (DEDUCED, log entry 34) -/
def State.csrPriv (s : State) (n : Nat) : Bool := decide (0x0C0 ≤ n) && s.me.dom != 0

/-- CSRR (R131). -/
def execCsrr (d : Reg) (n : BitVec 12) (s : State) : Out State :=
  issue { ws := [d], late := false, who := .any } (fun s =>
    if s.csrPriv n.toNat then .trap 0x05 0 (n.setWidth 64)
    else match s.csrRead n.toNat with
      | none => .illegal 5
      | some v => .done (s.onMe (fun x => x.wr d v))) s

/-- CSRW, CSRS and CSRC: the new value f of the old one and gA; gC takes the old value (R131). -/
def csrUpdate (f : Word → Word → Word) (n : BitVec 12) (a c : Reg) (s : State) : Out State :=
  issue { rs := [a], ws := [c] } (fun s =>
    if s.csrPriv n.toNat then .trap 0x05 0 (n.setWidth 64)
    else match s.csrRead n.toNat with
      | none => .illegal 5
      | some old =>
        match s.csrWrite n.toNat (f old (s.me.rd a)) with
        | .ok t => .done (t.onMe (fun x => x.wr c old))
        | .bad => .illegal 3
        | .readOnly => .illegal 5) s

/-- CSRW (R131). -/
def execCsrw (n : BitVec 12) (a c : Reg) (s : State) : Out State := csrUpdate (fun _ v => v) n a c s
/-- CSRS (R131). -/
def execCsrs (n : BitVec 12) (a c : Reg) (s : State) : Out State := csrUpdate (fun old v => old ||| v) n a c s
/-- CSRC (R131). -/
def execCsrc (n : BitVec 12) (a c : Reg) (s : State) : Out State := csrUpdate (fun old v => old &&& ~~~v) n a c s

/-! ## SPILL and FILL (R45, R46, R265) -/

/-- Places that spill values of the core occupy. -/
def Core.spilled (k : Core) : List SpillPlace := k.slots.flatMap (fun p => p.2.spill.map (fun e => e.2.place))

/-- Places in the order of R46: columns of tiles not allocated, banks of free slots other than 11 and 12. -/
def Core.spillPlaces (k : Core) : List SpillPlace :=
  (List.range 16).flatMap (fun t => if (tget k.tiles t Tile.reset).alloc then [] else
    (List.range 32).flatMap (fun col => (List.range 16).map (fun row => SpillPlace.tile t col row))) ++
  (List.range 11).flatMap (fun u => if (k.slot u).mode = .free then (List.range 31).map (fun i => SpillPlace.bank u i) else [])

/-- The first free place; core memory when there is none. -/
def Core.freePlace (k : Core) : SpillPlace :=
  let used := k.spilled
  (k.spillPlaces.find? (fun p => !used.contains p)).getD .memory

/-- SPILL (R45, R46): a recorded slot keeps its place; inside a call the 32-entry block of the frame is used (R265). (DESIGN CHOICE, log entry 74) -/
def execSpill (n : BitVec 8) (b : Reg) (s : State) : Out State :=
  issue { rs := [b], who := .any } (fun s =>
    let c := s.cur.core
    let x := s.me
    let v := x.rd b
    match x.calls with
    | _ :: r => if 32 ≤ n.toNat then .illegal 3 else .done (s.setCoreWord c (frameSpill (frameOff s.cur.slot r.length) n.toNat) v)
    | [] =>
      let place := match x.spill.find? (fun e => e.1 == n.toNat) with | some e => e.2.place | none => s.mine.freePlace
      let s := s.setMe { x with spill := tset x.spill n.toNat { val := v, place := place, dom := x.dom } }
      .done (if place = .memory then s.ownWord c x.dom (s.spillOff c s.cur.slot n.toNat) v else s)) s

/-- The value under spill slot n of slot t of core c: from the frame's block inside a call (R45, R265). -/
def State.filled (s : State) (c t n : Nat) : Word :=
  let x := s.slot c t
  match x.calls with
  | _ :: r => s.coreWord c (frameSpill (frameOff t r.length) n)
  | [] => match x.spill.find? (fun e => e.1 == n) with | some e => e.2.val | none => 0

/-- FILL (R45, R139): variable latency; it may issue under unresolved branches. -/
def execFill (d : Reg) (n : BitVec 8) (s : State) : Out State :=
  issue { ws := [d], var := true, late := false, who := .any } (fun s =>
    let x := s.me
    if 32 ≤ n.toNat ∧ x.calls ≠ [] then .illegal 3
    else .done (s.setMe (if d = 0 then x else { x with results := x.results ++ [{ reg := d, val := s.filled s.cur.core s.cur.slot n.toNat, depth := x.branches.length, acq := false }] }))) s

end Sys2Proof.Machine
end

