-- ==== Sys2Proof/Machine/Power.lean ====
section
/-! DEFINITION. Power and placement: V/F levels and moves, boost leases, thermal caps, energy windows, time-sliced pairs (R239, R240, R336 to R344, R366, R386). -/

namespace Sys2Proof.Machine

open Sys2Proof

/-- Whether an exchange phase that contains core c is in progress: released to the cores it is not (R337). -/
def State.exchanging (s : State) (c : Nat) : Bool := s.exchanges.any (fun e => e.members.contains c && e.c.isNone)

/-- FREQ's clamp (R337). -/
def VF.clamp (v : VF) (l : Nat) : Nat := max v.fmin (min (min v.fmax 9) l)

/-- The launch level: 9, clamped to [FMIN, FMAX] (R336). -/
def VF.launchLevel (v : VF) : Nat := max v.fmin (min v.fmax 9)

/-- The level that governs without a lease: the last FREQ, else the launch level (R339). -/
def VF.ownLevel (v : VF) : Nat := v.lastFreq.getD v.launchLevel

/-- The lease ends: the core's own level goes to the mailbox (R339). -/
def VF.endLease (v : VF) : VF := { v with lease := 0, held := false, mail := some v.ownLevel }

/-- FREQ (R239, R337): during a lease it takes effect only at its end (R339). -/
def execFreq (d b : Reg) (s : State) : Out State :=
  issue { rs := [b], ws := [d], who := .threads } (fun s =>
    let v := s.mine.vf
    let l := v.clamp (fld (s.me.rd b) 0 4)
    let v' : VF := if v.lease = 0 then { v with mail := some l, lastFreq := some l } else { v with lastFreq := some l }
    .done ((s.onMine (fun k => { k with vf := v' })).onMe (fun x => x.wr d (BitVec.ofNat 64 l)))) s

/-- The grant test of R339: FMAX at least 10, and the power monitor's projection, a free value (log entry 10). (DESIGN CHOICE, log entry 10) -/
def State.boostTest (s : State) (c : Nat) : Bool × State :=
  let r := s.draw
  (decide (10 ≤ (s.core c).vf.fmax) && Config.boostFits r.1, r.2)

/-- BOOST (R240, R339): 0 cancels the lease; a grant replaces it; a refusal leaves it. (DESIGN CHOICE, log entry 10) -/
def execBoost (d b : Reg) (s : State) : Out State :=
  issue { rs := [b], ws := [d], who := .threads } (fun s =>
    let n := fld (s.me.rd b) 0 16
    let c := s.cur.core
    if n = 0 then
      .done ((s.onMine (fun k => if k.vf.lease = 0 then k else { k with vf := k.vf.endLease })).onMe (fun x => x.wr d 0))
    else
      let r := s.boostTest c
      if r.1 then
        let g := min n 1024
        let s := r.2.onMine (fun k => { k with vf := { k.vf with lease := g, held := false, mail := some k.vf.fmax } })
        .done ((s.event c 2 s.cur.slot s.cur.pc).onMe (fun x => x.wr d (BitVec.ofNat 64 g)))
      else .done (r.2.onMe (fun x => x.wr d 0))) s

/-- The lease at a level-1 compute release (R339, R366): a suspended one is tested again, a running one counts down. -/
def State.leaseTick (s : State) (c : Nat) : State :=
  let v := (s.core c).vf
  if v.lease = 0 then s
  else if v.held then
    let r := s.boostTest c
    if r.1 then r.2.onCore c (fun k => { k with vf := { v with held := false, mail := some v.fmax } }) else r.2
  else s.onCore c (fun k => { k with vf := if v.lease = 1 then v.endLease else { v with lease := v.lease - 1 } })

/-- VF_MOVE_BEGIN (R337, R338): the regulator takes the pending request, under the thermal cap, and the clock pauses. -/
def execVfMoveBegin (c : Nat) (s : State) : Out State :=
  let v := (s.core c).vf
  .next (match v.mail with
    | some l =>
      if v.moving.isNone && !s.exchanging c then
        (s.onCore c (fun k => { k with vf := { v with mail := none, moving := some (min l v.cap), pausedAt := s.rtime.toNat } })).event c 1 0 0
      else s
    | none => s)

/-- Router cycles from one to another do not count toward the slot's wait; one that began between them begins at their end (R386, R400). -/
def Slot.skip (x : Slot) (from_ to_ : Nat) : Slot := { x with park := x.park.map (fun w => { w with since := if w.since ≤ from_ then w.since + (to_ - from_) else max w.since to_ }) }

/-- VF_MOVE_END (R338): the clock resumes at the new level. -/
def execVfMoveEnd (c : Nat) (s : State) : Out State :=
  let v := (s.core c).vf
  .next (match v.moving with
    | some l =>
      s.onCore c (fun k => { k with vf := { v with level := l, moving := none }, slots := k.slots.map (fun p => (p.1, p.2.skip v.pausedAt s.rtime.toNat)) })
    | none => s)

/-- The level that the mailbox would carry: the pending request, else a lease's, else the core's own (R339, R341). -/
def VF.want (v : VF) : Nat := v.mail.getD (if 0 < v.lease ∧ v.held = false then v.fmax else v.ownLevel)

/-- THERMAL_CAP_STEP (R341): one step lower while hot, one step higher below 90 degrees, through the mailbox. -/
def execThermalCapStep (c : Nat) (hot : Bool) (s : State) : Out State :=
  let v := (s.core c).vf
  let want := v.want
  .next (if hot then
      (s.onCore c (fun k => { k with vf := { v with cap := min v.cap v.level - 1, mail := some want } })).event c 0 0 0
    else if v.cap < 15 then (s.onCore c (fun k => { k with vf := { v with cap := v.cap + 1, mail := some want } })).event c 0 0 0
    else s)

/-- Whether a job's cores are at work for it: it runs, or is being stopped. -/
def Job.live (j : Job) : Bool := match j.phase with | .running | .stopping _ => true | _ => false

/-- Running time of a job in the present accounting window (R342). (DEDUCED, log entry 42) -/
def State.timeInWindow (s : State) (j : Job) : Nat := j.worked + if j.live then s.rtime.toNat - max j.since s.windowAt else 0

/-- A job that no longer runs keeps its time in the window (R342). -/
def State.rest (s : State) (j : Job) : Job := { j with worked := s.timeInWindow j }

/-- The weight of a job's time in the present accounting window, and that of every job that has run in it (R342). -/
def State.weight (s : State) (j : Job) : Nat := j.cores.length * s.timeInWindow j
def State.weights (s : State) : Nat := (s.jobs.map s.weight).sum + (s.gone.map (fun g => g.1 * g.2)).sum

/-- The idle energy that falls on a weight in the present window. The free value is E_window / Σ(n × t), so that E_window × (n × t) / Σ(n × t) is known
when a job ends inside the window, whatever runs after it (R342). (DESIGN CHOICE, log entry 9) -/
def State.idleFor (s : State) (w : Nat) : Nat := Config.idleRate s.windowsEnded * w / 2 ^ 64

/-- A job's share of the idle energy of the present window: in the window in which it ends, what its completion record holds (R342).
(DESIGN CHOICE, log entry 9) -/
def State.idleShare (s : State) (j : Job) : Nat := s.idleFor (s.weight j)

/-- ENERGY_WINDOW_END (R342): each job that ran in the window and is still there is charged its share; that of a job that ended is in its record; the
idle energy of a window in which no job ran is charged to none. (DESIGN CHOICE, log entry 9) -/
def execEnergyWindowEnd (s : State) : Out State :=
  let e := Config.idleEnergy s.windowsEnded
  .next { s with
    jobs := s.jobs.map (fun j => { j with energy := j.energy + s.idleShare j, worked := 0 })
    gone := []
    idle := if s.weights = 0 then s.idle + e else s.idle
    windowsEnded := s.windowsEnded + 1
    windowAt := s.rtime.toNat }

/-- The other member of a SHARED pair (R343, R344). (DESIGN CHOICE, log entry 45) -/
def State.partner (s : State) (c : Nat) : Option Nat :=
  let w := tget s.remap c 0
  if bit w 24 && bit w 12 then some (fld w 13 11) else none

/-- Whether a core's SYNC arrival stands: it has nothing to run until its compute release. -/
def Core.atSync (k : Core) : Bool := match k.sync with | .arrived _ _ => true | _ => false

/-- Whether it is a level-l one. -/
def Core.atLevel (k : Core) (l : Nat) : Bool := k.atSync && k.sync.level == some l

/-- Whether a core that stands at its SYNC has something to run even so: a Herder with a running field, or the Retriever (R54, R235). -/
def Core.works (k : Core) : Bool :=
  k.fields.any (fun p => p.2.run) || (k.slot 11).mode != .free ||
  ((k.slot 12).mode == .live && (match (k.slot 12).park with
    | none => true
    | some w => if w.kind = .mrecv then decide (k.heap < k.hcap) && !k.staging.isEmpty else w.kind == .loopb && k.inbox.length < Config.inboxDepth))

/-- The inactive member that the physical core of c turns to: c's quantum is over, or c has arrived at a SYNC or has issued an instruction of a gang
that the other has still to issue, and the other member has something to run (R50, R344). (DESIGN CHOICE, log entry 45) -/
def State.sliceDue (s : State) (c : Nat) : Option Nat :=
  let k := s.core c
  (s.partner c).filter (fun d =>
    let o := s.core d
    !k.slice && o.slice && o.phase == .running && (!o.atSync || o.works) &&
      (decide (20000 ≤ (k.cycle - k.sliceAt).toNat) || (k.atSync && (!o.atSync || !k.works)) ||
        (k.gangDone.isSome && o.gangDone.isNone && (s.gangOf c).contains d)))

/-- Core c's member leaves the physical core, without its TLBs and what its walks have found, and core d's takes it (R344, R376). (DESIGN CHOICE, log entry 45) -/
def State.switchTo (s : State) (c d : Nat) : State :=
  (s.onCore c (fun k => { k.mapWalks (fun w => { w with xlat := [] }) with slice := true, tlb := [], mtlb := [], ctlb := [] })).onCore d (fun k => { k with slice := false, sliceAt := k.cycle })

end Sys2Proof.Machine
end

