-- ==== Sys2Proof/Machine/Exchange.lean ====
section
/-! DEFINITION. Compiled exchange: posts, exchange phases, flits, deliveries and compute releases (R55, R223 to R228, R340, R347, R407, R408, R410). -/

namespace Sys2Proof.Machine

open Sys2Proof

/-! ## Posts -/

/-- The pair with this core as sender in a slot of a level (R224). -/
def Core.pair (k : Core) (lvl slot : Nat) : Option XPair := k.xslot.find? (fun p => p.tag == lvl && p.slot == slot)

/-- A refused post sets the level's overrun flag and counts, slot by slot (R407, R408). (DEDUCED, log entry 68) -/
def State.overrunAt (s : State) (lvl slot : Nat) : State :=
  s.onMine (fun k =>
    let here (o : Overrun) : Bool := o.lvl == lvl && o.by_ == s.cur.slot && !o.carried
    { k with overrun :=
      if k.overrun.any here then k.overrun.map (fun o => if here o then { o with count := o.count + 1 } else o)
      else k.overrun ++ [{ lvl := lvl, carried := false, fslot := slot, count := 1, by_ := s.cur.slot, fpc := s.cur.pc, page := s.cur.page, op := s.cur.op }] })

/-- A post replaces an earlier one to the same slot and level (R225). -/
def State.post (s : State) (p : Post) : State :=
  s.onMine (fun k => { k with posts := k.posts.filter (fun q => !(q.lvl == p.lvl && q.slot == p.slot)) ++ [p] })

/-- XPUT (R225, R407). -/
def execXput (v : VReg) (b c : Reg) (lvl : BitVec 2) (s : State) : Out State :=
  issue { rs := [b, c] } (fun s =>
    let x := s.me
    let l := lvl.toNat + 1
    let n := fld (x.rd b) 0 16
    if !aligned (x.rd c) 64 then .misaligned (x.rd c) 6
    else if (s.mine.pair l n).isNone then .done (s.overrunAt l n)
    else if s.mine.vecBusy s.cur.slot v then .wait (.vecDone v)
    else .done (s.post { lvl := l, slot := n, port := none, off := x.rd c, data := x.vrd v, by_ := s.cur.slot, fpc := s.cur.pc, page := s.cur.page, op := s.cur.op, dom := x.dom, asid := x.asid })) s

/-- XPUTR (R226). -/
def execXputr (a b : Reg) (idx : BitVec 5) (lvl : BitVec 2) (s : State) : Out State :=
  issue { rs := [a, b] } (fun s =>
    let x := s.me
    let l := lvl.toNat + 1
    let n := fld (x.rd b) 0 16
    if (s.mine.pair l n).isNone then .done (s.overrunAt l n)
    else .done (s.post { lvl := l, slot := n, port := some idx.toNat, off := 0, data := (x.rd a).setWidth 512, by_ := s.cur.slot, fpc := s.cur.pc, page := s.cur.page, op := s.cur.op, dom := x.dom, asid := x.asid })) s

/-- XCNT (R228, R408). -/
def execXcnt (d : Reg) (lvl : BitVec 2) (s : State) : Out State :=
  issue { ws := [d], late := false } (fun s => .done (s.onMe (fun x => x.wr d (tget s.mine.xcnt (lvl.toNat + 1) 0)))) s

/-! ## Phases -/

/-- A flit put in slot order, after those of its slot. -/
def insertFlit (f : Flit) : List Flit → List Flit
  | [] => [f]
  | g :: r => if f.slot < g.slot then f :: g :: r else g :: insertFlit f r

/-- Flits in slot order. -/
def sortFlits (l : List Flit) : List Flit := l.foldl (fun r f => insertFlit f r) []

/-- The flits that the members of a level's domain have posted. -/
def State.levelFlits (s : State) (lvl : Nat) (mem : List Nat) : List Flit :=
  sortFlits (mem.flatMap (fun c =>
    let k := s.core c
    k.posts.filterMap (fun p =>
      if p.lvl = lvl then (k.pair lvl p.slot).map (fun q =>
        { slot := p.slot, src := c, dst := q.recv, port := p.port, off := p.off, data := p.data, bytes := 64, by_ := p.by_, fpc := p.fpc, page := p.page, op := p.op, dom := p.dom, asid := p.asid })
      else none)))

/-- Whether an exchange of a job is in progress: not yet released (R285). -/
def State.jobExchanging (s : State) (job : Nat) : Bool := s.exchanges.any (fun e => e.job == job && e.c.isNone)

/-- The slots of a job's schedule with a tag; none is 0 (R325). -/
def State.schedSlots (s : State) (job tag : Nat) : Nat :=
  match s.job? job with
  | some j => match j.scheds.find? (fun x => x.tag == tag) with | some x => x.slots | none => 0
  | none => 0

/-- Router cycles of a slot: 2 in a job with a SHARED pair (R344). -/
def State.slotCycles (s : State) (job : Nat) : Nat :=
  match s.job? job with
  | some j => if j.cores.any (fun c => (s.partner c).isSome) then 2 else 1
  | none => 1

/-- An exchange begins now over members, with flits to inject (R55). -/
def State.openExchange (s : State) (job tag ch : Nat) (mem : List Nat) (slots : Nat) (flits : List Flit) (cancelled : Bool) : State :=
  { s with
    nextId := s.nextId + 1
    exchanges := s.exchanges ++ [{ xid := s.nextId, job := job, tag := tag, ch := ch, members := mem, e := s.rtime.toNat, slots := slots, hops := maxHops mem, todo := flits, air := [], cancelled := cancelled, released := [], c := none, late := [] }] }

/-- The exchange phase of a level at its barrier release: the XAREA in force is taken, posts are used up, and an overrun flag cancels everything (R54, R223, R225, R407, R408). (DESIGN CHOICE, log entry 80) -/
def State.beginLevel (s : State) (lvl ch : Nat) (mem : List Nat) (cancelled : Bool) : State :=
  let job := s.jobOf (mem.headD 0)
  let flits := if cancelled then [] else s.levelFlits lvl mem
  let slots := if cancelled then 0 else s.schedSlots job lvl
  let s := mem.foldl (fun s d => s.onCore d (fun k =>
    { k with xareaNow := k.xarea, posts := k.posts.filter (fun p => p.lvl != lvl), xcnt := tset k.xcnt lvl (if cancelled then 0x8000000000000000 else 0) })) s
  s.openExchange job lvl ch mem slots flits cancelled

/-- A change of an exchange. -/
def State.onExch (s : State) (xid : Nat) (f : Exch → Exch) : State := { s with exchanges := s.exchanges.map (fun e => if e.xid = xid then f e else e) }

/-- The exchange of an id. -/
def State.exch? (s : State) (xid : Nat) : Option Exch := s.exchanges.find? (fun e => e.xid == xid)

/-- Router time not before t. -/
def State.notBefore (s : State) (t : Nat) : State := { s with rtime := BitVec.ofNat 64 (max s.rtime.toNat t) }

/-- Router cycle of a flit's slot (R55). (DESIGN CHOICE, log entry 27) -/
def State.flitTime (s : State) (e : Exch) (f : Flit) : Nat := e.e + s.slotCycles e.job * f.slot

/-- EXCHANGE_FLIT_INJECT: the flit of the lowest slot still to come, once its slot's cycle has come (R55, R225). -/
def execExchangeFlitInject (xid : Nat) (s : State) : Out State :=
  .next (match s.exch? xid with
    | some e =>
      match e.todo with
      | f :: r => if s.rtime.toNat < s.flitTime e f then s else s.onExch xid (fun e => { e with todo := r, air := e.air ++ [f] })
      | [] => s
    | none => s)

/-- Whether 64 bytes at an offset lie wholly in an XAREA word's area (R223). -/
def inXarea (w : Word) (off : Word) : Bool :=
  let base := fld w 0 19
  decide (base ≤ off.toNat ∧ off.toNat + 64 ≤ base + fld w 32 20)

/-- The WINDOW reason for which a level flit's 64 bytes are not delivered: gate frames or another domain's range, or outside the area in force (R260, R397, R410). -/
def State.deliveryFault (s : State) (f : Flit) : Option Nat :=
  if s.foreign f.dst f.dom f.off.toNat 64 then some 3
  else if inXarea (s.core f.dst).xareaNow f.off && !s.fieldGuard f.dst f.off.toNat 64 then none else some 2

/-- A level flit delivered: into core memory, into a port register, or dropped, with WINDOW at its sender from the compute release on (R227, R410). -/
def State.deliverLevel (s : State) (e : Exch) (f : Flit) : State :=
  let count (s : State) : State := s.onCore f.dst (fun k => { k with xcnt := tset k.xcnt e.tag (tget k.xcnt e.tag 0 + 1) })
  match f.port with
  | some i => count (s.onCore f.dst (fun k => { k with ports := tset k.ports i { present := true, val := f.data.setWidth 64 } }))
  | none =>
    match s.deliveryFault f with
    | none => count (s.writeAt (.plain (coreKey f.dst f.off.toNat)) (vecBytes f.data))
    | some r =>
      let tr : Trap := { code := 0x07, defer := true, page := f.page, op := f.op, addr := windowAddr f.dst f.off.toNat, info := memInfo r 1 3 f.asid 0 false, fpc := f.fpc, map := none }
      s.onExch e.xid (fun x => { x with late := x.late ++ [(f.src, f.by_, tr)] })

/-- A halo flit of the field on channel ch delivered into the halo area of its receiver (R284); a running field accepts its own only, and one that would
land in another's ranges is dropped (R397). (DESIGN CHOICE, log entry 74) -/
def State.deliverHalo (s : State) (ch : Nat) (f : Flit) : State :=
  if s.haloGuard f.dst ch f.off.toNat f.bytes then s
  else s.writeAt (.plain (coreKey f.dst f.off.toNat)) (bytesOf f.bytes f.data.toNat)

/-- EXCHANGE_DELIVERY: flit idx of those in flight, in slot order at its receiver (R227). -/
def execExchangeDelivery (xid idx : Nat) (s : State) : Out State :=
  .next (match s.exch? xid with
    | some e =>
      match e.air[idx]? with
      | some f =>
        if (e.air.take idx).any (fun g => g.dst == f.dst) || s.seamHolds 2 f.src f.dst || decide (s.rtime.toNat < s.flitTime e f + 2 + hops f.src f.dst + 2) then s
        else
          let s := s.onExch xid (fun e => { e with air := e.air.eraseIdx idx })
          if e.tag < 8 then s.deliverLevel e f else s.deliverHalo e.ch f
      | none => s
    | none => s)

/-- The level-1 imbalance record of the superstep just ended (R347). -/
def State.imbalance (s : State) (c ch : Nat) : State :=
  let k := s.core c
  let r := (k.chan ch).last
  let w0 := BitVec.ofNat 64 (fld k.sstep 0 32 + r.last % 2048 * 2 ^ 32 + ofBool r.wrap * 2 ^ 43)
  { s with trace := s.trace ++ [{ job := s.jobOf c, words := [w0, BitVec.ofNat 64 (r.min % 2 ^ 32 + r.max % 2 ^ 32 * 2 ^ 32), BitVec.ofNat 64 r.sum, BitVec.ofNat 64 r.rlast] }] }

/-- Whether a level-1 release is withheld: a safe point at which the job is pre-empted, stops for a breakpoint, or stops with its exchange cancelled (R60, R348, R408). -/
def State.withheld (s : State) (e : Exch) : Bool :=
  e.tag == 1 && (e.cancelled || e.members.any (fun c => (s.core c).bkptHit) || (match s.job? e.job with | some j => j.preempt && !j.draining | none => false))

/-- Router cycle of a compute release without holding (R55). (DESIGN CHOICE, log entry 27) -/
def State.releaseTime (s : State) (e : Exch) : Nat :=
  if e.slots = 0 then e.e else e.e + s.slotCycles e.job * (e.slots - 1) + 4 + e.hops

/-- COMPUTE_RELEASE: every delivery is in place; the release may be held for current (R55, R340, R347). (DESIGN CHOICE, log entry 27) -/
def execComputeRelease (xid hold : Nat) (s : State) : Out State :=
  .next (match s.exch? xid with
    | some e =>
      if e.todo.isEmpty && e.air.isEmpty && e.c.isNone && !s.withheld e && decide (s.releaseTime e + hold ≤ s.rtime.toNat) then
        let c := s.rtime.toNat
        let s := s.onExch xid (fun e => { e with c := some c, released := e.members })
        let s := s.onJob e.job (fun j => if j.tstart = 0 then { j with tstart := c } else j)
        if e.tag = 1 then s.imbalance (e.members.headD 0) e.ch else s
      else s
    | none => s)

/-- Router cycle at which a release reaches core c: staggered by column (R340). (DESIGN CHOICE, log entry 27) -/
def State.staggered (s : State) (e : Exch) (c at_ : Nat) : Nat :=
  at_ + (Config.jobStagger e.job).toNat * (coreX c - fld (s.core c).jobgrid 0 6)

/-- A core leaves a released exchange; the exchange is over when every core has. -/
def State.leaveExchange (s : State) (xid c : Nat) : State :=
  { s with exchanges := (s.exchanges.map (fun e => if e.xid = xid then { e with released := e.released.filter (· != c) } else e)).filter (fun e => e.c.isNone || !e.released.isEmpty) }

/-- SLOT as a completion trap of an overrun (R408). -/
def Overrun.trap (o : Overrun) (info : Word) : Trap :=
  { code := 0x0F, defer := true, page := o.page, op := o.op, addr := 0, info := info, fpc := o.fpc, map := none }

/-- The overruns that a cancelled phase of a level ends at core c (R407). -/
def Core.cancelledBy (k : Core) (lvl : Nat) : List Overrun := k.overrun.filter (fun o => o.lvl == lvl && o.carried)
/-- Its flags cleared; an overrun made since the arrival stands (R407). -/
def Core.clearOverruns (k : Core) (lvl : Nat) : Core := { k with overrun := k.overrun.filter (fun o => !(o.lvl == lvl && o.carried)) }

/-- The threads of a core resume after a level's compute release; each slot whose overrun cancelled the phase takes SLOT (R54, R339, R408). (DEDUCED, log entry 41) -/
def State.resumeCore (s : State) (c lvl : Nat) : State :=
  let next := (s.core c).sync.next
  let pc := (s.slot c 0).pc
  let s := s.onCore c (fun k => { k with sync := .none, sstep := if lvl = 1 then k.sstep + 1 else k.sstep })
  let s := s.onSlot c 0 (fun x => match x.park with
    | some w => if w.kind = .sync lvl then { x.unpark s.rtime.toNat with pc := next, syncStands := none, icount := x.icount + 1 } else x
    | none => x)
  let s := if (s.core c).gangDone.isSome then s.onSlot c 0 (fun x => { (if x.park.isSome then x else x.parkAt s.rtime.toNat .partner) with pc := pc }) else s
  let s := ((s.core c).cancelledBy lvl).foldl (fun s o => s.queueTrap c o.by_ (o.trap (overrunInfo o.by_ lvl o))) s
  let s := s.onCore c (fun k => k.clearOverruns lvl)
  if lvl = 1 then s.leaseTick c else s

end Sys2Proof.Machine
end

