-- ==== Sys2Proof/Machine/Field.lean ====
section
/-! DEFINITION. Fields and the Herder: definition, commands, sweeps, site routines, halo exchange, couplings and snapshots (R129, R272 to R297, R396 to R399). -/

namespace Sys2Proof.Machine

open Sys2Proof

/-! ## The descriptor's conditions (R272, R273, R276) -/

/-- Reserved bits of the descriptor. -/
def descReserved (d : List Word) : Bool :=
  let w (i lo n : Nat) := fld (descW d i) lo n == 0
  w 0 60 4 && w 1 6 2 && w 1 13 3 && w 1 23 1 && w 1 30 2 && w 1 37 3 && w 1 43 21 && w 2 19 13 && w 2 51 13 &&
  w 7 19 13 && w 7 45 3 && w 7 49 15 && w 9 16 48 && w 14 0 64 && w 15 0 64

/-- Ranges of a core that a field must keep out of: the spill area, the exchange area, open windows (R273). -/
def Core.taken (k : Core) : List (Nat × Nat) :=
  (fld k.spillbase 0 19, 26 * 1024) :: (fld k.xarea 0 19, fld k.xarea 32 20) ::
  (k.windows.filter (fun w => w.2.isOpen)).map (fun w => (w.2.base, w.2.len))

/-- Fields of the rectangle and the lattice (R272, R273); an odd ENTRY is none. (DESIGN CHOICE, log entry 96) -/
def descShape (d : List Word) : Bool :=
  decide (1 ≤ fNX d ∧ 1 ≤ fNY d ∧ 1 ≤ fNZ d ∧ fNBH d ≠ 3 ∧ fCOLR d ≠ 3 ∧ 1 ≤ fPX d ∧ fPX d ≤ 64 ∧ 1 ≤ fPY d ∧ fPY d ≤ 32 ∧
    fNX d % fPX d = 0 ∧ fNY d % fPY d = 0 ∧ (fNBH d = 1 ∨ fNZ d = 1) ∧ fAll d < 2 ^ 32 ∧
    fPATCH d % 64 = 0 ∧ fHALO d % 64 = 0 ∧ fCBUF d % 8 = 0 ∧ fRECSZ d % 8 = 0 ∧ 8 ≤ fRECSZ d ∧ fRECSZ d ≤ 4096 ∧
    fRING d % 64 = 0 ∧ fENTRY d % 2 = 0)

/-- Every colour is below the number of colours (R276); colours repeat every four sites. (DESIGN CHOICE, log entry 109) -/
def descColours (d : List Word) : Bool :=
  (List.range (min (fNX d) 4)).all (fun x => (List.range (min (fNY d) 4)).all (fun y => (List.range (min (fNZ d) 4)).all (fun z =>
    decide (fColour d (x, y, z) < fColours d))))

/-- Ranges of the field itself: inside core memory, apart from each other and from what is taken. -/
def descRanges (k : Core) (d : List Word) : Bool :=
  let r := fRanges d
  let hit (a b : Nat × Nat) := meets a.1 a.2 b.1 b.2
  r.all (fun a => decide (a.1 + a.2 ≤ Config.coreBytes)) &&
  !hit (r.getD 0 (0, 0)) (r.getD 1 (0, 0)) && !hit (r.getD 0 (0, 0)) (r.getD 2 (0, 0)) && !hit (r.getD 1 (0, 0)) (r.getD 2 (0, 0)) &&
  !r.any (fun a => k.taken.any (hit a))

/-- Pairs of the field's halo schedule; none when the job has no such schedule, or when no strip of the field has a pair (R273, R284). -/
def State.halo (s : State) (c : Nat) (d : List Word) : Option Sched :=
  if fPX d = 1 ∧ fPY d = 1 then none
  else match s.job? (s.jobOf c) with
  | some j => j.scheds.find? (fun x => x.tag == 8 + fHSCHED d)
  | none => none

/-- Conditions on cores, channel and schedule (R273). -/
def State.descPlace (s : State) (c : Nat) (d : List Word) : Bool :=
  let k := s.core c
  let cores := fCores d
  let ch := fCHAN d
  let rect : Word := descW d 1
  decide (fCX0 d ≤ coreX c ∧ coreX c < fCX0 d + fPX d ∧ fCY0 d ≤ coreY c ∧ coreY c < fCY0 d + fPY d) && rectInside0 rect k.jobgrid &&
  k.segMode ch == 0 && (k.chanLevel ch).isNone && !k.fieldChan ch &&
  (gridCores k.jobgrid).all (fun e => (s.core e).member ch == cores.contains e) &&
  (decide (fPX d = 1 ∧ fPY d = 1) || (match s.halo c d with | some h => h.pairs.all (fun p => cores.contains p.2.1 && cores.contains p.2.2) | none => false))
where
  rectInside0 (r g : Word) : Bool :=
    decide (fld g 0 6 ≤ fld r 0 6 ∧ fld r 0 6 + fld r 16 7 ≤ fld g 0 6 + fld g 16 7 ∧ fld g 8 5 ≤ fld r 8 5 ∧ fld r 8 5 + fld r 24 6 ≤ fld g 8 5 + fld g 24 6)

/-- The lower index of the first pair of neighbours that share a colour; colours repeat, so the first eight sites each way show it (R276). -/
def clash (d : List Word) : Option Nat :=
  (List.range (min (fNZ d) 8)).findSome? (fun z => (List.range (min (fNY d) 8)).findSome? (fun y => (List.range (min (fNX d) 8)).findSome? (fun x =>
    let p := (x, y, z)
    if (fNeighbours d p).any (fun q => match q with
        | some q => decide (fGlobal d p < fGlobal d q) && fColour d p == fColour d q
        | none => false)
    then some (fGlobal d p) else none)))

/-! ## Couplings (R293, R295, R296) -/

/-- The bound object with a base at a memory key. -/
def State.objWithBase (s : State) (key : Nat) : Option Obj := s.objs.find? (fun o => o.base == key)

/-- The memory key that an agent finds behind a coupling address. -/
def State.ctKey (s : State) (g : Agent) (a : Word) : EngRes Nat :=
  match g.walk.refusal a false, g.place a with
  | some r, _ => .deny s a 6 ⟨0x09, r, ofBool (r != 0), 0⟩
  | none, some p => .ok p.key
  | none, none => match spaceOf a with
    | .virt _ => .miss a false
    | _ => .deny s a 6 ⟨0x07, 6, 5, 0⟩

/-- Entry j of states 0 to 4 of a coupling class (R293). -/
def coupleEntry (j : Nat) : Nat :=
  match j with
  | 0 => 0x0800 | 1 => 0x0841 | 16 => 0x0831 | 18 => 0x0C82 | 32 => 0x0812 | 35 => 0x0C43 | 48 => 0x0813 | 52 => 0x0C84 | 64 => 0x0814 | 65 => 0x0841
  | _ => 0

/-- Whether an object may be a coupling table of a field (R293). -/
def State.ctOk (s : State) (d : List Word) (o : Obj) : Bool :=
  decide ((if fCMODE d then fRECSZ d else fAll d * fRECSZ d) ≤ 2 ^ o.log2) &&
  (List.range 80).all (fun j => s.entry o (j / 16) (j % 16) == coupleEntry j)

/-- The base that breaks R293, or whether CT1 is LIVE; k0 and k1 are the memory keys of the bases. -/
def State.ctCheck (s : State) (d : List Word) (k0 k1 : Nat) : Except Word Bool :=
  match s.objWithBase k0, s.objWithBase k1 with
  | some p, some q =>
    if !s.ctOk d p then .error (fCT d 0)
    else if !s.ctOk d q then .error (fCT d 1)
    else if p.cls ≠ q.cls ∨ p.binder ≠ q.binder ∨ (p.state = 3 ↔ q.state = 3) then .error (fCT d 0)
    else .ok (q.state == 3)
  | none, _ => .error (fCT d 0)
  | some p, none => .error (if s.ctOk d p then fCT d 1 else fCT d 0)

/-- Records read one by one, then all written into the coupling buffer (R296). -/
def State.copyRecords (s : State) (c : Nat) (g : Agent) (base : Word) (size buf : Nat) : List (Nat × Nat) → EngRes State
  | [] => .ok s
  | (i, l) :: r => (s.readUnits g .plain 6 (unitsOf (base + BitVec.ofNat 64 (i * size)) size)).bind (fun b =>
      (s.copyRecords c g base size buf r).bind (fun t => .ok (t.writeAt (.plain (coreKey c (buf + l * size))) b)))

/-- The LIVE table copied into core c's coupling buffer (R296). -/
def State.coupleCopy (s : State) (c : Nat) (g : Agent) (d : List Word) (live1 : Bool) : EngRes State :=
  let base := fCT d (ofBool live1)
  s.copyRecords c g base (fRECSZ d) (fCBUF d)
    (if fCMODE d then [(0, 0)] else (List.range (fSites d)).map (fun l => (fGlobal d (fCoord d c l), l)))

/-! ## Thread instructions -/

/-- FIELD as an issue trap (R396, R397). -/
def Act.field (reason id : Nat) (addr : Word) (value : Nat) : Act := .trap 0x13 addr (fieldInfo reason id 0 value 0 0)

/-- Whether a group of domain dom may name the descriptor at an offset and the ranges it gives: none lies in the gate frames or in another
domain's range (R260). (DEDUCED, log entry 43) -/
def State.fieldReach (s : State) (c : Nat) (dom : BitVec 6) (off : Nat) (d : List Word) : Bool :=
  !s.foreign c dom off 128 && (fRanges d).all (fun r => !s.foreign c dom r.1 r.2)

/-- A field's halo area cleared; a byte in the ranges of a running field stays (R275, R397). (DESIGN CHOICE, log entry 74) -/
def State.clearHalo (s : State) (c : Nat) (d : List Word) : State :=
  if !s.fieldGuard c (fHALO d) (fHaloBytes d) then s.writeAt (.plain (coreKey c (fHALO d))) (List.replicate (fHaloBytes d) 0)
  else (List.range (fHaloBytes d)).foldl (fun s i => if s.fieldGuard c (fHALO d + i) 1 then s else s.writeAt (.plain (coreKey c (fHALO d + i))) [0]) s

/-- The part of FLDDEF that reads the coupling objects: the field's coupling keys, and the state with halo area cleared and table copied; an
object that breaks R293 is refused at its base (R279, R293, R296). -/
def State.couple (s : State) (c : Nat) (g : Agent) (d : List Word) : EngRes (State × List Nat × Bool) :=
  (s.ctKey g (fCT d 0)).bind (fun k0 => (s.ctKey g (fCT d 1)).bind (fun k1 =>
    match s.ctCheck d k0 k1 with
    | .error e => .deny s e 6 ⟨0, 0, 0, 0⟩
    | .ok live1 =>
      ((s.clearHalo c d).coupleCopy c g d live1).bind (fun t => .ok (t, [k0, k1], live1))))

/-- FLDDEF (R279): the Herder's checks and copy follow the thread's earlier accesses (DEDUCED, log entry 43); a fifth field is reason 4 whatever its
descriptor. (DESIGN CHOICE, log entry 97) (DESIGN CHOICE, log entry 109) -/
def execFlddef (d b : Reg) (s : State) : Out State :=
  let s0 := s
  issue { rs := [b], ws := [d], who := .threads } (fun s =>
    let c := s.cur.core
    let x := s.me
    let a := x.rd b
    if !x.acc.isEmpty || s.startHeld x then .wait .settle
    else match (List.range 4).find? (fun i => !(tkeys s.mine.fields).contains i) with
      | none => .field 4 0 0 0
      | some id =>
        match spaceOf a with
        | .self off =>
          let desc := (List.range 16).map (fun i => s.coreWord c (off + 8 * i))
          if off % 64 ≠ 0 ∨ Config.coreBytes < off + 128 then .field 1 0 a 0
          else if !(s.fieldReach c x.dom off desc && descReserved desc && descShape desc && descColours desc && descRanges s.mine desc && s.descPlace c desc &&
              decide (x.codebase.toNat ≤ (fENTRY desc).toNat ∧ (fENTRY desc).toNat < x.codelim.toNat)) then .field 1 0 a 0
          else match clash desc with
            | some i => .field 2 0 a i
            | none =>
              match s.couple c (s.slotAgent c s.cur.slot) desc with
              | .ok (t, keys, live1) =>
                let f : Field := { desc := desc, slot := s.cur.slot, dom := x.dom, asid := x.asid, key := x.key, codebase := x.codebase, codelim := x.codelim, next := 0, colour := 0, todo := [], e := 0xFFFFFFFF, run := false, stage := .stopped, asked := false, live1 := live1, cts := keys, walk := Walk.none, fault := none, failed := false }
                .done ((t.onMine (fun k => { k with fields := tset k.fields id f })).onMe (fun x => x.wr d (BitVec.ofNat 64 id)))
              | .deny _ va _ _ => .field 3 0 va 0
              | r => s0.blockWait 2 r
        | _ => .field 1 0 a 0) s

/-- The field an id names, if it is defined. -/
def Core.field? (k : Core) (id : Nat) : Option Field := (k.fields.find? (fun p => p.1 == id)).map (·.2)

/-- A field command of an existing field (R277, R278). -/
def fieldCmd (i : Instr) (a : Reg) (rs : List Reg) (s : State) : Out State :=
  issue { rs := a :: rs, who := .threads } (fun s =>
    match s.mine.field? (s.me.rd a).toNat with
    | none => .field 0 ((s.me.rd a).toNat % 4) 0 0
    | some _ => enter 3 i ((a :: rs).map s.me.rd) s) s

/-- FLDRUN (R280). -/
def execFldrun (a b : Reg) (s : State) : Out State := fieldCmd (.fldrun a b) a [b] s
/-- FLDHOLD (R280). -/
def execFldhold (a b : Reg) (s : State) : Out State := fieldCmd (.fldhold a b) a [b] s
/-- FLDDROP (R283). -/
def execFlddrop (a : Reg) (s : State) : Out State := fieldCmd (.flddrop a) a [] s

/-- FLDSNAP (R292): its arguments are the id, the sweep and the destination. (DEDUCED, log entry 43) -/
def execFldsnap (a b : Reg) (c : Option Reg) (s : State) : Out State :=
  issue { rs := [a, b] ++ c.toList, who := .threads } (fun s =>
    let x := s.me
    match s.mine.field? (x.rd a).toNat with
    | none => .field 0 ((x.rd a).toNat % 4) 0 0
    | some f =>
      let k := fld (x.rd b) 0 32
      let len := roundUp (fAll f.desc * fW f.desc) 64
      let dest : Word := match c with | some r => x.rd r | none => fRING f.desc + BitVec.ofNat 64 (k % fNRING f.desc * len)
      if (c.isNone && fNRING f.desc == 0) || !aligned dest 64 then .field 6 (x.rd a).toNat (if c.isSome then dest else fRING f.desc) 0
      else enter 3 (.fldsnap a b c) [x.rd a, BitVec.ofNat 64 k, dest] s) s

/-- Whether CT1 of a field is the object that holds LIVE (R282). -/
def State.liveAt1 (s : State) (f : Field) : Bool := (s.objWithBase (f.cts.getD 1 0)).any (fun o => o.state == 3)

/-- FLDSTAT (R282): 0 for an id that names no field. -/
def execFldstat (d b : Reg) (s : State) : Out State :=
  issue { rs := [b], ws := [d], late := false, who := .threads } (fun s =>
    .done (s.onMe (fun x => x.wr d (match s.mine.field? (x.rd b).toNat with | some f => fieldWord f (s.liveAt1 f) | none => 0)))) s

/-! ## The Herder's state -/

/-- A change of a field of core c. -/
def State.onField (s : State) (c id : Nat) (f : Field → Field) : State :=
  s.onCore c (fun k => { k with fields := k.fields.map (fun p => if p.1 = id then (p.1, f p.2) else p) })

/-- Sites of a colour in a core's patch, by ascending index (R284). -/
def sitesOf (d : List Word) (c colour : Nat) : List Nat :=
  (List.range (fSites d)).filter (fun l => fColour d (fCoord d c l) == colour)

/-- The slot that takes a field's trap: the defining one if Live, otherwise slot 0 (R396). -/
def State.fieldSlot (s : State) (c : Nat) (f : Field) : Nat := if (s.slot c f.slot).mode = .live then f.slot else 0

/-- FIELD as a completion trap of the Herder (R397). (DEDUCED, log entry 22) -/
def State.fieldTrap (s : State) (c : Nat) (f : Field) (addr info : Word) : State :=
  let t := s.fieldSlot c f
  s.queueTrap c t (s.standTrap c t 0x13 addr info)

/-- The field stands stopped with next sweep n; a trap that waited for this goes to its slot (R281, R398, R399). -/
def State.stopField (s : State) (c id n : Nat) : State :=
  match (s.core c).field? id with
  | none => s
  | some f =>
    let s := s.onField c id (fun f => { f with run := false, stage := .stopped, next := n, colour := 0, todo := [], failed := false, fault := none })
    match f.fault with
    | some tr => s.queueTrap c (s.fieldSlot c f) tr
    | none => s

/-- Whether a snapshot of the end of sweep k may be taken now: the field stands between sweep k and the next (R292). -/
def Field.atEnd (f : Field) (k : Nat) : Bool :=
  if f.run then f.stage == .sweep && !f.asked && f.next == k + 1 else f.next == k + 1 || k == 0xFFFFFFFF

/-- Whether a snapshot waits to be taken before the field goes on (R292). -/
def Core.snapping (k : Core) (id : Nat) (f : Field) : Bool :=
  (tget k.exec 3 []).any (fun m => match m.instr with
    | .fldsnap _ _ _ => (m.args.getD 0 0).toNat == id && f.atEnd (m.args.getD 1 0).toNat
    | _ => false)

/-! ## Field commands in the Herder (R277, R280, R283, R292) -/

/-- Whether the command at the head of the Herder's queue may start: FLDDROP waits there until its field is stopped. -/
def State.fieldStartable (s : State) (c : Nat) (m : Cmd) : Bool :=
  match m.instr with
  | .flddrop _ => (match (s.core c).field? (m.args.getD 0 0).toNat with | some f => !f.run | none => true)
  | _ => true

/-- What starting a field command does: FLDHOLD sets E; a FLDSNAP of a sweep already past is abandoned. -/
def State.fieldStart (s : State) (c : Nat) (m : Cmd) : State :=
  let id := (m.args.getD 0 0).toNat
  let k := fld (m.args.getD 1 0) 0 32
  match (s.core c).field? id, m.instr with
  | some _, .fldhold _ _ => s.onField c id (fun f => { f with e := k })
  | some f, .fldsnap _ _ _ =>
    if f.atEnd k || decide (f.next ≤ k) then s
    else (s.finishCmd c 3 m).queueTrap c (s.fieldSlot c f) { code := 0x13, defer := true, page := m.page, op := m.op, addr := 0, info := fieldInfo 5 id 0 k 0 0, fpc := m.fpc, map := none }
  | _, _ => s

/-- What completes a field command; FLDSNAP completes in SNAPSHOT_COPY. A command whose field has been dropped before it has no effect. (DESIGN CHOICE, log entry 98) (DESIGN CHOICE, log entry 110) -/
def State.fieldEffect (s : State) (c : Nat) (m : Cmd) : EngRes State :=
  let id := (m.args.getD 0 0).toNat
  match (s.core c).field? id with
  | none => .ok s
  | some f =>
    match m.instr with
    | .fldrun _ _ =>
      let e := fld (m.args.getD 1 0) 0 32
      .ok (s.onField c id (fun f =>
        if f.run then { f with e := e }
        else if e < f.next ∨ 0xFFFFFFFE < f.next then { f with e := e }
        else { f with e := e, run := true, stage := .sweep, asked := false, failed := false }))
    | .fldhold _ _ => if f.run then .wait else .ok s
    | .flddrop _ =>
      let s := s.onCore c (fun k => { k with fields := tdel k.fields id })
      .ok { s with objs := s.objs.map (fun o => if !f.cts.contains o.base || s.couples o then o else { o with m := none, adopted := none }) }
    | .fldsnap _ _ _ => .wait
    | _ => .ok s

/-- Site writes of a snapshot, site by site (R292, R309). -/
def State.snapUnits (s : State) (c : Nat) (d : List Word) (dest : Word) : List (Word × List Byte) :=
  (List.range (fSites d)).flatMap (fun l =>
    cutBytes (dest + BitVec.ofNat 64 (fGlobal d (fCoord d c l) * fW d)) (Memory.readBytes s.mem (coreKey c (fPATCH d + l * fW d)) (fW d)))

/-- What an executing FLDSNAP writes now: nothing before its field stands at the end of its sweep (R292). (DESIGN CHOICE, log entry 98) -/
def State.snapWrites (s : State) (c : Nat) (m : Cmd) : Option (List (Word × List Byte)) :=
  match (s.core c).field? (m.args.getD 0 0).toNat with
  | some f => if f.atEnd (m.args.getD 1 0).toNat then some (s.snapUnits c f.desc (m.args.getD 2 0)) else none
  | none => some []

/-- The ECC refusal of an executing FLDSNAP, at the first poisoned block of its patch, once it may read the patch (R292, R363, R383). -/
def State.snapFault (s : State) (c : Nat) (m : Cmd) : Option (Word × Deny) :=
  match (s.core c).field? (m.args.getD 0 0).toNat with
  | some f =>
    if f.atEnd (m.args.getD 1 0).toNat then
      (unitsOf (selfAddr (fPATCH f.desc)) (fSites f.desc * fW f.desc)).findSome? (fun u =>
        (s.poisoned (coreKey c (u.1.toNat - (selfAddr 0).toNat)) u.2).map (fun r => (u.1, ⟨0x14, r, 4, 0⟩)))
    else none
  | none => none

/-- What an executing FLDSNAP comes to if it completes now. -/
def State.snapEffect (s : State) (c : Nat) (m : Cmd) : EngRes State :=
  match s.snapFault c m, s.snapWrites c m with
  | some (va, d), _ => .deny s va 4 d
  | none, some l => s.engWrites (s.cmdAgent c 3 m) 0 (l.map .run)
  | none, none => .wait

/-- SNAPSHOT_COPY: the executing FLDSNAP of core c, once its field stands at the end of its sweep (R292). -/
def execSnapshotCopy (c : Nat) (s : State) : Out State :=
  .next (match (tget (s.core c).exec 3 []).find? (fun m => match m.instr with | .fldsnap _ _ _ => true | _ => false) with
    | some m => s.settle c 3 m (s.snapEffect c m)
    | none => s)

/-! ## The sweep (R284, R287, R288, R290, R295) -/

/-- Whether core c's Herder goes on: its job runs, its clock is on, and no safe point is awaited, which finds it between routines (R60, R344, R357, R364). -/
def State.herds (s : State) (c : Nat) : Bool :=
  s.runs c && s.clockOn c && !s.exchanges.any (fun e => (s.core c).job == some e.job && s.withheld e)

/-- COUPLING_ADOPTION_REQUEST (R295): M rises to k; a SEALED object with TAG = k is adopted and the other retired, as one step. -/
def execCouplingAdoptionRequest (c id : Nat) (s : State) : Out State :=
  .next (match (s.core c).field? id with
    | some f =>
      if f.stage = .sweep ∧ f.asked = false ∧ (s.core c).snapping id f = false ∧ s.herds c = true then
        let k := f.next
        let s := s.onField c id (fun f => { f with asked := true })
        match s.objWithBase (f.cts.getD (ofBool (!f.live1)) 0), s.objWithBase (f.cts.getD (ofBool f.live1) 0) with
        | some o, some l =>
          let newer := match o.m with | some m => decide (m < k) | none => true
          let adopt := newer && o.state == 2 && fld o.tag 0 32 == k
          let m := some (match o.m with | some m => max m k | none => k)
          let s := (s.onObj o.id (fun o => { o with m := m })).onObj l.id (fun o => { o with m := m })
          if adopt then
            let s := (s.onObj o.id (fun o => { o with state := 3, adopted := some k })).onObj l.id (fun o => { o with state := 4 })
            (s.recheckObj o.id).recheckObj l.id
          else s
        | _, _ => s
      else s
    | none => s)

/-- Whether an adoption at sweep k has been performed on the object that the Herder holds not LIVE. -/
def State.adoptedAt (s : State) (f : Field) : Bool :=
  (s.objWithBase (f.cts.getD (ofBool (!f.live1)) 0)).any (fun o => o.adopted == some f.next)

/-- HERDER_SWEEP_START: couplings adopted at k are copied, and the first half-step begins; a refused copy is FIELD reason 12 (R284, R296, R397). (DEDUCED, log entry 43) -/
def execHerderSweepStart (c id : Nat) (s : State) : Out State :=
  .next (match (s.core c).field? id with
    | some f =>
      if f.stage = .sweep ∧ f.asked = true ∧ s.herds c = true then
        let begin (s : State) (live1 : Bool) : State := s.onField c id (fun f => { f with live1 := live1, walk := Walk.none, colour := 0, todo := sitesOf f.desc c 0, stage := .sites })
        let failedAt (va : Word) (code reason : Nat) : State :=
          let tr := s.standTrap c (s.fieldSlot c f) 0x13 va (fieldInfo 12 id code f.next reason 6)
          s.onField c id (fun f => { f with live1 := !f.live1, walk := Walk.none, colour := 0, todo := [], stage := .sites, failed := true, fault := some tr })
        if s.adoptedAt f then
          match s.coupleCopy c (s.fieldAgent c id f) f.desc (!f.live1) with
          | .ok t => begin t (!f.live1)
          | .wait | .port _ => s
          | .park o q => s.parkUnit o q
          | .miss va w => s.onField c id (fun f => { f with walk := f.walk.askFor va w 2 })
          | .deny _ va _ d => failedAt va d.code d.reason
        else begin s f.live1
      else s
    | none => s)

/-- A site value as a routine sees it (R287). -/
def State.siteVal (s : State) (c : Nat) (d : List Word) (p : Nat × Nat × Nat) : Word :=
  let v := Memory.readN s.mem (coreKey c (fSiteOff d c p)) (fW d)
  if fSTYPE d = 0 then BitVec.ofInt 64 (signed 8 v) else BitVec.ofNat 64 v

/-- The draw of R290. -/
def fieldDraw (d : List Word) (k i : Nat) : Word :=
  let lo : BitVec 32 := (fSEED d).setWidth 32
  let hi : BitVec 32 := ((fSEED d) >>> 32).setWidth 32
  let w := lowbias32 (lo ^^^ BitVec.ofNat 32 k)
  ((lowbias32 (w ^^^ BitVec.ofNat 32 i ^^^ hi)) >>> 8).setWidth 64

/-- Registers of a site routine at entry (R287, R288). -/
def State.routineRegs (s : State) (c : Nat) (f : Field) (l : Nat) (x : Slot) : Slot :=
  let d := f.desc
  let p := fCoord d c l
  let i := fGlobal d p
  let nb := fNeighbours d p
  let x := ((x.wr 1 (BitVec.ofNat 64 i)).wr 2 (s.siteVal c d p))
  let x := (List.range nb.length).foldl (fun x j => match nb.getD j none with
    | some q => x.wr (BitVec.ofNat 5 (3 + j)) (s.siteVal c d q)
    | none => x) x
  let x := x.wr 11 (BitVec.ofNat 64 (nb.filter (·.isSome)).length)
  let x := x.wr 12 (fieldDraw d f.next i)
  let x := x.wr 13 (selfAddr (fCBUF d + (if fCMODE d then 0 else l * fRECSZ d)))
  (x.wr 14 (BitVec.ofNat 64 f.next)).wr 15 (BitVec.ofNat 64 f.colour)

/-- SITE_ROUTINE_START: slot 11 Live at ENTRY for the next site of the half-step (R287). -/
def execSiteRoutineStart (c id : Nat) (s : State) : Out State :=
  .next (match (s.core c).field? id with
    | some f =>
      match f.todo with
      | l :: r =>
        if f.stage = .sites ∧ f.failed = false ∧ (s.slot c 11).mode = .free ∧ s.herds c = true then
          let s := s.onField c id (fun f => { f with todo := r, stage := .routine l })
          s.onSlot c 11 (fun x => s.routineRegs c f l { x.freed with mode := .live, pc := fENTRY f.desc, dom := f.dom, asid := f.asid, key := f.key, codebase := f.codebase, codelim := f.codelim, eff := fLEVEL f.desc })
        else s
      | [] => s
    | none => s)

/-- FRET (R129, R284): after the routine's accesses and vector commands, the site takes g2 and slot 11 is free. (DEDUCED, log entry 38) -/
def execFret (s : State) : Out State :=
  issue { who := .sweep } (fun s =>
    let c := s.cur.core
    let x := s.me
    match s.mine.fields.findSome? (fun p => match p.2.stage with | .routine l => some (p.1, p.2, l) | _ => none) with
    | none => .trap 0x0F 0 (BitVec.ofNat 64 s.cur.slot)
    | some (id, f, l) =>
      if x.pend != 0 || !x.acc.isEmpty || (s.mine.cmds 1).any (fun m => m.slot == 11) then .wait .drain
      else
        let s := s.writeAt (.plain (coreKey c (fPATCH f.desc + l * fW f.desc))) (bytesOf (fW f.desc) (x.rd 2).toNat)
        .stay (((s.onField c id (fun f => { f with stage := .sites })).onMe (fun x => { x with icount := x.icount + 1 })).freeSlot c 11)) s

/-- The digest of a descriptor: lowbias32 chained over its 32-bit words, the low half of each word first (R399). (DEDUCED, log entry 43) -/
def digestOf (d : List Word) : BitVec 32 :=
  (List.range 16).foldl (fun x i =>
    let w := descW d i
    lowbias32 ((lowbias32 (x ^^^ w.setWidth 32)) ^^^ (w >>> 32).setWidth 32)) 0

/-- HALF_STEP_ARRIVAL (R281, R284, R398): the Herder arrives with E, or 0 in a sweep that has failed. -/
def execHalfStepArrival (c id : Nat) (s : State) : Out State :=
  .next (match (s.core c).field? id with
    | some f =>
      if (f.stage = .arrive ∨ (f.stage = .sites ∧ (f.todo = [] ∨ f.failed = true))) ∧ s.herds c = true then
        let s := (s.onField c id (fun f => { f with stage := .wait, todo := [] })).onCore c (fun k => k.countArrival (fCHAN f.desc))
        s.enterArrival c (fCHAN f.desc) (if f.failed then 0 else BitVec.ofNat 32 f.e) false (some (digestOf f.desc))
      else s
    | none => s)

/-! ## Halo exchange (R275, R284, R285, R350) -/

/-- Coordinates of entry e of strip k of core r. -/
def stripSite (d : List Word) (r k e : Nat) : Nat × Nat × Nat :=
  let x0 := fA d r * fpx d
  let y0 := fB d r * fpy d
  match k with
  | 0 => (x0 - 1, y0 + e % fpy d, e / fpy d)
  | 1 => (x0 + fpx d, y0 + e % fpy d, e / fpy d)
  | 2 => (x0 + e % fpx d, y0 - 1, e / fpx d)
  | 3 => (x0 + e % fpx d, y0 + fpy d, e / fpx d)
  | 4 => (x0 - 1, y0 - 1, 0)
  | 5 => (x0 + fpx d, y0 - 1, 0)
  | 6 => (x0 - 1, y0 + fpy d, 0)
  | _ => (x0 + fpx d, y0 + fpy d, 0)

/-- Bytes of strip k of core r, from the facing core's patch. -/
def State.stripBytes (s : State) (d : List Word) (snd r k : Nat) : List Byte :=
  (List.range (fStripLen d k)).flatMap (fun e => Memory.readBytes s.mem (coreKey snd (fSiteOff d snd (stripSite d r k e))) (fW d))

/-- Flits of a halo schedule: the n-th pair of a sender and a receiver carries the n-th 64 bytes of the strip between them. -/
def State.haloFlits (s : State) (d : List Word) : List (Nat × Nat) → List (Nat × Nat × Nat) → List Flit
  | _, [] => []
  | seen, (slot, snd, rcv) :: r =>
    let j := (seen.filter (fun q => q == (snd, rcv))).length
    let rest := s.haloFlits d ((snd, rcv) :: seen) r
    match (List.range (fStrips d)).find? (fun k => (fCores d).contains rcv && fFacing d rcv k == some snd) with
    | none => rest
    | some k =>
      let b := ((s.stripBytes d snd rcv k).drop (64 * j)).take 64
      if b.isEmpty then rest
      else { slot := slot, src := snd, dst := rcv, port := none, off := BitVec.ofNat 64 (fHALO d + fStripOff d k + 64 * j), data := BitVec.ofNat 512 (ofBytes b), bytes := b.length, by_ := 0, fpc := 0, page := 0, op := 0, dom := 0, asid := 0 } :: rest

/-- The running field of core c on a channel. -/
def Core.fieldOn (k : Core) (ch : Nat) : Option (Nat × Field) := k.fields.find? (fun p => p.2.run && fCHAN p.2.desc == ch)

/-- A field's phase completed: unequal digests stop every Herder, otherwise the halo exchange begins (R284, R399). -/
def State.fieldRelease (s : State) (ch : Nat) (l : List Arrival) : State :=
  let mem := l.map (·.core)
  let c0 := mem.headD 0
  let differ := l.any (fun a => a.digest != (l.headD { core := 0, ch := 0, k := 0, value := 0, time := 0, ovr := false, digest := none }).digest)
  if differ then
    mem.foldl (fun s c => match (s.core c).fieldOn ch with
      | some (id, f) => (s.stopField c id f.next).fieldTrap c f 0 (fieldInfo 10 id 0 f.next 0 0)
      | none => s) s
  else
    match (s.core c0).fieldOn ch with
    | none => s
    | some (_, f) =>
      let h := s.halo c0 f.desc
      let flits := match h with | some h => s.haloFlits f.desc [] h.pairs | none => []
      let s := mem.foldl (fun s c => match (s.core c).fieldOn ch with
        | some (id, _) => s.onField c id (fun f => { f with stage := .release })
        | none => s) s
      s.openExchange (s.jobOf c0) (8 + fHSCHED f.desc) ch mem (match h with | some h => h.slots | none => 0) flits false

/-- The compute release of a half-step at core c: the next colour, the next sweep, or the stop of R281. -/
def State.fieldResume (s : State) (c ch : Nat) : State :=
  match (s.core c).fieldOn ch with
  | none => s
  | some (id, f) =>
    if f.stage ≠ .release then s
    else if f.colour + 1 < fColours f.desc then
      s.onField c id (fun f => { f with colour := f.colour + 1, stage := .sites, todo := if f.failed then [] else sitesOf f.desc c (f.colour + 1) })
    else
      let k := f.next
      if ((s.core c).chan ch).last.min ≤ k ∨ k = 0xFFFFFFFE then s.stopField c id (k + 1)
      else s.onField c id (fun f => { f with next := k + 1, colour := 0, stage := .sweep, asked := false, todo := [] })

end Sys2Proof.Machine
end

