-- ==== Sys2Proof/Machine/Vector.lean ====
section
/-! DEFINITION. Page 2: vector commands at issue, their sources at start and their results at completion (R167 to R188). -/

namespace Sys2Proof.Machine

open Sys2Proof

/-! ## Sources and results -/

/-- The vector register of a second source, if it is one (R173). -/
def vregsOf : VSrc → List VReg
  | .reg r => [r]
  | .imm _ => []

/-- Vector registers a command reads when it starts, in a fixed order (R167). -/
def vecSources : Instr → List VReg
  | .vst d _ _ _ => [d]
  | .vsts _ d _ _ _ => [d]
  | .vgatl _ _ b _ => [b]
  | .vsctl _ d b _ => [d, b]
  | .vext _ _ b _ => [b]
  | .vins _ d _ _ => [d]
  | .vmov _ b => [b]
  | .vadd _ _ d a b | .vsub _ _ d a b | .vmul _ _ _ d a b | .vfma _ _ d a b | .vmin _ _ d a b | .vmax _ _ d a b => [a, d] ++ vregsOf b
  | .vabs _ _ _ b | .vneg _ _ _ b => [b]
  | .vand d a b | .vor d a b | .vxor d a b => [a, d] ++ vregsOf b
  | .vshl _ _ d a b | .vshr _ d a b | .vsar _ d a b => [a, d] ++ vregsOf b
  | .vcmp _ _ _ b c => [b, c]
  | .vsel _ d b c => [d, b, c]
  | .vcvt _ _ _ d b => [d, b]
  | .vwadd _ _ _ _ a b => [a, b]
  | .vscan _ _ _ _ b c | .vred _ _ _ _ b c => b :: c.toList
  | .vperm _ _ b c => [b, c]
  | .vmath _ _ _ b => [b]
  | _ => []

/-- Source i of a started command. -/
def Cmd.src (m : Cmd) (i : Nat) : Vec := m.srcs.getD i 0
/-- Sampled general register i. -/
def Cmd.arg (m : Cmd) (i : Nat) : Word := m.args.getD i 0

/-- The second source: a register read at start, or the immediate in every lane (R173). -/
def Cmd.second (m : Cmd) (w : Nat) : VSrc → Vec
  | .reg _ => m.src 2
  | .imm v => immVec w v

/-- The lane VEXT and VINS name (R173). -/
def Cmd.lane (m : Cmd) (t : VType) : Lane → Nat
  | .imm n => n.toNat
  | .reg _ => (m.args.getLast?.getD 0).toNat % t.lanes

/-- Result of a command that writes a vector register and touches no memory (R178 to R187). -/
def vecValue (m : Cmd) : Vec :=
  let bin (op : VOp) (t : VType) (sat hi : Bool) (b : VSrc) : Vec := vecOp op t sat hi (m.src 0) (m.second (laneBits t) b) (m.src 1)
  match m.instr with
  | .vbcst t _ _ => immVec (laneBits t) (m.arg 0)
  | .vins t _ _ l => putLane (laneBits t) (m.lane t l) ((m.arg 0).toNat % 2 ^ laneBits t) (m.src 0)
  | .vmov _ _ => m.src 0
  | .vadd t sat _ _ b => bin .add t sat false b
  | .vsub t sat _ _ b => bin .sub t sat false b
  | .vmul t sat hi _ _ b => bin .mul t sat hi b
  | .vfma t sat _ _ b => bin .fma t sat false b
  | .vmin t sat _ _ b => bin .min t sat false b
  | .vmax t sat _ _ b => bin .max t sat false b
  | .vabs t sat _ _ => vecMap (laneBits t) (laneAbs t sat) (m.src 0)
  | .vneg t sat _ _ => vecMap (laneBits t) (laneNeg t sat) (m.src 0)
  | .vand _ _ b => m.src 0 &&& m.second 64 b
  | .vor _ _ b => m.src 0 ||| m.second 64 b
  | .vxor _ _ b => m.src 0 ^^^ m.second 64 b
  | .vshl t sat _ _ b => bin .shl t sat false b
  | .vshr t _ _ b => bin .shr t false false b
  | .vsar t _ _ b => bin .sar t false false b
  | .vcmp t cond _ _ _ => vecCmp t cond.toNat (m.src 0) (m.src 1)
  | .vsel t _ _ _ => vecSel t (m.src 0) (m.src 1) (m.src 2)
  | .vcvt src dst k _ _ => vecCvt src dst k.toNat (m.src 0) (m.src 1)
  | .vwadd t sat p _ _ _ => vecWadd t sat p.toNat (m.src 0) (m.src 1)
  | .vscan t sat op _ _ c => vecScan t sat op.toNat (m.src 0) (c.map (fun _ => m.src 1))
  | .vred t sat op _ _ c => vecRed t sat op.toNat (m.src 0) (c.map (fun _ => m.src 1))
  | .vperm t _ _ _ => vecPerm t (m.src 0) (m.src 1)
  | .vmath t fn _ _ => vecMath t fn.toNat (m.src 0)
  | _ => 0

/-! ## Memory commands -/

/-- Address of lane i of a strided command (R175): args are base, offset, stride. -/
def strideAddr (m : Cmd) (i : Nat) : Word := m.arg 0 + m.arg 1 + BitVec.ofNat 64 i * m.arg 2

/-- Address of the element that an index lane names, a sum without bound (R7, R177). -/
def gatherAddr (m : Cmd) (t : VType) (idx : Nat) : Nat := (m.arg 0).toNat + idx * t.width

/-- Whether an unbounded address lies in the self window. -/
def inSelf (n : Nat) : Bool := decide (n < 2 ^ 64) && (match spaceOf (BitVec.ofNat 64 n) with | .self _ => true | _ => false)

/-- A gather or scatter element outside the self window is refused, before any element is read or written (R177, R369). (DESIGN CHOICE, log entry 67) -/
def outsideSelf (s : State) (acc : Nat) (l : List Nat) : Option (EngRes State) :=
  (l.find? (fun n => !inSelf n)).map (fun n =>
    let a : Word := BitVec.ofNat 64 n
    .deny s a acc ⟨0x07, 4, if n < 2 ^ 64 then (spaceOf a).code false else 5, 0⟩)

/-- The elements of a gather or scatter, by the lanes of its index vector. -/
def indexedAddrs (m : Cmd) (t : VType) (v : Vec) : List Nat := (lanesOf (laneBits t) v).map (gatherAddr m t)

/-- The element addresses of a vector load or store, in ascending lane; none of a gather or scatter that leaves the self window (R174 to R177). -/
def vecAddrs (m : Cmd) : List Word :=
  let inside (l : List Nat) : List Word := if l.all inSelf then l.map (BitVec.ofNat 64) else []
  match m.instr with
  | .vld _ _ _ _ | .vst _ _ _ _ => [m.arg 0]
  | .vlds t _ _ _ _ | .vsts t _ _ _ _ => (List.range t.lanes).map (strideAddr m)
  | .vgatl t _ _ _ => inside (indexedAddrs m t (m.src 0))
  | .vsctl t _ _ _ => inside (indexedAddrs m t (m.src 1))
  | _ => []

/-- What a vector command reads, unit by unit (R309). -/
def vecReads (m : Cmd) : List (Word × Nat) :=
  match m.instr with
  | .vld _ _ _ _ => (vecAddrs m).map (fun a => (a, 64))
  | .vlds t _ _ _ _ | .vgatl t _ _ _ => (vecAddrs m).map (fun a => (a, t.width))
  | _ => []

/-- What a vector command writes, unit by unit: in ascending lane, a later one over an earlier one (R175, R309). -/
def vecWrites (m : Cmd) : List (Word × List Byte) :=
  match m.instr with
  | .vst _ _ _ _ => (vecAddrs m).map (fun a => (a, vecBytes (m.src 0)))
  | .vsts t _ _ _ _ | .vsctl t _ _ _ => ((vecAddrs m).zip (lanesOf (laneBits t) (m.src 0))).map (fun p => (p.1, bytesOf t.width p.2))
  | _ => []

/-- Elements read one by one. -/
def State.readLanes (s : State) (g : Agent) : List (Word × Nat) → EngRes (List Nat)
  | [] => .ok []
  | (a, w) :: r => (s.engRead g 4 a w).bind (fun b => (s.readLanes g r).bind (fun l => .ok (ofBytes b :: l)))

/-- What a vector command does when it completes (R167). -/
def State.vecEffect (s : State) (c : Nat) (m : Cmd) : EngRes State :=
  let g := s.cmdAgent c 1 m
  let put (d : VReg) (v : Vec) (s : State) : EngRes State := .ok (s.onSlot c m.slot (fun x => x.vwr d v))
  let lanes (t : VType) (d : VReg) : EngRes State := (s.readLanes g (vecReads m)).bind (fun l => put d (ofLanes (laneBits t) l) s)
  match m.instr with
  | .vld d _ _ _ => (s.engRead g 4 (m.arg 0) 64).bind (fun b => put d (bytesVec b) s)
  | .vst _ _ _ _ | .vsts _ _ _ _ _ => s.engWrites g 0 ((vecWrites m).map .run)
  | .vlds t d _ _ _ => lanes t d
  | .vgatl t d _ _ => (outsideSelf s 4 (indexedAddrs m t (m.src 0))).getD (lanes t d)
  | .vsctl t _ _ _ => (outsideSelf s 5 (indexedAddrs m t (m.src 1))).getD (s.engWrites g 0 ((vecWrites m).map .run))
  | .vext t d _ lane =>
    .ok (s.onSlot c m.slot (fun x => if d = 0 then x else { x with results := x.results ++ [{ reg := d, val := extLane t (m.lane t lane) (m.src 0), depth := 0, acq := false }] }))
  | i =>
    match vdestOf i with
    | some d => put d (vecValue m) s
    | none => .ok s

/-! ## Issue -/

/-- A vector command of register sources only (R167). -/
def vecCmd (i : Instr) (rs : List Reg) (s : State) : Out State :=
  issue { rs := rs, late := false, who := .any } (fun s => enter 1 i (rs.map s.me.rd) s) s

/-- VLD and VST: 64-byte aligned (R174). -/
def vecLine (i : Instr) (base idx : Reg) (off : Word) (s : State) : Out State :=
  issue { rs := [base, idx], late := false, who := .any } (fun s =>
    let a := lineAddr s.me base idx off
    if !aligned a 64 then .misaligned a 6 else enter 1 i [a] s) s

/-- VLDS and VSTS: every element aligned to its width (R175). -/
def vecStride (i : Instr) (t : VType) (base stride : Reg) (off : Word) (s : State) : Out State :=
  issue { rs := [base, stride], late := false, who := .any } (fun s =>
    let el (k : Nat) : Word := s.me.rd base + off + BitVec.ofNat 64 k * s.me.rd stride
    match (List.range t.lanes).find? (fun k => !aligned (el k) t.width) with
    | some k => .misaligned (el k) (lg t.width)
    | none => enter 1 i [s.me.rd base, off, s.me.rd stride] s) s

/-- VGATL and VSCTL: the base aligned to the width (R177). (DESIGN CHOICE, log entry 79) -/
def vecIndexed (i : Instr) (t : VType) (base : Reg) (s : State) : Out State :=
  issue { rs := [base], late := false, who := .any } (fun s =>
    if !aligned (s.me.rd base) t.width then .misaligned (s.me.rd base) (lg t.width) else enter 1 i [s.me.rd base] s) s

/-- The lane register of VEXT and VINS, if one is named (R173). -/
def laneRegs : Lane → List Reg
  | .imm _ => []
  | .reg r => [r]

/-- VLD: 64 bytes from memory (R174). -/
def execVld (d : VReg) (base idx : Reg) (off : Word) (s : State) : Out State := vecLine (.vld d base idx off) base idx off s
/-- VST: 64 bytes to memory (R174). -/
def execVst (d : VReg) (base idx : Reg) (off : Word) (s : State) : Out State := vecLine (.vst d base idx off) base idx off s
/-- VLDS: one element a lane at a stride (R175). -/
def execVlds (ty : VType) (d : VReg) (base stride : Reg) (off : Word) (s : State) : Out State := vecStride (.vlds ty d base stride off) ty base stride off s
/-- VSTS: one element a lane at a stride (R175). -/
def execVsts (ty : VType) (d : VReg) (base stride : Reg) (off : Word) (s : State) : Out State := vecStride (.vsts ty d base stride off) ty base stride off s
/-- VGATL: lanes gathered from the own core memory (R177). -/
def execVgatl (ty : VType) (d b : VReg) (base : Reg) (s : State) : Out State := vecIndexed (.vgatl ty d b base) ty base s
/-- VSCTL: lanes scattered to the own core memory (R177). -/
def execVsctl (ty : VType) (d b : VReg) (base : Reg) (s : State) : Out State := vecIndexed (.vsctl ty d b base) ty base s
/-- VBCST: gB in every lane (R178). -/
def execVbcst (ty : VType) (d : VReg) (b : Reg) (s : State) : Out State := vecCmd (.vbcst ty d b) [b] s
/-- VEXT sets gA pending at issue (R178). -/
def execVext (ty : VType) (d : Reg) (b : VReg) (lane : Lane) (s : State) : Out State :=
  issue { rs := laneRegs lane, ws := [d], var := true, late := false, who := .any } (fun s => enter 1 (.vext ty d b lane) ((laneRegs lane).map s.me.rd) s) s
/-- VINS: gB in one lane (R178). -/
def execVins (ty : VType) (d : VReg) (b : Reg) (lane : Lane) (s : State) : Out State := vecCmd (.vins ty d b lane) (b :: laneRegs lane) s
/-- VMOV: a copy (R178). -/
def execVmov (d b : VReg) (s : State) : Out State := vecCmd (.vmov d b) [] s
/-- VADD (R180, R181). -/
def execVadd (ty : VType) (sat : Bool) (d a : VReg) (b : VSrc) (s : State) : Out State := vecCmd (.vadd ty sat d a b) [] s
/-- VSUB (R180, R181). -/
def execVsub (ty : VType) (sat : Bool) (d a : VReg) (b : VSrc) (s : State) : Out State := vecCmd (.vsub ty sat d a b) [] s
/-- VMUL (R180, R181). -/
def execVmul (ty : VType) (sat hi : Bool) (d a : VReg) (b : VSrc) (s : State) : Out State := vecCmd (.vmul ty sat hi d a b) [] s
/-- VFMA (R180, R181). -/
def execVfma (ty : VType) (sat : Bool) (d a : VReg) (b : VSrc) (s : State) : Out State := vecCmd (.vfma ty sat d a b) [] s
/-- VMIN (R180, R181). -/
def execVmin (ty : VType) (sat : Bool) (d a : VReg) (b : VSrc) (s : State) : Out State := vecCmd (.vmin ty sat d a b) [] s
/-- VMAX (R180, R181). -/
def execVmax (ty : VType) (sat : Bool) (d a : VReg) (b : VSrc) (s : State) : Out State := vecCmd (.vmax ty sat d a b) [] s
/-- VABS (R180, R181). (DEDUCED, log entry 61) -/
def execVabs (ty : VType) (sat : Bool) (d b : VReg) (s : State) : Out State := vecCmd (.vabs ty sat d b) [] s
/-- VNEG (R180, R181). (DEDUCED, log entry 61) -/
def execVneg (ty : VType) (sat : Bool) (d b : VReg) (s : State) : Out State := vecCmd (.vneg ty sat d b) [] s
/-- VAND (R180, R181). -/
def execVand (d a : VReg) (b : VSrc) (s : State) : Out State := vecCmd (.vand d a b) [] s
/-- VOR (R180, R181). -/
def execVor (d a : VReg) (b : VSrc) (s : State) : Out State := vecCmd (.vor d a b) [] s
/-- VXOR (R180, R181). -/
def execVxor (d a : VReg) (b : VSrc) (s : State) : Out State := vecCmd (.vxor d a b) [] s
/-- VSHL (R180, R181). -/
def execVshl (ty : VType) (sat : Bool) (d a : VReg) (b : VSrc) (s : State) : Out State := vecCmd (.vshl ty sat d a b) [] s
/-- VSHR (R180, R181). -/
def execVshr (ty : VType) (d a : VReg) (b : VSrc) (s : State) : Out State := vecCmd (.vshr ty d a b) [] s
/-- VSAR (R180, R181). -/
def execVsar (ty : VType) (d a : VReg) (b : VSrc) (s : State) : Out State := vecCmd (.vsar ty d a b) [] s
/-- VCMP: all ones where the condition holds (R183). -/
def execVcmp (ty : VType) (cond : BitVec 3) (d b c : VReg) (s : State) : Out State := vecCmd (.vcmp ty cond d b c) [] s
/-- VSEL (R184). -/
def execVsel (ty : VType) (d b c : VReg) (s : State) : Out State := vecCmd (.vsel ty d b c) [] s
/-- VCVT (R185). -/
def execVcvt (src dst : VType) (k : BitVec 3) (d b : VReg) (s : State) : Out State := vecCmd (.vcvt src dst k d b) [] s
/-- VWADD: a widened part of vB added (R182). -/
def execVwadd (ty : VType) (sat : Bool) (part : BitVec 3) (d a b : VReg) (s : State) : Out State := vecCmd (.vwadd ty sat part d a b) [] s
/-- VSCAN (R186). -/
def execVscan (ty : VType) (sat : Bool) (op : BitVec 2) (d b : VReg) (carry : Option VReg) (s : State) : Out State := vecCmd (.vscan ty sat op d b carry) [] s
/-- VRED (R186). -/
def execVred (ty : VType) (sat : Bool) (op : BitVec 2) (d b : VReg) (carry : Option VReg) (s : State) : Out State := vecCmd (.vred ty sat op d b carry) [] s
/-- VPERM (R179). -/
def execVperm (ty : VType) (d b c : VReg) (s : State) : Out State := vecCmd (.vperm ty d b c) [] s
/-- VMATH (R187); its accuracy is the model's choice within the rule (log entry 18). -/
def execVmath (ty : VType) (fn : BitVec 3) (d b : VReg) (s : State) : Out State := vecCmd (.vmath ty fn d b) [] s

end Sys2Proof.Machine
end

