-- ==== Sys2Proof/Machine/Engines.lean ====
section
/-! DEFINITION. The steps in which engine commands start, perform a unit, and complete (R42, R167, R193, R198, R205, R277, R309). -/

namespace Sys2Proof.Machine

open Sys2Proof

/-! ## Joint commands (R198) -/

/-- A joint command's product for one member: its own A side, and the B operand that its segment's lowest member has read. (DEDUCED, log entry 20) -/
def State.jointProduct (s : State) (c : Nat) (t : TileNo) (m : Cmd) : EngRes State :=
  let k := fld m.ec.klen 0 20
  let fa := m.ec.fmta
  let fb := m.ec.fmtb
  if k = 0 then .ok s
  else if (formatFault fa fb m.ec.klen).isSome || (s.tile c t).int != pairInt (fmtCode fa) (fmtCode fb) then .ok (s.freeTile c t)
  else
    (s.unitsOk (s.cmdAgent c 0 m) (operandUnits k (opGroup m) [opA m])).bind (fun _ =>
    (s.readRows (s.cmdAgent c 0 m) (opA m) k (opGroup m) (List.range 32)).bind (fun ra =>
      let r := mulTile fa fb k (s.tile c t) ra (m.brows.map (fun b => { els := b.1, scl := b.2.1, zps := b.2.2 }))
      .ok ((s.setTile c t r.1).onSlot c m.slot (fun x => { x with iovf := x.iovf || r.2 }))))

/-- The B operand of an executing joint command, which its lowest member c reads, unit by unit, for all; of a block that its A operand touches too, the
whole unit is read then (R198, R309). (DEDUCED, log entry 44) -/
def State.jointB (s : State) (c : Nat) (m : Cmd) : EngRes (State × List OpRow) :=
  let k := fld m.ec.klen 0 20
  let g := opGroup m
  let b := operandUnits k g [opB m]
  let blockOf (u : ReadUnit) : Nat := u.hull.1.toNat / 64
  (s.latchUnits c 0 m ((operandUnits k g [opB m, opA m]).filter (fun u => b.any (fun v => blockOf v == blockOf u)))).bind (fun s =>
    (s.readRows (s.cmdAgent c 0 (s.cmdNow c 0 m)) (opB m) k g (List.range 32)).bind (fun rows => .ok (s, rows)))

/-- The width that an MMAJ names, as a logarithm. -/
def Cmd.width (m : Cmd) : Nat := fld m.ec.mjoin 0 2

/-- A member's command with the B side that the lowest member sampled; only the lowest one keeps B's address. (DEDUCED, log entry 20) -/
def Cmd.joined (m low : Cmd) : Cmd :=
  { m with
    ec := { m.ec with fmtb := low.ec.fmtb, bstr := low.ec.bstr, klen := low.ec.klen, sclb := low.ec.sclb, zpb := low.ec.zpb, plnb := low.ec.plnb }
    args := if m.id = low.id then m.args else m.args.take 1 }

/-- A command with the B operand that has been read for its segment. -/
def Cmd.withB (m : Cmd) (rows : List OpRow) : Cmd := { m with brows := rows.map (fun r => (r.els, r.scl, r.zps)) }

/-- The executing commands of core c's joint command m, with their cores. -/
def State.jointMates (s : State) (c : Nat) (m : Cmd) : List (Nat × Cmd) :=
  (segment c m.width).filterMap (fun d =>
    ((tget (s.core d).exec 0 []).find? (fun q => q.joint == m.joint && q.width == m.width && (match q.instr with | .mmaj _ _ _ => true | _ => false))).map (fun q => (d, q)))

/-- B, as the lowest member has read it, passed to every member (R198). (DEDUCED, log entry 20) -/
def State.shareB (s : State) (c : Nat) (m : Cmd) (rows : List OpRow) : State := (s.jointMates c m).foldl (fun s q => s.setCmd q.1 0 (q.2.withB rows)) s

/-- What a joint command comes to in one member: the lowest reads B first; the others wait for it (R198). (DEDUCED, log entry 44) (DEDUCED, log entry 20) -/
def State.jointEffect (s : State) (c : Nat) (t : TileNo) (m : Cmd) : EngRes State :=
  if m.readsB then (s.jointB c m).bind (fun r => let s := r.1.shareB c m r.2; s.jointProduct c t (s.cmdNow c 0 (m.withB r.2)))
  else if m.brows.isEmpty && fld m.ec.klen 0 20 != 0 then .wait
  else s.jointProduct c t m

/-- The MMAJ at the head of core c's matrix queue, if it may start. It may for the paused side of a SHARED pair, whose segment can hold both sides:
results are those of an unshared run (R344). (DESIGN CHOICE, log entry 45) -/
def State.jointHead (s : State) (c : Nat) : Option Cmd :=
  if (s.core c).vf.moving.isSome then none
  else match s.queueHead c 0 with
  | some m => (match m.instr with | .mmaj _ _ _ => some m | _ => none)
  | none => none

/-- Whether MMAJ n of core c has left its queue without the members that name it waiting for it. -/
def State.jointGone (s : State) (c n : Nat) : Bool :=
  decide (n ≤ (s.core c).mmajIn) && !(tget (s.core c).queue 0 []).any (fun m => m.joint == n)

/-- The cores of a job that could share a joint command with core c: those of its row's aligned eight. -/
def State.jointBlock (s : State) (c : Nat) : List Nat := (segment c 3).filter (fun d => s.inJob c d)

/-- Whether the MMAJ m at the head of core c's queue can never be joined: its segment leaves the job, or a member, or a core that names c as
one, names another width or has gone on without it (R198, R363). (DEDUCED, log entry 44) -/
def State.jointBad (s : State) (c : Nat) (m : Cmd) : Bool :=
  let seg := segment c m.width
  !seg.all (fun d => s.inJob c d) ||
  (s.jointBlock c).any (fun d => d != c &&
    ((seg.contains d && s.jointGone d m.joint) ||
      (match s.jointHead d with
        | some h => h.joint == m.joint && (seg.contains d || (segment d h.width).contains c) && h.width != m.width
        | none => false)))

/-- The members of core c's joint command with their commands, once the same MMAJ heads every member's queue. -/
def State.jointReady (s : State) (c : Nat) (m : Cmd) : Option (List (Nat × Cmd)) :=
  (segment c m.width).mapM (fun d => ((s.jointHead d).filter (fun h => h.joint == m.joint)).map (fun h => (d, h)))

/-- The head of a queue leaves it, abandoned, with ENGINE reason 4 at its slot or without a trap (R363). -/
def State.dropHead (s : State) (c e : Nat) (m : Cmd) (trap : Bool) : State :=
  let s := (s.beginCmd c e m).dropCmd c e m
  if trap then s.queueTrap c m.slot (m.trap 0 (engInfo e 4 m.num)) else s

/-- MMAJ_JOINT_START: the same MMAJ heads every member's queue and all start; one that cannot be joined is abandoned in every member that has
come to it, with a trap (R52, R198, R363). (DEDUCED, log entry 44) -/
def execMmajJointStart (c : Nat) (s : State) : Out State :=
  .next (match s.jointHead c with
    | none => s
    | some m =>
      if s.jointBad c m then
        ((s.jointBlock c).filterMap (fun d => (s.jointHead d).bind (fun h => if h.joint == m.joint && s.jointBad d h then some (d, h) else none))).foldl
          (fun s h => s.dropHead h.1 0 h.2 true) s
      else match s.jointReady c m with
        | some (low :: rest) => (low :: rest).foldl (fun s h => s.beginCmd h.1 0 (h.2.joined low.2)) s
        | _ => s)

/-! ## Start and completion -/

/-- Vector registers a command reads when it starts (R167, R194). -/
def startSources (x : Slot) (i : Instr) : List Vec :=
  match i with
  | .mrow true v _ _ => [x.vrd v, x.vrd (oddOf v)]
  | i => (vecSources i).map x.vrd

/-- ENGINE_COMMAND_START (R42): the head of the queue, with its vector sources; a joint command starts with its segment instead. In a job that stops or
drains, vector and field commands still run to completion (R357, R364). -/
def execEngineCommandStart (core eng : Nat) (s : State) : Out State :=
  .next (match s.startable core eng with
    | none => s
    | some m =>
      match m.instr with
      | .mmaj _ _ _ => s
      | i =>
        if (!s.runs core && eng != 1 && eng != 3) || (eng == 3 && !s.fieldStartable core m) then s
        else
          let m := { m with srcs := startSources (s.slot core m.slot) i }
          let s := s.beginCmd core eng m
          if eng = 3 then s.fieldStart core m else s)

/-- What an executing command of engine e comes to if it completes now. -/
def State.cmdEffect (s : State) (c e : Nat) (m : Cmd) : EngRes State :=
  match e with
  | 0 => (match m.instr with | .mmaj t _ _ => s.jointEffect c t m | _ => s.matEffect c m)
  | 1 => s.vecEffect c m
  | 2 => s.copyEffect c m
  | _ => (match m.instr with | .fldsnap _ _ _ => s.snapEffect c m | _ => s.fieldEffect c m)

/-- A command whose access is withdrawn, refused or gone leaves, abandoned; the lowest member's joint command takes its segment's with it while B is
still to be read (R198, R363). (DESIGN CHOICE, log entry 70) -/
def State.dropAll (s : State) (c e : Nat) (m : Cmd) : State :=
  (if m.readsB then (s.jointMates c m).filter (fun q => q.1 != c) else []).foldl (fun s q => s.dropCmd q.1 e q.2) (s.dropCmd c e m)

/-- The lowest member's joint command has read B and passed it on, if nothing keeps it from that (R198). (DEDUCED, log entry 44) (DESIGN CHOICE, log entry 70) -/
def State.passB (s : State) (c e : Nat) (m : Cmd) : State :=
  if e = 0 ∧ m.readsB = true then
    (match s.jointB c m with
      | .ok (s, rows) => s.shareB c m rows
      | .deny _ _ _ _ => ((s.jointMates c m).filter (fun q => q.1 != c)).foldl (fun s q => s.dropCmd q.1 e q.2) s
      | _ => s)
  else s

/-- ENGINE_COMMAND_COMPLETE: what is left of the command's reads and writes, and its completion on its context (R41, R42, R167, R205). (DESIGN CHOICE, log entry 26) -/
def execEngineCommandComplete (core eng idx : Nat) (s : State) : Out State :=
  .next (match (tget (s.core core).exec eng [])[idx]? with
    | none => s
    | some m =>
      if m.isMarker then s
      else if m.dead then s.dropAll core eng m
      else
        let s := s.passB core eng m
        let m := if m.readsB then s.cmdNow core eng m else m
        s.settleCmd core eng m (s.cmdEffect core eng m))

/-! ## Single units (R309) -/

/-- The read units of an executing command. -/
def cmdReads (e : Nat) (m : Cmd) : List ReadUnit :=
  match e with
  | 0 => matReads m
  | 1 => (vecReads m).map (fun u => [u])
  | 2 => copyReads m
  | _ => []

/-- The write units of an executing command other than a copy. -/
def State.cmdWrites (s : State) (c e : Nat) (m : Cmd) : List WriteUnit :=
  match e with
  | 0 => s.matWrites c m
  | 1 => (vecWrites m).map .run
  | 3 => (match m.instr with | .fldsnap _ _ _ => ((s.snapWrites c m).getD []).map .run | _ => [])
  | _ => []

/-- Whether two runs of bytes that an agent writes share a byte, by address or in memory. -/
def Agent.runsMeet (g : Agent) (u v : Word × List Byte) : Bool :=
  meets v.1.toNat v.2.length u.1.toNat u.2.length ||
  (match g.place v.1, g.place u.1 with
    | some p, some q => meets p.key v.2.length q.key u.2.length
    | _, _ => false)

/-- Whether write unit k waits for an earlier one that shares a byte with it, by address or in memory (R175, R200). -/
def unitBehind (g : Agent) (l : List WriteUnit) (k : Nat) : Bool :=
  match l[k]? with
  | some u => (l.take k).zipIdx.any (fun v => !g.walk.wrote.contains v.2 && v.1.parts.any (fun a => u.parts.any (fun b => g.runsMeet b a)))
  | none => true

/-- Read unit k of a command, or beyond its reads write unit or flit k, performed alone. (DESIGN CHOICE, log entry 26) -/
def State.unitEffect (s : State) (c e : Nat) (m : Cmd) (k : Nat) : EngRes State :=
  let r := cmdReads e m
  match r[k]? with
  | some u =>
    if m.walk.has u.hull.1 u.hull.2 then .ok s
    else (s.partsRead (s.cmdAgent c e m) u).bind (fun b => .ok (s.onWalk c (.cmd m.id) (fun w => w.latch u.hull.1 b)))
  | none =>
    let j := k - r.length
    if m.walk.wrote.contains j then .ok s
    else if e = 2 then (match (copyFlits m)[j]? with | some f => s.copyFlit c m j f | none => .ok s)
    else
      let l := s.cmdWrites c e m
      if e = 3 ∧ (s.snapFault c m).isSome = true then s.snapEffect c m
      else if unitBehind (s.cmdAgent c e m) l j then .ok s
      else match l[j]? with
        | some u => (s.engWrite (s.cmdAgent c e m) j u).bind (fun t => .ok (t.onWalk c (.cmd m.id) (fun w => w.wroteUnit j (u.parts.map (·.1)))))
        | none => .ok s

/-- The executing command of an id, with its engine. -/
def Core.executing (k : Core) (id : Nat) : Option (Nat × Cmd) :=
  (List.range 4).findSome? (fun e => ((tget k.exec e []).find? (fun m => m.id == id)).map (fun m => (e, m)))

/-- One single-copy-atomic unit of an executing command performed (R309, R385). (DESIGN CHOICE, log entry 26) -/
def State.unitStep (s : State) (c id k : Nat) : State :=
  match (s.core c).executing id with
  | some (e, m) => if m.isMarker || m.dead then s else s.settleUnit c e m (s.unitEffect c e m k)
  | none => s

/-- The next flit of an executing copy (R205). -/
def State.landFlit (s : State) (c id : Nat) : State :=
  match (s.core c).executing id with
  | some (2, m) => (match flitsLeft m with | f :: _ => s.unitStep c id ((copyReads m).length + f.2) | [] => s)
  | _ => s

/-- REMOTE_WRITE_LAND: a store through the core window; named by slot 15, the next flit of the copy command with this id; by 128 + k, unit k
of the command with this id (R146, R205, R212, R309). (DESIGN CHOICE, log entry 26) -/
def execRemoteWriteLand (core slot id : Nat) (s : State) : Out State :=
  .next (if slot = 15 then s.landFlit core id else if 128 ≤ slot then s.unitStep core id (slot - 128) else performStep .remote core slot id s)

end Sys2Proof.Machine
end

