-- ==== Sys2Proof/Machine/Ports.lean ====
section
/-! DEFINITION. Port registers, messages, the inbox and the Retriever (R229 to R236, R411 to R413). -/

namespace Sys2Proof.Machine

open Sys2Proof

/-! ## Sends -/

/-- The target a send names: ILLEGAL with high bits set, WINDOW reason 7 outside the job (R229, R405). -/
def State.sendFault (s : State) (w : Word) : Option Act :=
  if fld w 11 53 ≠ 0 then some (.illegal 3)
  else if s.inJob s.cur.core (fld w 0 11) then none
  else some (.trap 0x07 0 (memInfo 7 1 3 s.me.asid 0 false))

/-- Whether a returned write of this core to core d is waiting to be sent again (R230). -/
def State.returnedTo (s : State) (d : Nat) : Bool := s.portWrites.any (fun w => w.returned && w.src == s.cur.core && w.dst == d)

/-- The target of a returned write that a send to core d waits behind: one of this core to d, or one of the thread itself to any core (R230). -/
def State.behindReturned (s : State) (d : Nat) : Option Nat :=
  if s.returnedTo d then some d
  else (s.portWrites.find? (fun w => w.returned && w.src == s.cur.core && w.slot == s.cur.slot)).map (·.dst)

/-- Whether an earlier access, remote write or message of the slot is still to be performed, which a send comes after (R230). -/
def State.sendHeld (s : State) : Bool :=
  let c := s.cur.core
  let t := s.cur.slot
  !s.me.acc.isEmpty || s.portWrites.any (fun w => w.src == c && w.slot == t) || s.messages.any (fun m => m.src == c && m.slot == t)

/-- The waits of RPUT and MSEND, then the send itself (R230, R233). -/
def State.send (s : State) (d : Nat) (f : State → State) : Act :=
  match s.behindReturned d with
  | some e => .wait (.send e)
  | none => if s.sendHeld || s.startHeld s.me then .wait .settle
    else .done (f { s with nextId := s.nextId + 1 })

/-- RPUT (R230). -/
def execRput (a b : Reg) (idx : BitVec 5) (s : State) : Out State :=
  issue { rs := [a, b] } (fun s =>
    match s.sendFault (s.me.rd a) with
    | some t => t
    | none =>
      let d := fld (s.me.rd a) 0 11
      s.send d (fun t => { t with portWrites := t.portWrites ++ [{ id := s.nextId, slot := s.cur.slot, src := s.cur.core, dst := d, idx := idx.toNat, val := s.me.rd b, returned := false }] })) s

/-- MSEND (R233); word 1 is 0 without a third register. -/
def execMsend (a b c : Reg) (s : State) : Out State :=
  issue { rs := [a, b, c] } (fun s =>
    match s.sendFault (s.me.rd a) with
    | some t => t
    | none =>
      let d := fld (s.me.rd a) 0 11
      s.send d (fun t => { t with messages := t.messages ++ [{ id := s.nextId, slot := s.cur.slot, src := s.cur.core, dst := d, w0 := s.me.rd b, w1 := s.me.rd c }] })) s

/-! ## Port registers -/

/-- Whether another slot of the core waits for register idx since before router cycle n (R231). -/
def Core.rtakeBefore (k : Core) (t idx n : Nat) : Bool :=
  k.slots.any (fun p => p.1 != t && (match p.2.park with | some w => w.kind == .rtake idx && decide (w.since < n) | none => false))

/-- When the issuing slot's RTAKE issued: the start of its park, or now. -/
def Slot.waitsSince (x : Slot) (k : Park) (now : Nat) : Nat :=
  match x.park with | some w => if w.kind = k then w.since else now | none => now

/-- Register idx taken: presence clears and the oldest held write to it, if any, is presented (R231). -/
def Core.takePort (k : Core) (idx : Nat) : Core :=
  match k.held.find? (fun w => w.idx == idx) with
  | some w => { k with held := k.held.erase w, ports := tset k.ports idx { present := true, val := w.val } }
  | none => { k with ports := tset k.ports idx { present := false, val := 0 } }

/-- RTAKE (R231). -/
def execRtake (d : Reg) (idx : BitVec 5) (s : State) : Out State :=
  let since := s.me.waitsSince (.rtake idx.toNat) s.rtime.toNat
  issue { ws := [d] } (fun s =>
    let p := tget s.mine.ports idx.toNat Port.reset
    if p.present && !s.mine.rtakeBefore s.cur.slot idx.toNat since then
      .done ((s.onMine (fun k => k.takePort idx.toNat)).onMe (fun x => x.wr d p.val))
    else .wait (.rtake idx.toNat)) s

/-- RPEEK (R232). -/
def execRpeek (d : Reg) (s : State) : Out State :=
  issue { ws := [d], late := false } (fun s => .done (s.onMe (fun x => x.wr d (presence s.mine.ports)))) s

/-- PORT_WRITE_ARRIVAL (R230): write idx of those in flight, in issue order from its sender to its target: taken, held, or returned; at a core that has
ended it has no effect. (DESIGN CHOICE, log entry 69) -/
def execPortWriteArrival (idx : Nat) (s : State) : Out State :=
  .next (match s.portWrites[idx]? with
    | some w =>
      let k := s.core w.dst
      if (s.portWrites.take idx).any (fun v => v.src == w.src && v.dst == w.dst) || k.vf.moving.isSome || s.seamHolds 3 w.src w.dst then s
      else
        let s' := { s with portWrites := s.portWrites.eraseIdx idx }
        if k.phase ≠ .running ∨ k.job ≠ (s.core w.src).job then s'
        else if !(tget k.ports w.idx Port.reset).present then s'.onCore w.dst (fun k => { k with ports := tset k.ports w.idx { present := true, val := w.val } })
        else if k.held.length < Config.holdStore then s'.onCore w.dst (fun k => { k with held := k.held ++ [{ w with returned := false }] })
        else { s with portWrites := s.portWrites.set idx { w with returned := true } }
    | none => s)

/-! ## Messages -/

/-- TINFO of INBOX (R413). -/
def inboxInfo (k : Core) : Word :=
  BitVec.ofNat 64 (k.inbox.length % 64 + k.hcap % 2 ^ 16 * 2 ^ 16 + (match k.staging with | m :: _ => m.src % 2048 | [] => 0) * 2 ^ 32)

/-- A full heap with a staged message raises INBOX at slot 0 (R413). (DEDUCED, log entry 22) -/
def State.heapFull (s : State) (c : Nat) : State :=
  let k := s.core c
  if k.hcap ≤ k.heap ∧ k.staging ≠ [] then
    s.queueTrap c 0 (s.standTrap c 0 0x16 0 (inboxInfo k))
  else s

/-- The Retriever made live at the firmware entry, in domain 0 (R235). (DESIGN CHOICE, log entry 108) -/
def State.wakeRetriever (s : State) (c : Nat) : State :=
  let r := tget s.domCode 0 (0, 0)
  s.onSlot c 12 (fun x =>
    if x.mode = .free then { x.freed with mode := .live, pc := Config.retrieverEntry, dom := 0, codebase := r.1, codelim := r.2, prio := 3, eff := 3 } else x)

/-- MESSAGE_ARRIVAL (R235): message idx of those in flight, in send order from its sender to its target: into the inbox, or staged with the Retriever live;
at a core that has ended it has no effect. (DESIGN CHOICE, log entry 69) -/
def execMessageArrival (idx : Nat) (s : State) : Out State :=
  .next (match s.messages[idx]? with
    | some m =>
      let k := s.core m.dst
      if (s.messages.take idx).any (fun v => v.src == m.src && v.dst == m.dst) || k.vf.moving.isSome || s.seamHolds 3 m.src m.dst then s
      else
        let s' := { s with messages := s.messages.eraseIdx idx }
        if k.phase ≠ .running ∨ k.job ≠ (s.core m.src).job then s'
        else if !k.backlog && decide (k.inbox.length < Config.inboxDepth) then s'.onCore m.dst (fun k => { k with inbox := k.inbox ++ [m] })
        else if k.staging.length < Config.stagingDepth then
          let t := (s'.onCore m.dst (fun k => { k with backlog := true, staging := k.staging ++ [m] })).wakeRetriever m.dst
          if k.staging = [] then t.heapFull m.dst else t
        else (s.onCore m.dst (fun k => { k with backlog := true })).wakeRetriever m.dst
    | none => s)

/-- MRECV (R234): word 0, word 1, then the sender; the Retriever takes from the staging queue while its heap has room (R235, R413). (DEDUCED, log entry 40) -/
def execMrecv (a b c : Reg) (s : State) : Out State :=
  issue { ws := [a, b, c] } (fun s =>
    let k := s.mine
    let ret := s.cur.slot == 12
    match (if ret then (if k.heap < k.hcap then k.staging else []) else k.inbox) with
    | [] => .wait .mrecv
    | m :: r =>
      let s := s.onMine (fun k => if ret then { k with staging := r, heap := k.heap + 1 } else { k with inbox := r })
      let s := if ret then s.heapFull s.cur.core else s
      .done (s.onMe (fun x => ((x.wr a m.w0).wr b m.w1).wr c (BitVec.ofNat 64 m.src)))) s

/-- MPOLL (R234). -/
def execMpoll (d : Reg) (s : State) : Out State :=
  issue { ws := [d], late := false } (fun s => .done (s.onMe (fun x => x.wr d (pollWord s.mine.inbox.length s.mine.backlog)))) s

/-- LOOPB (R236): `.end` with an empty staging queue clears BACKLOG and frees the Retriever's slot. (DEDUCED, log entry 40) -/
def execLoopb (a b c : Reg) (fin : Bool) (s : State) : Out State :=
  issue { rs := [a, b, c], who := .retriever } (fun s =>
    let x := s.me
    let src := fld (x.rd c) 0 11
    if !s.inJob s.cur.core src then .trap 0x07 0 (memInfo 7 1 3 x.asid 0 false)
    else if Config.inboxDepth ≤ s.mine.inbox.length then .wait .loopb
    else
      let m : Msg := { id := 0, slot := 12, src := src, dst := s.cur.core, w0 := x.rd a, w1 := x.rd b }
      let s := s.onMine (fun k => { k with inbox := k.inbox ++ [m], heap := k.heap - 1 })
      if fin && s.mine.staging.isEmpty then .stay (((s.onMine (fun k => { k with backlog := false })).onMe (fun x => { x with icount := x.icount + 1 })).freeSlot s.cur.core 12)
      else .done s) s

end Sys2Proof.Machine
end

