-- ==== Sys2Proof/Machine/Wait.lean ====
section
/-! DEFINITION. When a wait is over, when a slot stands at an instruction boundary, and what a wait record says (R26, R353, R400 to R403). -/

namespace Sys2Proof.Machine

open Sys2Proof

/-- The state as slot t of core c sees it. -/
def State.at_ (s : State) (c t : Nat) : State := { s with cur := { s.cur with core := c, slot := t } }

/-- The phase that a level-l SYNC of core c waits for on the level's channel ch: the one that the arrival which stands for it is for, or made it arrive
for, else the next, as where another level's arrival stands (R402). -/
def State.syncPhase (s : State) (c l ch : Nat) : BitVec 16 :=
  let k := s.core c
  let p := (k.chan ch).p
  if k.atLevel l && !s.arrivals.any (fun a => a.core == c && a.ch == ch) then p else p + 1

/-- Members of a segment that have not made the arrival of phase ph. -/
def State.missing (s : State) (c ch : Nat) (ph : BitVec 16) : List Nat :=
  (s.members c ch).filter (fun d =>
    let n := ((s.core d).chan ch).p + BitVec.ofNat 16 (s.arrivals.filter (fun a => a.core == d && a.ch == ch)).length
    !phaseReached n ph)

/-- Whether the condition of a wait that WAITLIM limits has come to hold (R400); a SYNC's is that no arrival is missing. (DEDUCED, log entry 24) -/
def State.waitOver (s : State) (c t : Nat) (w : Wait) : Bool :=
  let k := s.core c
  let x := k.slot t
  match w.kind with
  | .marker => x.pend == 0
  | .tl e v => decide (v.toNat ≤ (ectx x.counter e).toNat)
  | .waitp ch ph => phaseReached (k.chan ch).p ph
  | .sync l => (k.levelChan l).all (fun ch => (s.missing c ch (s.syncPhase c l ch)).isEmpty)
  | .rtake idx => (tget k.ports idx Port.reset).present && !k.rtakeBefore t idx w.since
  | .mrecv => if t = 12 then decide (k.heap < k.hcap) && !k.staging.isEmpty else !k.inbox.isEmpty
  | .hjoin m => k.joined m
  | .gang => k.gangReq != 0 && (gangCores c k.gangReq).all (fun d => s.asksGang d k.gangReq)
  | .arv ch => (k.chan ch).ac - (k.chan ch).p != 32767
  | .send d => !(s.at_ c t).returnedTo d
  | _ => false

/-- Whether a level's exchange that holds core c is in progress or not yet released to it (R54). -/
def State.inExchange (s : State) (c : Nat) : Bool :=
  s.exchanges.any (fun e => decide (e.tag < 8) && e.members.contains c && (e.c.isNone || e.released.contains c))

/-- Whether an instruction of the gang of core c has been issued by some of its members only: it is no boundary of its control contexts (R50). -/
def State.midGang (s : State) (c t : Nat) : Bool := t == 0 && (s.gangOf c).any (fun d => (s.core d).gangDone.isSome)

/-- Whether a member of core c's gang has still to issue the instruction that others have issued, and nothing holds it (R50). -/
def State.gangGoes (s : State) (c : Nat) : Bool :=
  s.midGang c 0 && (s.gangOf c).any (fun d => (s.slot d 0).mode == .live && (s.core d).gangDone.isNone && (s.slot d 0).park.isNone && (s.slot d 0).abort.isNone)

/-- Whether slot t of core c stands at an instruction boundary (R87, R353): between instructions, in a marker's park, or in the wait of an
instruction that has had no effect yet, a GATE, GRET or FRET that drains among them (log entry 23); none of slots 0 to 10 while an exchange phase
holds their core (R54, R410). (DEDUCED, log entry 23) -/
def State.boundary (s : State) (c t : Nat) : Bool :=
  let x := s.slot c t
  x.mode == .live && x.branches.isEmpty && x.abort.isNone && !s.midGang c t &&
  (match x.park with
    | none => !(decide (t ≤ 10) && s.inExchange c)
    | some w => match w.kind with
      | .tlb _ | .acks _ | .dead | .brk | .partner => false
      | _ => !(decide (t ≤ 10) && s.inExchange c))

/-! ## What a waiting slot waits for (R402, R403) -/

/-- The access that holds a marker's park at a directory entry: the oldest load or atomic that is parked there, or that waits behind a parked
access of its thread to the same location (R248, R400; log entry 24). (DEDUCED, log entry 24) -/
def State.parkedHolder (s : State) (x : Slot) : Option Access :=
  x.acc.find? (fun a => a.kind.returns &&
    (a.phase == .parked || x.acc.any (fun b => b.phase == .parked && decide (b.id < a.id) && s.overlaps b a)))

/-- The access whose page request a thread waits for. -/
def Slot.pageHolder (x : Slot) (id : Nat) : Option Access := x.acc.find? (fun a => a.id == id && a.phase.onPage)

/-- What an instruction that reads a block waits for the host's page for. -/
def Slot.pageAsk (x : Slot) : Option Ask := x.walk.ask.filter (fun q => q.phase.onPage)

/-- KIND, ARRIVED, ARG, WANT, FIRST and MISSING of R402 with the missing members, and the address and the access of a staged park or a page
request (log entry 46 for an instruction that reads a block). (DEDUCED, log entry 46) -/
structure WaitWord where
  kind    : Nat
  arrived : Bool
  arg     : Nat
  want    : Nat
  first   : Nat
  map     : List Nat
  addr    : Word
  acc     : Option Access

/-- TINFO of WAITTIME (R402). -/
def WaitWord.info (w : WaitWord) : Word := waitInfo w.kind w.arrived w.arg w.want w.first w.map.length

/-- The limited wait of a slot, if it is one (R400, R402). -/
def State.waitWord (s : State) (c t : Nat) (w : Wait) : Option WaitWord :=
  let k := s.core c
  let x := k.slot t
  let simple (kind arg want first : Nat) : Option WaitWord := some { kind := kind, arrived := false, arg := arg, want := want, first := first, map := [], addr := 0, acc := none }
  let at_ (kind : Nat) (a : Access) : WaitWord := { kind := kind, arrived := false, arg := 0, want := 0, first := 0, map := [], addr := a.va, acc := some a }
  match w.kind with
  | .waitp ch ph => let m := s.missing c ch ph; some { kind := 0, arrived := false, arg := ch, want := ph.toNat, first := m.headD 0, map := m, addr := 0, acc := none }
  | .sync l =>
    (match k.levelChan l with
      | some ch =>
        let ph := s.syncPhase c l ch
        let m := s.missing c ch ph
        some { kind := 1, arrived := k.atLevel l, arg := l, want := ph.toNat, first := m.headD 0, map := m, addr := 0, acc := none }
      | none => none)
  | .rtake idx => simple 2 idx 0 0
  | .mrecv => simple 3 0 0 0
  | .hjoin m => simple 4 0 (fld m 0 16) 0
  | .tl e v => simple 5 e (fld v 0 16) 0
  | .gang => simple 6 0 0 0
  | .arv ch => simple 7 ch 0 0
  | .send d => simple 8 0 0 d
  | .marker => (s.parkedHolder x).map (at_ 9)
  | .tlb id => (x.pageHolder id).map (at_ 10)
  | .walk => x.pageAsk.map (fun q => { kind := 10, arrived := false, arg := 0, want := 0, first := 0, map := [], addr := q.va, acc := none })
  | _ => none

/-- The stall reason of R346 of a wait; 0 where it names none. -/
def State.stallReason (s : State) (x : Slot) (w : Wait) : Nat :=
  match w.kind with
  | .marker => if (s.parkedHolder x).isSome then 7 else 1
  | .queue _ => 2
  | .sync _ => 3
  | .waitp _ _ | .rtake _ | .mrecv | .hjoin _ => 4
  | .tl _ _ => 5
  | .tlb _ | .walk => 6
  | .gang | .partner => 8
  | _ => 0

end Sys2Proof.Machine
end

