-- ==== Sys2Proof/Machine/Traps.lean ====
section
/-! DEFINITION. Completion traps taken at a boundary, gate aborts run down, and waits that reach their limit (R353, R363, R394, R400, R401). -/

namespace Sys2Proof.Machine

open Sys2Proof

/-! ## Completion traps -/

/-- Context and number of an ENGINE trap of a refused access (R363). -/
def Trap.engine (tr : Trap) : Option (Nat × Nat) := if tr.code = 0x15 then some (fld tr.info 0 2, fld tr.info 32 32) else none

/-- Whether a command of the slot before a trap's command is still to complete: traps of commands are taken in command order (R363). -/
def State.earlierCmd (s : State) (c t : Nat) (tr : Trap) : Bool :=
  match tr.engine with
  | none => false
  | some (e, n) => ((s.core c).cmds e).any (fun m => m.slot == t && decide (m.num % 2 ^ 32 < n))

/-- The lower-numbered of two traps of one context. -/
def Trap.before (a b : Trap) : Bool :=
  match a.engine, b.engine with
  | some (e, n), some (f, m) => e == f && decide (n < m)
  | _, _ => false

/-- The completion trap the slot takes next. -/
def State.nextTrap (s : State) (c t : Nat) : Option Trap :=
  let l := (s.slot c t).traps.filter (fun tr => !s.earlierCmd c t tr)
  l.find? (fun a => !l.any (fun b => b.before a))

/-- Commands of a slot issued since its innermost GATE (R394). -/
def State.callCmds (s : State) (c t e : Nat) : List Cmd :=
  match (s.slot c t).calls with
  | k :: _ => ((s.core c).cmds e).filter (fun m => m.slot == t && decide ((ectx k.issued e).toNat < m.num))
  | [] => []

/-- Whether an access is parked: at a directory entry, or for a page request that is out or still to go out (R248, R378). -/
def AccPhase.isParked : AccPhase → Bool
  | .parked | .wantPage | .pageReq _ _ => true
  | _ => false

/-- Whether an access of a command is parked (R248, R378). -/
def State.cmdParked (s : State) (c e : Nat) (m : Cmd) : Bool :=
  m.walk.ask.any (fun q => q.phase.isParked) || s.objs.any (fun o => o.queue.any (fun q => q.core == c && q.who == .cmd m.id)) ||
  ((s.core c).executing m.id).isSome && (match s.cmdEffect c e m with | .park _ _ => true | _ => false)

/-- An executing command whose access is withdrawn, abandoned (R363, R394). -/
def State.withdrawCmd (s : State) (c e : Nat) (m : Cmd) : State := if ((s.core c).executing m.id).isSome then s.dropAll c e m else s

/-- Parked accesses of an aborting slot, of its block read and of its commands withdrawn (R394). -/
def State.withdraw (s : State) (c t : Nat) : State :=
  let s := s.undo c t
  let s := ((s.slot c t).acc.filter (fun a => a.phase.isParked)).foldl (fun s a => s.abandonAcc c t a) s
  (List.range 4).foldl (fun s e => ((s.callCmds c t e).filter (s.cmdParked c e)).foldl (fun s m => s.withdrawCmd c e m) s) s

/-- Whether a call has drained: no register pending, no access left, every command since its GATE complete (R394). -/
def State.callDrained (s : State) (c t : Nat) : Bool :=
  let x := s.slot c t
  x.pend == 0 && x.acc.isEmpty && (List.range 4).all (fun e => (s.callCmds c t e).isEmpty)

/-- An abort goes on: parked accesses withdrawn, and once the slot has drained, in a gang every member's, the level unwinds (R394). -/
def State.abortStep (s : State) (c t : Nat) : State :=
  let s := s.withdraw c t
  if (if t = 0 then s.gangOf c else [c]).all (fun d => (s.slot d t).abort.isSome && s.callDrained d t) then s.finishAbort c t else s

/-- The slot without a completion trap that it takes now. -/
def Slot.without (x : Slot) (tr : Trap) : Slot := { x with traps := x.traps.erase tr, park := none }

/-- The completion traps that the members of core c's gang take together (R357). (DEDUCED, log entry 36) (DESIGN CHOICE, log entry 107) -/
def State.gangTraps (s : State) (c : Nat) : List (Nat × Trap) :=
  (s.gangOf c).filterMap (fun d => if s.boundary d 0 then (s.nextTrap d 0).map (fun tr => (d, tr)) else none)

/-- COMPLETION_TRAP_TAKE (R353): at the slot's boundary the next completion trap is taken; an abort in progress goes on; nothing while the core's
clock is paused, or, of a control context, that of any member of its gang (R386). -/
def execCompletionTrapTake (c t : Nat) (s : State) : Out State :=
  .next (if (if t = 0 then s.gangOf c else [c]).any (fun d => (s.core d).vf.moving.isSome) then s
    else match (s.slot c t).abort with
      | some _ => s.abortStep c t
      | none =>
        if s.boundary c t then
          match s.nextTrap c t with
          | some tr =>
            if t = 0 ∧ (s.core c).gang ≠ 0 then
              let own := s.gangTraps c
              (own.foldl (fun s p => s.onSlot p.1 0 (fun x => x.without p.2)) s).takeGang own
            else (s.onSlot c t (fun x => x.without tr)).takeTrap c t tr
          | none => s
        else s)

/-! ## Wait limits (R400, R401) -/

/-- WAITTIME: the waiting instruction's own undoing, then the trap (R401, R403); an instruction whose block read waits on a page request is
withdrawn whole, as the access is (log entry 46). (DEDUCED, log entry 46) -/
def State.timeOut (s : State) (c t : Nat) (w : WaitWord) : State :=
  match w.acc with
  | some a =>
    let s := s.abandonAcc c t a
    (s.onSlot c t (fun x => { x with park := none })).takeTrap c t
      { code := 0x10, defer := false, page := a.page, op := a.op, addr := a.va, info := w.info, fpc := a.fpc, map := none }
  | none =>
    let po := s.opAt c t
    let fpc := (s.slot c t).pc
    let s := if w.kind = 6 then s.onCore c (fun k => { k with gangReq := 0 }) else s
    let s := if w.kind = 1 ∧ w.arrived = false then s.onCore c (fun k => { k with sync := if k.sync.level = some w.arg then .none else k.sync }) else s
    let s := if w.kind = 10 then s.onSlot c t (fun x => { x with pc := x.pc + BitVec.ofNat 64 po.2.2 }) else s
    (s.onSlot c t (fun x => { x with park := none })).takeTrap c t
      { code := 0x10, defer := false, page := po.1, op := po.2.1, addr := w.addr, info := w.info, fpc := fpc, map := if w.kind ≤ 1 then some w.map else none }

/-- Whether a limited wait has reached its LIMIT with its condition not holding (R400). -/
def State.expired (s : State) (c t : Nat) (w : Wait) : Bool :=
  w.limit != 0 && decide (w.since + w.limit ≤ s.rtime.toNat) && s.runs c && (s.core c).vf.moving.isNone && !s.waitOver c t w

/-- WAIT_TIMEOUT (R400, R401). -/
def execWaitTimeout (c t : Nat) (s : State) : Out State :=
  .next (match (s.slot c t).park with
    | some w =>
      if s.expired c t w then
        match s.waitWord c t w with
        | some k => s.timeOut c t k
        | none => s
      else s
    | none => s)

end Sys2Proof.Machine
end

