-- ==== Sys2Proof/Machine/System.lean ====
section
/-! DEFINITION. Page 7's system instructions, STLOAD, and the translation service: misses, ATS, page requests, invalidations, replays (R255, R318, R373 to R382, R388). -/

namespace Sys2Proof.Machine

open Sys2Proof

/-! ## Broadcasts and their acknowledgements (R376, R380) -/

/-- A broadcast to cores. -/
def State.broadcast (s : State) (what : Cast) (cs : List Nat) : State :=
  { s with casts := s.casts ++ [{ id := s.nextId, what := what, left := cs }], nextId := s.nextId + 1 }

/-- Every logical core. -/
def allCores : List Nat := List.range (Config.gridW * Config.gridH)

/-- Threads that wait for a broadcast go on. -/
def State.endAcks (s : State) (id : Nat) : State :=
  { s with cores := s.cores.map (fun p => (p.1, { p.2 with slots := p.2.slots.map (fun q => (q.1,
      match q.2.park with
      | some w => if w.kind = .acks id then q.2.unpark s.rtime.toNat else q.2
      | none => q.2)) })) }

/-- Core c acknowledges a broadcast; after the last one it is complete. -/
def State.acknowledge (s : State) (id c : Nat) : State :=
  let l := s.casts.map (fun r => if r.id = id then { r with left := r.left.filter (· != c) } else r)
  let done := l.any (fun r => r.id == id && r.left.isEmpty)
  let s := { s with casts := l.filter (fun r => !(r.id == id && r.left.isEmpty)) }
  if done then s.endAcks id else s

/-- Whether an invalidation drops an entry (R375, R376). (DEDUCED, log entry 49) -/
def Cast.drops (k : Cast) (e : TlbEntry) : Bool :=
  match k with
  | .inv asid all allAsid va size =>
    all || (e.asid == asid && (allAsid || (e.size == size && e.va == va / pageBytes size * pageBytes size)))
  | .ats va size => e.host && meets e.va (pageBytes e.size) (va / pageBytes size * pageBytes size) (pageBytes size)
  | .replay _ _ => false

/-- Whether an access was translated by an entry that an invalidation takes away. (DEDUCED, log entry 49) -/
def Cast.covers (k : Cast) (a : Access) : Bool :=
  match a.place with
  | none => false
  | some p =>
    p.virt && (match k with
      | .inv asid all allAsid va size => all || (a.asid == asid && (allAsid || (p.size == size && p.page == va / pageBytes size * pageBytes size)))
      | .ats va size => p.host && meets p.page (pageBytes p.size) (va / pageBytes size * pageBytes size) (pageBytes size)
      | .replay _ _ => false)

/-- Translations without what an invalidation drops. -/
def Cast.filter (what : Cast) (l : List TlbEntry) : List TlbEntry := l.filter (fun e => !what.drops e)

/-- A walk without them. -/
def Walk.drop (w : Walk) (what : Cast) : Walk := { w with xlat := what.filter w.xlat }

/-- The three TLBs of a core, and the translations that its walks have got, without what an invalidation drops. -/
def Core.dropTlb (k : Core) (what : Cast) : Core :=
  { k.mapWalks (fun w => w.drop what) with tlb := what.filter k.tlb, mtlb := what.filter k.mtlb, ctlb := what.filter k.ctlb }

/-- The cluster caches without it. -/
def State.dropCtc (s : State) (what : Cast) : State := { s with ctc := s.ctc.map (fun p => (p.1, what.filter p.2)) }

/-- TLB_INVALIDATION_ACK (R376): the entries go; the controller acknowledges once every access they translated is performed, but for those parked
at a directory entry. (DEDUCED, log entry 49) -/
def execTlbInvalidationAck (c : Nat) (s : State) : Out State :=
  .next (match s.casts.find? (fun r => r.left.contains c && (match r.what with | .replay _ _ => false | _ => true)) with
    | some r =>
      let s := s.onCore c (fun k => k.dropTlb r.what)
      if (s.core c).slots.any (fun p => p.2.acc.any (fun a => a.phase == .ready && r.what.covers a)) then s else s.acknowledge r.id c
    | none => s)

/-! ## Misses (R147, R170, R373, R377, R378) -/

/-- Thread accesses of a core that a fresh TLB entry serves go on; accesses parked on a page request wait for REPLAY. -/
def State.wakeMisses (s : State) (c : Nat) : State :=
  (s.core c).slots.foldl (fun s q =>
    q.2.acc.foldl (fun s a =>
      let waits := match a.phase with | .miss | .ats _ => true | _ => false
      match (if waits then s.tlbPlace c a.asid a.va else none) with
      | some p =>
        if p.lacks a.kind.acc then s
        else (s.onSlot c q.1 (fun x => { x with acc := x.acc.map (fun b => if b.id = a.id then { b with place := some p, phase := .ready } else b) })).endTlbPark c q.1 a.id
      | none => s) s) s

/-- A translation written into a core's TLB. -/
def State.fillCore (s : State) (c : Nat) (e : TlbEntry) : State := (s.onCore c (fun k => k.fill e true)).wakeMisses c

/-- Who misses: an access of slot t, or a walk. -/
inductive Misser where
  | access (t : Nat) (a : Access)
  | walker (who : Parker) (asid : BitVec 16) (q : Ask)
  deriving DecidableEq, Repr

/-- What an executing command misses on, if it does. -/
def State.cmdMiss (s : State) (c e : Nat) (m : Cmd) : Option (Word × Bool) :=
  if m.isMarker || ((s.core c).executing m.id).isNone then none else match s.cmdEffect c e m with | .miss v w => some (v, w) | _ => none

/-- The misser that TRANSLATION_MISS_REQUEST names: access id of slot t; 13 to 16, command id of engine t - 13; 17, the block read of slot id; 18,
the coupling copy of field id (log entry 16). (DESIGN CHOICE, log entry 16) -/
def State.misser (s : State) (c t id : Nat) : Option Misser :=
  if t = 17 then (s.slot c id).walk.ask.map (.walker (.block id) (s.slot c id).asid)
  else if t = 18 then ((s.core c).field? id).bind (fun f => f.walk.ask.map (.walker (.field id) f.asid))
  else if 13 ≤ t ∧ t < 17 then
    (((s.core c).cmds (t - 13)).find? (fun m => m.id == id)).bind (fun m =>
      (s.cmdMiss c (t - 13) m).bind (fun q => (m.walk.askFor q.1 q.2 (ofBool q.2)).ask.map (.walker (.cmd id) m.asid)))
  else ((s.slot c t).acc.find? (fun a => a.id == id)).map (.access t)

def Misser.va : Misser → Word
  | .access _ a => a.va
  | .walker _ _ q => q.va
def Misser.asid : Misser → BitVec 16
  | .access _ a => a.asid
  | .walker _ d _ => d
def Misser.reads : Misser → Bool
  | .access _ a => accReads a.kind.acc && !accWrites a.kind.acc
  | .walker _ _ q => !q.write
def Misser.writes : Misser → Bool
  | .access _ a => accWrites a.kind.acc
  | .walker _ _ q => q.write
def Misser.phase : Misser → AccPhase
  | .access _ a => a.phase
  | .walker _ _ q => q.phase
def Misser.reqs : Misser → Nat
  | .access _ a => a.reqs
  | .walker _ _ q => q.reqs
/-- Its bit in REPLAY's ACCMASK (R380). -/
def Misser.kind : Misser → Nat
  | .access _ a => ofBool (accWrites a.kind.acc)
  | .walker _ _ q => q.kind

/-- Whether a host-shared translation lacks a right it needs (R378). -/
def Misser.refusedBy (m : Misser) (e : TlbEntry) : Bool := e.host && ((m.reads && !e.r) || (m.writes && !e.w))

/-- It fails with PAGE: an access at once, a walk when it comes to that page again (R377). -/
def State.failPage (s : State) (c : Nat) (m : Misser) (reason space : Nat) : State :=
  match m with
  | .access t a => s.refuseAcc c t a ⟨0x09, reason, space, 0⟩
  | .walker who _ q => s.onWalk c who (fun w => { w with failed := (q.va.toNat / 2 ^ 12, q.write, reason) :: w.failed, ask := none, counted := w.count q })

/-- A thread's park at its access, or at its block read, begins anew as a wait for a page request (R400). -/
def State.parkOnPage (s : State) (c t : Nat) (k : Park) : State :=
  s.onSlot c t (fun x => match x.park with
    | some w => if w.kind = k then x.waitFor s.rtime.toNat k w.mark else x
    | none => x)

/-- It is marked with what it waits for. -/
def State.holdMiss (s : State) (c : Nat) (m : Misser) (phase : AccPhase) : State :=
  let again := ofBool phase.onPage
  match m with
  | .access t a =>
    let s := s.onSlot c t (fun x => { x with acc := x.acc.map (fun b => if b.id = a.id then { b with phase := phase, reqs := b.reqs + again } else b) })
    if phase.onPage then s.parkOnPage c t (.tlb a.id) else s
  | .walker who _ q =>
    let s := s.onWalk c who (fun w => { w with ask := some { q with phase := phase, reqs := q.reqs + again } })
    match who with
    | .block t => if phase.onPage then s.parkOnPage c t .walk else s
    | _ => s

/-- Whether page requests may be sent (R379). -/
def State.priOn (s : State) : Bool := s.priEnable && !s.priFailed

/-- The PRG Index of the next request, if the host's allocation leaves one: 256 to 511 for a repeated fault (R378, R382). (PRESUMED, log entry 50) -/
def State.freeIndex (s : State) (repeated : Bool) : Option Nat :=
  if s.priAlloc ≤ s.pageReqs.length then none
  else (List.range' (256 * ofBool repeated) 256).find? (fun i => !s.pageReqs.any (fun r => r.idx == i))

/-- The outstanding request for a page with these flags (R378). -/
def State.asked (s : State) (pasid : BitVec 20) (va : Nat) (r w : Bool) : Option PageReq :=
  s.pageReqs.find? (fun q => q.pasid == pasid && q.va == va && q.r == r && q.w == w)

/-- It parks on a page request, last of all that have parked (R380). -/
def State.joinRequest (s : State) (c : Nat) (m : Misser) (req : Nat) : State := { s with nextId := s.nextId + 1 }.holdMiss c m (.pageReq req s.nextId)

/-- PAGE_REQUEST (R378, R382): the fault joins the request outstanding for its page and flags, or sends one, or waits for a free one; with page
requests disabled it fails, at a core whose clock runs (R379, R386). (PRESUMED, log entry 50) -/
def State.pageRequest (s : State) (c : Nat) (m : Misser) : State :=
  if !s.priOn then (if (s.core c).vf.moving.isSome then s.holdMiss c m .miss else s.failPage c m 2 1)
  else
    let page := m.va.toNat / 2 ^ 12 * 2 ^ 12
    let pid := s.pasid c
    match s.asked pid page m.reads m.writes, s.freeIndex (decide (4 ≤ m.reqs)) with
    | some r, _ => s.joinRequest c m r.id
    | none, none => s.holdMiss c m .wantPage
    | none, some i =>
      let id := s.nextId
      ({ s with nextId := id + 1, pageReqs := s.pageReqs ++ [({ id := id, pasid := pid, asid := m.asid, va := page, r := m.reads, w := m.writes, idx := i } : PageReq)] }).joinRequest c m id

/-- An ATS Translation Request under the job's PASID (R318, R373). (PRESUMED, log entry 50) -/
def State.atsRequest (s : State) (c t id : Nat) (m : Misser) : State :=
  let n := s.nextId
  let r : AtsReq := { id := n, core := c, slot := t, acc := id, pasid := s.pasid c, va := m.va.toNat / 2 ^ 12 * 2 ^ 12, write := m.writes, stale := [] }
  ({ s with nextId := n + 1, atsReqs := s.atsReqs ++ [r] }).holdMiss c m (.ats n)

/-- The micro-TLB of the matrix, 13, or the copy load pipe, 15, filled (R147). -/
def Core.fillMicro (k : Core) (t : Nat) (e : TlbEntry) : Core :=
  if t = 13 then { k with mtlb := fillTlb k.mtlb e Config.microEntries }
  else if t = 15 then { k with ctlb := fillTlb k.ctlb e Config.microEntries }
  else k

/-- A misser has its translation: an access from the core TLB; a walk through its micro-TLB, if it has one, too. The count of its page requests stays
until the access is performed or fails (R382). -/
def State.served (s : State) (c t : Nat) (m : Misser) (e : TlbEntry) : State :=
  match m with
  | .access _ _ => s.wakeMisses c
  | .walker who _ q => (s.onCore c (fun k => k.fillMicro t e)).onWalk c who (fun w =>
      { w with xlat := e :: w.xlat, ask := none, counted := w.count q })

/-- TRANSLATION_MISS_REQUEST (R147, R373): the core TLB, the cluster cache, firmware's tables, then ATS; one that waits for a free page request asks
for it again (R378). Nothing comes to a core whose clock is paused (R386). -/
def execTranslationMissRequest (c t id : Nat) (s : State) : Out State :=
  .next (if (s.core c).vf.moving.isSome then s
    else match s.misser c t id with
      | none => s
      | some m =>
        match m.phase with
        | .wantPage => s.pageRequest c m
        | .miss =>
          let va := m.va.toNat
          match (lookup (s.core c).tlb m.asid va).filter (fun e => !m.refusedBy e), s.serviceLookup c m.asid va with
          | some e, _ => s.served c t m e
          | none, some e => if m.refusedBy e then s.atsRequest c t id m else (s.fillCore c e).served c t m e
          | none, none => if s.pv c then s.atsRequest c t id m else s.failPage c m 0 0
        | _ => s)

/-- The device's translations under a PASID: a table of their own behind the 128 clusters' (log entry 30). (DESIGN CHOICE, log entry 30) -/
def devTable (pasid : Nat) : Nat := 128 + pasid

/-- A translation kept for the device. -/
def State.putDev (s : State) (pasid : BitVec 20) (e : TlbEntry) : State :=
  let k := devTable pasid.toNat
  { s with ctc := tset s.ctc k (e :: tget s.ctc k []) }

/-- The page that a device request of a launch names, refused to that launch's access (R323, R377). (DESIGN CHOICE, log entry 30) -/
def State.refuseDev (s : State) (r : AtsReq) : State := { s with refusals := (r.slot, r.va, r.write) :: s.refusals }

/-- The entry of a Translation Completion for an address. -/
def atsEntry (asid : BitVec 16) (va : Nat) (pa : Word) (size : BitVec 2) (rd wr : Bool) : TlbEntry :=
  let n := pageBytes size
  { asid := asid, va := va / n * n, size := size, pa := pa.toNat / n * n, ty := 0, r := rd, w := wr, st := false, host := true, key := 0 }

/-- A fault of the device's own access becomes a page request, on which its ATS record then waits; with page requests disabled the access fails
(R318, R323, R378, R379). (DESIGN CHOICE, log entry 30) -/
def State.devFault (s : State) (r : AtsReq) : State :=
  let onReq (s : State) (id : Nat) : State := { s with atsReqs := s.atsReqs.map (fun x => if x.id = r.id then { x with acc := id + 1 } else x) }
  let dropped : State := { s with atsReqs := s.atsReqs.filter (fun x => x.id != r.id) }
  if !s.priOn then dropped.refuseDev r
  else match s.asked r.pasid r.va (!r.write) r.write, s.freeIndex false with
    | some q, _ => onReq s q.id
    | none, none => dropped
    | none, some i =>
      onReq { s with nextId := s.nextId + 1, pageReqs := s.pageReqs ++ [({ id := s.nextId, pasid := r.pasid, asid := 0, va := r.va, r := !r.write, w := r.write, idx := i } : PageReq)] } s.nextId

/-- The answer to a device's request. (DESIGN CHOICE, log entry 30) -/
def State.devAnswer (s : State) (r : AtsReq) (ans : AtsAnswer) : State :=
  match ans with
  | .absent => s.devFault r
  | .present pa size rd wr =>
    if (if r.write then wr else rd) then { s with atsReqs := s.atsReqs.filter (fun x => x.id != r.id) }.putDev r.pasid (atsEntry 0 r.va pa size rd wr)
    else s.devFault r

/-- The page that an answer to a request speaks of, by address and size: its entry's, or the 4 KiB page asked for. -/
def AtsReq.result (r : AtsReq) (ans : AtsAnswer) : Nat × BitVec 2 :=
  match ans with
  | .present _ size _ _ => (r.va / pageBytes size * pageBytes size, size)
  | .absent => (r.va, 0)

/-- Whether an invalidation that came while a request was in flight covers some of its answer (R381). -/
def AtsReq.isStale (r : AtsReq) (ans : AtsAnswer) : Bool :=
  r.stale.any (fun q => meets q.1 (pageBytes q.2) (r.result ans).1 (pageBytes (r.result ans).2))

/-- ATS_TRANSLATION_COMPLETION (R318, R373, R378, R381): a stale answer is asked for again; a sufficient one fills the cluster cache, whose size the
spec does not give (DESIGN CHOICE, log entry 63), and the core's TLBs; the rest becomes a page request. -/
def execAtsTranslationCompletion (req : Nat) (ans : AtsAnswer) (s : State) : Out State :=
  .next (match s.atsReqs.find? (fun r => r.id == req) with
    | none => s
    | some r =>
      if r.isStale ans then { s with atsReqs := s.atsReqs.map (fun x => if x.id = req then { x with stale := [] } else x) }
      else if r.core = noCore then (if r.acc = 0 then s.devAnswer r ans else s)
      else
        let s := { s with atsReqs := s.atsReqs.filter (fun x => x.id != req) }
        match (s.misser r.core r.slot r.acc).filter (fun m => m.phase == .ats req) with
        | none => s
        | some m =>
          match ans with
          | .absent => s.pageRequest r.core m
          | .present pa size rd wr =>
            let e := atsEntry m.asid m.va.toNat pa size rd wr
            if m.refusedBy e then s.pageRequest r.core m
            else
              let k := clusterOf r.core
              let s := { s with ctc := tset s.ctc k (fillTlb (tget s.ctc k []) e Config.ctcEntries) }
              if (s.core r.core).vf.moving.isSome then s.holdMiss r.core m .miss else (s.fillCore r.core e).served r.core r.slot m e)

/-! ## Page responses and replays (R379, R380) -/

/-- Whether a replay's page, ASID and mask name what is parked. -/
def replayHits (a b : Word) (m : Misser) : Bool :=
  let n := pageBytes (BitVec.ofNat 2 (fld b 16 2))
  m.asid == BitVec.ofNat 16 (fld b 0 16) && decide (m.va.toNat / n = a.toNat / n) && (fld b 18 3 == 0 || bit b (18 + m.kind))

/-- One that is released: it retries, or fails with PAGE. -/
def State.release (s : State) (c : Nat) (m : Misser) (outcome : Nat) : State :=
  if outcome = 0 then s.holdMiss c m .miss else s.failPage c m outcome 1

/-- When something parked on a page request. -/
def Misser.order (m : Misser) : Option Nat :=
  match m.phase with
  | .pageReq _ n => some n
  | _ => none

/-- The accesses and walks of a core (R380). -/
def State.missers (s : State) (c : Nat) : List Misser :=
  let k := s.core c
  let walk (who : Parker) (asid : BitVec 16) (w : Walk) : List Misser := (w.ask.map (.walker who asid)).toList
  k.slots.flatMap (fun p => p.2.acc.map (.access p.1) ++ walk (.block p.1) p.2.asid p.2.walk) ++
  [0, 1, 2, 3].flatMap (fun e => (k.cmds e).flatMap (fun m => walk (.cmd m.id) m.asid m.walk)) ++
  k.fields.flatMap (fun p => walk (.field p.1) p.2.asid p.2.walk)

/-- A misser put among others in the order of parking. -/
def insertMisser (m : Misser) : List Misser → List Misser
  | [] => [m]
  | q :: r => if m.order.getD 0 < q.order.getD 0 then m :: q :: r else q :: insertMisser m r

/-- What is parked on page requests at core c, in the order in which it parked (R380). -/
def State.parkedOrder (s : State) (c : Nat) : List Misser := ((s.missers c).filter (fun m => m.order.isSome)).foldl (fun l m => insertMisser m l) []

/-- Every parked access of core c that a replay names, in the order of parking (R380). -/
def State.replayAt (s : State) (c : Nat) (a b : Word) : State :=
  ((s.parkedOrder c).filter (replayHits a b)).foldl (fun s m => s.release c m (fld b 21 2)) s

/-- REPLAY_COMMAND_RECEIVE (R380); at a core whose clock is paused it waits (R386). -/
def execReplayCommandReceive (c : Nat) (s : State) : Out State :=
  .next (match s.casts.find? (fun r => r.left.contains c && (match r.what with | .replay _ _ => true | _ => false)) with
    | some r =>
      if (s.core c).vf.moving.isSome then s
      else match r.what with
        | .replay a b => (s.replayAt c a b).acknowledge r.id c
        | _ => s
    | none => s)

/-- A device's own access whose page request is answered: it asks afresh, or fails (R323, R379). (DESIGN CHOICE, log entry 30) -/
def State.devResponse (s : State) (req : Nat) (ok : Bool) : State :=
  let mine (r : AtsReq) : Bool := r.core == noCore && r.acc == req + 1
  let t : State := { s with atsReqs := s.atsReqs.filter (fun r => !mine r) }
  if ok then t else (s.atsReqs.filter mine).foldl State.refuseDev t

/-- The ASIDs of what is parked on a page request. -/
def State.joinedAsids (s : State) (req : Nat) : List (BitVec 16) :=
  s.cores.flatMap (fun k => (s.missers k.1).filterMap (fun m => match m.phase with | .pageReq q _ => if q = req then some m.asid else none | _ => none))

/-- PRG_RESPONSE (R379): code 0 success, 1 invalid request, 2 response failure; the service core replays the request's page to what may have joined it,
a Herder's read with the other reads (R380); a failure stands for what is saved meanwhile, too. (DEDUCED, log entry 49) -/
def execPrgResponse (req : Nat) (code : BitVec 2) (s : State) : Out State :=
  .next (match s.pageReqs.find? (fun r => r.id == req) with
    | none => s
    | some r =>
      if code = 3 then s
      else
        let s : State := { s with pageReqs := s.pageReqs.filter (fun x => x.id != req), priFailed := s.priFailed || code == 2, answers := if code = 0 ∨ s.saves = [] then s.answers else s.answers ++ [(req, code.toNat)] }
        let s := s.devResponse req (code == 0)
        let mask := if r.w then 2 ^ 19 else ofBool r.r * (2 ^ 18 + 2 ^ 20)
        let others := (s.jobs.filter (fun j => bit (j.pw 19) 20 && fld (j.pw 19) 0 20 == r.pasid.toNat)).map (·.asid)
        (r.asid :: (others ++ s.joinedAsids req)).eraseDups.foldl (fun s asid =>
          s.broadcast (.replay (BitVec.ofNat 64 r.va) (BitVec.ofNat 64 (asid.toNat + mask + code.toNat * 2 ^ 21))) allCores) s)

/-- ATS_INVALIDATION_REQUEST (R318, R376, R381): requests in flight for the range turn stale; every cache drops it and every core acknowledges; the recovery configuration takes none (R424). (DEDUCED, log entry 49) -/
def execAtsInvalidationRequest (pasid : BitVec 20) (va : Word) (size : BitVec 2) (s : State) : Out State :=
  let n := pageBytes size
  let what : Cast := .ats va.toNat size
  let s' : State := { s with atsReqs := s.atsReqs.map (fun r => if r.pasid = pasid then { r with stale := r.stale ++ [(va.toNat / n * n, size)] } else r) }
  .next (if s.fail then s else (s'.dropCtc what).broadcast what allCores)

/-! ## TLBFILL, TLBINV, REPLAY -/

/-- The entry that a TLBFILL's four words hold, if no reserved bit is set (R374); none inside for VALID = 0. (DEDUCED, log entry 46) -/
def fillEntry (w0 w1 w2 w3 : Word) : Option (TlbEntry × Bool) :=
  let size : BitVec 2 := BitVec.ofNat 2 (fld w0 0 2)
  let va := fld w0 12 44 * 2 ^ 12
  let pa := fld w2 12 44 * 2 ^ 12
  if fld w0 3 9 ≠ 0 ∨ fld w0 56 8 ≠ 0 ∨ fld w1 16 48 ≠ 0 ∨ fld w2 0 12 ≠ 0 ∨ fld w2 56 8 ≠ 0 ∨ fld w3 13 51 ≠ 0 ∨ va % pageBytes size ≠ 0 then none
  else some ({ asid := BitVec.ofNat 16 (fld w1 0 16), va := va, size := size, pa := pa, ty := BitVec.ofNat 2 (fld w3 0 2), r := bit w3 2, w := bit w3 3, st := bit w3 4, host := bit w3 5, key := BitVec.ofNat 7 (fld w3 6 7) }, bit w0 2)

/-- TLBFILL (R374); at a target whose clock is paused it waits (R386). (DEDUCED, log entry 46) -/
def execTlbfill (a b : Reg) (s : State) : Out State :=
  issue { rs := [a, b], priv := true } (fun s =>
    let x := s.me
    let d := (x.rd a).toNat
    if !aligned (x.rd b) 32 then .misaligned (x.rd b) 5
    else match spaceOf (x.rd b) with
      | .self off =>
        if 2048 ≤ d then .illegal 3
        else if s.blockHeld (x.rd b) 32 then .wait .order
        else if (s.core d).vf.moving.isSome then .wait (.paused d)
        else
          let w (i : Nat) := s.coreWord s.cur.core (off + 8 * i)
          match s.poisoned (coreKey s.cur.core off) 32 with
          | some r => .done (s.blockDenied (x.rd b) ⟨0x14, r, 4, 0⟩)
          | none =>
            match fillEntry (w 0) (w 1) (w 2) (w 3) with
            | none => .illegal 3
            | some (e, true) => .done (s.fillCore d e)
            | some (e, false) => .done (s.onCore d (fun k => k.fill e false))
      | _ => .illegal 3) s

/-- TLBINV (R375, R376): the thread waits for every target's acknowledgement. -/
def execTlbinv (a b : Reg) (s : State) : Out State :=
  issue { rs := [a, b], priv := true } (fun s =>
    let w := s.me.rd b
    if fld w 32 32 ≠ 0 then .illegal 3
    else
      let what : Cast := .inv (BitVec.ofNat 16 (fld w 0 16)) (bit w 19) (bit w 18) (s.me.rd a).toNat (BitVec.ofNat 2 (fld w 16 2))
      let id := s.nextId
      let s := if bit w 31 then (s.dropCtc what).broadcast what allCores else s.broadcast what [fld w 20 11]
      .done (s.onMe (fun x => x.waitFor s.rtime.toNat (.acks id) false))) s

/-- REPLAY (R380): OUTCOME 3 and the reserved bits are ILLEGAL. -/
def execReplay (a b : Reg) (s : State) : Out State :=
  issue { rs := [a, b], priv := true } (fun s =>
    let w := s.me.rd b
    if fld w 23 41 ≠ 0 ∨ fld w 21 2 = 3 then .illegal 3
    else
      let id := s.nextId
      .done ((s.broadcast (.replay (s.me.rd a) w) allCores).onMe (fun x => x.waitFor s.rtime.toNat (.acks id) false))) s

/-! ## STLOAD (R255, R388) -/

/-- Whether a class table obeys R243 and R244; a transition-0 entry with VALID = 0 is held to no NEXT, SIDE or OWNER, since an unfilled one is 0 in
every state (R256). (DEDUCED, log entry 71) -/
def tableOk (l : List Half) : Bool :=
  let e (i : Nat) : Nat := (l.getD i 0).toNat
  (List.range 256).all (fun i =>
    let s := i / 16
    let v := e i
    decide (v / 2 ^ 12 = 0) &&
    (if i % 16 = 0 then !entValid v || (entNext v == s && entSide v == 0 && entOwner v == 0)
     else !entValid v || entValid (e (16 * entNext v))))

/-- STLOAD (R255): its STAGE is an issue trap, that of its own read too (R387). (DEDUCED, log entry 46) -/
def execStload (a b : Reg) (s : State) : Out State :=
  let s0 := s
  issue { rs := [a, b] } (fun s =>
    let x := s.me
    let c := fld (x.rd a) 0 6
    if !aligned (x.rd b) 64 then .misaligned (x.rd b) 6
    else if spaceOf (x.rd b) = .reserved then s.blockNowhere (x.rd b)
    else if s.blockHeld (x.rd b) 512 then .wait .order
    else if s.objs.any (fun o => o.binder == x.dom && o.cls == c) then .trap 0x0B (x.rd b) (stageInfo 9 6 0 none)
    else match s.blockRead (x.rd b) 512 with
      | .ok l =>
        let t : List Half := (List.range 256).map (fun i => BitVec.ofNat 16 (ofBytes ((l.drop (2 * i)).take 2)))
        if tableOk t then .done { s with classes := tset s.classes (x.dom.toNat * 64 + c) t }
        else .trap 0x0B (x.rd b) (stageInfo 10 6 0 none)
      | .deny _ va _ d => if d.code = 0x0B then .trap 0x0B va (stageInfo d.reason 6 0 (s.blockObj va)) else .done (s.blockDenied va d)
      | r => s0.blockWait 0 r) s

end Sys2Proof.Machine
end

