-- ==== Sys2Proof/Machine/Queue.lean ====
section
/-! DEFINITION. The host's side: queues, doorbells, BAR0 and BAR4, MSI-X, configuration requests and bring-up (R316 to R321, R328, R334, R335, R379, R419, R424, R425). -/

namespace Sys2Proof.Machine

open Sys2Proof

/-! ## Placement and steering (R9, R10, R20, R343, R344, R417)

Physical parts have numbers among the retired units and in the health log (log entry 31); no result of a program depends on them. -/

/-- First number of the physical cores, of the commons banks, and of the service cores. (DESIGN CHOICE, log entry 31) -/
def coreUnit : Nat := 2 ^ 41
/-- (DESIGN CHOICE, log entry 31) -/
def bankUnit : Nat := 2 ^ 16
/-- (DESIGN CHOICE, log entry 31) -/
def serviceUnit : Nat := 2 ^ 43
/-- First unit of the HBM rows, of the slice ways, 64 to a slice, of the Seam lanes, 64 to a row link, and of the fabric lanes, 64 to a port.
(DESIGN CHOICE, log entry 31) -/
def rowUnit : Nat := 2 ^ 17
/-- (DESIGN CHOICE, log entry 31) -/
def wayUnit : Nat := 2 ^ 40
/-- (DESIGN CHOICE, log entry 31) -/
def laneUnit : Nat := 2 ^ 42
/-- (DESIGN CHOICE, log entry 31) -/
def fabricUnit : Nat := 2 ^ 44

/-- Whether a unit is retired. -/
def State.isRetired (s : State) (unit : Nat) : Bool := s.retired.contains unit

/-- A valid REMAPENT word (R343). -/
def remapEntry (die row col : Nat) : Word := BitVec.ofNat 64 (die + row * 2 + col * 2 ^ 7 + 2 ^ 24)

/-- The physical core, by die, row and column, that an entry names. -/
def physOf (e : Word) : Nat := fld e 0 1 * 1088 + fld e 1 6 * 32 + fld e 7 5

/-- The entry of logical core c. -/
def State.placeOf (s : State) (c : Nat) : Word := tget s.remap c 0

/-- The entry of a logical core at its own position (R8, R343). (DESIGN CHOICE, log entry 57) -/
def homeEntry (c : Nat) : Word := remapEntry (dieOf c) (coreY c) (coreX c % 32)

/-- The physical cores of a die's two spare rows. -/
def spareEntries (die : Nat) : List Word := (List.range Config.spareCores).map (fun i => remapEntry die (32 + i / 32) (i % 32))

/-- Whether a physical core works and carries no logical core. (DESIGN CHOICE, log entry 57) -/
def State.physFree (s : State) (p : Nat) : Bool := !s.isRetired (coreUnit + p) && !s.remap.any (fun q => bit q.2 24 && physOf q.2 == p)

/-- A pair of a die that time-slices the physical core of its second member (R344). (DESIGN CHOICE, log entry 57) -/
def State.shareWith (s : State) (c d : Nat) : State :=
  let e := s.placeOf d
  let pair (o : Nat) : Word := putFld (putFld e 12 1 1) 13 11 o
  { s with remap := tset (tset s.remap c (pair d)) d (pair c) }

/-- Logical core c bound to its own position, else to the first free spare of its die, else paired SHARED with the lowest core of its die that no
job occupies (R9, R344, R417). (DESIGN CHOICE, log entry 57) -/
def State.bindCore (s : State) (c : Nat) : State :=
  match (homeEntry c :: spareEntries (dieOf c)).find? (fun e => s.physFree (physOf e)) with
  | some e => { s with remap := tset s.remap c e }
  | none =>
    match s.remap.find? (fun q => q.1 != c && dieOf q.1 == dieOf c && bit q.2 24 && !bit q.2 12 && (s.core q.1).job.isNone) with
    | some q => s.shareWith c q.1
    | none => s

/-- The logical cores that a lost physical core carried have no valid entry any more. -/
def State.unbind (s : State) (p : Nat) : State :=
  { s with remap := s.remap.map (fun q => if bit q.2 24 && physOf q.2 == p then (q.1, 0) else q) }

/-- Every logical core without a valid entry that no job occupies is bound again (R417). -/
def State.rebind (s : State) : State :=
  ((s.remap.filter (fun q => !bit q.2 24 && (s.core q.1).job.isNone)).map (·.1)).foldl State.bindCore s

/-- The steering of one die: a bad place takes the first working spare left, and behind the spares the first of more; the die's first place when none is
left. (DESIGN CHOICE, log entry 57) -/
def steerDie (bad : Nat → Bool) (base inUse perDie : Nat) (more : List Nat) : List Nat :=
  ((List.range inUse).foldl (fun (q : List Nat × List Nat) i =>
    if bad (base + i) then
      match q.2 with
      | p :: r => (q.1 ++ [p], r)
      | [] => (q.1 ++ [base], [])
    else (q.1 ++ [base + i], q.2)) ([], (List.range' (base + inUse) (perDie - inUse)).filter (fun i => !bad i) ++ more)).1

/-- The cluster steering table: clusters whose die has no spare left go one each to that die's working service cores, which then serve two (R10, R417). (DESIGN CHOICE, log entry 57) -/
def State.serviceTable (s : State) : Tbl Nat :=
  let bad (i : Nat) := s.isRetired (serviceUnit + i)
  let die (d : Nat) :=
    let base := d * Config.servicePerDie
    let l := steerDie bad base Config.serviceInUse Config.servicePerDie ((List.range' base Config.servicePerDie).filter (fun i => !bad i))
    l.zipIdx.map (fun p => ((p.2 / 8) * 16 + d * 8 + p.2 % 8, p.1))
  die 0 ++ die 1

/-- The bank steering table: the physical bank behind each commons bank (R20, R417). (DESIGN CHOICE, log entry 57) -/
def State.bankTable (s : State) : Tbl Nat :=
  let bad (i : Nat) := s.isRetired (bankUnit + i)
  let die (d : Nat) := (steerDie bad (d * Config.banksPerDie) (Config.banks / 2) Config.banksPerDie []).zipIdx.map (fun p => (d * (Config.banks / 2) + p.2, p.1))
  die 0 ++ die 1

/-- Whether a die has fewer working commons banks than it uses (R417, R424). -/
def State.banksShort (s : State) : Bool :=
  [0, 1].any (fun d => decide (((List.range' (d * Config.banksPerDie) Config.banksPerDie).filter (fun i => !s.isRetired (bankUnit + i))).length < Config.banks / 2))

/-- Retired units from lo up to hi, in the order of their retirement. -/
def State.retiredIn (s : State) (lo hi : Nat) : List Nat := s.retired.filter (fun u => decide (lo ≤ u ∧ u < hi))

/-- The way map: the first two retired ways of a slice have its spare ways in their place, the slice does without further ones (R417). (DESIGN CHOICE, log entry 57) -/
def State.wayMap (s : State) : Tbl (List (Nat × Option Nat)) :=
  (List.range 64).filterMap (fun n => match s.retiredIn (wayUnit + 64 * n) (wayUnit + 64 * n + 64) with
    | [] => none
    | l => some (n, l.zipIdx.map (fun p => (p.1 % 64, if p.2 < 2 then some p.2 else none))))

/-- The stack of an HBM row and its channel there: of each eight rows one lies in every stack, so that a stack holds 48 GiB of the 384 (R18, R25). (DESIGN CHOICE, log entry 57) -/
def hbmPart (row : Nat) : Nat × Nat := ((row + Config.hbmSpread (row / Config.hbmStacks)) % Config.hbmStacks, Config.hbmChannel row)

/-- Whether a stack's repair registers stand in for a row. -/
def State.repaired (s : State) (row : Nat) : Bool :=
  let q := hbmPart row
  let r := tget s.hbm q.1 HbmRepair.reset
  r.rows.contains row || r.spare == some q.2

/-- A retired row replaced by post-package repair, else by the stack's spare channel, else not at all (R417). (DESIGN CHOICE, log entry 57) -/
def State.repairRow (s : State) (row : Nat) : State :=
  let q := hbmPart row
  let r := tget s.hbm q.1 HbmRepair.reset
  if s.repaired row then s
  else if r.rows.length < Config.repairRows q.1 then { s with hbm := tset s.hbm q.1 { r with rows := r.rows ++ [row] } }
  else if r.spare.isNone then { s with hbm := tset s.hbm q.1 { r with spare := some q.2 } }
  else s

/-- The retired HBM rows. -/
def State.badRows (s : State) : List Nat := (s.retiredIn rowUnit wayUnit).map (· - rowUnit)

/-- HBM repair (R335, R417). -/
def State.repairHbm (s : State) : State := s.badRows.foldl State.repairRow s

/-- Whether a stack's repairs do not suffice (R417, R424). -/
def State.hbmShort (s : State) : Bool := s.badRows.any (fun r => !s.repairHbm.repaired r)

/-- The lane map of a fabric port: the spare lane pair stands in for a first retired lane; with two the port stays down (R417). -/
def State.trainPort (s : State) (p : Nat) : State :=
  let n := (s.retiredIn (fabricUnit + 64 * p) (fabricUnit + 64 * p + 64)).length
  if n = 0 then s else s.setPort p { s.port p with spares := 1 - n, half := decide (1 < n), up := (s.port p).up && decide (n ≤ 1) }

/-- Firmware brings spares in, for everything that is retired, while nothing is affected (R417). -/
def State.steer (s : State) : State :=
  (List.range 16).foldl State.trainPort { s.repairHbm with
    service := s.serviceTable, banks := if s.banksShort then s.banks else s.bankTable, ways := s.wayMap, spared := s.retiredIn 0 bankUnit }

/-! ## Bring-up (R335, R424) -/

/-- The verification of a firmware image recorded (R335, R424). (DESIGN CHOICE, log entry 86) -/
def State.measure (s : State) (image : Nat) (ok : Bool) : State := { s with attest := s.attest ++ [{ image := image, ok := ok }] }

/-- The measurement that an entry of the attestation log holds: a free value of the image. (DESIGN CHOICE, log entry 86) -/
def Attest.digest (a : Attest) : BitVec 384 := Config.measurement a.image

/-- Stage k completed: stage 1 records the firmware's measurements, 2 repairs HBM, 6 writes the remap table, 7 brings spares in and sets READY, unless
the device is too hot (R423). -/
def State.bringUpStage (s : State) (k : Nat) : State :=
  let s := { s with stage := k }
  if k = 1 then s.measure s.firmware true
  else if k = 2 then s.repairHbm
  else if k = 6 then { s with remap := allCores.map (fun c => (c, if s.isRetired (coreUnit + physOf (homeEntry c)) then 0 else homeEntry c)) }
  else if k = 7 then { s.rebind.steer with calibrated := s.calibrated + 1, ready := !s.hot }
  else s

/-- The stage in which bring-up can fail with a code of R424: signatures in 1, HBM repair in 2, the Seam in 3, the remap table in 6, spares in 7. (DEDUCED, log entry 53) -/
def failsIn (code : Nat) : Nat := match code with | 1 | 2 | 3 => 1 | 4 => 2 | 6 => 3 | 7 => 6 | 5 => 7 | _ => 0

/-- The code with which stage k fails by what the device holds: HBM repairs, a Seam row or commons banks exhausted, a logical core that no physical core
can carry (R417, R421, R424). (DEDUCED, log entry 53) -/
def State.exhausted (s : State) (k : Nat) : Option (BitVec 4) :=
  if k = 2 ∧ s.hbmShort = true then some 4
  else if k = 3 ∧ s.seam.any (fun q => q.2.lost) = true then some 6
  else if k = 7 ∧ s.banksShort = true then some 5
  else if k = 7 ∧ s.rebind.remap.any (fun q => !bit q.2 24) = true then some 7
  else none

/-- The code with which stage k fails, if it does: the outside world's choice, or what is exhausted (R417, R424). -/
def State.stageFails (s : State) (k : Nat) : Option (BitVec 4) :=
  match s.bringUpFail with
  | some (st, code) => if st.toNat = k ∧ failsIn code.toNat = k then some code else s.exhausted k
  | none => s.exhausted k

/-- BRINGUP_STAGE and BRINGUP_FAILURE: one more stage completes, or fails and the device stands in recovery. (DEDUCED, log entry 33) (DEDUCED, log entry 53) -/
def State.bringUp (s : State) : State :=
  if s.ready || s.fail || decide (7 ≤ s.stage) then s
  else
    let k := s.stage + 1
    match s.stageFails k with
    | some code =>
      let s : State := if k = 1 then s.measure s.firmware false else s
      { s with fail := true, failCode := code, failStage := BitVec.ofNat 4 k }
    | none => s.bringUpStage k

/-- A link after device reset: spares that it has used stay used, and what cannot train stays down (R417, R421). -/
def Link.again (l : Link) (fabric : Bool) : Link :=
  { l with up := !(if fabric then l.half else l.lost), lost := l.lost && !fabric, retries := 0, waiting := [] }

/-- DEVICE_RESET (R335): everything but memory, retired parts and used link spares, the installed firmware, the attestation log, the temperature and the
host's PRI controls (R379) returns to its reset value; a failing stage and its code are the outside world's. (DEDUCED, log entry 53) -/
def execDeviceReset (failStage failCode : BitVec 4) (s : State) : Out State :=
  .next { State.reset with
    mem := s.mem, poison := s.poison, wkey := s.wkey, keyGen := s.keyGen, retired := s.retired, attest := s.attest, firmware := s.firmware, hot := s.hot
    seam := s.seam.map (fun q => (q.1, q.2.again false)), fabric := s.fabric.map (fun q => (q.1, q.2.again true))
    priEnable := s.priEnable, priFailed := s.priFailed, priAlloc := s.priAlloc
    bringUpFail := if failStage = 0 then none else some (failStage, failCode)
    cur := s.cur, issuing := false, agenda := s.agenda, predictions := s.predictions, fresh := s.fresh, nextId := s.nextId }

/-- The host's write of PRI Enable: page requests that a Response Failure disabled come back only when it is cleared and then set (R379). -/
def State.setPri (s : State) (on : Bool) : State := { s with priEnable := on, priFailed := s.priFailed && !(on && !s.priEnable) }

/-- CONFIGURATION_REQUEST (R335, R378, R379): retried while READY is 0; a request may carry the host's write of PRI Enable, or of the Outstanding Page
Request Allocation. -/
def execConfigurationRequest (w : CfgWrite) (s : State) : Out State :=
  .next (if s.ready then
      let s := match w.pri with | some b => s.setPri b | none => s
      match w.alloc with | some n => { s with priAlloc := n } | none => s
    else ({ s with configRetries := s.configRetries + 1 }).bringUp)

/-- FIRMWARE_UPDATE (R424): taken only in the recovery configuration; a rejected image leaves its measurements and is not installed. (DEDUCED, log entry 53) (DESIGN CHOICE, log entry 86) -/
def execFirmwareUpdate (ok : Bool) (s : State) : Out State :=
  let image := s.attest.length + 1
  .next (if s.fail then { s.measure image ok with firmware := if ok then image else s.firmware, bringUpFail := if ok then none else s.bringUpFail } else s)

/-! ## MSI-X (R328) -/

/-- Vector v of MSI-X. -/
def State.msixVec (s : State) (v : Nat) : Msix := tget s.msix v Msix.reset

/-- A vector's message sent, or left pending while masked. -/
def State.sendMsix (s : State) (v : Nat) : State :=
  let m := s.msixVec v
  if m.masked then { s with msix := tset s.msix v { m with pending := true } } else { s with msixSent := s.msixSent ++ [v] }

/-- MSIX_UNMASK: a pending message goes; not in the recovery configuration (R424). -/
def execMsixUnmask (v : Nat) (s : State) : Out State :=
  let m := s.msixVec v
  .next (if 2048 ≤ v ∨ s.fail = true then s
    else
      let s := { s with msix := tset s.msix v { masked := false, pending := false } }
      if m.pending then { s with msixSent := s.msixSent ++ [v] } else s)

/-! ## Descriptors and doorbells (R319, R320, R425) -/

/-- The descriptor of queue q. -/
def State.queue (s : State) (q : Nat) : WQueue := tget s.queues q WQueue.reset
/-- Queue q replaced. -/
def State.setQueue (s : State) (q : Nat) (x : WQueue) : State := { s with queues := tset s.queues q x }

def WQueue.log2 (x : WQueue) : Nat := fld x.ctlw 0 5
def WQueue.prio (x : WQueue) : Nat := fld x.ctlw 5 3
def WQueue.weight (x : WQueue) : Nat := fld x.ctlw 8 4 + 1
def WQueue.en (x : WQueue) : Bool := bit x.ctlw 13
def WQueue.vec (x : WQueue) : Nat := fld x.ctlw 16 11
def WQueue.ien (x : WQueue) : Bool := bit x.ctlw 27

/-- Word 1 as held: reserved fields read 0 (R6). -/
def descWord1 (v : Word) : Word := BitVec.ofNat 64 (fld v 0 14 + fld v 16 12 * 2 ^ 16)

/-- A launch's number for the machine: its queue and its number there. -/
def jobId (q num : Nat) : Nat := num * 65536 + q

/-- What the device has asked for, been refused, read or parked for a launch, gone. (DESIGN CHOICE, log entry 30) -/
def State.forgetLaunch (s : State) (launch : Nat) : State :=
  { s.unqueue noCore (.device launch) with
    refusals := s.refusals.filter (fun r => r.1 != launch)
    devReads := s.devReads.filter (fun r => r.launch != launch)
    atsReqs := s.atsReqs.filter (fun r => !(r.core == noCore && r.slot == launch)) }

/-- The launch whose packet the device was looking at in queue q is not to be the next one any more: what it did for it is forgotten (R319, R323). (DESIGN CHOICE, log entry 30) -/
def State.forgetNext (s : State) (q : Nat) : State := s.forgetLaunch (jobId q ((s.queue q).num + 1))

/-- QUEUE_DESCRIPTOR_WRITE (R319): words 2 and 3 are read-only; nothing is written in the recovery configuration (R424). -/
def execQueueDescriptorWrite (q : Nat) (w : BitVec 2) (v : Word) (s : State) : Out State :=
  let x := s.queue q
  .next (if 65536 ≤ q ∨ s.fail = true then s
    else if w = 0 then s.setQueue q { x with ring := v }
    else if w = 1 then
      let y : WQueue := { x with ctlw := descWord1 v }
      (if y.en = x.en then s else s.forgetNext q).setQueue q (if y.en && !x.en then { y with ridx := 0, widx := 0, qerr := 0 } else y)
    else s)

/-- QUEUE_ERROR (R425). -/
def State.queueError (s : State) (q err : Nat) : State :=
  let x := s.queue q
  let s := ((s.forgetNext q).setQueue q { x with ctlw := putFld x.ctlw 13 1 0, qerr := err }).log q err 1
  if x.ien then s.sendMsix x.vec else s

/-- WRITE_INDEX_DOORBELL (R320, R425); ignored until READY is 1 (R335). -/
def execWriteIndexDoorbell (q : Nat) (v : Word) (s : State) : Out State :=
  let x := s.queue q
  let w := fld v 0 32
  .next (if s.ready = false then s.bringUp
    else if 65536 ≤ q ∨ x.en = false then s
    else if 2 ^ 31 ≤ (w + 2 ^ 32 - x.widx) % 2 ^ 32 then s.queueError q 1
    else if 2 ^ x.log2 < (w + 2 ^ 32 - x.ridx) % 2 ^ 32 then s.queueError q 2
    else s.setQueue q { x with widx := w })

/-! ## BAR0 and BAR4 (R317) -/

/-- HOST_REGISTER_WRITE: the MSI-X table's mask bits, and registers without behaviour; read-only registers, descriptors and the health log are not written here, nothing in the
recovery configuration (R424). -/
def execHostRegisterWrite (off : Nat) (v : Word) (s : State) : Out State :=
  .next (if s.fail = true ∨ off % 8 ≠ 0 ∨ 0x4000000 ≤ off ∨ off < 0x18 ∨ (0x100000 ≤ off ∧ off < 0x300000) ∨ (0x308000 ≤ off ∧ off < 0x308100) ∨ (0x400000 ≤ off ∧ off < 0x420000) then s
    else
      let s := { s with bar0 := tset s.bar0 off v }
      if 0x300000 ≤ off ∧ off < 0x308000 ∧ off % 16 = 8 then
        let n := (off - 0x300000) / 16
        let m := s.msixVec n
        if bit v 32 then { s with msix := tset s.msix n { m with masked := true } }
        else
          let s := { s with msix := tset s.msix n { masked := false, pending := false } }
          if m.pending then { s with msixSent := s.msixSent ++ [n] } else s
      else s)

/-- HOST_BAR4_ACCESS (R317): one event on an aligned 8-byte unit of the commons. One that a staged object does not admit parks at its entry, or, where the
entry's ACTION is to fault, is not performed (R245, R248). An offset outside the units brings no access: only waiting ones that stand in no queue are
tried again. The recovery configuration takes none (R424). (DEDUCED, log entry 56) -/
def execHostBar4Access (write : Bool) (off : Nat) (v : Word) (s : State) : Out State :=
  let t := { s with hostWaits := [] }.hostServe s.hostWaits
  .next (if s.fail then s
    else if off % 8 = 0 ∧ off < Config.commonsBytes then
      let u := t.hostArrive { id := s.nextId, write := write, off := off, val := v }
      if u.hostWaits.any (fun a => a.id == s.nextId) then { u with nextId := s.nextId + 1 } else u
    else t)

end Sys2Proof.Machine
end

