-- ==== Sys2Proof/Machine/Launch.lean ====
section
/-! DEFINITION. Launch packets and the check at the head of a queue (R53, R224, R270, R322 to R326, R329, R409). -/

namespace Sys2Proof.Machine

open Sys2Proof

/-! ## What the device itself reads and writes (R323) -/

/-- A device access: made, waiting for an ATS translation of a page, parked at a staged object (R248), or impossible. -/
inductive DevRes (α : Type) where
  | ok (a : α)
  | need (va : Nat)
  | parked (key : Nat)
  | bad

def DevRes.bind {α β : Type} (r : DevRes α) (f : α → DevRes β) : DevRes β :=
  match r with
  | .ok a => f a
  | .need v => .need v
  | .parked k => .parked k
  | .bad => .bad

/-- Whether n bytes at an address lie in one space: the commons, or host memory on one side of the commons' space (R323). -/
def oneSpace (a : Word) (n : Nat) : Bool :=
  if fld a 56 8 = 0x0D then fld a 28 28 == 0 && decide (fld a 0 28 + n ≤ Config.commonsBytes)
  else decide (a.toNat + n ≤ if a.toNat < Config.commonsBase then Config.commonsBase else 2 ^ 64)

/-- On whose behalf the device accesses: a launch, by its number for the machine, and its PASID if it has one (R323). -/
structure DevAgent where
  launch : Nat
  pv    : Bool
  pasid : Nat

/-- The memory key of one byte: a translation that is absent or lacks the right is asked for, and a page that the host has refused to this launch ends
the access (R318, R323, R378). (DESIGN CHOICE, log entry 30) (DEDUCED, log entry 56) -/
def State.devKey (s : State) (g : DevAgent) (a : Word) (write : Bool) : DevRes Nat :=
  if fld a 56 8 = 0x0D then .ok (commonsKey (fld a 0 28))
  else if !g.pv then .ok (hostKey a.toNat)
  else match (lookup (tget s.ctc (devTable g.pasid) []) 0 a.toNat).filter (fun e => if write then e.w else e.r) with
    | some e => .ok (hostKey (e.pa + (a.toNat - e.va)))
    | none => if s.refusals.contains (g.launch, a.toNat / 2 ^ 12 * 2 ^ 12, write) then .bad else .need a.toNat

/-- A key as the staged object that holds it, if one does, admits the access (R242, R245). (DEDUCED, log entry 56) -/
def State.devAdmit (s : State) (write : Bool) (k : Nat) : DevRes Nat :=
  if s.admits k write then .ok k else if s.faultsFor k write then .bad else .parked k

/-- The block of a key as it was read for a launch at its directory entry (R248). -/
def State.devRead? (s : State) (launch key : Nat) : Option DevRead := s.devReads.find? (fun r => r.launch == launch && r.block == key / 64)

/-- One byte read by the device; one of a poisoned block fails (R383). -/
def State.devByte (s : State) (g : DevAgent) (a : Word) : DevRes Byte :=
  (s.devKey g a false).bind (fun k =>
    match s.devRead? g.launch k with
    | some r => if r.poisoned then .bad else .ok (r.bytes.getD (k % 64) 0)
    | none => (s.devAdmit false k).bind (fun k => if (s.poisoned k 1).isSome then .bad else .ok (Memory.read s.mem k)))

def State.devBytes (s : State) (g : DevAgent) (a : Word) : Nat → DevRes (List Byte)
  | 0 => .ok []
  | n + 1 => (s.devByte g a).bind (fun b => (s.devBytes g (a + 1) n).bind (fun l => .ok (b :: l)))

/-- n bytes read by the device. -/
def State.devRead (s : State) (g : DevAgent) (a : Word) (n : Nat) : DevRes (List Byte) :=
  if n = 0 then .ok [] else if oneSpace a n then s.devBytes g a n else .bad

/-- n bytes at an offset of a table, which lies wholly in the space of its base (R323). -/
def State.devPart (s : State) (g : DevAgent) (base : Word) (off n : Nat) : DevRes (List Byte) :=
  if n = 0 then .ok [] else if oneSpace base (off + n) then s.devBytes g (base + BitVec.ofNat 64 off) n else .bad

def State.devKeys (s : State) (g : DevAgent) (a : Word) : Nat → DevRes (List Nat)
  | 0 => .ok []
  | n + 1 => ((s.devKey g a true).bind (s.devAdmit true)).bind (fun k => (s.devKeys g (a + 1) n).bind (fun l => .ok (k :: l)))

/-- Bytes written by the device as one write: a block that they cover is clean (R383). -/
def State.devWrite (s : State) (g : DevAgent) (a : Word) (bs : List Byte) : DevRes State :=
  if oneSpace a bs.length then
    (s.devKeys g a bs.length).bind (fun ks =>
      .ok { (ks.zip bs).foldl (fun s p => { s with mem := Memory.write s.mem p.1 p.2 }) s with poison := clearPoison s.poison (ks.headD 0) bs.length })
  else .bad

/-- Little-endian words of n bytes each. -/
def chunks (n : Nat) : Nat → List Byte → List Nat
  | 0, _ => []
  | k + 1, l => ofBytes (l.take n) :: chunks n k (l.drop n)

def words64 (n : Nat) (l : List Byte) : List Word := (chunks 8 n l).map (BitVec.ofNat 64)

/-- An ATS request of the device itself, core 2048, for a launch (R323). -/
def State.devRequest (s : State) (launch pasid va : Nat) (write : Bool) : State :=
  if s.atsReqs.any (fun r => r.core == noCore && r.slot == launch) then s
  else { s with
    nextId := s.nextId + 1
    atsReqs := s.atsReqs ++ [({ id := s.nextId, core := noCore, slot := launch, acc := 0, pasid := BitVec.ofNat 20 pasid, va := va / 2 ^ 12 * 2 ^ 12, write := write, stale := [] } : AtsReq)] }

/-- Translations the device keeps for a PASID, and what it did for a launch, dropped after use. (DESIGN CHOICE, log entry 30) -/
def State.devForget (s : State) (launch pasid : Nat) : State := { s.forgetLaunch launch with ctc := tdel s.ctc (devTable pasid) }

/-! ## The packet (R322) -/

def pkW (p : List Word) (i : Nat) : Word := p.getD i 0

def pkGrid (p : List Word) : Word := BitVec.ofNat 64 (fld (pkW p 2) 0 30)
def pkDet (p : List Word) : Bool := bit (pkW p 2) 32
def pkPrio (p : List Word) : Nat := fld (pkW p 2) 33 3
def pkGates (p : List Word) : Bool := bit (pkW p 2) 36
def pkResume (p : List Word) : Bool := bit (pkW p 2) 37
def pkArgLen (p : List Word) : Nat := fld (pkW p 8) 0 12
def pkArgOff (p : List Word) : Nat := fld (pkW p 8) 16 19
def pkPv (p : List Word) : Bool := bit (pkW p 19) 20
def pkPasid (p : List Word) : Nat := fld (pkW p 19) 0 20
/-- On whose behalf the device accesses for a launch with this packet. -/
def pkAgent (launch : Nat) (p : List Word) : DevAgent := { launch := launch, pv := pkPv p, pasid := pkPasid p }

/-- Channel of level l in a LAYOUT word, when the level is present (R53). -/
def layoutChan (w : Word) (l : Nat) : Option Nat := if bit w (6 * (l - 1) + 5) then some (fld w (6 * (l - 1)) 5) else none

/-- Reserved fields zero, RECT a rectangle of the grid, SEGM without code 3, aligned CREC, and an argument area inside core memory, which a resuming
packet does not name (R326, R409). (DEDUCED, log entry 51) -/
def packetOk (p : List Word) : Bool :=
  let r := pkW p 2
  let g := pkGrid p
  fld r 6 2 == 0 && fld r 13 3 == 0 && fld r 23 1 == 0 && fld r 30 2 == 0 && fld r 38 26 == 0 &&
  decide (1 ≤ fld g 16 7 ∧ 1 ≤ fld g 24 6 ∧ fld g 0 6 + fld g 16 7 ≤ Config.gridW ∧ fld g 8 5 + fld g 24 6 ≤ Config.gridH) &&
  fld (pkW p 3) 24 40 == 0 && (List.range 32).all (fun c => fld (pkW p 4) (2 * c) 2 != 3) &&
  fld (pkW p 8) 12 4 == 0 && fld (pkW p 8) 35 29 == 0 &&
  (pkResume p || (pkArgOff p % 64 == 0 && decide (pkArgOff p + pkArgLen p ≤ Config.coreBytes))) &&
  [9, 11, 13, 15].all (fun i => fld (pkW p i) 17 47 == 0) &&
  fld (pkW p 17) 24 40 == 0 && (pkW p 18).toNat % 64 == 0 && fld (pkW p 19) 21 43 == 0 &&
  (List.range' 20 12).all (fun i => pkW p i == 0)

/-! ## The image header (R324) -/

def hdEntry (h : List Word) : Nat := fld (pkW h 3) 0 19
def hdCodeOff (h : List Word) : Nat := fld (pkW h 4) 0 19
def hdCodeLen (h : List Word) : Nat := fld (pkW h 4) 32 20
def hdDataOff (h : List Word) : Nat := fld (pkW h 5) 0 19
def hdDataLen (h : List Word) : Nat := fld (pkW h 5) 32 20
def hdGates (h : List Word) : Nat := fld (pkW h 6) 0 11

/-- (DEDUCED, log entry 51) -/
def headerOk (p h : List Word) : Bool :=
  let cl := hdCodeLen h
  let dl := hdDataLen h
  (pkW p 0).toNat % 64 == 0 &&
  fld (pkW h 0) 16 48 == 0 && fld (pkW h 3) 20 44 == 0 && fld (pkW h 4) 19 13 == 0 && fld (pkW h 4) 52 12 == 0 &&
  fld (pkW h 5) 19 13 == 0 && fld (pkW h 5) 52 12 == 0 && fld (pkW h 6) 11 53 == 0 && pkW h 7 == 0 &&
  bit (pkW h 3) 19 && hdCodeOff h % 64 == 0 && hdDataOff h % 64 == 0 && cl % 64 == 0 && dl % 64 == 0 &&
  decide (hdGates h ≤ 1024 ∧ hdCodeOff h + cl ≤ Config.coreBytes ∧ hdDataOff h + dl ≤ Config.coreBytes ∧ hdCodeOff h ≤ hdEntry h ∧ hdEntry h < hdCodeOff h + cl) &&
  !meets (hdCodeOff h) cl (hdDataOff h) dl && !meets (hdCodeOff h) cl (pkArgOff p) (pkArgLen p) && !meets (hdDataOff h) dl (pkArgOff p) (pkArgLen p) &&
  !(pkGates p && (inFrames (hdCodeOff h) cl || inFrames (hdDataOff h) dl))

/-- Version and features (R135, R329). -/
def versionOk (h : List Word) : Bool :=
  fld (pkW h 0) 8 8 == 1 && fld (pkW h 0) 0 8 == 0 && fld (pkW h 1) 9 55 == 0 && pkW h 2 == 0

/-! ## Membership (R53, R214) -/

/-- SMASK of the n-th core of a rectangle. -/
def membAt (memb : List Nat) (i : Nat) (ch : Nat) : Bool := bit (BitVec.ofNat 64 (memb.getD i 0)) ch

/-- The segment of a channel that a core lies in. -/
def segKey (segm : Word) (ch c : Nat) : Nat := match fld segm (2 * ch) 2 with | 1 => dieOf c | 2 => clusterOf c | _ => 0

/-- Every core in the level-1 domain, and each deeper domain inside one domain of the level above. (DEDUCED, log entry 51) -/
def membershipOk (p : List Word) (memb : List Nat) : Bool :=
  let cs := gridCores (pkGrid p)
  let segm := pkW p 4
  let ix := cs.zipIdx
  match layoutChan (pkW p 3) 1 with
  | none => false
  | some c1 =>
    ix.all (fun q => membAt memb q.2 c1 && segKey segm c1 q.1 == segKey segm c1 (cs.headD 0)) &&
    [1, 2, 3].all (fun l =>
      match layoutChan (pkW p 3) (l + 1), layoutChan (pkW p 3) l with
      | none, _ => true
      | some _, none => false
      | some lo, some hi =>
        let m := ix.filter (fun q => membAt memb q.2 lo)
        m.all (fun q => membAt memb q.2 hi &&
          (match m.find? (fun r => segKey segm lo r.1 == segKey segm lo q.1) with
            | some r => segKey segm hi r.1 == segKey segm hi q.1
            | none => true)))

/-! ## Schedules (R16, R224, R325) -/

/-- The router after i hops of the route from a to b, along x first (R16). -/
def routeAt (a b i : Nat) : Nat :=
  let dx := dist (coreX a) (coreX b)
  let step (f g k : Nat) := if f ≤ g then f + k else f - k
  if i ≤ dx then coreAt (step (coreX a) (coreX b) i) (coreY a) else coreAt (coreX b) (step (coreY a) (coreY b) (i - dx))

/-- Directed links of a route. -/
def routeLinks (a b : Nat) : List (Nat × Nat) := (List.range (hops a b)).map (fun i => (routeAt a b i, routeAt a b (i + 1)))

/-- No element stands twice. -/
def noTwice {α : Type} [BEq α] (l : List α) : Bool := l.eraseDups.length == l.length

/-- Pairs in ascending slot and, within a slot, ascending sender. -/
def pairsRise : List (Nat × Nat × Nat) → Bool
  | (s, a, _) :: (t, b, y) :: r => (decide (s < t) || (s == t && decide (a < b))) && pairsRise ((t, b, y) :: r)
  | _ => true

/-- A schedule entry as read: the schedule, and whether its reserved bits were 0. -/
structure RawSched where
  sched : Sched
  clean : Bool

/-- The slot check of one schedule. -/
def schedOk (p : List Word) (memb : List Nat) (r : RawSched) : Bool :=
  let x := r.sched
  let cs := gridCores (pkGrid p)
  let inside (c : Nat) : Bool := cs.contains c
  let ix (c : Nat) := cs.findIdx (· == c)
  let segm := pkW p 4
  let level (l : Nat) : Bool :=
    match layoutChan (pkW p 3) l with
    | none => false
    | some ch => x.pairs.all (fun q => membAt memb (ix q.2.1) ch && membAt memb (ix q.2.2) ch && segKey segm ch q.2.1 == segKey segm ch q.2.2)
  r.clean && decide (1 ≤ x.slots ∧ x.slots ≤ 65536) &&
  (if 1 ≤ x.tag ∧ x.tag ≤ 4 then level x.tag else decide (8 ≤ x.tag ∧ x.tag ≤ 15)) &&
  x.pairs.all (fun q => decide (q.1 < x.slots) && inside q.2.1 && inside q.2.2) && pairsRise x.pairs &&
  noTwice (x.pairs.map (fun q => (q.1, q.2.1))) && noTwice (x.pairs.map (fun q => (q.1, q.2.2))) &&
  noTwice (x.pairs.flatMap (fun q => (routeLinks q.2.1 q.2.2).map (fun l => (q.1, l))))

/-- The slot check of a table (R224, R325). -/
def schedsOk (p : List Word) (memb : List Nat) (l : List RawSched) : Bool :=
  l.all (schedOk p memb) && noTwice (l.map (·.sched.tag)) &&
  (gridCores (pkGrid p)).all (fun c => decide (((l.flatMap (·.sched.pairs)).filter (fun q => q.2.1 == c)).length ≤ 512))

/-- One entry of the schedule table at base. -/
def State.readSched (s : State) (g : DevAgent) (base : Word) (i : Nat) : DevRes RawSched :=
  (s.devPart g base (8 + 16 * i) 16).bind (fun b =>
    let w := words64 2 b
    let w0 := pkW w 0
    let w1 := pkW w 1
    let n := fld w1 0 32
    let off := fld w1 32 32
    (s.devPart g base off (8 * n)).bind (fun pb =>
      let ps := words64 n pb
      .ok { sched := { tag := fld w0 0 4, slots := fld w0 16 17, pairs := ps.map (fun q => (fld q 0 16, fld q 16 11, fld q 32 11)) }
            clean := fld w0 4 12 == 0 && fld w0 33 31 == 0 && off % 8 == 0 && ps.all (fun q => fld q 27 5 == 0 && fld q 43 21 == 0) }))

def State.readScheds (s : State) (g : DevAgent) (base : Word) : List Nat → DevRes (List RawSched)
  | [] => .ok []
  | i :: r => (s.readSched g base i).bind (fun x => (s.readScheds g base r).bind (fun l => .ok (x :: l)))

/-- The schedule table: none at address 0; a bad first word leaves no table that passes. -/
def State.readTable (s : State) (g : DevAgent) (base : Word) : DevRes (List RawSched × Bool) :=
  if base = 0 then .ok ([], true)
  else
    (s.devPart g base 0 8).bind (fun b =>
      let n := ofBytes b
      if 12 < n then .ok ([], false) else (s.readScheds g base (List.range n)).bind (fun l => .ok (l, true)))

/-! ## The check (R326, R409) -/

/-- The domain firmware gives a job: 1 to 63 (R257, log entry 13). (DESIGN CHOICE, log entry 13) -/
def jobDom (id : Nat) : BitVec 6 := BitVec.ofNat 6 (1 + (Config.jobDomain id).toNat % 63)

/-- The stopped job that a resuming packet names (R409). -/
def State.stopped (s : State) (p : List Word) : Option Job :=
  s.jobs.find? (fun j => (match j.phase with | .stopped7 => true | _ => false) && Config.saveAddr j.id == pkW p 0)

/-- Whether a resuming packet agrees with its stopped job (R409). -/
def resumeOk (p : List Word) (memb : List Nat) (j : Job) : Bool :=
  pkW p 1 == j.pw 1 && pkGrid p == pkGrid j.pkt && pkDet p == pkDet j.pkt && pkGates p == pkGates j.pkt && pkW p 3 == j.pw 3 && pkW p 4 == j.pw 4 &&
  memb == j.memb && pkPasid p == pkPasid j.pkt && pkPv p == pkPv j.pkt

/-- What the check at the head comes to. -/
inductive HeadRes where
  | need (va : Nat)
  | parked (key : Nat)
  | reject (status : Nat)
  | accept (h : Head)

/-- All that a packet names, read. -/
structure HeadData where
  hdr   : List Word
  gates : List Nat
  memb  : List Nat
  scheds : List RawSched × Bool
  args  : List Byte

/-- The reads at the head (R323); a resuming launch reads no image and no arguments. -/
def State.readHead (s : State) (launch : Nat) (p : List Word) : DevRes HeadData :=
  let g : DevAgent := pkAgent launch p
  let n := (gridCores (pkGrid p)).length
  (s.devRead g (pkW p 5) (4 * n)).bind (fun mb =>
    (s.readTable g (pkW p 6)).bind (fun sc =>
      let memb := chunks 4 n mb
      if pkResume p then .ok { hdr := [], gates := [], memb := memb, scheds := sc, args := [] }
      else
        (s.devRead g (pkW p 0) 64).bind (fun hb =>
          let h := words64 8 hb
          (s.devRead g (pkW p 0 + BitVec.ofNat 64 (64 + hdCodeLen h + hdDataLen h)) (2 * min (hdGates h) 1024)).bind (fun gb =>
            (s.devRead g (pkW p 7) (pkArgLen p)).bind (fun ab =>
              .ok { hdr := h, gates := chunks 2 (min (hdGates h) 1024) gb, memb := memb, scheds := sc, args := ab })))))

/-- The checks of R326 in order. (DEDUCED, log entry 51) -/
def State.checkHead (s : State) (q num : Nat) (p : List Word) : HeadRes :=
  if !packetOk p then .reject 4
  else match s.readHead (jobId q num) p with
    | .need v => .need v
    | .parked k => .parked k
    | .bad => .reject 4
    | .ok d =>
      let res := pkResume p
      let gateBad (g : Nat) : Bool := let e := s.gateEntry g; !e.valid || !bit e.w2 (jobDom (jobId q num)).toNat
      if !res && !headerOk p d.hdr then .reject 4
      else if !membershipOk p d.memb then .reject 4
      else if !res && !versionOk d.hdr then .reject 1
      else if !d.scheds.2 || !schedsOk p d.memb d.scheds.1 then .reject 2
      else if d.gates.any gateBad then .reject 3
      else if !pkGates p && !d.gates.isEmpty then .reject 3
      else
        let head : Head := { num := num, pkt := p, hdr := d.hdr, memb := d.memb, scheds := d.scheds.1.map (·.sched), args := d.args }
        if res then
          match s.stopped p with
          | none => .reject 4
          | some j => if resumeOk p d.memb j then .accept { head with hdr := j.hdr } else .reject 4
        else .accept head

/-! ## Completion of a launch (R321, R327, R328) -/

/-- CTL of queue q: the launches numbered below every one that is not complete. -/
def State.ctlOf (s : State) (q : Nat) : Nat :=
  let live := (s.jobs.filter (fun j => j.queue == q && (match j.phase with | .stopped7 => false | _ => true))).map (·.num)
  let head := match s.heads.find? (fun p => p.1 == q) with | some p => [p.2.num] | none => []
  let bad := match s.verdicts.find? (fun p => p.1 == q) with | some p => [p.2.num] | none => []
  (live ++ head ++ bad).foldl (fun m n => min m (n - 1)) (s.queue q).num

/-- CTL advances and the queue's message goes (R328). -/
def State.completeQueue (s : State) (q : Nat) : State :=
  let x := s.queue q
  let s := s.setQueue q { x with ctl := BitVec.ofNat 64 (s.ctlOf q) }
  if x.ien then s.sendMsix x.vec else s

/-- The record written, its failure logged, or a translation asked for; a record that parks at a staged object waits (R248, R328). -/
def State.writeRecord (s : State) (q num : Nat) (p : List Word) (rec' : List Word) : State × Bool :=
  match s.devWrite (pkAgent (jobId q num) p) (pkW p 18) (rec'.flatMap (fun w => bytesOf 8 w.toNat)) with
  | .ok t => (t, true)
  | .bad => (s.log q num 2, true)
  | .parked k => (s.parkOther (.device (jobId q num)) k true, false)
  | .need v => (s.devRequest (jobId q num) (pkPasid p) v true, false)

/-- LAUNCH_REJECT (R326): the record of a launch that did not start. -/
def rejectRecord (status num : Nat) (now : Word) : List Word := [BitVec.ofNat 64 status, BitVec.ofNat 64 num, 0, now, 0, 0, 0, 0]

/-- The memory key of the queue's next entry (R319). -/
def State.entryKey (s : State) (q : Nat) : Nat :=
  let x := s.queue q
  let off := x.ring.toNat + x.ridx % 2 ^ x.log2 * 256
  if bit x.ctlw 12 then commonsKey off else hostKey off

/-- One 64-byte block of a ring entry, checked as every access to a staged object is (R242); one that the object's entry says faults is as little read as
one that parks; of a poisoned block the bytes are read as they are. (DESIGN CHOICE, log entry 111) -/
def State.entryBlock (s : State) (launch key : Nat) : DevRes (List Byte) :=
  match s.devRead? launch key with
  | some r => .ok r.bytes
  | none => (s.devAdmit false key).bind (fun k => .ok (Memory.readBytes s.mem k 64))

/-- The queue's next packet, as it is read for a launch. (DESIGN CHOICE, log entry 111) -/
def State.readEntry (s : State) (q launch : Nat) : DevRes (List Word) :=
  let k := s.entryKey q
  (s.entryBlock launch k).bind (fun a => (s.entryBlock launch (k + 64)).bind (fun b => (s.entryBlock launch (k + 128)).bind (fun c =>
    (s.entryBlock launch (k + 192)).bind (fun d => .ok (words64 32 (a ++ b ++ c ++ d))))))

/-- Whether a pre-empted job keeps the head of its queue (R61). -/
def State.keepsHead (s : State) (q : Nat) : Bool :=
  s.jobs.any (fun j => j.queue == q && (match j.phase with | .saved _ => true | _ => false))

/-- A launch found bad completes once its record is written (R321, R326, R328). -/
def State.rejectHead (s : State) (q : Nat) (v : Verdict) : State :=
  let r := s.writeRecord q v.num v.pkt (rejectRecord v.status v.num s.rtime)
  if r.2 then (({ r.1 with verdicts := tdel r.1.verdicts q } : State).devForget (jobId q v.num) (pkPasid v.pkt)).completeQueue q else r.1

/-- LAUNCH_HEAD_CHECK (R320, R326): the next posted entry is read and checked; it waits at the head, or completes with its status, which stands from
then on while its record is still to be written. (DEDUCED, log entry 51) (DESIGN CHOICE, log entry 111) -/
def execLaunchHeadCheck (q : Nat) (s : State) : Out State :=
  let x := s.queue q
  .next (match s.verdicts.find? (fun p => p.1 == q) with
  | some v => if s.ready then s.rejectHead q v.2 else s
  | none =>
    if s.ready = false ∨ x.en = false ∨ x.ridx = x.widx ∨ (s.heads.any (fun p => p.1 == q)) = true ∨ s.keepsHead q = true then s
    else
      let num := x.num + 1
      let taken : State := s.setQueue q { x with ridx := (x.ridx + 1) % 2 ^ 32, num := num }
      match s.readEntry q (jobId q num) with
      | .parked k => s.parkOther (.device (jobId q num)) k false
      | .need _ | .bad => s
      | .ok p =>
        match s.checkHead q num p with
        | .need v => s.devRequest (jobId q num) (pkPasid p) v false
        | .parked k => s.parkOther (.device (jobId q num)) k false
        | .accept h => ({ taken with heads := tset taken.heads q h }).devForget (jobId q num) (pkPasid p)
        | .reject st =>
          let v : Verdict := { num := num, pkt := p, status := st }
          ({ taken with verdicts := tset taken.verdicts q v } : State).rejectHead q v)

end Sys2Proof.Machine
end

