-- ==== Sys2Proof/Machine/Sched.lean ====
section
/-! DEFINITION. The core cycle: which slot issues, effective levels, profile and breakpoints; branch resolution (R31 to R34, R39, R40, R345, R346, R348, R361). -/

namespace Sys2Proof.Machine

open Sys2Proof

/-! ## Readiness (R26) -/

/-- Whether a breakpoint comparator of core c matches an instruction address (R348). -/
def Core.bkptAt (k : Core) (pc : Word) : Bool := k.bkpt.toList.any (fun b => bit b 0 && b.toNat / 2 == pc.toNat / 2)

/-- Whether the core's control context and helpers stand still for a SYNC or an exchange phase (R54). -/
def State.standing (s : State) (c t : Nat) : Bool :=
  decide (t ≤ 10) && (s.inExchange c || (t != 0 && (s.core c).sync != .none))

/-- Whether the job of core c is running, if it drains: a site routine then goes on to its end (R364). -/
def State.active (s : State) (c : Nat) : Bool :=
  match (s.core c).job.bind s.job? with
  | none => true
  | some x => match x.phase with | .running => true | _ => false

/-- Whether a replay's step limit is reached in the job of core c (R349). -/
def State.limitReached (s : State) (c : Nat) : Bool :=
  match s.stepLimit with
  | some (d, t, n) => decide (n ≤ (s.slot d t).icount) && (s.core d).job.isSome && (s.core d).job == (s.core c).job
  | none => false

/-- Whether a wait may end by issuing its instruction: the waiting instruction has had no effect yet. -/
def State.retries (s : State) (c : Nat) (w : Wait) : Bool :=
  match w.kind with
  | .marker | .gang | .partner | .tlb _ | .acks _ | .dead | .brk | .ended => false
  | .sync _ => (s.core c).sync == .none
  | _ => true

/-- Whether slot t of core c waits in an RTAKE or MRECV whose value has come: it issued before, and takes its value even while its core's next issues
stand still (R54, R231, R234). -/
def State.takes (s : State) (c t : Nat) : Bool :=
  (s.slot c t).park.any (fun w => (match w.kind with | .rtake _ | .mrecv => true | _ => false) && s.waitOver c t w)

/-- Whether slot t of core c would try its next instruction in a cycle of its core; while the job stops or drains, only to end what is no boundary:
a site routine (R364), a gang's instruction that some members have issued (R50, R357). -/
def State.slotAwake (s : State) (c t : Nat) : Bool :=
  let k := s.core c
  let x := k.slot t
  k.phase == .running && !s.limitReached c && (s.runs c || (t == 11 && s.active c) || s.midGang c t) &&
  x.mode == .live && x.abort.isNone && (!s.standing c t || s.takes c t) &&
  !(s.boundary c t && (s.nextTrap c t).isSome) &&
  (x.branches.isEmpty || !k.bkptAt x.pc) &&
  x.park.all (s.retries c)

/-- Whether its core has the clock too. -/
def State.slotOpen (s : State) (c t : Nat) : Bool := s.slotAwake c t && s.clockOn c && (s.sliceDue c).isNone

/-- The same in a gang: a member issues once, after every member has issued the instruction before (R50); a member of a SHARED pair that has not
the physical core issues in its turn (R344). -/
def State.canTry (s : State) (c t : Nat) : Bool :=
  s.slotOpen c t && (t != 0 || (s.core c).gang == 0 ||
    ((s.core c).gangDone.isNone && (s.gangOf c).all (fun d =>
      (s.core d).gangDone.isSome || (s.slotAwake d 0 && (s.core d).vf.moving.isNone && (s.slot d 0).pc == (s.slot c 0).pc))))

/-! ## The choice (R31, R123) -/

/-- The ready slots among which one is chosen: one that yielded counts only when no other is ready. -/
def State.candidates (s : State) (c : Nat) (ready : List Nat) : List Nat :=
  let m := ready.filter (fun t => !(s.slot c t).yielded)
  if m.isEmpty then ready else m

/-- The slot that issues: highest effective level, then the first at or after that level's pointer. -/
def State.choose (s : State) (c : Nat) (ready : List Nat) : Option Nat :=
  let l := s.candidates c ready
  let top := (l.map (fun t => (s.slot c t).eff)).foldl max 0
  let m := l.filter (fun t => (s.slot c t).eff == top)
  let p := (s.core c).rr[top % 4]'(Nat.mod_lt _ (by decide))
  match m.find? (fun t => decide (p ≤ t)) with
  | some t => some t
  | none => m.head?

/-- Slots in the order in which R31 would choose among them: those that yielded last, by effective level, each level from its pointer on. -/
def State.inTurn (s : State) (c : Nat) (l : List Nat) : List Nat :=
  let byLevel (l : List Nat) : List Nat := [3, 2, 1, 0].flatMap (fun n =>
    let m := l.filter (fun t => (s.slot c t).eff == n)
    let p := (s.core c).rr[n % 4]'(Nat.mod_lt _ (by decide))
    m.filter (fun t => decide (p ≤ t)) ++ m.filter (fun t => decide (t < p)))
  byLevel (l.filter (fun t => !(s.slot c t).yielded)) ++ byLevel (l.filter (fun t => (s.slot c t).yielded))

/-! ## Effective levels (R32) -/

/-- The base level of slot t. (DESIGN CHOICE, log entry 76) -/
def State.baseLevel (s : State) (c t : Nat) : Nat :=
  if t = 12 then 3
  else if t = 11 then
    (match (s.core c).fields.find? (fun p => match p.2.stage with | .routine _ => true | _ => false) with
      | some p => fLEVEL p.2.desc
      | none => 0)
  else (s.slot c t).level.toNat

/-- An aged slot's boost (R32). -/
def Slot.boosted (x : Slot) (base : Nat) : Slot :=
  if x.age = 256 then { x with boost := x.boost + 1, age := 0, eff := min 3 (base + (x.boost + 1)) } else x

/-- A PAUSE window that has ended (R32). -/
def Slot.resumed (x : Slot) (base : Nat) : Slot :=
  if x.pauseOver then { x with pauseOver := false, eff := min 3 (base + x.boost) } else x

/-- One cycle of R32 for a slot. -/
def Slot.tick (x : Slot) (base : Nat) (issued ready : Bool) : Slot :=
  if 0 < x.pauseLeft then { x with eff := 0, pauseLeft := x.pauseLeft - 1, pauseOver := x.pauseLeft == 1 }
  else if issued then { x with boost := 0, age := 0, eff := base }
  else if ready then { x with age := x.age + 1, eff := min 3 (base + x.boost) }
  else x

/-- AGE_BOOST (R32, R34). -/
def execAgeBoost (c t : Nat) (s : State) : Out State := .next (s.onSlot c t (fun x => x.boosted (s.baseLevel c t)))

/-- PAUSE_WINDOW_END (R32, R33). -/
def execPauseWindowEnd (c t : Nat) (s : State) : Out State := .next (s.onSlot c t (fun x => x.resumed (s.baseLevel c t)))

/-! ## Profile (R345, R346) -/

/-- A profile entry written as a record for the job's domain; sstep is the SSTEP field (R260, R346). (DESIGN CHOICE, log entry 74) (DESIGN CHOICE, log entry 87) -/
def State.writeProf (s : State) (c : Nat) (e : ProfEntry) (intr : Bool) (sstep : Word) : State :=
  let k := s.core c
  let i := fld k.profctl 32 32
  let off := fld (k.profbase + BitVec.ofNat 64 (i % 2 ^ (fld k.profctl 1 4 + 4) * 16)) 0 19
  let w0 := BitVec.ofNat 64 (e.pc.toNat + e.reason * 2 ^ 32 + ofBool intr * 2 ^ 36 + c * 2 ^ 37)
  let w1 := BitVec.ofNat 64 (e.count % 2 ^ 32 + fld sstep 0 32 * 2 ^ 32)
  let dom := ((s.core c).job.bind s.job?).elim 0 (·.dom)
  ((s.ownWord c dom off w0).ownWord c dom (off + 8) w1).onCore c (fun k => { k with profctl := putFld k.profctl 32 32 (i + 1) })

/-- A cycle charged to an address and a reason. -/
def State.charge (s : State) (c : Nat) (q : Word × Nat) : State :=
  let pc : BitVec 32 := q.1.setWidth 32
  let h := (lowbias32 (pc ^^^ BitVec.ofNat 32 q.2)).toNat % 256
  let fresh : ProfEntry := { pc := pc, reason := q.2, count := 1 }
  let put (s : State) (e : ProfEntry) := s.onCore c (fun k => { k with prof := tset k.prof h e })
  match (s.core c).prof.find? (fun p => p.1 == h) with
  | none => put s fresh
  | some p =>
    if p.2.pc = pc ∧ p.2.reason = q.2 then put s { p.2 with count := p.2.count + 1 }
    else put (s.writeProf c p.2 false (s.core c).sstep) fresh

/-- PROFILE_FLUSH: every entry written, and the table empty (R346, R365). -/
def State.flushProf (s : State) (c : Nat) (intr : Bool) (sstep : Word) : State :=
  ((s.core c).prof.foldl (fun s p => s.writeProf c p.2 intr sstep) s).onCore c (fun k => { k with prof := [] })

/-- A cycle of slot t: charged now, or kept with its youngest unresolved branch (R40). -/
def State.chargeSlot (s : State) (c t : Nat) (q : Word × Nat) : State :=
  match (s.slot c t).branches.reverse with
  | [] => s.charge c q
  | b :: r => s.onSlot c t (fun x => { x with branches := (({ b with charged := b.charged ++ [q] } : Checkpoint) :: r).reverse })

/-- The stall reason of slot t; a wait that R346 does not name has a free one (log entry 16). (DESIGN CHOICE, log entry 16) (DEDUCED, log entry 47) -/
def State.stall (s : State) (c t : Nat) : Nat × State :=
  let x := s.slot c t
  if 0 < x.pauseLeft then (9, s)
  else if s.standing c t then (3, s)
  else
    let n := match x.park with
      | none => if t = 0 ∧ (s.core c).gang ≠ 0 then 8 else 0
      | some w => s.stallReason x w
    if n = 0 then (fld (Config.freeWord s.fresh) 0 4, { s with fresh := s.fresh + 1 }) else (n, s)

/-- The live slot of highest effective level, the lowest-numbered of equals. (DEDUCED, log entry 47) -/
def State.topLive (s : State) (c : Nat) : Option Nat :=
  let l := (List.range 13).filter (fun t => (s.slot c t).mode == .live)
  let top := (l.map (fun t => (s.slot c t).eff)).foldl max 0
  l.find? (fun t => (s.slot c t).eff == top)

/-- The cycle's charge (R346). (DEDUCED, log entry 47) -/
def State.profile (s : State) (c : Nat) (issued : Option Nat) : State :=
  if bit (s.core c).profctl 0 then
    match issued with
    | some t => s.chargeSlot c t ((s.slot c t).pc, 0)
    | none =>
      match s.topLive c with
      | some t => let r := s.stall c t; r.2.chargeSlot c t ((r.2.slot c t).pc, r.1)
      | none => s.charge c (0, 10)
  else s

/-! ## The cycle -/

/-- A breakpoint match at the instruction that slot t issues: an event for the core, or, as its first member issues, for every member of its gang (R348, R361). -/
def State.matchBkpt (s : State) (c t : Nat) : State :=
  let pc := (s.slot c t).pc
  let all := if t = 0 then s.gangOf c else [c]
  if !s.midGang c t && all.any (fun d => (s.core d).bkptAt pc) then
    all.foldl (fun s d => (s.event d 3 t pc).onCore d (fun k => { k with bkptHit := true })) s
  else s

/-- Levels after the choice of R31. -/
def State.tickSlots (s : State) (c : Nat) (ready : List Nat) (issued : Option Nat) : State :=
  (List.range 13).foldl (fun s t => s.onSlot c t (fun x => x.tick (s.baseLevel c t) (issued == some t) (ready.contains t))) s

/-- Boosts and window ends due since the last cycle. -/
def State.settleLevels (s : State) (c : Nat) : State :=
  (List.range 13).foldl (fun s t => s.onSlot c t (fun x => (x.boosted (s.baseLevel c t)).resumed (s.baseLevel c t))) s

/-- The round-robin pointer of a level (R31). (DESIGN CHOICE, log entry 28) -/
def Core.setPointer (k : Core) (level t : Nat) : Core := { k with rr := k.rr.set (level % 4) t (Nat.mod_lt _ (by decide)) }

/-- The YIELD of the cycle before is spent (R123). -/
def Core.spendYields (k : Core) : Core := { k with slots := k.slots.map (fun p => (p.1, { p.2 with yielded := false })) }

/-- Whether core c's clock gives it a cycle: it runs a job, in which slots, a site routine or the rest of a gang's instruction still go on. (DESIGN CHOICE, log entry 28) -/
def State.cycles (s : State) (c : Nat) : Bool := (s.core c).phase == .running && s.clockOn c && (s.active c || s.gangGoes c)

/-- ISSUE_CYCLE (R12, R31, R138): a core cycle begins: CYCLE and router time count, and boosts and window ends fall due. Which slots are ready, and so
which one issues, is settled by the machine's next step, which tries their instructions. (DESIGN CHOICE, log entry 28) -/
def execIssueCycle (c : Nat) (s : State) : Out State :=
  .next (if s.cycles c then
      { (s.settleLevels c).onCore c (fun k => { k with cycle := k.cycle + 1 }) with rtime := s.rtime + 1, cycleOf := some c }
    else s)

/-- The rest of a core cycle, once its ready slots are known: the choice, the profile, levels, and the pointer; the chosen slot's instruction is
fetched and run by the step that follows (R31, R32, R346). -/
def State.endCycle (s : State) (c : Nat) (ready : List Nat) : State :=
  let pick := s.choose c ready
  let top := match pick with | some t => (s.slot c t).eff | none => 0
  let s := ((s.profile c pick).tickSlots c ready pick).onCore c Core.spendYields
  match pick with
  | none => s
  | some t => { (s.matchBkpt c t).onCore c (fun k => k.setPointer top ((t + 1) % 13)) with cur := { s.cur with core := c, slot := t }, issuing := true }

/-! ## Branches (R39, R40) -/

/-- The branch predicted right: what issued under it is one branch less speculative; an MMAJ takes its number when it is so no more (R198). (DESIGN CHOICE, log entry 91) -/
def State.branchRight (s : State) (c t : Nat) (b : Checkpoint) (r : List Checkpoint) : State :=
  let s := s.onSlot c t (fun x => { x with branches := r, results := x.results.map (fun q => { q with depth := q.depth - 1 }) })
  let s := s.onCore c (fun k =>
    let q := (tget k.queue 0 []).foldl (fun (a : List Cmd × Nat) m =>
      let d := if m.slot = t then m.depth - 1 else m.depth
      let fresh := m.slot == t && m.depth == 1 && (match m.instr with | .mmaj _ _ _ => true | _ => false)
      (a.1 ++ [{ m with depth := d, joint := if fresh then a.2 + 1 else m.joint }], a.2 + ofBool fresh)) ([], k.mmajIn)
    let low (l : List Cmd) := l.map (fun m => if m.slot = t then { m with depth := m.depth - 1 } else m)
    { k with queue := tset (k.queue.map (fun p => (p.1, low p.2))) 0 q.1, mmajIn := q.2 })
  b.charged.foldl (fun s q => s.charge c q) s

/-- The branch predicted wrong: what issued after it is gone, and its cycles are the branch's (R40). -/
def State.branchWrong (s : State) (c t : Nat) (b : Checkpoint) (r : List Checkpoint) : State :=
  let s := s.onSlot c t (fun x => { x with
    g := b.g, pend := b.pend, more := b.more, unsync := b.unsync, issued := b.issued, icount := b.icount + 1, pc := b.actual, branches := []
    results := x.results.filter (fun q => q.depth == 0), park := none })
  let s := s.onCore c (fun k => { k with queue := k.queue.map (fun p => (p.1, p.2.filter (fun m => m.slot != t || m.depth == 0))) })
  ((b :: r).flatMap (·.charged)).foldl (fun s _ => s.charge c (b.bpc, 0)) s

/-- BRANCH_RESOLVE (R39, R40): the slot's oldest branch resolves. -/
def execBranchResolve (c t : Nat) (s : State) : Out State :=
  .next (match (s.slot c t).branches with
    | [] => s
    | b :: r => if b.guess = b.actual then s.branchRight c t b r else s.branchWrong c t b r)

end Sys2Proof.Machine
end

