-- ==== Sys2Proof/Machine/Save.lean ====
section
/-! DEFINITION. Saved contexts: safe points, saves between them, debug stops and step limits, and the restore (R60 to R62, R348, R349, R361, R364 to R366, R408). -/

namespace Sys2Proof.Machine

open Sys2Proof

/-! ## Cores of a job -/

/-- Cores that a job holds now. -/
def State.held (s : State) (j : Job) : List Nat := j.cores.filter (fun c => (s.core c).job == some j.id)

/-- A core that no job occupies any more; breakpoints, heap capacity, level, thermal cap and a posted request stay. -/
def Core.vacated (k : Core) : Core :=
  { Core.reset with bkpt := k.bkpt, hcap := k.hcap, vf := { VF.reset with level := k.vf.level, cap := k.vf.cap, mail := k.vf.mail, moving := k.vf.moving, pausedAt := k.vf.pausedAt } }

/-- A core given back; the other member of its SHARED pair, if there is one, is active (R344). -/
def State.vacate (s : State) (c : Nat) : State :=
  let s := s.onCore c Core.vacated
  match s.partner c with
  | some d => s.onCore d (fun k => { k with slice := false })
  | none => s

/-- A core that begins to run beside a running partner waits for its time slice (R344). -/
def State.shareCore (s : State) (c : Nat) : State :=
  match s.partner c with
  | some d => if (s.core d).phase = .running ∧ d ≠ c ∧ (s.core d).slice = false then s.onCore c (fun k => { k with slice := true }) else s
  | none => s

/-- Whether a memory key lies in the memory of one of the cores. -/
def inCores (cs : List Nat) (key : Nat) : Bool := cs.any (fun c => decide (coreKey c 0 ≤ key ∧ key < coreKey c 0 + Config.coreBytes))

/-! ## Quiet jobs -/

/-- Whether a command goes on by itself with what its access comes to: not one held by an object, a page request, or a port or row that is lost; one at
a port that is only down goes on when the port returns (R422). -/
def EngRes.goes {α : Type} (s : State) (r : EngRes α) (m : Cmd) : Bool :=
  match r with
  | .ok _ | .deny _ _ _ _ | .wait => true
  | .miss _ _ => !m.walk.ask.any (fun q => q.phase.isParked)
  | .port (some p) => !(s.port p.toNat).lost
  | .park _ _ | .port none => false

/-- Whether an executing command of core c goes on by itself: a marker whose count is reached; no field command that waits for a sweep; a joint
command that waits for B, if the lowest member's reading of it goes on (R166, R198, R364). -/
def State.cmdRuns (s : State) (c e : Nat) (m : Cmd) : Bool :=
  if m.isMarker then s.markerReached c m
  else match e, s.cmdEffect c e m with
    | 0, .wait => (s.jointMates c m).any (fun q => q.2.readsB && (s.jointB q.1 q.2).goes s q.2)
    | 3, .wait => false
    | _, r => r.goes s m

/-- Whether a command of engine e still runs on core c or may start, not held by an object, a page request or a sweep to come (R364). -/
def State.engineRuns (s : State) (c e : Nat) : Bool :=
  (tget (s.core c).exec e []).any (s.cmdRuns c e) || (s.startable c e).any (fun m => e != 3 || s.fieldStartable c m)

/-- Whether some of a list holds, and not all of it. -/
def someNotAll (l : List Bool) : Bool := l.any id && !l.all id

/-- Whether an executing MLD, MLDT or MST of core c that nothing holds stands between row boundaries (R364). -/
def State.midRow (s : State) (c : Nat) : Bool :=
  (tget (s.core c).exec 0 []).any (fun m =>
    (match m.instr with
      | .mld _ _ _ | .mldt _ _ _ => (loadRuns m).any (fun r => someNotAll ((unitsOf r.1 r.2).map (fun u => m.walk.has u.1 u.2)))
      | .mst t _ _ _ => (drainDone m (s.tile c t)).any someNotAll
      | _ => false) &&
    s.cmdRuns c 0 m)

/-- Whether an executing copy of core c that nothing holds has written bytes beyond its progress (R210, R364). -/
def State.midCopy (s : State) (c : Nat) : Bool :=
  (tget (s.core c).exec 2 []).any (fun m =>
    (copyFlits m).zipIdx.any (fun f => m.walk.wrote.contains f.2 && f.1.idx.any (fun i => decide (copyProgress m ≤ i))) && s.cmdRuns c 2 m)

/-- Whether an engine of core c stands short of where a job's stop leaves it: vector and field commands have run to completion, loads and drains of
tiles stand at a row boundary and copies at their progress (R364). -/
def State.enginesGo (s : State) (c : Nat) : Bool := s.engineRuns c 1 || s.engineRuns c 3 || s.midRow c || s.midCopy c

/-- Whether slot t of a core stands parked at a BRK. -/
def Core.atBrk (k : Core) (t : Nat) : Bool := match (k.slot t).park with | some w => w.kind == .brk | none => false

/-- An access that is to go to memory again: a translated one looks its page up afresh (R376). -/
def Access.again (a : Access) : Access := { a with phase := if a.place.any (·.virt) then .miss else .ready }

/-- Accesses that wait parked in a queue that holds them no longer, its object dropped, go to memory again. (DEDUCED, log entry 59) -/
def State.reready (s : State) : State :=
  let held (c t id : Nat) := s.objs.any (fun o => o.queue.any (fun q => q.core == c && q.who == .acc t id))
  { s with cores := s.cores.map (fun p => (p.1, { p.2 with slots := p.2.slots.map (fun q => (q.1, { q.2 with
      acc := q.2.acc.map (fun a => if a.phase = .parked ∧ held p.1 q.1 a.id = false then a.again else a) })) })) }

/-- Whether an exchange has delivered everything and only its compute release is to come (R60). -/
def Exch.delivered (e : Exch) : Bool := e.todo.isEmpty && e.air.isEmpty && e.c.isNone

/-- Whether a slot is inside a TLBINV or REPLAY, which goes on until every core has acknowledged: no instruction boundary (R376, R380). -/
def Slot.inCast (x : Slot) : Bool := x.park.any (fun w => match w.kind with | .acks _ => true | _ => false)

/-- Whether a slot stands at a boundary with its accesses performed and its values returned; parked accesses stay parked (R364). -/
def State.still (s : State) (c : Nat) (x : Slot) : Bool :=
  x.branches.isEmpty && x.results.isEmpty && x.abort.isNone && !x.inCast && !s.goes c x

/-- Whether a job can be saved where it stands: no V/F move under way (R337), vector and field commands run to completion, loads and drains of tiles at
a row boundary and copies at their progress (R364), no gang between the issues of its members, the sweep thread between routines or at a BRK (R361), exchanges over but for a
release that is withheld; at a step limit a gang's instruction, a site routine and an exchange may be under way (R349). -/
def State.quiet (s : State) (j : Job) (mid : Bool) : Bool :=
  (s.held j).all (fun c =>
    let k := s.core c
    k.slots.all (fun p => s.still c p.2) && !s.enginesGo c && k.vf.moving.isNone &&
    (mid || (!s.gangGoes c && ((k.slot 11).mode == .free || k.atBrk 11)))) &&
  (mid || s.exchanges.all (fun e => e.job != j.id || (e.delivered && s.withheld e)))

/-- Whether the Retriever has returned its messages to the backlog: it is not between taking one and storing it, nor between loading one and looping
it back (R60, R235). (DEDUCED, log entry 40) -/
def Core.retrieverRests (k : Core) : Bool :=
  let x := k.slot 12
  x.mode == .free || (match x.park with | some w => w.kind == .mrecv || w.kind == .loopb | none => false)

/-- The job's withheld level-1 exchange at a safe point (R60), which passes no parked access by, a snapshot's or a Herder's neither (R248). -/
def State.safePoint (s : State) (j : Job) : Bool :=
  s.exchanges.any (fun e => e.job == j.id && e.tag == 1 && e.delivered) &&
  s.exchanges.all (fun e => e.job != j.id || (e.todo.isEmpty && e.air.isEmpty)) &&
  (s.held j).all (fun c =>
    let k := s.core c
    k.slots.all (fun p => p.2.acc.isEmpty && p.2.results.isEmpty && p.2.branches.isEmpty && !p.2.inCast) && (k.slot 11).mode == .free && k.retrieverRests &&
    [0, 1, 2].all (fun e => (k.cmds e).isEmpty) && !s.objs.any (fun o => o.queue.any (fun q => q.core == c)))

/-! ## Saving (R61, R365, R366) -/

/-- SSTEP with which core c will resume issuing: one more where a withheld compute release of level 1 is to come (R365). -/
def State.resumeStep (s : State) (c : Nat) : Word :=
  (s.core c).sstep + BitVec.ofNat 64 (ofBool (s.exchanges.any (fun e => e.tag == 1 && e.delivered && e.members.contains c)))

/-- What pre-emption does to a core before its save: profile records with INTR, the lease suspended. -/
def State.suspend (s : State) (c : Nat) : State :=
  (s.flushProf c true (s.resumeStep c)).onCore c (fun k => { k with vf := { k.vf with held := k.vf.held || decide (0 < k.vf.lease) } })

/-- The context of a job saved whole, and its cores given back; preempt then says that it resumes by itself, and the two latest safe points are kept
for a replay (R61, R349). (DEDUCED, log entry 52) -/
def State.saveJob (s : State) (j : Job) (pre safe : Bool) (phase : JobPhase) : State :=
  let cs := s.held j
  let s := if pre then cs.foldl State.suspend s else s
  let mine (c : Nat) : Bool := cs.contains c
  let j' : Job := { s.rest j with phase := phase, preempt := pre, draining := false, save := some s.nextId }
  let sv : Save := {
    id := s.nextId, job := j', cores := cs.map (fun c => (c, s.core c))
    mem := s.mem.filter (fun p => inCores cs p.1)
    arrivals := s.arrivals.filter (fun a => mine a.core)
    exchanges := s.exchanges.filter (fun e => e.job == j.id)
    writes := s.portWrites.filter (fun w => mine w.src)
    messages := s.messages.filter (fun m => mine m.src)
    time := s.rtime.toNat }
  let s : State := { s with
    nextId := s.nextId + 1
    saves := s.saves.filter (fun x => x.job.id != j.id) ++ [sv]
    safe := if safe then s.safe.filter (fun (x : Save) => x.job.id != j.id) ++ ((s.safe.filter (fun (x : Save) => x.job.id == j.id)).getLast?).toList ++ [sv] else s.safe
    arrivals := s.arrivals.filter (fun a => !mine a.core)
    exchanges := s.exchanges.filter (fun e => e.job != j.id)
    portWrites := s.portWrites.filter (fun w => !mine w.src)
    messages := s.messages.filter (fun m => !mine m.src)
    jobs := s.jobs.map (fun x => if x.id = j.id then j' else x) }
  cs.foldl State.vacate (s.mapParked (fun c => some (if mine c then awayCore sv.id c else c)))

/-! ## Restoring -/

/-- Translations are asked for afresh (R376); a page request that is still outstanding keeps what waits on it parked until REPLAY (R380), one that has
failed meanwhile until it resumes. -/
def AccPhase.restored (p : AccPhase) (out : List Nat) : AccPhase :=
  match p with
  | .ats _ => .miss
  | .pageReq r n => if out.contains r then .pageReq r n else .miss
  | p => p

/-- A walk as it resumes: what it has read and written stands. -/
def Walk.restored (w : Walk) (out : List Nat) : Walk := { w with xlat := [], ask := w.ask.map (fun q => { q with phase := q.phase.restored out }) }

/-- A slot as it resumes: pre-empted time does not count (R400); a BRK's wait is over (R361). (DEDUCED, log entry 52) -/
def Slot.restored (x : Slot) (from_ to_ : Nat) (out : List Nat) : Slot :=
  let y := x.skip from_ to_
  { y with
    acc := y.acc.map (fun a => if a.phase = .ready then a.again else { a with phase := a.phase.restored out }), walk := y.walk.restored out
    park := match y.park with | some w => if w.kind = .brk then none else some w | none => none }

/-- A command as it resumes. -/
def Cmd.restored (m : Cmd) (out : List Nat) : Cmd := { m with walk := m.walk.restored out }

/-- V/F state as it resumes where a thermal cap stands: a level above the cap, or a request posted for the core meanwhile, has the mailbox ask for the
job's level again, which the cap bounds (R341). -/
def VF.restored (v now : VF) : VF :=
  { v with moving := none, cap := now.cap, mail := if v.mail.isNone && (decide (now.cap < v.level) || now.mail.isSome) then some v.want else v.mail }

/-- A core as it resumes for job id at time now: no TLB entries, no buffered words. -/
def Core.restored (k now : Core) (id from_ to_ : Nat) (out : List Nat) : Core :=
  { k with
    job := some id, tlb := [], mtlb := [], ctlb := [], ibuf := [], bkptHit := false, slice := false, bkpt := now.bkpt
    slots := k.slots.map (fun p => (p.1, p.2.restored from_ to_ out))
    fields := k.fields.map (fun p => (p.1, { p.2 with walk := p.2.walk.restored out }))
    queue := k.queue.map (fun p => (p.1, p.2.map (fun m => m.restored out))), exec := k.exec.map (fun p => (p.1, p.2.map (fun m => m.restored out)))
    vf := k.vf.restored now.vf }

/-- The grant test made again for a suspended lease (R366). -/
def State.retest (s : State) (c : Nat) : State :=
  let v := (s.core c).vf
  if 0 < v.lease ∧ v.held = true then
    let r := s.boostTest c
    if r.1 then r.2.onCore c (fun k => { k with vf := { v with held := false, mail := some v.fmax } }) else r.2
  else s

/-- What waits at core c on a page request that was answered with a failure while its context was saved fails now (R379). -/
def State.lateAnswers (s : State) (c : Nat) : State :=
  (s.parkedOrder c).foldl (fun s m => match m.phase with
    | .pageReq r _ => (s.answers.find? (fun q => q.1 == r)).elim s (fun q => s.release c m q.2)
    | _ => s) s

/-- A saved context back in its cores, for a job; parked accesses that transitions of others made legal meanwhile are performed (R248). (DESIGN CHOICE, log entry 77) (DESIGN CHOICE, log entry 95) -/
def State.restore (s : State) (sv : Save) (j : Job) : State :=
  let cs := sv.cores.map (·.1)
  let s : State := { s with
    mem := sv.mem.foldl (fun m p => Memory.write m p.1 p.2) (s.mem.filter (fun p => !inCores cs p.1))
    poison := s.poison.filter (fun p => !inCores cs (p.1 * 64))
    arrivals := s.arrivals ++ sv.arrivals
    exchanges := s.exchanges ++ sv.exchanges.map (fun e => { e with job := j.id })
    portWrites := s.portWrites ++ sv.writes
    messages := s.messages ++ sv.messages
    domCode := tset s.domCode j.dom.toNat (selfAddr (hdCodeOff j.hdr), selfAddr (hdCodeOff j.hdr) + BitVec.ofNat 64 (hdCodeLen j.hdr))
    resident := s.resident.filter (fun r => !cs.contains r.1) ++ cs.map (fun c => (c, j.pw 1, hdCodeOff j.hdr, hdCodeLen j.hdr)) }
  let s := s.mapParked (fun c => some (if c / noCore = 2 + sv.id then c % noCore else c))
  let out := s.pageReqs.map (·.id) ++ s.answers.map (·.1)
  let s := sv.cores.foldl (fun s p => (s.onCore p.1 (fun k => p.2.restored k j.id sv.time s.rtime.toNat out)).retest p.1) s
  let s := cs.foldl State.lateAnswers s
  (s.objs.map (·.id)).foldl State.recheckObj (cs.foldl State.shareCore s).reready

/-! ## Time slices (R344) -/

/-- Whether the head of core c's queue e may start: a joint command only with its segment, or to be abandoned. -/
def State.headGoes (s : State) (c e : Nat) : Bool :=
  (s.startable c e).any (fun m => match m.instr with
    | .mmaj _ _ _ => s.jointBad c m || (s.jointReady c m).isSome
    | _ => true)

/-- Whether core c, whose time slice is over, still drains as at SYNC: an access, port write, message or matrix, vector or copy command of slots 0
to 10 that goes on by itself. What only another member's run can end, a joint command of both sides of the pair among it, is saved with the rest,
since results are those of an unshared run (R54, R344). (DESIGN CHOICE, log entry 45) -/
def State.drains (s : State) (c : Nat) : Bool :=
  let moves (o : Out State) : Bool := match o with | .next t => decide (t ≠ s) | _ => true
  (List.range 11).any (fun t => s.goes c (s.slot c t) || s.goes c (s.slot c (departed t))) ||
  (List.range s.portWrites.length).any (fun i => (s.portWrites[i]?).any (fun w => w.src == c && decide (w.slot ≤ 10)) && moves (execPortWriteArrival i s)) ||
  (List.range s.messages.length).any (fun i => (s.messages[i]?).any (fun m => m.src == c && decide (m.slot ≤ 10)) && moves (execMessageArrival i s)) ||
  [0, 1, 2].any (fun e => (tget (s.core c).exec e []).any (fun m => decide (m.slot ≤ 10) && s.cmdRuns c e m) ||
    ((s.queueHead c e).any (fun m => decide (m.slot ≤ 10)) && s.headGoes c e))

/-- TIMESLICE_SWITCH (R344): the active member, drained, gives the physical core to the other. (DESIGN CHOICE, log entry 45) -/
def execTimesliceSwitch (c : Nat) (s : State) : Out State :=
  .next (match s.sliceDue c with
    | some d => if s.drains c then s else s.switchTo c d
    | none => s)

/-! ## The steps -/

/-- PREEMPT_SAFE_POINT (R60, R61). -/
def execPreemptSafePoint (job : Nat) (s : State) : Out State :=
  .next (match s.job? job with
    | some j => if j.preempt = true ∧ j.phase = .running ∧ s.safePoint j = true then s.saveJob j true true (.saved true) else s
    | none => s)

/-- PREEMPT_BETWEEN_SAFE_POINTS (R62, R364): the slots are asked to stop, and once all is still the context is saved. (DEDUCED, log entry 52) -/
def execPreemptBetweenSafePoints (job : Nat) (s : State) : Out State :=
  .next (match s.job? job with
    | some j =>
      if j.preempt = false ∨ j.phase ≠ .running ∨ pkDet j.pkt = true then s
      else if j.draining = false then s.onJob job (fun j => { j with draining := true })
      else if s.quiet j false then s.saveJob j true false (.saved false) else s
    | none => s)

/-- Whether a slot of core c stands at a BRK. -/
def State.brkOn (s : State) (c : Nat) : Bool := (List.range 13).any (s.core c).atBrk

/-- Whether the control context of core c stands still: ended, or parked, at its level-1 SYNC or in another wait, with nothing of the core under way
that may end the wait (R361). (DEDUCED, log entry 52) -/
def State.stands (s : State) (c : Nat) : Bool :=
  let x := s.slot c 0
  x.mode != .live || (match x.park with
    | none => false
    | some w => !s.waitOver c 0 w && s.still c x && [0, 1, 2].all (fun e => !s.engineRuns c e))

/-- Whether a core of a job stands at a BRK, and every other one stands still (R361). (DEDUCED, log entry 52) -/
def State.brkStands (s : State) (j : Job) : Bool := (s.held j).any s.brkOn && (s.held j).all (fun c => s.brkOn c || s.stands c)

/-- DEBUG_STOP (R348, R361): at the safe point that follows a match, or where an undelivered BRK leaves every core waiting. (DEDUCED, log entry 52) -/
def execDebugStop (job : Nat) (s : State) : Out State :=
  .next (match s.job? job with
    | some j =>
      if j.phase ≠ .running ∨ ((s.held j).any (fun c => (s.core c).bkptHit)) = false then s
      else if s.safePoint j then s.saveJob j false true (.saved true)
      else if j.draining = true ∧ (j.preempt = false ∨ pkDet j.pkt = true) then
        if s.quiet j false then s.saveJob j false false (.saved false) else s
      else if s.brkStands j then s.onJob job (fun j => { j with draining := true })
      else s
    | none => s)

/-- STEP_LIMIT_REACHED (R349): every core of the job stops at its boundaries, and the context is saved. -/
def execStepLimitReached (s : State) : Out State :=
  .next (match s.stepLimit with
    | some (c, t, n) =>
      if n ≤ (s.slot c t).icount then
        match (s.core c).job.bind s.job? with
        | some j => if s.quiet j true then { (s.saveJob j false false (.saved false)) with stepLimit := none } else s
        | none => { s with stepLimit := none }
      else s
    | none => s)

/-! ## What waits for cores (R56, R57) -/

/-- Whether every entry of a rectangle is valid (R343). -/
def State.remapped (s : State) (g : Word) : Bool := (gridCores g).all (fun c => bit (tget s.remap c 0) 24)

/-- Whether a job occupies a core of a rectangle. -/
def State.busyGrid (s : State) (g : Word) : Bool := (gridCores g).any (fun c => (s.core c).job.isSome)

/-- Priority of the head of queue q (R322). -/
def State.headPrio (s : State) (q : Nat) (h : Head) : Nat := min (s.queue q).prio (pkPrio h.pkt)

/-- Whether a head's dependences are met (R56, R321). -/
def State.depsMet (s : State) (p : List Word) : Bool :=
  [9, 11, 13, 15].all (fun i => !bit (pkW p i) 16 || decide ((pkW p (i + 1)).toNat ≤ (s.queue (fld (pkW p i) 0 16)).ctl.toNat))

/-- The launches at the heads of their queues: not one behind a saved job, which stays its queue's head (R56, R61). -/
def State.atHead (s : State) : List (Nat × Head) := s.heads.filter (fun p => !s.keepsHead p.1)

/-- Whether a rectangle waits only for its cores: every one is mapped, and some are busy (R57, R343). -/
def State.waitsForCores (s : State) (g : Word) : Bool := s.remapped g && s.busyGrid g

/-- The rectangles of heads that wait only for their cores, with their priorities (R57). (DEDUCED, log entry 51) -/
def State.headsWaiting (s : State) : List (Nat × Word) :=
  (s.atHead.filter (fun p => s.depsMet p.2.pkt && s.waitsForCores (pkGrid p.2.pkt))).map (fun p => (s.headPrio p.1 p.2, pkGrid p.2.pkt))

/-- The rectangles of pre-empted jobs, which stay heads of their queues and resume by themselves, with their priorities (R56, R61); a job stopped for a
debugger waits for the debugger. (DEDUCED, log entry 51) -/
def State.awaiting (s : State) : List (Nat × Word) :=
  (s.jobs.filter (fun j => (match j.phase with | .saved _ => true | _ => false) && j.preempt && s.remapped (pkGrid j.pkt))).map (fun j => (j.prio, pkGrid j.pkt))

/-- Rectangles whose busy cores are asked for at a priority (R57, R60). (DEDUCED, log entry 51) -/
def State.reservations (s : State) : List (Nat × Word) := s.headsWaiting ++ s.awaiting.filter (fun r => s.busyGrid r.2)

/-- Whether two rectangles share a core. -/
def gridsMeet (a b : Word) : Bool := (gridCores a).any (fun c => inGrid b c)

/-- Whether a reservation of higher priority, or a pre-empted job that comes first, stands on a core of a rectangle (R56, R57). (DEDUCED, log entry 51) -/
def State.blocked (s : State) (prio : Nat) (g : Word) : Bool := (s.headsWaiting ++ s.awaiting).any (fun r => decide (prio < r.1) && gridsMeet r.2 g)

/-- Whether a V/F move is under way on a core of a rectangle: it always completes (R337). -/
def State.movingIn (s : State) (g : Word) : Bool := (gridCores g).any (fun c => (s.core c).vf.moving.isSome)

/-- Whether a head of higher priority that could start takes cores of a rectangle first (R56). -/
def State.outranked (s : State) (prio : Nat) (g : Word) : Bool :=
  s.atHead.any (fun p => decide (prio < s.headPrio p.1 p.2) && gridsMeet (pkGrid p.2.pkt) g && s.depsMet p.2.pkt && s.remapped (pkGrid p.2.pkt))

/-- The save that a job resumes from: the one it was saved with; for a replay under a step limit, that of the safe point before (R349). (DEDUCED, log entry 52) -/
def State.resumeFrom (s : State) (j : Job) (replay : Bool) : Option Save :=
  match (if replay then ((s.safe.filter (fun x => x.job.id == j.id && some x.id != j.save)).getLast?) else none) with
  | some sv => some sv
  | none => s.saves.find? (fun x => x.job.id == j.id)

/-- JOB_RESUME (R61, R349, R366): restored on its rectangle; a replay comes with a step limit, and begins at the safe point before. -/
def execJobResume (job : Nat) (limit : Option (Nat × Nat × Nat)) (s : State) : Out State :=
  .next (match s.job? job with
    | some j =>
      match j.phase, s.resumeFrom j limit.isSome with
      | .saved _, some sv =>
        let g := pkGrid j.pkt
        if s.ready = false ∨ s.busyGrid g = true ∨ s.remapped g = false ∨ s.blocked j.prio g = true ∨ s.outranked j.prio g = true ∨ s.movingIn g = true then s
        else
          let s := s.mapParked (fun c => if j.save.any (fun n => decide (n ≠ sv.id ∧ c / noCore = 2 + n)) then none else some c)
          let s : State := { s with saves := s.saves.filter (fun x => x.job.id != job), safe := s.safe.filter (fun x => x.job.id != job || decide (x.id ≤ sv.id)) }
          let s := s.restore sv j
          let s := s.onJob job (fun j => { j with phase := .running, preempt := false, save := none, since := s.rtime.toNat })
          match limit with
          | some (c, t, n) => ({ s with stepLimit := some (c, t, n) }).onSlot c t (fun x => { x with icount := 0 })
          | none => s
      | _, _ => s
    | none => s)

end Sys2Proof.Machine
end

