-- ==== Sys2Proof/Machine/Jobs.lean ====
section
/-! DEFINITION. A job from the scheduler's choice to its completion record (R30, R56 to R59, R323, R327, R328, R346, R357, R366, R389, R403, R409). -/

namespace Sys2Proof.Machine

open Sys2Proof

/-! ## The scheduler (R56, R57) -/

/-- Whether a head can start: no saved job before it in its queue, dependences met, rectangle free and mapped, no higher reservation on it; one that resumes takes its cores as they are, and
waits for V/F moves to end (R337). -/
def State.eligible (s : State) (q : Nat) (h : Head) : Bool :=
  let g := pkGrid h.pkt
  !s.keepsHead q && s.depsMet h.pkt && !s.busyGrid g && s.remapped g && !s.blocked (s.headPrio q h) g && !(pkResume h.pkt && s.movingIn g)

/-- The queue served next: highest priority, then a queue with starts left in its weighted round; a spent round begins anew. -/
def State.pickQueue (s : State) : Option (Nat × Head × State) :=
  let l := s.heads.filter (fun p => s.eligible p.1 p.2)
  let top := (l.map (fun p => s.headPrio p.1 p.2)).foldl max 0
  let m := l.filter (fun p => s.headPrio p.1 p.2 == top)
  let s' := if m.any (fun p => decide (0 < (s.queue p.1).credit)) then s
    else m.foldl (fun s p => s.setQueue p.1 { s.queue p.1 with credit := (s.queue p.1).weight }) s
  match m.find? (fun p => decide (0 < (s'.queue p.1).credit)) with
  | some p => some (p.1, p.2, s'.setQueue p.1 { s'.queue p.1 with credit := (s'.queue p.1).credit - 1 })
  | none => none

/-- Running jobs that a reservation of higher priority asks to yield (R60). -/
def State.markPreempt (s : State) : State :=
  { s with jobs := s.jobs.map (fun j => match j.phase with
    | .running => { j with preempt := s.reservations.any (fun r => decide (j.prio < r.1) && gridsMeet r.2 (pkGrid j.pkt)) || j.draining && j.preempt }
    | _ => j) }

/-- A head becomes a job that holds its rectangle (R58, step 1). -/
def State.claim (s : State) (q : Nat) (h : Head) : State :=
  let id := jobId q h.num
  let j : Job := { id := id, queue := q, num := h.num, prio := s.headPrio q h, pkt := h.pkt, hdr := h.hdr, memb := h.memb, scheds := h.scheds, args := h.args, dom := jobDom id, asid := Config.jobAsid id, key := Config.jobKey id, phase := .claimed, tstart := 0, waits := [], save := none, energy := 0, since := s.rtime.toNat, worked := 0, preempt := false, draining := false }
  let s : State := { s with heads := tdel s.heads q, jobs := s.jobs ++ [j] }
  j.cores.foldl (fun s c => s.onCore c (fun k => { k with job := some id })) s

/-! ## State at launch (R58, R59, R133, R336) -/

/-- A core's exchange pairs as sender (R224). -/
def pairsOf (l : List Sched) (c : Nat) : List XPair :=
  l.flatMap (fun x => (x.pairs.filter (fun p => p.2.1 == c)).map (fun p => { tag := x.tag, slot := p.1, recv := p.2.2 }))

/-- V/F limits of a packet. -/
def VF.launch (v : VF) (p : List Word) : VF :=
  let w : VF := { v with lease := 0, held := false, lastFreq := none, mail := none, fmin := fld (pkW p 17) 20 4, fmax := fld (pkW p 17) 16 4 }
  { w with level := min w.launchLevel w.cap }

/-- A core initialised for a job; slot 0 stands at the entry with the argument area's address in g1. -/
def Core.launch (k : Core) (j : Job) (i c : Nat) : Core :=
  let base := selfAddr (hdCodeOff j.hdr)
  let x : Slot := { Slot.reset with mode := .live, pc := selfAddr (hdEntry j.hdr), asid := j.asid, dom := j.dom, key := j.key, codebase := base, codelim := base + BitVec.ofNat 64 (hdCodeLen j.hdr) }
  { k.vacated with
    phase := .placed, job := some j.id, slots := [(0, x.wr 1 (selfAddr (pkArgOff j.pkt)))]
    smask := BitVec.ofNat 64 (j.memb.getD i 0), domch := j.pw 3, segm := j.pw 4, jobgrid := pkGrid j.pkt
    det := pkDet j.pkt, gatesOn := pkGates j.pkt, xslot := pairsOf j.scheds c
    vf := k.vf.launch j.pkt }

/-- Whether a core still holds this image from an earlier launch (R58). -/
def State.holdsImage (s : State) (j : Job) (c : Nat) : Bool :=
  s.resident.any (fun r => r == (c, j.pw 1, hdCodeOff j.hdr, hdCodeLen j.hdr))

/-- Code and data as step 2 reads them; none to read when the image is resident in every core. -/
def State.readImage (s : State) (j : Job) : DevRes (Option (List Byte × List Byte)) :=
  if j.cores.all (s.holdsImage j) then .ok none
  else
    let g := pkAgent j.id j.pkt
    (s.devRead g (j.pw 0 + 64) (hdCodeLen j.hdr)).bind (fun a =>
      (s.devRead g (j.pw 0 + BitVec.ofNat 64 (64 + hdCodeLen j.hdr)) (hdDataLen j.hdr)).bind (fun b => .ok (some (a, b))))

/-- Bytes placed in a core's memory. -/
def State.placeBytes (s : State) (c off : Nat) (l : List Byte) : State :=
  { s with mem := Memory.writeBytes s.mem (coreKey c off) l, poison := clearPoison s.poison (coreKey c off) l.length }

/-- LAUNCH_IMAGE_PLACED (R58, steps 2 to 5; R323): a section that cannot be read ends the launch with STATUS 4. V/F moves that the last job left
under way complete first (R337). The code region of the job's domain is the one placed last. (DESIGN CHOICE, log entry 95) -/
def execLaunchImagePlaced (job : Nat) (s : State) : Out State :=
  .next (match s.job? job with
    | some j =>
      if j.phase ≠ .claimed ∨ s.movingIn (pkGrid j.pkt) = true then s
      else match s.readImage j with
        | .need v => s.devRequest j.id (pkPasid j.pkt) v false
        | .parked k => s.parkOther (.device j.id) k false
        | .bad => s.onJob job (fun j => { j with phase := .stopping 4 })
        | .ok img =>
          let s : State := match img with
            | some (a, b) => j.cores.foldl (fun s c => (s.placeBytes c (hdCodeOff j.hdr) a).placeBytes c (hdDataOff j.hdr) b) s
            | none => s
          let s : State := j.cores.foldl (fun s c => s.placeBytes c (pkArgOff j.pkt) j.args) s
          let s : State := j.cores.zipIdx.foldl (fun s p => s.onCore p.1 (fun k => k.launch j p.2 p.1)) s
          let base := selfAddr (hdCodeOff j.hdr)
          let s : State := { s with
            domCode := tset s.domCode j.dom.toNat (base, base + BitVec.ofNat 64 (hdCodeLen j.hdr))
            resident := s.resident.filter (fun r => !j.cores.contains r.1) ++ j.cores.map (fun c => (c, j.pw 1, hdCodeOff j.hdr, hdCodeLen j.hdr)) }
          s.onJob job (fun j => { j with phase := .placed })
    | none => s)

/-- LAUNCH_RELEASE (R58, step 6): the superstep-0 barrier, 28 or 44 router cycles after the last arrival. (DESIGN CHOICE, log entry 27) -/
def execLaunchRelease (job : Nat) (s : State) : Out State :=
  .next (match s.job? job with
    | some j =>
      if j.phase ≠ .placed then s
      else
        let s : State := s.notBefore (s.rtime.toNat + releaseLatency j.cores)
        let s : State := j.cores.foldl (fun s c => (s.shareCore c).onCore c (fun k => { k with phase := .running })) s
        s.onJob job (fun j => { j with phase := .running, tstart := s.rtime.toNat, since := s.rtime.toNat })
    | none => s)

/-! ## A resumed launch (R409) -/

/-- The job of a resuming launch: the stopped one's saved fields, the packet's priority, limits, schedules and record. -/
def resumedJob (old : Job) (q prio now : Nat) (h : Head) : Job :=
  { old with id := jobId q h.num, queue := q, num := h.num, prio := prio, pkt := h.pkt, scheds := h.scheds, phase := .running, tstart := 0, waits := [], save := none, energy := 0, since := now, worked := 0, preempt := false, draining := false }

/-- A job that leaves the machine keeps its share of the accounting window (R342). -/
def State.retireJob (s : State) (j : Job) : State := { s with gone := s.gone ++ [(j.cores.length, s.timeInWindow j)], jobs := s.jobs.filter (fun x => x.id != j.id) }

/-- A launch that was accepted and cannot begin ends with STATUS 4, as one whose sections cannot be read does (R323). (DESIGN CHOICE, log entry 99) -/
def State.failHead (s : State) (q : Nat) (h : Head) : State :=
  { s with heads := tdel s.heads q, verdicts := tset s.verdicts q { num := h.num, pkt := h.pkt, status := 4 } }

/-- RESUME_LAUNCH: the context restored under replacement schedules; the withheld compute release may come. One whose stopped job has been given up
since its check has nothing to resume. -/
def State.resumeLaunch (s : State) (q : Nat) (h : Head) : State :=
  match s.stopped h.pkt with
  | none => s.failHead q h
  | some old =>
    match s.saves.find? (fun x => x.job.id == old.id) with
    | none => s.failHead q h
    | some sv =>
      let j := resumedJob old q (s.headPrio q h) s.rtime.toNat h
      let s := s.retireJob old
      let s : State := { s with heads := tdel s.heads q, jobs := s.jobs ++ [j], saves := s.saves.filter (fun x => x.job.id != old.id), safe := s.safe.filter (fun x => x.job.id != old.id) }
      let s : State := s.restore sv j
      let s : State := { s with exchanges := s.exchanges.map (fun e => if e.job = j.id then { e with cancelled := false } else e) }
      j.cores.foldl (fun s c => s.onCore c (fun k => { k with xslot := pairsOf j.scheds c, vf := k.vf.launch h.pkt })) s

/-- SCHEDULER_START (R56, R57): the chosen head claims its rectangle, or resumes its stopped job. -/
def execSchedulerStart (s : State) : Out State :=
  let s : State := s.markPreempt
  .next (if s.ready = false then s
    else match s.pickQueue with
      | none => s
      | some (q, h, s) => if pkResume h.pkt then s.resumeLaunch q h else s.claim q h)

/-! ## The end of a core (R30, R346) -/

/-- Whether slot 0, in a gang every member's (R124), has executed STOP and has taken the traps that wait for it, the helpers are free, its engine commands complete, and no field runs. -/
def State.coreDone (s : State) (c : Nat) : Bool :=
  let k := s.core c
  let x := k.slot 0
  k.phase == .running && k.gang == 0 && k.gangDone.isNone && (match x.park with | some w => w.kind == .ended | none => false) && x.traps.isEmpty && x.abort.isNone &&
  (List.range' 1 10).all (fun t => (k.slot t).mode == .free) &&
  [0, 1, 2, 3].all (fun e => !(k.cmds e).any (fun m => m.slot == 0)) && k.fields.all (fun p => !p.2.run)

/-- The other member of a SHARED pair takes the physical core from a member that ends (R344). -/
def State.yieldPair (s : State) (c : Nat) : State :=
  match s.partner c with
  | some d => if (s.core d).slice then s.switchTo c d else s
  | none => s

/-- CORE_END (R30): profile entries written, every slot free, inbox discarded, windows closed; what threads have left unperformed goes on. -/
def execCoreEnd (c : Nat) (s : State) : Out State :=
  .next (if s.coreDone c then
      let s := s.flushProf c false (s.core c).sstep
      let s := (List.range 13).foldl (fun s t => s.freeSlot c t) s
      (s.onCore c (fun k =>
        { k with
          phase := .ended, inbox := [], backlog := false, staging := [], heap := 0
          windows := k.windows.map (fun p => (p.1, { p.2 with isOpen := false })) })).yieldPair c
    else s)

/-! ## The end of a job (R327, R328, R357, R389, R403) -/

/-- Objects bound by a job's domain, dropped; accesses of others that wait parked there go on without them (R389). -/
def State.dropObjs (s : State) (dom : BitVec 6) : State := ({ s with objs := s.objs.filter (fun o => o.binder != dom) } : State).reready

/-- Whether an access stays where it is unless an object or a page lets it go on: parked, or sent again and again to be parked, or cut off. -/
def State.stuck (s : State) (c : Nat) (a : Access) : Bool := a.phase.isParked || (a.phase == .ready && s.resends c a) || s.cutOff c a

/-- Accesses still parked on behalf of a job's cores, withdrawn unperformed (R389). -/
def State.withdrawJob (s : State) (j : Job) : State :=
  (s.held j).foldl (fun s c => (s.core c).slots.foldl (fun s p =>
    (p.2.acc.filter (s.stuck c)).foldl (fun s a => s.abandonAcc c p.1 a) s) s) s

/-- What a saved job has parked, gone from the queues (R389). -/
def State.forgetSaved (s : State) (job : Nat) : State :=
  let ids := ((s.saves ++ s.safe).filter (fun x => x.job.id == job)).map (·.id)
  (s.mapParked (fun c => if ids.any (fun n => c / noCore == 2 + n) then none else some c))

/-- Whether a fault or wait record names slot t of core c. -/
def FaultRec.names (r : FaultRec) (c t : Nat) : Bool := fld (r.words.headD 0) 19 4 == t && fld (r.words.headD 0) 23 11 == c

/-- Whether a fault record of the job names a slot. -/
def State.hasRecord (s : State) (job c t : Nat) : Bool := s.faults.any (fun r => r.job == job && r.names c t)

/-- Whether slot 0 of core c stands only because a member of its gang does (R50, R346). -/
def State.partnerStalls (s : State) (c t : Nat) : Bool := t == 0 && (s.core c).gang != 0 && (s.gangOf c).any (fun d => (s.slot d 0).park.isSome)

/-- The wait record of a parked or stalled slot (R403), from which firmware draws its wait-for graph (R404). -/
def State.waitRec (s : State) (c t : Nat) : Option FaultRec :=
  let x := s.slot c t
  let mk (info addr : Word) (a : Option Access) : FaultRec :=
    let po := match a with | some a => (a.page, a.op) | none => let o := s.opAt c t; (o.1, o.2.1)
    s.faultRec c t { code := 0x10, defer := false, page := po.1, op := po.2, addr := addr, info := info, fpc := (match a with | some a => a.fpc | none => x.pc), map := none } false true
  let other : Option FaultRec := some (mk (waitInfo 11 false (s.stall c t).1 0 0 0) 0 none)
  if x.mode != .live then none
  else match x.park with
    | some w =>
      (match w.kind with
        | .dead | .ended => none
        | _ =>
          match s.waitWord c t w with
          | some k => some (mk k.info k.addr k.acc)
          | none => other)
    | none => if 0 < x.pauseLeft ∨ s.standing c t = true ∨ s.partnerStalls c t = true then other else none

/-- Wait records of the slots of a job that have no fault record of their own, in order; one made before a wait was withdrawn stands (R403). -/
def State.waitRecs (s : State) (j : Job) : List FaultRec :=
  (s.held j).flatMap (fun c => (List.range 13).filterMap (fun t =>
    if s.hasRecord j.id c t then none
    else match j.waits.find? (fun r => r.names c t) with
      | some r => some r
      | none => s.waitRec c t))

/-- LAST set in the first record of a job in a list that runs backwards (R357). -/
def markFirst (job : Nat) : List FaultRec → List FaultRec
  | [] => []
  | r :: q => if r.job = job then { r with words := r.words.set 7 (r.words.getD 7 0 ||| 1) } :: q else r :: markFirst job q

/-- LAST set in the last record of a job. -/
def markLast (job : Nat) (l : List FaultRec) : List FaultRec := (markFirst job l.reverse).reverse

/-- Whether an exchange has only flits left that a lost row of the Seam, or one before them to the same receiver that it holds, keeps from delivery (R423). -/
def State.undeliverable (s : State) (e : Exch) : Bool :=
  e.todo.isEmpty && e.air.all (fun f => e.air.any (fun g => g.dst == f.dst && s.rowLost g.src g.dst))

/-- The STATUS with which a job completes once its accesses are performed, if it ends now: every core has ended; or it stops, its vector and field
commands have run to completion, its other engines stand at their progress points, its gangs at a boundary, and its exchanges have delivered
(R30, R50, R357, R364). -/
def State.finalStatus (s : State) (j : Job) : Option Nat :=
  match j.phase with
  | .running => if (s.held j).all (fun c => (s.core c).phase == .ended) then some 0 else none
  | .stopping st =>
    if (s.held j).all (fun c => !s.enginesGo c && !s.gangGoes c) && s.exchanges.all (fun e => e.job != j.id || s.undeliverable e)
    then some st else none
  | _ => none

/-- Whether an access of the job is still in flight (R328, R357). -/
def State.inFlight (s : State) (j : Job) : Bool := (s.held j).any (fun c => (s.core c).slots.any (fun p => s.goes c p.2))

/-- Whether an access of the job is left that is not parked: one that waits behind a parked one, or for a fabric link (R422). -/
def State.behind (s : State) (j : Job) : Bool := (s.held j).any (fun c => (s.core c).slots.any (fun p => p.2.acc.any (fun a => !s.stuck c a)))

/-- SSTEP of core (X0, Y0), from the core or from its saved context. -/
def State.finalStep (s : State) (j : Job) : Word :=
  let c := j.cores.headD 0
  if (s.core c).job = some j.id then (s.core c).sstep
  else match s.saves.find? (fun x => x.job.id == j.id) with
    | some sv => (match sv.cores.find? (fun p => p.1 == c) with | some p => p.2.sstep | none => 0)
    | none => 0

/-- The completion record (R327). (DESIGN CHOICE, log entry 9) -/
def State.completion (s : State) (j : Job) (st : Nat) : List Word :=
  let frec := if s.faults.any (fun r => r.job == j.id) then Config.faultAddr j.id else 0
  [BitVec.ofNat 64 st, BitVec.ofNat 64 j.num, BitVec.ofNat 64 j.tstart, s.rtime, BitVec.ofNat 64 (j.energy + s.idleShare j + Config.jobEnergy j.id), s.finalStep j, frec, if st = 7 then Config.saveAddr j.id else 0]

/-- The bytes of a job's fault area: records one after another, a map of 2,048 bits behind a record that has one (R357, R403). -/
def FaultRec.bytes (r : FaultRec) : List Byte :=
  r.words.flatMap (fun w => bytesOf 8 w.toNat) ++
  (match r.map with
    | some l => (List.range 256).map (fun i => BitVec.ofNat 8 ((List.range 8).foldl (fun n k => n + ofBool (l.contains (8 * i + k)) * 2 ^ k) 0))
    | none => [])

/-- Firmware writes the job's records into its fault area (R357). (DESIGN CHOICE, log entry 13) -/
def State.writeFaults (s : State) (job : Nat) : State :=
  match (s.faults.filter (fun r => r.job == job)).flatMap FaultRec.bytes with
  | [] => s
  | bs => match s.devWrite { launch := 0, pv := false, pasid := 0 } (Config.faultAddr job) bs with
    | .ok t => t
    | _ => s

/-- A job and its saved contexts given up: what it has parked withdrawn, its objects dropped (R389). -/
def State.discard (s : State) (j : Job) : State :=
  let s := (s.forgetSaved j.id).retireJob j
  ({ s with saves := s.saves.filter (fun x => x.job.id != j.id), safe := s.safe.filter (fun x => x.job.id != j.id) } : State).dropObjs j.dom

/-- What a completed job leaves: its objects dropped unless STATUS is 7, its cores free, which may be bound anew (R389, R417). -/
def State.endJob (s : State) (j : Job) (st : Nat) : State :=
  let cs := s.held j
  let s := s.mapParked (fun c => if cs.contains c then none else some c)
  let s : State := { s with
    arrivals := s.arrivals.filter (fun a => !cs.contains a.core)
    exchanges := s.exchanges.filter (fun e => e.job != j.id)
    portWrites := s.portWrites.filter (fun w => !cs.contains w.src)
    messages := s.messages.filter (fun m => !cs.contains m.src)
    atsReqs := s.atsReqs.filter (fun r => !cs.contains r.core) }
  let s : State := if st = 7 then s.onJob j.id (fun j => { j with phase := .stopped7 })
    else s.discard j
  (cs.foldl State.vacate s).rebind

/-! ## Exchange stops (R408) -/

/-- A SLOT record of an overrunning core: its first refused post, the refused posts of its slots counted together, at the router cycle of the release that
cancels the phase (R415). (DEDUCED, log entry 68) -/
def State.overrunRec (s : State) (c : Nat) : State :=
  match (s.core c).cancelledBy 1 with
  | [] => s
  | o :: r =>
    let all : Overrun := { o with count := o.count + (r.map (·.count)).sum }
    let rec' := s.faultRec c o.by_ (o.trap (overrunInfo o.by_ 1 all)) false false
    let e := (s.exchanges.find? (fun e => e.tag == 1 && e.cancelled && e.members.contains c)).elim s.rtime.toNat (·.e)
    s.record { rec' with words := (rec'.words.set 1 (s.core c).sync.next).set 6 (BitVec.ofNat 64 e) }

/-- Whether a job stands at a level-1 phase that an overrun has cancelled (R408). -/
def State.cancelledAt (s : State) (j : Job) : Bool := j.phase == .running && s.exchanges.any (fun e => e.job == j.id && e.tag == 1 && e.cancelled)

/-- The stop at a cancelled level-1 phase: records, the context saved at the safe point, STATUS 7 to come (R408). -/
def State.exchangeStop (s : State) (j : Job) : State :=
  let cs := s.held j
  let s := cs.foldl State.overrunRec s
  let s := cs.foldl (fun s c => s.onCore c (fun k => k.clearOverruns 1)) s
  s.saveJob j false true (.stopping 7)

/-! ## JOB_END and kills -/

/-- Whether a stop with a status is one under R357 or R423, at which wait records are written (R403). -/
def waitsRecorded (st : Nat) : Bool := st == 6 || st == 8 || st == 9

/-- The waits of a job that stops, kept before they are withdrawn: a slot can still take a trap of what waited behind, and then has that record alone
(R403). -/
def State.recordWaits (s : State) (j : Job) (st : Nat) : State :=
  if waitsRecorded st then s.onJob j.id (fun x => { x with waits := s.waitRecs j }) else s

/-- The records complete: wait records behind the fault records, LAST, and the fault area written. -/
def State.closeRecords (s : State) (j : Job) (st : Nat) : State :=
  let s : State := { s with faults := s.faults ++ if waitsRecorded st then s.waitRecs j else [] }
  ({ s with faults := markLast j.id s.faults } : State).writeFaults j.id

/-- A job ends with a status: the waits of its slots recorded, its parked accesses withdrawn, what waited behind them performed first; then the completion record as one write, CTL, and
the message (R328, R389). -/
def State.finish (s : State) (j : Job) (st : Nat) : State :=
  if s.inFlight j then s
  else if s.behind j then (s.recordWaits j st).withdrawJob j
  else
    let t := s.closeRecords j st
    let r := t.writeRecord j.queue j.num j.pkt (t.completion j st)
    if r.2 then ((r.1.devForget j.id (pkPasid j.pkt)).endJob j st).completeQueue j.queue
    else { s with nextId := r.1.nextId, atsReqs := r.1.atsReqs, objs := r.1.objs }

/-- JOB_END (R328, R408): a running job whose level-1 phase is cancelled stops at its safe point; one whose cores have ended, or that stops, completes. -/
def execJobEnd (job : Nat) (s : State) : Out State :=
  .next (match s.job? job with
    | some j =>
      if s.cancelledAt j then (if s.safePoint j then s.exchangeStop j else s)
      else match s.finalStatus j with
        | none => s
        | some st => s.finish j st
    | none => s)

/-- JOB_KILL (R366): the job begins to stop with STATUS 5, its leases cancelled. -/
def execJobKill (job : Nat) (s : State) : Out State :=
  .next (match s.job? job with
    | some j =>
      (match j.phase with
        | .stopping _ | .stopped7 => s
        | _ =>
          let s : State := (s.held j).foldl (fun s c => s.onCore c (fun k => { k with vf := { k.vf with lease := 0, held := false, mail := some k.vf.launchLevel } })) s
          s.onJob job (fun j => { j with phase := .stopping 5 }))
    | none => s)

/-- SAVED_JOB_DISCARD (R389): a job stopped with STATUS 7 is given up, and its objects are dropped. -/
def execSavedJobDiscard (save : Nat) (s : State) : Out State :=
  .next (match s.jobs.find? (fun j => j.save == some save && (match j.phase with | .stopped7 => true | _ => false)) with
    | some j => s.discard j
    | none => s)

end Sys2Proof.Machine
end

