-- ==== Sys2Proof/Machine/Ras.lean ====
section
/-! DEFINITION. Errors, wear, temperature, the Seam and the fabric (R158, R332, R341, R383, R417 to R423). -/

namespace Sys2Proof.Machine

open Sys2Proof

/-! ## Error counts (R383, R419) -/

/-- The counter of a memory block: a bank of the physical core that carries a core, bits [9:6] of the offset; the physical bank behind a commons
bank; or an HBM row (R12, R419). (DESIGN CHOICE, log entry 31) -/
def State.unitOf (s : State) (key : Nat) : Nat :=
  if Config.coreBase ≤ key ∧ key < Config.coreBase + 2 ^ 31 then physOf (s.placeOf ((key - Config.coreBase) / 2 ^ 20)) * 16 + (key - Config.coreBase) / 64 % 16
  else if Config.commonsBase ≤ key then
    let b := (key - Config.commonsBase) / 64 % Config.banks
    bankUnit + tget s.banks b (b / (Config.banks / 2) * Config.banksPerDie + b % (Config.banks / 2))
  else rowUnit + key / 2 ^ 13

/-- Router cycles in which a unit's corrected errors count together: 1 s for a lane, 24 h for the others, at 2.0 GHz (R14, R419). -/
def errWindow (unit : Nat) : Nat := (if laneUnit ≤ unit then 1 else 24 * 60 * 60) * (2 * 10 ^ 9)

/-- Counters: corrected errors of a unit within its window; its uncorrectable ones (R419). -/
def State.count (s : State) (unit : Nat) (hard : Bool) : Nat :=
  ((tget s.errCounts (2 * unit + ofBool hard) []).filter (fun t => hard || decide (s.rtime.toNat < t + errWindow unit))).length
/-- The number of a unit's counter in the health log: 1 uncorrectable errors, 4 Seam lanes, 5 fabric lanes, 6 slice ways, 0 the others' corrected errors.
(DESIGN CHOICE, log entry 31) -/
def counterNo (unit : Nat) (hard : Bool) : Nat :=
  if hard then 1 else if fabricUnit ≤ unit then 5 else if laneUnit ≤ unit then 4 else if wayUnit ≤ unit then 6 else 0

/-- One more error of a unit, with its record (R419). -/
def State.countError (s : State) (unit : Nat) (hard : Bool) : State :=
  { s.log unit (counterNo unit hard) 2 with errCounts := tset s.errCounts (2 * unit + ofBool hard) (tget s.errCounts (2 * unit + ofBool hard) [] ++ [s.rtime.toNat]) }

/-- A unit retired, with a record, its counters cleared (R419). -/
def State.retireUnit (s : State) (unit counter : Nat) : State :=
  { s.log unit counter 0 with
    retired := if s.retired.contains unit then s.retired else s.retired ++ [unit]
    errCounts := tdel (tdel s.errCounts (2 * unit)) (2 * unit + 1) }

/-- ECC reason of a block (R383). -/
def eccReason (key : Nat) (slice : Bool) : Nat :=
  if slice then 2 else if Config.coreBase ≤ key then 0 else if Config.commonsBase ≤ key then 1 else 3

/-- ECC_UNCORRECTABLE (R383): the 64-byte block is poisoned, and the error counted. -/
def execEccUncorrectable (loc : Nat) (slice : Bool) (s : State) : Out State :=
  .next (if Config.hostBase ≤ loc then s
    else ({ s with poison := tset s.poison (loc / 64) (eccReason loc slice) }).countError (s.unitOf loc) true)

/-- Whether a unit is a lane of a fabric port. -/
def fabricLane (unit : Nat) : Bool := decide (fabricUnit ≤ unit ∧ unit < fabricUnit + 64 * 16)

/-- ECC_CORRECTED (R419): an error of a bank, a row or a slice way, or a corrected symbol of a fabric lane, counted only. -/
def execEccCorrected (unit : Nat) (s : State) : Out State := .next (if unit < coreUnit ∨ fabricLane unit = true then s.countError unit false else s)

/-- Threshold of corrected errors in their window: 1,000 for a Seam lane, 4 for a slice way, 16 for a bank or a row (R419). -/
def threshold (unit : Nat) : Nat := if laneUnit ≤ unit then 1000 else if wayUnit ≤ unit then 4 else 16

/-- Whether a unit's counters stand at its threshold; a fabric lane's symbols, one bit each, at a bit error ratio above 10^-5 over 1 s (R419).
(DESIGN CHOICE, log entry 31) -/
def State.atThreshold (s : State) (unit : Nat) : Bool :=
  if fabricLane unit then (match s.count unit false with | 0 => false | n => decide (Config.laneBits ((unit - fabricUnit) / 64) < 10 ^ 5 * n))
  else decide (1 ≤ s.count unit true ∨ threshold unit ≤ s.count unit false)

/-- Whether the device is idle: no job occupies a core. A saved job occupies none (R61, R417, R419). -/
def State.deviceIdle (s : State) : Bool := s.cores.all (fun p => p.2.job.isNone)

/-- ERROR_COUNT_RETIREMENT (R417, R419): a unit at its threshold is retired, with a record; a spare is brought in while the device is idle. Seam lanes
are SEAM_LANE_RETIRE's. In the recovery configuration no firmware runs (R424). -/
def execErrorCountRetirement (unit : Nat) (s : State) : Out State :=
  .next (if s.fail = false ∧ (unit < laneUnit ∨ fabricLane unit = true) ∧ s.atThreshold unit = true then
      let s := s.retireUnit unit (counterNo unit (decide (1 ≤ s.count unit true)))
      if s.deviceIdle then s.steer else s
    else s)

/-! ## Aging and spares (R336, R343, R344, R417, R419) -/

/-- The unit of a part that ages: a physical compute core, and behind those the service cores (R419). (DESIGN CHOICE, log entry 31) -/
def agingUnit (p : Nat) : Nat := if p < 2176 then coreUnit + p else serviceUnit + (p - 2176)

/-- A part retired, with a record; the logical cores that it carried are bound to no core any more. -/
def State.loseUnit (s : State) (unit counter : Nat) : State :=
  let s := { s.log unit counter 0 with retired := s.retired ++ [unit] }
  if coreUnit ≤ unit ∧ unit < coreUnit + 2176 then s.unbind (unit - coreUnit) else s

/-- AGING_RECALIBRATION (R417, R419): while the device is idle, voltages are set, parts over the limit retired, and spares brought in; not in the recovery
configuration, in which no firmware runs (R424). -/
def execAgingRecalibration (bad : List Nat) (s : State) : Out State :=
  .next (if s.fail = false ∧ s.deviceIdle = true then
      (bad.foldl (fun (s : State) p => if p < 2176 + 2 * Config.servicePerDie ∧ s.isRetired (agingUnit p) = false then s.loseUnit (agingUnit p) 0 else s)
        { s with calibrated := s.calibrated + 1 }).rebind.steer
    else s)

/-! ## Stops (R423) -/

/-- A DEVSTOP record of a core (R423). (DEDUCED, log entry 22) -/
def State.devRecord (s : State) (c reason : Nat) : State :=
  s.record (s.faultRec c 0 { s.standTrap c 0 0x1A 0 (BitVec.ofNat 64 reason) with defer := false } false false)

/-- A job begins to stop with a status, with a record for each affected core, unless it already stops. -/
def State.devStop (s : State) (j : Job) (status reason : Nat) (affected : List Nat) : State :=
  match j.phase with
  | .stopping _ | .stopped7 => s
  | _ => (affected.foldl (fun s c => s.devRecord c reason) s).onJob j.id (fun j => { j with phase := .stopping status })

/-- THERMAL_STOP (R341, R423). -/
def execThermalStop (s : State) : Out State :=
  .next { s.jobs.foldl (fun s j => s.devStop j 8 4 (s.held j)) s with ready := false, hot := true }

/-- THERMAL_READY_RESTORE (R423). -/
def execThermalReadyRestore (s : State) : Out State :=
  .next (if s.hot then { s with hot := false, ready := s.stage == 7 && !s.fail } else s)

/-- A core that is lost keeps nothing but its place in the job (R423). (DESIGN CHOICE, log entry 57) -/
def Core.lost (k : Core) : Core := { Core.reset with job := k.job, phase := .ended }

/-- A core's memory and its resident image lost (R423). (DESIGN CHOICE, log entry 57) -/
def State.eraseCore (s : State) (c : Nat) : State :=
  { s with
    mem := Memory.erase s.mem (coreKey c 0) Config.coreBytes
    poison := clearPoison s.poison (coreKey c 0) Config.coreBytes
    resident := s.resident.filter (fun r => r.1 != c) }

/-- The logical cores on the physical core that carries core c; none without a valid entry. -/
def State.sharing (s : State) (c : Nat) : List Nat :=
  if bit (s.placeOf c) 24 then (s.remap.filter (fun q => bit q.2 24 && physOf q.2 == physOf (s.placeOf c))).map (·.1) else []

/-- A job that occupies lost cores stops; they keep nothing. -/
def State.loseCores (s : State) (j : Job) (lost : List Nat) : State :=
  match (s.held j).filter lost.contains with
  | [] => s
  | l => l.foldl (fun s c => s.onCore c Core.lost) (s.devStop j 9 1 l)

/-- Whether what an agent's access comes to is a wait for fabric port p. -/
def EngRes.onPort {α : Type} (r : EngRes α) (p : Nat) : Bool := match r with | .port (some n) => n.toNat == p | _ => false

/-- Whether an operation of core c is pending on fabric port p: an access, an instruction's own block read, an engine command's access, or a Herder's
read of a coupling table (R332, R422). -/
def State.onPort (s : State) (p c : Nat) : Bool :=
  let k := s.core c
  k.slots.any (fun x => x.2.acc.any (fun a => a.place.any (fun q => q.peer.any (fun n => n.toNat == p))) ||
    x.2.park.any (fun w => match w.kind with | .port (some n) => n.toNat == p | _ => false)) ||
  [0, 1, 2, 3].any (fun e => (tget k.exec e []).any (fun m => (s.cmdEffect c e m).onPort p)) ||
  k.fields.any (fun q => q.2.stage == .sweep && q.2.asked && s.adoptedAt q.2 && (s.coupleCopy c (s.fieldAgent c q.1 q.2) q.2.desc (!q.2.live1)).onPort p)

/-- Every job with an operation pending on a fabric port stops (R422, R423). -/
def State.portLost (s : State) (p : Nat) : State :=
  s.jobs.foldl (fun s j =>
    match (s.held j).filter (s.onPort p) with
    | [] => s
    | l => s.devStop j 9 3 l) s

/-- Row r of the Seam is lost: no link of it carries a flit again, and a job with cores of the row on both dies stops (R421, R423). (DESIGN CHOICE, log entry 57) -/
def State.loseRow (s : State) (r : Nat) : State :=
  let s : State := { s with seam := (List.range 4).foldl (fun l p => tset l (seamLink r p) { tget l (seamLink r p) Link.reset with up := false, lost := true }) s.seam }
  s.jobs.foldl (fun s j =>
    let row := (s.held j).filter (fun c => coreY c == r)
    if row.any (fun c => dieOf c == 0) && row.any (fun c => dieOf c == 1) then s.devStop j 9 2 row else s) (s.log r 2 0)

/-- Fabric port p is lost: it stays down, what waits on it is given up, and every job with an operation pending on it stops (R422, R423). (DESIGN CHOICE, log entry 57) -/
def State.losePort (s : State) (p action : Nat) : State :=
  (((s.unqueue noCore (.peer p)).log p 3 action).setPort p { s.port p with up := false, lost := true, waiting := [] }).portLost p

/-- DEVICE_FAULT (R423): the physical core behind a core, a Seam row, or a fabric port lost. (DESIGN CHOICE, log entry 57) -/
def execDeviceFault (u : FaultUnit) (s : State) : Out State :=
  .next (match u with
    | .core c =>
      match s.sharing c with
      | [] => s
      | lost =>
        let t := (lost.foldl State.eraseCore (s.jobs.foldl (fun s j => s.loseCores j lost) s)).loseUnit (coreUnit + physOf (s.placeOf c)) 1
        if s.fail then t else t.rebind
    | .seamRow r => s.loseRow r
    | .fabricPort p => s.losePort p 0)

/-! ## Seam (R420, R421) -/

/-- A change of a Seam row link. -/
def State.onSeam (s : State) (r : Nat) (f : Link → Link) : State := { s with seam := tset s.seam r (f (tget s.seam r Link.reset)) }

/-- The unit of a lane of a row link. (DESIGN CHOICE, log entry 31) -/
def seamLane (link lane : Nat) : Nat := laneUnit + 64 * link + lane % 64

/-- SEAM_CRC_RETRY (R420): the flit is sent again in order; only the count shows it. -/
def execSeamCrcRetry (link lane : Nat) (s : State) : Out State :=
  .next ((s.onSeam link (fun l => { l with retries := l.retries + 1 })).countError (seamLane link lane) false)

/-- SEAM_LANE_RETIRE (R419, R421): a lane at its threshold is retired; the row link retrains onto a spare lane, or half width. -/
def execSeamLaneRetire (link lane : Nat) (s : State) : Out State :=
  .next (if link < 128 ∧ threshold (seamLane link lane) ≤ s.count (seamLane link lane) false then
      (s.onSeam link (fun l => { l with up := false, spares := l.spares - 1, half := l.half || l.spares == 0 })).retireUnit (seamLane link lane) 4
    else s)

/-- SEAM_RETRAIN_COMPLETE (R421): a row link is up again at the width it has; one that cannot train at any width is a device fault, one lost for good
does not come back. -/
def execSeamRetrainComplete (t : SeamTraining) (s : State) : Out State :=
  .next (if 128 ≤ t.link ∨ (tget s.seam t.link Link.reset).lost = true then s
    else if t.trained then s.onSeam t.link (fun l => { l with up := true })
    else s.loseRow (t.link / 4))

/-! ## Fabric (R158, R332, R422) -/

/-- What waits at a port that is up, and then more operations, performed in order as far as they can be (R332). -/
def State.servePort (s : State) (p : Nat) (more : List FabricOp) : State :=
  let r := s.peerOps p ((s.port p).waiting ++ more)
  r.1.setPort p { s.port p with up := true, waiting := r.2 }

/-- FABRIC_OPERATION_RECEIVE (R332): performed once, in order; while the link is down it waits (R422); nothing comes over a lost
port or in the recovery configuration (R423, R424). (DESIGN CHOICE, log entry 32) -/
def execFabricOperationReceive (port : Nat) (op : FabricOp) (s : State) : Out State :=
  .next (if 16 ≤ port ∨ s.fail = true ∨ (s.port port).lost = true then s
    else if (s.port port).up then s.servePort port [op]
    else s.setPort port { s.port port with waiting := (s.port port).waiting ++ [op] })

/-- FABRIC_LINK_DOWN (R422). -/
def execFabricLinkDown (port : Nat) (s : State) : Out State := .next (s.setPort port { s.port port with up := false })

/-- FABRIC_LINK_UP (R417, R422): a port that is down retrains, with its spare lane pair in place of a retired lane, and waiting operations go on in
order; at a port that is up, those that an object has come to admit. A port without a lane left, or lost, stays down. In the recovery configuration none comes up (R424). -/
def execFabricLinkUp (port : Nat) (s : State) : Out State :=
  let t := if (s.port port).up then s else s.trainPort port
  .next (if s.fail = true ∨ (t.port port).half ∨ (t.port port).lost = true then s else t.servePort port [])

/-- FABRIC_PORT_TIMEOUT (R422): a port that has not come back is lost. -/
def execFabricPortTimeout (port : Nat) (s : State) : Out State := .next (if (s.port port).up then s else s.losePort port 1)

end Sys2Proof.Machine
end

