-- ==== Sys2Proof/Machine/Release.lean ====
section
/-! DEFINITION. Barrier releases and compute releases as they reach the cores (R54, R55, R214, R215, R221, R285, R337, R340, R407, R408). -/

namespace Sys2Proof.Machine

open Sys2Proof

/-- Whether a release that begins an exchange must wait: another exchange of the job is in progress, or a member's clock is paused (R285, R337). -/
def State.holdsRelease (s : State) (mem : List Nat) : Bool :=
  s.jobExchanging (s.jobOf (mem.headD 0)) || mem.any (fun c => (s.core c).vf.moving.isSome)

/-- BARRIER_RELEASE (R215): once its router cycle has come the phase completes; a level's begins its exchange, which an overrun cancels (at level 1 the job then stops at its safe point, JOB_END), a field's its halo exchange. (DESIGN CHOICE, log entry 27) -/
def execBarrierRelease (c ch : Nat) (s : State) : Out State :=
  let k := s.core c
  .next (match s.phaseArrivals c ch with
    | none => s
    | some l =>
      let mem := l.map (·.core)
      let lvl := k.chanLevel ch
      let fld := (k.fieldOn ch).isSome
      if l.isEmpty || decide (s.rtime.toNat < phaseTime l) || ((lvl.isSome || fld) && s.holdsRelease mem) then s
      else
        let s : State := s.completePhase ch l
        match lvl with
        | some n =>
          let ovr := l.any (·.ovr)
          s.beginLevel n ch mem ovr
        | none => if fld then s.fieldRelease ch l else s)

/-- The exchange whose compute release has still to reach core c. -/
def State.releasing (s : State) (c : Nat) : Option Exch := s.exchanges.find? (fun e => e.c.isSome && e.released.contains c)

/-- The traps of core c's dropped deliveries, which its slots take from the compute release on (R410). -/
def State.lateTraps (s : State) (e : Exch) (c : Nat) : State := (e.late.filter (fun q => q.1 == c)).foldl (fun s q => s.queueTrap c q.2.1 q.2.2) s

/-- COMPUTE_RELEASE_ARRIVAL (R54, R284, R339, R340, R410): the staggered release reaches core c. -/
def execComputeReleaseArrival (c : Nat) (s : State) : Out State :=
  .next (match s.releasing c with
    | none => s
    | some e =>
      if s.rtime.toNat < s.staggered e c (e.c.getD 0) then s
      else
        let s : State := s.leaveExchange e.xid c
        if e.tag < 8 then (s.resumeCore c e.tag).lateTraps e c else s.fieldResume c e.ch)

end Sys2Proof.Machine
end

