-- ==== Sys2Proof/Machine/Scalar.lean ====
section
/-! DEFINITION. Page 0: register arithmetic, branches, jumps, and the thread-level MISC functions but FRET (R112 to R128, R130). -/

namespace Sys2Proof.Machine

open Sys2Proof

/-! ## Results of R113 and R114 -/

def shlW (a b : Word) : Word := a <<< fld b 0 6
def shrW (a b : Word) : Word := a >>> fld b 0 6
def sarW (a b : Word) : Word := a.sshiftRight (fld b 0 6)
def mulhsW (a b : Word) : Word := BitVec.ofInt 64 (a.toInt * b.toInt / 2 ^ 64)
def mulhnW (a b : Word) : Word := BitVec.ofNat 64 (a.toNat * b.toNat / 2 ^ 64)
def sltW (a b : Word) : Word := if a.toInt < b.toInt then 1 else 0
def sltnW (a b : Word) : Word := if a.toNat < b.toNat then 1 else 0

/-- Signed quotient toward zero; all ones for divisor 0; -2^63 by -1 gives -2^63 (R114). -/
def divsW (a b : Word) : Word := if b = 0 then BitVec.ofInt 64 (-1) else BitVec.ofInt 64 (a.toInt.tdiv b.toInt)
def divnW (a b : Word) : Word := if b = 0 then BitVec.ofInt 64 (-1) else BitVec.ofNat 64 (a.toNat / b.toNat)
/-- Remainder with the dividend's sign; the dividend for divisor 0 (R114). -/
def remsW (a b : Word) : Word := if b = 0 then a else BitVec.ofInt 64 (a.toInt.tmod b.toInt)
def remnW (a b : Word) : Word := if b = 0 then a else BitVec.ofNat 64 (a.toNat % b.toNat)

/-- MIX32 (R117, R290). -/
def mixW (a b : Word) : Word := ((lowbias32 ((a ^^^ b).setWidth 32)).setWidth 64)

/-- Leading zero bits (R118). -/
def clzW (b : Word) : Word := BitVec.ofNat 64 (((List.range 64).takeWhile (fun i => !bit b (63 - i))).length)
/-- One bits (R118). -/
def popcW (b : Word) : Word := BitVec.ofNat 64 (((List.range 64).filter (bit b)).length)

/-! ## Moulds -/

/-- OP 1-18 of page 0: one result of two sources (R112). -/
def aluOp (f : Word → Word → Word) (d a : Reg) (b : Src) (s : State) : Out State :=
  issue { rs := a :: srcRegs b, ws := [d], late := false, who := .any }
    (fun s => .done (s.onMe (fun x => x.wr d (f (x.rd a) (srcVal x b))))) s

/-- An instruction that writes d from register sources at fixed latency. -/
def fixedOp (rs : List Reg) (d : Reg) (f : Slot → Word) (s : State) : Out State :=
  issue { rs := rs, ws := [d], late := false, who := .any } (fun s => .done (s.onMe (fun x => x.wr d (f x)))) s

/-- Target of a branch: next_pc + 2 × offset (R90). -/
def State.target (s : State) (off : Word) : Word := s.nextPc + off + off

/-- A conditional branch (R119), its condition read from the leader in a gang (R50). -/
def branchOp (test : Word → Bool) (a : Reg) (off : Word) (s : State) : Out State :=
  issue { rs := [a], late := false, who := .any }
    (fun s => if test (s.lead.rd a) then predicted s (s.target off) s.nextPc false else predicted s s.nextPc (s.target off) false) s

/-! ## Instructions -/

/-- NOP (R123). -/
def execNop (s : State) : Out State := issue { late := false, who := .any } .done s

/-- YIELD: in the next core cycle the slot counts as ready only if no other is (R123). -/
def execYield (s : State) : Out State :=
  issue { late := false, who := .any } (fun s => .done (s.onMe (fun x => { x with yielded := true }))) s

/-- STOP (R124): a helper's slot begins Draining (R29); slot 0 stays Live until its core ends (R27, R30); a gang's thread ends in each member. -/
def execStop (s : State) : Out State :=
  issue { who := .threads }
    (fun s => .stay
      (if s.cur.slot = 0 then
        s.dissolve.onMe (fun x => { x with icount := x.icount + 1 }.waitFor s.rtime.toNat .ended false)
      else s.onMe (fun x => { x with mode := .draining, icount := x.icount + 1 }))) s

/-- BRK (R125). (DEDUCED, log entry 38) -/
def execBrk (s : State) : Out State := issue { who := .any } (fun _ => .trap 0x17 0 0) s

/-- PAUSE (R33, R126). -/
def execPause (b : Reg) (s : State) : Out State :=
  issue { rs := [b], who := .any }
    (fun s => .done (s.onMe (fun x => if fld (x.rd b) 0 32 = 0 then x else { x with pauseLeft := fld (x.rd b) 0 32 }))) s

/-- TRAP (R127): TPC holds next_pc, FPC the TRAP's address. -/
def execTrap (n : BitVec 5) (s : State) : Out State :=
  issue { who := .any }
    (fun s => .stay ((s.onMe (fun x => { x with pc := s.nextPc, icount := x.icount + 1 })).issueTrap 0x18 0 (n.setWidth 64))) s

/-- ERET (R128, R356): SLOT outside a handler. -/
def execEret (s : State) : Out State :=
  issue {}
    (fun s => if s.me.hnd then .go (s.onMe Slot.handlerReturn) s.lead.tpc else .trap 0x0F 0 (BitVec.ofNat 64 s.cur.slot)) s

/-- MOV (R113): the first source is not read. -/
def execMov (d : Reg) (b : Src) (s : State) : Out State :=
  issue { rs := srcRegs b, ws := [d], late := false, who := .any } (fun s => .done (s.onMe (fun x => x.wr d (srcVal x b)))) s

/-- ADD (R113). -/
def execAdd (d a : Reg) (b : Src) (s : State) : Out State := aluOp (fun a b => a + b) d a b s

/-- SUB (R113). -/
def execSub (d a : Reg) (b : Src) (s : State) : Out State := aluOp (fun a b => a - b) d a b s

/-- AND (R113). -/
def execAnd (d a : Reg) (b : Src) (s : State) : Out State := aluOp (fun a b => a &&& b) d a b s

/-- OR (R113). -/
def execOr (d a : Reg) (b : Src) (s : State) : Out State := aluOp (fun a b => a ||| b) d a b s

/-- XOR (R113). -/
def execXor (d a : Reg) (b : Src) (s : State) : Out State := aluOp (fun a b => a ^^^ b) d a b s

/-- SHL (R113). -/
def execShl (d a : Reg) (b : Src) (s : State) : Out State := aluOp (shlW) d a b s

/-- SHR (R113). -/
def execShr (d a : Reg) (b : Src) (s : State) : Out State := aluOp (shrW) d a b s

/-- SAR (R113). -/
def execSar (d a : Reg) (b : Src) (s : State) : Out State := aluOp (sarW) d a b s

/-- MUL (R113). -/
def execMul (d a : Reg) (b : Src) (s : State) : Out State := aluOp (fun a b => a * b) d a b s

/-- MULHS (R113). -/
def execMulhs (d a : Reg) (b : Src) (s : State) : Out State := aluOp (mulhsW) d a b s

/-- MULHN (R113). -/
def execMulhn (d a : Reg) (b : Src) (s : State) : Out State := aluOp (mulhnW) d a b s

/-- DIVS (R113, R114). -/
def execDivs (d a : Reg) (b : Src) (s : State) : Out State := aluOp (divsW) d a b s

/-- DIVN (R113, R114). -/
def execDivn (d a : Reg) (b : Src) (s : State) : Out State := aluOp (divnW) d a b s

/-- REMS (R113, R114). -/
def execRems (d a : Reg) (b : Src) (s : State) : Out State := aluOp (remsW) d a b s

/-- REMN (R113, R114). -/
def execRemn (d a : Reg) (b : Src) (s : State) : Out State := aluOp (remnW) d a b s

/-- SLT (R113). -/
def execSlt (d a : Reg) (b : Src) (s : State) : Out State := aluOp (sltW) d a b s

/-- SLTN (R113). -/
def execSltn (d a : Reg) (b : Src) (s : State) : Out State := aluOp (sltnW) d a b s

/-- ADDI (R116). -/
def execAddi (d : Reg) (imm : Word) (s : State) : Out State := fixedOp [d] d (fun x => x.rd d + imm) s
/-- LI (R116). -/
def execLi (d : Reg) (imm : Word) (s : State) : Out State := fixedOp [] d (fun _ => imm) s
/-- MIX32 (R117). -/
def execMix32 (d b : Reg) (s : State) : Out State := fixedOp [d, b] d (fun x => mixW (x.rd d) (x.rd b)) s
/-- CLZ (R118). -/
def execClz (d b : Reg) (s : State) : Out State := fixedOp [b] d (fun x => clzW (x.rd b)) s
/-- POPC (R118). -/
def execPopc (d b : Reg) (s : State) : Out State := fixedOp [b] d (fun x => popcW (x.rd b)) s

/-- BZ (R119). -/
def execBz (a : Reg) (off : Word) (s : State) : Out State := branchOp (fun v => v == 0) a off s
/-- BNZ (R119). -/
def execBnz (a : Reg) (off : Word) (s : State) : Out State := branchOp (fun v => v != 0) a off s
/-- BLTZ (R119). -/
def execBltz (a : Reg) (off : Word) (s : State) : Out State := branchOp (fun v => v.msb) a off s
/-- BGEZ (R119). -/
def execBgez (a : Reg) (off : Word) (s : State) : Out State := branchOp (fun v => !v.msb) a off s

/-- J (R120). -/
def execJ (off : Word) (s : State) : Out State := issue { late := false, who := .any } (fun s => .go s (s.target off)) s
/-- JAL (R120): the link goes to g31. -/
def execJal (off : Word) (s : State) : Out State :=
  issue { ws := [31], late := false, who := .any } (fun s => .go (s.onMe (fun x => x.wr 31 s.nextPc)) (s.target off)) s
/-- JR (R121), predicted (R39). -/
def execJr (a : Reg) (s : State) : Out State :=
  issue { rs := [a], late := false, who := .any } (fun s => predicted s (s.lead.rd a) 0 true) s
/-- JALR (R121): the target is read before the link is written. -/
def execJalr (a : Reg) (s : State) : Out State :=
  issue { rs := [a], ws := [31], late := false, who := .any } (fun s => .go (s.onMe (fun x => x.wr 31 s.nextPc)) (s.lead.rd a)) s

/-- HSTAT (R142). -/
def execHstat (d : Reg) (s : State) : Out State :=
  issue { ws := [d], who := .threads } (fun s => .done (s.onMe (fun x => x.wr d (hstatWord s.mine)))) s

end Sys2Proof.Machine
end

