-- ==== Sys2Proof/Machine/Dispatch.lean ====
section
/-! DEFINITION. The meaning of every instruction: one arm per constructor of Instr, each one direct call. -/

namespace Sys2Proof.Machine

open Sys2Proof

def exec (i : Instr) (s : State) : Host.Outcome State Fault Refusal :=
  match i with
  | .deviceReset failStage failCode => Sys2Proof.Machine.execDeviceReset failStage failCode s
  | .configurationRequest write => Sys2Proof.Machine.execConfigurationRequest write s
  | .queueDescriptorWrite q w v => Sys2Proof.Machine.execQueueDescriptorWrite q w v s
  | .writeIndexDoorbell q v => Sys2Proof.Machine.execWriteIndexDoorbell q v s
  | .hostRegisterWrite off v => Sys2Proof.Machine.execHostRegisterWrite off v s
  | .msixUnmask vec => Sys2Proof.Machine.execMsixUnmask vec s
  | .hostBar4Access write off v => Sys2Proof.Machine.execHostBar4Access write off v s
  | .launchHeadCheck q => Sys2Proof.Machine.execLaunchHeadCheck q s
  | .schedulerStart => Sys2Proof.Machine.execSchedulerStart s
  | .launchImagePlaced job => Sys2Proof.Machine.execLaunchImagePlaced job s
  | .launchRelease job => Sys2Proof.Machine.execLaunchRelease job s
  | .coreEnd core => Sys2Proof.Machine.execCoreEnd core s
  | .jobEnd job => Sys2Proof.Machine.execJobEnd job s
  | .issueCycle core => Sys2Proof.Machine.execIssueCycle core s
  | .ageBoost core slot => Sys2Proof.Machine.execAgeBoost core slot s
  | .pauseWindowEnd core slot => Sys2Proof.Machine.execPauseWindowEnd core slot s
  | .variableLatencyResult core slot r => Sys2Proof.Machine.execVariableLatencyResult core slot r s
  | .markerParkEnd core slot => Sys2Proof.Machine.execMarkerParkEnd core slot s
  | .branchResolve core slot => Sys2Proof.Machine.execBranchResolve core slot s
  | .helperSlotFree core slot => Sys2Proof.Machine.execHelperSlotFree core slot s
  | .engineCommandStart core eng => Sys2Proof.Machine.execEngineCommandStart core eng s
  | .mmajJointStart core => Sys2Proof.Machine.execMmajJointStart core s
  | .engineCommandComplete core eng idx => Sys2Proof.Machine.execEngineCommandComplete core eng idx s
  | .ewaitMarkerComplete core eng => Sys2Proof.Machine.execEwaitMarkerComplete core eng s
  | .storePerform core slot id => Sys2Proof.Machine.execStorePerform core slot id s
  | .atomicExecute core slot id => Sys2Proof.Machine.execAtomicExecute core slot id s
  | .vamoExecute core slot id => Sys2Proof.Machine.execVamoExecute core slot id s
  | .remoteWriteLand core slot id => Sys2Proof.Machine.execRemoteWriteLand core slot id s
  | .coreWindowRead core slot id => Sys2Proof.Machine.execCoreWindowRead core slot id s
  | .translationMissRequest core slot id => Sys2Proof.Machine.execTranslationMissRequest core slot id s
  | .atsTranslationCompletion req ans => Sys2Proof.Machine.execAtsTranslationCompletion req ans s
  | .prgResponse req code => Sys2Proof.Machine.execPrgResponse req code s
  | .atsInvalidationRequest pasid va size => Sys2Proof.Machine.execAtsInvalidationRequest pasid va size s
  | .tlbInvalidationAck core => Sys2Proof.Machine.execTlbInvalidationAck core s
  | .replayCommandReceive core => Sys2Proof.Machine.execReplayCommandReceive core s
  | .eccUncorrectable loc slice => Sys2Proof.Machine.execEccUncorrectable loc slice s
  | .eccCorrected unit => Sys2Proof.Machine.execEccCorrected unit s
  | .errorCountRetirement unit => Sys2Proof.Machine.execErrorCountRetirement unit s
  | .agingRecalibration bad => Sys2Proof.Machine.execAgingRecalibration bad s
  | .stagedAccessArrive core slot id => Sys2Proof.Machine.execStagedAccessArrive core slot id s
  | .couplingAdoptionRequest core field => Sys2Proof.Machine.execCouplingAdoptionRequest core field s
  | .barrierArrival core ch => Sys2Proof.Machine.execBarrierArrival core ch s
  | .syncArrival core => Sys2Proof.Machine.execSyncArrival core s
  | .barrierRelease core ch => Sys2Proof.Machine.execBarrierRelease core ch s
  | .exchangeFlitInject xid => Sys2Proof.Machine.execExchangeFlitInject xid s
  | .exchangeDelivery xid idx => Sys2Proof.Machine.execExchangeDelivery xid idx s
  | .computeRelease xid hold => Sys2Proof.Machine.execComputeRelease xid hold s
  | .computeReleaseArrival core => Sys2Proof.Machine.execComputeReleaseArrival core s
  | .portWriteArrival idx => Sys2Proof.Machine.execPortWriteArrival idx s
  | .messageArrival idx => Sys2Proof.Machine.execMessageArrival idx s
  | .gangForm core => Sys2Proof.Machine.execGangForm core s
  | .herderSweepStart core field => Sys2Proof.Machine.execHerderSweepStart core field s
  | .siteRoutineStart core field => Sys2Proof.Machine.execSiteRoutineStart core field s
  | .halfStepArrival core field => Sys2Proof.Machine.execHalfStepArrival core field s
  | .snapshotCopy core => Sys2Proof.Machine.execSnapshotCopy core s
  | .vfMoveBegin core => Sys2Proof.Machine.execVfMoveBegin core s
  | .vfMoveEnd core => Sys2Proof.Machine.execVfMoveEnd core s
  | .thermalCapStep core hot => Sys2Proof.Machine.execThermalCapStep core hot s
  | .thermalStop => Sys2Proof.Machine.execThermalStop s
  | .thermalReadyRestore => Sys2Proof.Machine.execThermalReadyRestore s
  | .energyWindowEnd => Sys2Proof.Machine.execEnergyWindowEnd s
  | .timesliceSwitch core => Sys2Proof.Machine.execTimesliceSwitch core s
  | .debugStop job => Sys2Proof.Machine.execDebugStop job s
  | .stepLimitReached => Sys2Proof.Machine.execStepLimitReached s
  | .preemptSafePoint job => Sys2Proof.Machine.execPreemptSafePoint job s
  | .preemptBetweenSafePoints job => Sys2Proof.Machine.execPreemptBetweenSafePoints job s
  | .jobResume job limit => Sys2Proof.Machine.execJobResume job limit s
  | .waitTimeout core slot => Sys2Proof.Machine.execWaitTimeout core slot s
  | .completionTrapTake core slot => Sys2Proof.Machine.execCompletionTrapTake core slot s
  | .seamCrcRetry link lane => Sys2Proof.Machine.execSeamCrcRetry link lane s
  | .seamLaneRetire link lane => Sys2Proof.Machine.execSeamLaneRetire link lane s
  | .seamRetrainComplete link => Sys2Proof.Machine.execSeamRetrainComplete link s
  | .fabricOperationReceive port op => Sys2Proof.Machine.execFabricOperationReceive port op s
  | .fabricLinkDown port => Sys2Proof.Machine.execFabricLinkDown port s
  | .fabricLinkUp port => Sys2Proof.Machine.execFabricLinkUp port s
  | .fabricPortTimeout port => Sys2Proof.Machine.execFabricPortTimeout port s
  | .deviceFault u => Sys2Proof.Machine.execDeviceFault u s
  | .nop => Sys2Proof.Machine.execNop s
  | .yield => Sys2Proof.Machine.execYield s
  | .stop => Sys2Proof.Machine.execStop s
  | .brk => Sys2Proof.Machine.execBrk s
  | .pause b => Sys2Proof.Machine.execPause b s
  | .trap n => Sys2Proof.Machine.execTrap n s
  | .eret => Sys2Proof.Machine.execEret s
  | .fret => Sys2Proof.Machine.execFret s
  | .mov d b => Sys2Proof.Machine.execMov d b s
  | .add d a b => Sys2Proof.Machine.execAdd d a b s
  | .sub d a b => Sys2Proof.Machine.execSub d a b s
  | .and d a b => Sys2Proof.Machine.execAnd d a b s
  | .or d a b => Sys2Proof.Machine.execOr d a b s
  | .xor d a b => Sys2Proof.Machine.execXor d a b s
  | .shl d a b => Sys2Proof.Machine.execShl d a b s
  | .shr d a b => Sys2Proof.Machine.execShr d a b s
  | .sar d a b => Sys2Proof.Machine.execSar d a b s
  | .mul d a b => Sys2Proof.Machine.execMul d a b s
  | .mulhs d a b => Sys2Proof.Machine.execMulhs d a b s
  | .mulhn d a b => Sys2Proof.Machine.execMulhn d a b s
  | .divs d a b => Sys2Proof.Machine.execDivs d a b s
  | .divn d a b => Sys2Proof.Machine.execDivn d a b s
  | .rems d a b => Sys2Proof.Machine.execRems d a b s
  | .remn d a b => Sys2Proof.Machine.execRemn d a b s
  | .slt d a b => Sys2Proof.Machine.execSlt d a b s
  | .sltn d a b => Sys2Proof.Machine.execSltn d a b s
  | .addi d imm => Sys2Proof.Machine.execAddi d imm s
  | .li d imm => Sys2Proof.Machine.execLi d imm s
  | .mix32 d b => Sys2Proof.Machine.execMix32 d b s
  | .clz d b => Sys2Proof.Machine.execClz d b s
  | .popc d b => Sys2Proof.Machine.execPopc d b s
  | .bz a off => Sys2Proof.Machine.execBz a off s
  | .bnz a off => Sys2Proof.Machine.execBnz a off s
  | .bltz a off => Sys2Proof.Machine.execBltz a off s
  | .bgez a off => Sys2Proof.Machine.execBgez a off s
  | .j off => Sys2Proof.Machine.execJ off s
  | .jal off => Sys2Proof.Machine.execJal off s
  | .jr a => Sys2Proof.Machine.execJr a s
  | .jalr a => Sys2Proof.Machine.execJalr a s
  | .ld8s d m => Sys2Proof.Machine.execLd8s d m s
  | .ld8n d m => Sys2Proof.Machine.execLd8n d m s
  | .ld16s d m => Sys2Proof.Machine.execLd16s d m s
  | .ld16n d m => Sys2Proof.Machine.execLd16n d m s
  | .ld32s d m => Sys2Proof.Machine.execLd32s d m s
  | .ld32n d m => Sys2Proof.Machine.execLd32n d m s
  | .ld64 d m => Sys2Proof.Machine.execLd64 d m s
  | .st8 d m => Sys2Proof.Machine.execSt8 d m s
  | .st16 d m => Sys2Proof.Machine.execSt16 d m s
  | .st32 d m => Sys2Proof.Machine.execSt32 d m s
  | .st64 d m => Sys2Proof.Machine.execSt64 d m s
  | .aadd d m w64 => Sys2Proof.Machine.execAadd d m w64 s
  | .aand d m w64 => Sys2Proof.Machine.execAand d m w64 s
  | .aor d m w64 => Sys2Proof.Machine.execAor d m w64 s
  | .axor d m w64 => Sys2Proof.Machine.execAxor d m w64 s
  | .amins d m w64 => Sys2Proof.Machine.execAmins d m w64 s
  | .amaxs d m w64 => Sys2Proof.Machine.execAmaxs d m w64 s
  | .aminn d m w64 => Sys2Proof.Machine.execAminn d m w64 s
  | .amaxn d m w64 => Sys2Proof.Machine.execAmaxn d m w64 s
  | .aswp d m w64 => Sys2Proof.Machine.execAswp d m w64 s
  | .acas d m w64 => Sys2Proof.Machine.execAcas d m w64 s
  | .afadd d m => Sys2Proof.Machine.execAfadd d m s
  | .afmaxa d m => Sys2Proof.Machine.execAfmaxa d m s
  | .fence order scope => Sys2Proof.Machine.execFence order scope s
  | .tlget d sel => Sys2Proof.Machine.execTlget d sel s
  | .tlwait e b => Sys2Proof.Machine.execTlwait e b s
  | .ewait e f b => Sys2Proof.Machine.execEwait e f b s
  | .pref base idx off => Sys2Proof.Machine.execPref base idx off s
  | .vamo v m op => Sys2Proof.Machine.execVamo v m op s
  | .vld d base idx off => Sys2Proof.Machine.execVld d base idx off s
  | .vst d base idx off => Sys2Proof.Machine.execVst d base idx off s
  | .vlds ty d base stride off => Sys2Proof.Machine.execVlds ty d base stride off s
  | .vsts ty d base stride off => Sys2Proof.Machine.execVsts ty d base stride off s
  | .vgatl ty d b base => Sys2Proof.Machine.execVgatl ty d b base s
  | .vsctl ty d b base => Sys2Proof.Machine.execVsctl ty d b base s
  | .vbcst ty d b => Sys2Proof.Machine.execVbcst ty d b s
  | .vext ty d b lane => Sys2Proof.Machine.execVext ty d b lane s
  | .vins ty d b lane => Sys2Proof.Machine.execVins ty d b lane s
  | .vmov d b => Sys2Proof.Machine.execVmov d b s
  | .vadd ty sat d a b => Sys2Proof.Machine.execVadd ty sat d a b s
  | .vsub ty sat d a b => Sys2Proof.Machine.execVsub ty sat d a b s
  | .vmul ty sat hi d a b => Sys2Proof.Machine.execVmul ty sat hi d a b s
  | .vfma ty sat d a b => Sys2Proof.Machine.execVfma ty sat d a b s
  | .vmin ty sat d a b => Sys2Proof.Machine.execVmin ty sat d a b s
  | .vmax ty sat d a b => Sys2Proof.Machine.execVmax ty sat d a b s
  | .vabs ty sat d b => Sys2Proof.Machine.execVabs ty sat d b s
  | .vneg ty sat d b => Sys2Proof.Machine.execVneg ty sat d b s
  | .vand d a b => Sys2Proof.Machine.execVand d a b s
  | .vor d a b => Sys2Proof.Machine.execVor d a b s
  | .vxor d a b => Sys2Proof.Machine.execVxor d a b s
  | .vshl ty sat d a b => Sys2Proof.Machine.execVshl ty sat d a b s
  | .vshr ty d a b => Sys2Proof.Machine.execVshr ty d a b s
  | .vsar ty d a b => Sys2Proof.Machine.execVsar ty d a b s
  | .vcmp ty cond d b c => Sys2Proof.Machine.execVcmp ty cond d b c s
  | .vsel ty d b c => Sys2Proof.Machine.execVsel ty d b c s
  | .vcvt src dst k d b => Sys2Proof.Machine.execVcvt src dst k d b s
  | .vwadd ty sat part d a b => Sys2Proof.Machine.execVwadd ty sat part d a b s
  | .vscan ty sat op d b carry => Sys2Proof.Machine.execVscan ty sat op d b carry s
  | .vred ty sat op d b carry => Sys2Proof.Machine.execVred ty sat op d b carry s
  | .vperm ty d b c => Sys2Proof.Machine.execVperm ty d b c s
  | .vmath ty fn d b => Sys2Proof.Machine.execVmath ty fn d b s
  | .mma t pa pb => Sys2Proof.Machine.execMma t pa pb s
  | .mmaj t pa pb => Sys2Proof.Machine.execMmaj t pa pb s
  | .mld t base off => Sys2Proof.Machine.execMld t base off s
  | .mldt t base off => Sys2Proof.Machine.execMldt t base off s
  | .mst t base off z => Sys2Proof.Machine.execMst t base off z s
  | .mzero t => Sys2Proof.Machine.execMzero t s
  | .mrow put v t m => Sys2Proof.Machine.execMrow put v t m s
  | .mprog d => Sys2Proof.Machine.execMprog d s
  | .talloc t int => Sys2Proof.Machine.execTalloc t int s
  | .tfree t => Sys2Proof.Machine.execTfree t s
  | .mstat d clr => Sys2Proof.Machine.execMstat d clr s
  | .cpy a b c => Sys2Proof.Machine.execCpy a b c s
  | .cpy2 a b tr es => Sys2Proof.Machine.execCpy2 a b tr es s
  | .cpym a b c => Sys2Proof.Machine.execCpym a b c s
  | .cfill a b c => Sys2Proof.Machine.execCfill a b c s
  | .cprog d b => Sys2Proof.Machine.execCprog d b s
  | .rxopen n w r a b => Sys2Proof.Machine.execRxopen n w r a b s
  | .rxclose n => Sys2Proof.Machine.execRxclose n s
  | .rxcnt d n => Sys2Proof.Machine.execRxcnt d n s
  | .rput a b idx => Sys2Proof.Machine.execRput a b idx s
  | .rtake d idx => Sys2Proof.Machine.execRtake d idx s
  | .rpeek d => Sys2Proof.Machine.execRpeek d s
  | .msend a b c => Sys2Proof.Machine.execMsend a b c s
  | .mrecv a b c => Sys2Proof.Machine.execMrecv a b c s
  | .mpoll d => Sys2Proof.Machine.execMpoll d s
  | .loopb a b c fin => Sys2Proof.Machine.execLoopb a b c fin s
  | .xput v b c lvl => Sys2Proof.Machine.execXput v b c lvl s
  | .xputr a b idx lvl => Sys2Proof.Machine.execXputr a b idx lvl s
  | .xcnt d lvl => Sys2Proof.Machine.execXcnt d lvl s
  | .arv ch b => Sys2Proof.Machine.execArv ch b s
  | .waitp ch b => Sys2Proof.Machine.execWaitp ch b s
  | .sync lvl => Sys2Proof.Machine.execSync lvl s
  | .bphase d ch => Sys2Proof.Machine.execBphase d ch s
  | .bred d ch item => Sys2Proof.Machine.execBred d ch item s
  | .gang b => Sys2Proof.Machine.execGang b s
  | .split => Sys2Proof.Machine.execSplit s
  | .start a b => Sys2Proof.Machine.execStart a b s
  | .hjoin b => Sys2Proof.Machine.execHjoin b s
  | .hstat d => Sys2Proof.Machine.execHstat d s
  | .freq d b => Sys2Proof.Machine.execFreq d b s
  | .boost d b => Sys2Proof.Machine.execBoost d b s
  | .stbind a b => Sys2Proof.Machine.execStbind a b s
  | .stdrop a => Sys2Proof.Machine.execStdrop a s
  | .stx x a b c => Sys2Proof.Machine.execStx x a b c s
  | .stget d b tag => Sys2Proof.Machine.execStget d b tag s
  | .stload a b => Sys2Proof.Machine.execStload a b s
  | .gate n => Sys2Proof.Machine.execGate n s
  | .gret => Sys2Proof.Machine.execGret s
  | .flddef d b => Sys2Proof.Machine.execFlddef d b s
  | .fldrun a b => Sys2Proof.Machine.execFldrun a b s
  | .fldhold a b => Sys2Proof.Machine.execFldhold a b s
  | .fldsnap a b c => Sys2Proof.Machine.execFldsnap a b c s
  | .fldstat d b => Sys2Proof.Machine.execFldstat d b s
  | .flddrop a => Sys2Proof.Machine.execFlddrop a s
  | .csrr d n => Sys2Proof.Machine.execCsrr d n s
  | .csrw n a c => Sys2Proof.Machine.execCsrw n a c s
  | .csrs n a c => Sys2Proof.Machine.execCsrs n a c s
  | .csrc n a c => Sys2Proof.Machine.execCsrc n a c s
  | .tlbfill a b => Sys2Proof.Machine.execTlbfill a b s
  | .tlbinv a b => Sys2Proof.Machine.execTlbinv a b s
  | .replay a b => Sys2Proof.Machine.execReplay a b s
  | .gtwrite a b => Sys2Proof.Machine.execGtwrite a b s
  | .domsw b => Sys2Proof.Machine.execDomsw b s
  | .spill n b => Sys2Proof.Machine.execSpill n b s
  | .fill d n => Sys2Proof.Machine.execFill d n s
  | .jobKill job => Sys2Proof.Machine.execJobKill job s
  | .savedJobDiscard save => Sys2Proof.Machine.execSavedJobDiscard save s
  | .firmwareUpdate ok => Sys2Proof.Machine.execFirmwareUpdate ok s

end Sys2Proof.Machine
end

