-- ==== Sys2Proof/Machine/Gang.lean ====
section
/-! DEFINITION. The issue of a fetched instruction, by a slot alone or by a member of a gang, and which slots of a core are ready (R26, R31, R40, R50, R51, R357). -/

namespace Sys2Proof.Machine

open Sys2Proof

/-- An outcome carried on with f. -/
def andThen (o : Out State) (f : State → Out State) : Out State :=
  match o with
  | .next t => f t
  | .fault r => .fault r
  | .refused r => .refused r

/-- The instruction as core d issues it in slot 0. -/
def issueAs (i : Instr) (d : Nat) (s : State) : Out State := exec i { s with cur := { s.cur with core := d } }

/-- The trap that a fault record tells of (R354, R357). -/
def FaultRec.trap (r : FaultRec) : Trap :=
  let w (i : Nat) : Word := r.words.getD i 0
  { code := BitVec.ofNat 8 (fld (w 0) 0 8), defer := bit (w 0) 8, page := fld (w 0) 11 3, op := fld (w 0) 14 5, addr := w 2, info := w 3, fpc := w 4, map := r.map }

/-- The trap of its own that slot 0 of core d has taken between s and t: an abort's cause, a BRK, or that of its fault record (R357, R361, R394). -/
def State.trapOf (s t : State) (d : Nat) : Option Trap :=
  match (t.slot d 0).abort, (t.slot d 0).park with
  | some a, _ => some a.inner
  | none, some w =>
    if w.kind = .brk then some { Trap.blank with code := 0x17, fpc := (t.slot d 0).pc }
    else if w.kind = .dead then ((t.faults.drop s.faults.length).find? (fun r => fld (r.words.headD 0) 23 11 == d)).map FaultRec.trap
    else none
  | none, none => none

/-- The issue traps that members of a gang would take on the instruction, each its own (R357). (DEDUCED, log entry 36) -/
def ownTraps (i : Instr) (s : State) (todo : List Nat) : List (Nat × Trap) :=
  todo.filterMap (fun d => match issueAs i d s with
    | .next t => (s.trapOf t d).map (fun tr => (d, tr))
    | _ => none)

/-- Whether slot 0 of core d waits in a SYNC that it has issued (R54). -/
def State.syncing (t : State) (d : Nat) : Bool :=
  match (t.slot d 0).park with
  | some w => (match w.kind with | .sync l => (t.core d).sync.level == some l | _ => false)
  | none => false

/-- A member after it has issued instruction i on state s: if the instruction left it, or waits for the whole gang's SYNC, it stands at the gang's
address as a partner until every member has issued (R50, R54). -/
def State.memberDone (t s : State) (i : Instr) : State :=
  let d := s.cur.core
  if (t.slot d 0).icount = (s.slot d 0).icount ∧ t.syncing d = false then t
  else
    let g : GangStep := { next := if t.syncing d then s.nextPc else (t.slot d 0).pc, instr := i, len := s.cur.len, page := s.cur.page, op := s.cur.op, mark := s.cur.mark }
    (t.onCore d (fun k => { k with gangDone := some g })).onSlot d 0 (fun x => { (if x.park.isSome then x else x.parkAt t.rtime.toNat .partner) with pc := s.cur.pc })

/-- Every member has issued: the gang goes on at the leader's next address, a member in a SYNC once it is released. (DEDUCED, log entry 36) -/
def State.gangNext (s : State) (mem : List Nat) : State :=
  if mem.all (fun d => (s.core d).gangDone.isSome) then
    let pc := ((s.core (mem.headD 0)).gangDone.map (·.next)).getD 0
    mem.foldl (fun (s : State) d =>
      let waits := s.syncing d
      (s.onCore d (fun k => { k with gangDone := none })).onSlot d 0 (fun x =>
        { x with pc := if waits then x.pc else pc, park := match x.park with | some w => if w.kind = .partner then none else some w | none => none })) s
  else s

/-- Where every member goes on after a TRAP that the gang takes: past it (R353). -/
def State.pastTrap (s : State) (own : List (Nat × Trap)) : State :=
  if own.any (fun p => p.2.code == 0x18) then (s.gangOf s.cur.core).foldl (fun t d => t.onSlot d 0 (fun x => { x with pc := s.nextPc })) s else s

/-- A fetched instruction issued by the issuing slot, alone or as a member of its gang: where a member that has still to issue it would trap, every
member takes that trap together; else this one issues it (R50, R357). (DEDUCED, log entry 36) -/
def gangRun (i : Instr) (s : State) : Out State :=
  if s.inGang then
    let c := s.cur.core
    let mem := s.gangOf c
    match ownTraps i s (mem.filter (fun d => (s.core d).gangDone.isNone)) with
    | [] => andThen (exec i s) (fun t => .next ((t.memberDone s i).gangNext mem))
    | own => .next ((s.pastTrap own).takeGang own)
  else exec i s

/-- The instruction that members of the issuing core's gang have issued and others have still to issue (R50). (DEDUCED, log entry 36) -/
def State.gangStep (s : State) : Option GangStep := (s.gangOf s.cur.core).findSome? (fun d => (s.core d).gangDone)

/-- Fetch and decode for the issuing slot; in a gang the leader fetches, once for every member (R50). -/
def State.fetchLead (s : State) : Fetched :=
  if s.inGang then
    let c := s.cur.core
    match s.gangStep with
    | some g => .ok g.instr { s with cur := { s.cur with pc := s.me.pc, len := g.len, page := g.page, op := g.op, mark := g.mark, held := false } }
    | none =>
      match { s with cur := { s.cur with core := (s.gangOf c).headD c } }.fetch with
      | .ok i t => .ok i { t with cur := { t.cur with core := c } }
      | .trapped t => .trapped { t with cur := { t.cur with core := c } }
  else s.fetch

/-- The chosen slot's instruction: fetched and run. An instruction whose fetch would trap waits, unfetched, for unresolved branches (R40). (DESIGN CHOICE, log entry 28) -/
def issueStep (s : State) : Out State :=
  let s1 : State := { s with issuing := false }
  match s1.fetchLead with
  | .ok i t => gangRun i t
  | .trapped t => .next (if s1.me.branches.isEmpty then t else s1.hold .branch)

/-! ## Ready slots (R26) -/

/-- What comes of trying the next instruction of slot t of core c. -/
def State.tried (s : State) (c t : Nat) : Out State := issueStep { s with cur := { s.cur with core := c, slot := t, held := false } }

/-- Whether slot t of core c goes from s to u by parking in an RTAKE: the RTAKE issues then, and threads take the values of a register in the order of
that issue (R231). (DESIGN CHOICE, log entry 28) -/
def State.beginsTake (s u : State) (c t : Nat) : Bool :=
  match (u.slot c t).park with
  | some w => (match w.kind with
    | .rtake _ => (s.slot c t).park.all (fun v => v.kind != w.kind)
    | _ => false)
  | none => false

/-- Whether its next instruction can issue in this cycle. An RTAKE issues when it parks, so that R31 chooses which one does (R31, R231). (DESIGN CHOICE, log entry 28) -/
def State.readyNow (s : State) (c t : Nat) : Bool :=
  match s.tried c t with
  | .next u => !u.cur.held || s.beginsTake u c t
  | _ => true

/-- An instruction that cannot issue waits: only its wait stands. The park of an RTAKE begins by its issue alone (R231). (DESIGN CHOICE, log entry 28) -/
def State.heldAt (s : State) (c t : Nat) : State :=
  match s.tried c t with
  | .next u => if u.cur.held && !s.beginsTake u c t then { u with cur := s.cur, fresh := s.fresh } else s
  | _ => s

/-- The step that settles a core's cycle: the waits of the slots that cannot issue, then the choice among the ready ones (R26, R31). (DESIGN CHOICE, log entry 28) -/
def cycleStep (c : Nat) (s : State) : Out State :=
  let open_ := (List.range 13).filter (s.canTry c)
  let s := (s.inTurn c open_).foldl (fun s t => s.heldAt c t) { s with cycleOf := none }
  .next (s.endCycle c (open_.filter (s.readyNow c)))

end Sys2Proof.Machine
end

