-- ==== Sys2Proof/Machine/Auto.lean ====
section
/-! DEFINITION. Which event comes next when nothing is prescribed: the device's steps that are due, then a core cycle, then router time (log entries 4 and 5). -/

namespace Sys2Proof.Machine

open Sys2Proof

/-! ## Steps that may be due -/

/-- The step that an access of slot (c, t) waits for. -/
def State.accStep (s : State) (c t : Nat) (a : Access) : Option Instr :=
  match a.phase with
  | .miss | .wantPage => some (.translationMissRequest c t a.id)
  | .ready => some (match s.via a with
      | .load => .variableLatencyResult c t a.dest
      | .store => .storePerform c t a.id
      | .atomic => .atomicExecute c t a.id
      | .vamo => .vamoExecute c t a.id
      | .window => .coreWindowRead c t a.id
      | .remote => .remoteWriteLand c t a.id
      | .staged => .stagedAccessArrive c t a.id)
  | _ => none

/-- Steps of a slot. -/
def State.slotSteps (s : State) (c t : Nat) : List Instr :=
  let x := s.slot c t
  x.results.map (fun q => .variableLatencyResult c t q.reg) ++ x.acc.filterMap (s.accStep c t) ++
  (match x.park with | some w => if w.kind = .marker then [.markerParkEnd c t] else [] | none => []) ++
  (if x.walk.ask.isSome then [.translationMissRequest c 17 t] else []) ++
  (if x.branches.isEmpty then [] else [.branchResolve c t]) ++
  (if x.mode = .draining then [.helperSlotFree c t] else []) ++
  (if x.traps.isEmpty && x.abort.isNone then [] else [.completionTrapTake c t])

/-- Waits of a slot that may have reached their limit. -/
def Slot.timeouts (x : Slot) (c t : Nat) : List Instr := match x.park with | some w => if w.limit = 0 then [] else [.waitTimeout c t] | none => []

/-- Steps of engine e of a core: commands that start, complete, or miss a translation. -/
def State.engineSteps (s : State) (c e : Nat) : List Instr :=
  let run := tget (s.core c).exec e []
  (List.range run.length).map (fun i => .engineCommandComplete c e i) ++
  (if run.isEmpty then [] else [.ewaitMarkerComplete c e]) ++
  (if (tget (s.core c).queue e []).isEmpty then [] else [.engineCommandStart c e]) ++
  ((s.core c).cmds e).map (fun m => .translationMissRequest c (13 + e) m.id)

/-- Steps of a field. -/
def fieldSteps (c : Nat) (id : Nat) : List Instr :=
  [.couplingAdoptionRequest c id, .translationMissRequest c 18 id, .herderSweepStart c id, .siteRoutineStart c id, .halfStepArrival c id]

/-- Steps of a core. -/
def State.coreSteps (s : State) (c : Nat) : List Instr :=
  let k := s.core c
  (tkeys k.slots).flatMap (s.slotSteps c) ++ [0, 1, 2, 3].flatMap (s.engineSteps c) ++
  (if (tget k.queue 0 []).isEmpty then [] else [.mmajJointStart c]) ++
  k.arvs.map (fun p => .barrierArrival c p.ch) ++
  (if k.sync = .none then [] else [.syncArrival c]) ++
  (if k.gangReq = 0 then [] else [.gangForm c]) ++
  (if (tget k.exec 3 []).isEmpty then [] else [.snapshotCopy c]) ++
  (tkeys k.fields).flatMap (fieldSteps c) ++
  (if k.vf.moving.isSome then [.vfMoveEnd c] else []) ++ (if k.vf.mail.isSome then [.vfMoveBegin c] else []) ++
  (if k.phase = .running then [.coreEnd c] else [])

/-- Steps of the package: broadcasts, barriers, exchanges, the router mesh, parts that reach an error threshold. -/
def State.meshSteps (s : State) : List Instr :=
  s.casts.flatMap (fun r => r.left.map (fun c => match r.what with | .replay _ _ => .replayCommandReceive c | _ => .tlbInvalidationAck c)) ++
  s.arrivals.map (fun a => .barrierRelease a.core a.ch) ++
  s.exchanges.flatMap (fun e =>
    (if e.todo.isEmpty then [] else [.exchangeFlitInject e.xid]) ++ (List.range e.air.length).map (fun i => .exchangeDelivery e.xid i) ++
    [.computeRelease e.xid 0] ++ e.released.map (fun c => .computeReleaseArrival c)) ++
  (List.range s.portWrites.length).map (fun i => .portWriteArrival i) ++
  (List.range s.messages.length).map (fun i => .messageArrival i) ++
  (if s.hostWaits.isEmpty then [] else [.hostBar4Access false 1 0]) ++
  s.fabric.filterMap (fun p => if p.2.up && !p.2.waiting.isEmpty then some (.fabricLinkUp p.1) else none) ++
  (tkeys s.errCounts).map (fun k => if laneUnit ≤ k / 2 ∧ k / 2 < fabricUnit then .seamLaneRetire ((k / 2 - laneUnit) / 64) ((k / 2 - laneUnit) % 64) else .errorCountRetirement (k / 2))

/-- Steps of jobs and queues; a pre-empted job resumes by itself, one stopped for a debugger does not (R61, R348). -/
def State.jobSteps (s : State) : List Instr :=
  s.jobs.flatMap (fun j => [.launchImagePlaced j.id, .launchRelease j.id, .jobEnd j.id, .debugStop j.id, .preemptSafePoint j.id,
    .preemptBetweenSafePoints j.id] ++ if j.preempt then [.jobResume j.id none] else []) ++
  (if s.stepLimit.isSome then [.stepLimitReached] else []) ++
  (tkeys s.queues).map (fun q => .launchHeadCheck q) ++
  (if s.heads.isEmpty && s.awaiting.isEmpty then [] else [.schedulerStart])

/-- Every step that may be due, in the model's order: a time-slice switch after the releases that would resume its cores (R344), a wait's limit last,
after everything that might end the wait in that cycle (R400). (DESIGN CHOICE, log entry 58) -/
def State.dueSteps (s : State) : List Instr :=
  (tkeys s.cores).flatMap s.coreSteps ++ s.meshSteps ++
  (tkeys s.cores).filterMap (fun c => if (s.sliceDue c).isSome then some (.timesliceSwitch c) else none) ++ s.jobSteps ++
  s.cores.flatMap (fun p => p.2.slots.flatMap (fun q => q.2.timeouts p.1 q.1))

/-- The outcome of the first of these steps that changes the state. (DESIGN CHOICE, log entry 58) -/
def firstChange (s : State) : List Instr → Option (Out State)
  | [] => none
  | i :: r =>
    match exec i s with
    | .next t => if t = s then firstChange s r else some (.next t)
    | o => some o

/-! ## Core cycles and idle time -/

/-- Cores whose next cycle may come. -/
def State.cycling (s : State) : List Nat := (tkeys s.cores).filter s.cycles

/-- The core whose cycle comes: by turns of router time. (DESIGN CHOICE, log entry 5) -/
def State.turn (s : State) : Option Nat := s.cycling[s.rtime.toNat % s.cycling.length]?

/-- Nothing is due: bring-up goes on, or router time passes. (DESIGN CHOICE, log entry 28) -/
def State.idleStep (s : State) : State := if s.fail || decide (7 ≤ s.stage) then { s with rtime := s.rtime + 1 } else s.bringUp

/-- The event that comes of itself. (DESIGN CHOICE, log entry 58) -/
def autoStep (s : State) : Out State :=
  match firstChange s s.dueSteps with
  | some o => o
  | none =>
    match s.turn with
    | some c => exec (.issueCycle c) s
    | none => .next s.idleStep

/-- The event that the agenda's head prescribes. (DESIGN CHOICE, log entry 4) -/
def agendaStep (i : Instr) (rest : List Instr) (s : State) : Out State :=
  if i.isStep then exec i { s with agenda := rest } else .refused .notAStep

/-! ## Placing an instruction for the next step -/

/-- The issuing slot made ready to issue at pc. (DEDUCED, log entry 33) -/
def Slot.readied (x : Slot) (pc base lim : Word) : Slot :=
  { x with mode := .live, pc := pc, codebase := base, codelim := lim, park := none, branches := [] }

/-- Whether the issuing slot's own pc can hold an instruction of five words. -/
def Slot.canPlace (x : Slot) : Bool :=
  x.mode == .live && x.pc.toNat % 2 == 0 && decide (x.codebase.toNat ≤ x.pc.toNat ∧ x.pc.toNat + 10 ≤ x.codelim.toNat) &&
  decide (fld x.pc 0 19 + 10 ≤ Config.coreBytes)

/-- Words stored from an offset of core c's memory on, out of its instruction buffer; the core fetches for itself. -/
def State.placeHalves (s : State) (c off : Nat) (ws : List Half) : State :=
  let k := coreKey c off
  let n := 2 * ws.length
  ({ s with
    mem := Memory.writeBytes s.mem k (ws.flatMap (fun (w : Half) => bytesOf 2 w.toNat))
    poison := s.poison.filter (fun p => decide (p.1 < k / 64 ∨ (k + n) / 64 < p.1)) }).onCore c (fun x => { x with phase := .running, ibuf := [], gang := 0 })

/-- Words stored where the issuing slot fetches next, the slot chosen to issue. (DEDUCED, log entry 33) -/
def State.placeCode (s : State) (ws : List Half) : State :=
  let c := s.cur.core
  let t := s.cur.slot
  let x := s.slot c t
  let y := if x.canPlace then x.readied x.pc x.codebase x.codelim
    else x.readied (BitVec.ofNat 64 Config.selfBase) (BitVec.ofNat 64 Config.selfBase) (BitVec.ofNat 64 (Config.selfBase + Config.coreBytes))
  { ((s.placeHalves c (codeOff y.pc) ws).setSlot c t y) with issuing := true }

end Sys2Proof.Machine
end

