-- ==== Sys2Proof/Machine/Step.lean ====
section
/-! DEFINITION. One step of the machine: the chosen slot's instruction, the choice of a core cycle that has begun, the event that the agenda prescribes, or the event that comes of itself. -/

namespace Sys2Proof.Machine

open Sys2Proof

/-- One event. -/
def step (s : State) : Host.Outcome State Fault Refusal :=
  if s.issuing then issueStep s
  else
    match s.cycleOf, s.agenda with
    | some c, _ => cycleStep c s
    | none, i :: rest => agendaStep i rest s
    | none, [] => autoStep s

/-- The instruction of a table row's bits, placed where the issuing slot fetches next; this stands for a launch (log entry 33). (DEDUCED, log entry 25) (DEDUCED, log entry 33) -/
def State.withFetchWord (s : State) (nbits w : Nat) : State := s.placeCode ((tableWords w ((nbits + 15) / 16) ++ List.replicate 5 0).take 5)

end Sys2Proof.Machine
end

