-- ==== Sys2Proof/Safety.lean ====
section
/-! DEFINITION. What the statements are said in: runs, when an instruction may issue, how it leaves its slot, what stays unchanged, and the forms of the instructions. -/

namespace Sys2Proof.Safety

open Sys2Proof Sys2Proof.Machine

/-! ## Runs and invariants -/

/-- n steps from s neither stop nor are refused. -/
def runsFor (n : Nat) (s : State) : Prop := ∃ t, core.run n s = .next t

/-- Memory is in its one canonical form (log entry 3). -/
def memInv (s : State) : Prop := Memory.wf s.mem = true

/-! ## Issue -/

/-- The words at a pc are in the instruction buffer only as memory holds them (R149). -/
abbrev bufferFresh (s : State) (c : Nat) (pc : Word) : Prop :=
  ∀ i, i < 5 → tget (s.core c).ibuf (codeOff (pc + BitVec.ofNat 64 (2 * i))) (s.coreHalf c (codeOff (pc + BitVec.ofNat 64 (2 * i)))) =
    s.coreHalf c (codeOff (pc + BitVec.ofNat 64 (2 * i)))

/-- What the issue stage asks of an instruction of the issuing slot (R36, R39, R257, R360): its slot may issue it, a privileged one stands in
domain 0, no source is unsynchronised, an unmarked one's destinations are not either, and one that waits for branches has none before it. -/
def mayIssue (n : Need) (s : State) : Bool :=
  n.who.allows s.cur.slot && (!n.priv || s.me.dom == 0) && n.rs.all (fun r => !s.me.unsync.getLsbD r.toNat) &&
  (s.cur.mark || n.ws.all (fun r => !s.me.unsync.getLsbD r.toNat)) && (!n.late || s.me.branches.isEmpty)

/-- How an instruction that began no park of its own leaves its slot (R36, R37, R86): pc, count and switch marker; p and u are the pending and the
unsynchronised sets with which it ends. -/
def left (s t : State) (pc : Word) (p u : BitVec 32) : Prop :=
  t.me.pc = pc ∧ t.me.icount = s.me.icount + 1 ∧ t.me.pend = p ∧
  (s.cur.mark = false → t.me.park = none ∧ t.me.unsync = u) ∧
  (s.cur.mark = true → p = 0 → t.me.park = none ∧ t.me.unsync = 0) ∧
  (s.cur.mark = true → p ≠ 0 → t.me.park.map (·.kind) = some .marker ∧ t.me.unsync = u)

/-- The same with the pending and unsynchronised sets as they were. -/
def leftAs (s t : State) (pc : Word) : Prop := left s t pc s.me.pend s.me.unsync

/-- The same with register d pending and unsynchronised (R36, R38). -/
def leftPending (s t : State) (pc : Word) (d : Reg) : Prop := left s t pc (setBit s.me.pend d) (setBit s.me.unsync d)

/-- Everything but the issuing slot stays as it was. -/
def onlyMe (s t : State) : Prop := t = s.setMe t.me

/-- Everything but the issuing core stays as it was. -/
def onlyMine (s t : State) : Prop := t = s.setCore s.cur.core t.mine

/-- The same, but that one number has been given out. -/
def onlyMeId (s t : State) : Prop := t = ({ s with nextId := s.nextId + 1 } : State).setMe t.me
def onlyMineId (s t : State) : Prop := t = ({ s with nextId := s.nextId + 1 } : State).setCore s.cur.core t.mine

/-- The same, but that the instruction was held at issue (R26). -/
def onlyHeld (s t : State) : Prop := t = ({ s with cur := { s.cur with held := true } } : State).setMe t.me

/-- An instruction that waits without having issued (R26): its park of kind k stands; of its slot and the machine nothing else changes. -/
def waits (i : Instr) (s : State) (k : Park) : Prop :=
  ∃ t, exec i s = .next t ∧ t.me.park.map (·.kind) = some k ∧ t.me = { s.me with park := t.me.park } ∧ onlyHeld s t

/-- Of the issuing slot only general registers, the pc, the pending and unsynchronised sets, the park and the count change; a block read under way
in it is over. -/
def onlyRegs (s t : State) : Prop :=
  t.me = { s.me with g := t.me.g, pc := t.me.pc, pend := t.me.pend, unsync := t.me.unsync, park := t.me.park, icount := t.me.icount, walk := Walk.none }

/-- Every general register but d keeps its value. -/
def othersKeep (s t : State) (d : Reg) : Prop := ∀ r, r ≠ d → t.me.rd r = s.me.rd r

/-- Every general and every vector register of the issuing slot keeps its value. -/
def regsKeep (s t : State) : Prop := t.me.g = s.me.g ∧ t.me.v = s.me.v

/-- What reading d gives after v was written to it: g0 reads 0 (R106). -/
def written (d : Reg) (v : Word) : Word := if d = 0 then 0 else v

/-- An instruction that wrote v to d and nothing else. -/
def wroteReg (s t : State) (d : Reg) (v : Word) : Prop :=
  t.me.rd d = written d v ∧ othersKeep s t d ∧ leftAs s t s.nextPc ∧ onlyMe s t ∧ onlyRegs s t

/-- A value that is on its way to d, with d pending; nothing for g0 (R36). -/
def sentResult (s t : State) (d : Reg) (v : Word) : Prop :=
  (if d = 0 then t.me.results = s.me.results else ∃ q, t.me.results = s.me.results ++ [q] ∧ q.reg = d ∧ q.val = v) ∧
  leftPending s t s.nextPc d ∧ regsKeep s t

/-- An issue trap is what happens (R353); an unresolved branch would have been waited for (R40). -/
def traps (i : Instr) (s : State) (code : BitVec 8) (addr info : Word) : Prop := exec i s = .next (s.issueTrap code addr info)

/-! ## Forms of page 0 -/

/-- Destination, sources and result of the instructions that write one general register at fixed latency (R113, R114, R116 to R118). -/
def regForm : Instr → Option (Reg × List Reg × (Slot → Word))
  | .mov d b => some (d, srcRegs b, fun x => srcVal x b)
  | .add d a b => some (d, a :: srcRegs b, fun x => x.rd a + srcVal x b)
  | .sub d a b => some (d, a :: srcRegs b, fun x => x.rd a - srcVal x b)
  | .and d a b => some (d, a :: srcRegs b, fun x => x.rd a &&& srcVal x b)
  | .or d a b => some (d, a :: srcRegs b, fun x => x.rd a ||| srcVal x b)
  | .xor d a b => some (d, a :: srcRegs b, fun x => x.rd a ^^^ srcVal x b)
  | .shl d a b => some (d, a :: srcRegs b, fun x => x.rd a <<< ((srcVal x b).toNat % 64))
  | .shr d a b => some (d, a :: srcRegs b, fun x => x.rd a >>> ((srcVal x b).toNat % 64))
  | .sar d a b => some (d, a :: srcRegs b, fun x => (x.rd a).sshiftRight ((srcVal x b).toNat % 64))
  | .mul d a b => some (d, a :: srcRegs b, fun x => x.rd a * srcVal x b)
  | .mulhs d a b => some (d, a :: srcRegs b, fun x => BitVec.ofInt 64 ((x.rd a).toInt * (srcVal x b).toInt / 2 ^ 64))
  | .mulhn d a b => some (d, a :: srcRegs b, fun x => BitVec.ofNat 64 ((x.rd a).toNat * (srcVal x b).toNat / 2 ^ 64))
  | .divs d a b => some (d, a :: srcRegs b, fun x =>
      if srcVal x b = 0 then BitVec.allOnes 64 else BitVec.ofInt 64 ((x.rd a).toInt.tdiv (srcVal x b).toInt))
  | .divn d a b => some (d, a :: srcRegs b, fun x =>
      if srcVal x b = 0 then BitVec.allOnes 64 else BitVec.ofNat 64 ((x.rd a).toNat / (srcVal x b).toNat))
  | .rems d a b => some (d, a :: srcRegs b, fun x =>
      if srcVal x b = 0 then x.rd a else BitVec.ofInt 64 ((x.rd a).toInt.tmod (srcVal x b).toInt))
  | .remn d a b => some (d, a :: srcRegs b, fun x =>
      if srcVal x b = 0 then x.rd a else BitVec.ofNat 64 ((x.rd a).toNat % (srcVal x b).toNat))
  | .slt d a b => some (d, a :: srcRegs b, fun x => if (x.rd a).toInt < (srcVal x b).toInt then 1 else 0)
  | .sltn d a b => some (d, a :: srcRegs b, fun x => if (x.rd a).toNat < (srcVal x b).toNat then 1 else 0)
  | .addi d v => some (d, [d], fun x => x.rd d + v)
  | .li d v => some (d, [], fun _ => v)
  | .mix32 d b => some (d, [d, b], fun x => (lowbias32 ((x.rd d ^^^ x.rd b).setWidth 32)).setWidth 64)
  | .clz d b => some (d, [b], fun x => if x.rd b = 0 then 64 else BitVec.ofNat 64 (63 - Nat.log2 (x.rd b).toNat))
  | .popc d b => some (d, [b], fun x => BitVec.ofNat 64 ((List.range 64).countP (fun i => (x.rd b).getLsbD i)))
  | _ => none

/-- Register, offset and test of a conditional branch (R119). -/
def branchForm : Instr → Option (Reg × Word × (Word → Bool))
  | .bz a off => some (a, off, fun v => v == 0)
  | .bnz a off => some (a, off, fun v => v != 0)
  | .bltz a off => some (a, off, fun v => decide (v.toInt < 0))
  | .bgez a off => some (a, off, fun v => decide (0 ≤ v.toInt))
  | _ => none

/-- A branch that resolves at issue: none is predicted, or it stands in a gang or is marked (R39, R50; log entry 5). -/
def resolvesNow (s : State) : Bool := s.predictions.isEmpty || s.inGang || s.cur.mark

/-- Instructions that slots 0 to 10 alone may issue (R124, R140, R217, R264, R278). -/
def threadsOnly : Instr → Bool
  | .stop | .start _ _ | .hjoin _ | .hstat _ | .arv _ _ | .waitp _ _ | .bphase _ _ | .bred _ _ _ | .freq _ _ | .boost _ _ | .split => true
  | .gate _ | .flddef _ _ | .fldrun _ _ | .fldhold _ _ | .fldsnap _ _ _ | .fldstat _ _ | .flddrop _ => true
  | _ => false

/-- Instructions that a site routine may issue (R289). -/
def inRoutine : Instr → Bool
  | .nop | .yield | .brk | .pause _ | .trap _ | .fret | .mov _ _ | .addi _ _ | .li _ _ | .mix32 _ _ | .clz _ _ | .popc _ _ => true
  | .add _ _ _ | .sub _ _ _ | .and _ _ _ | .or _ _ _ | .xor _ _ _ | .shl _ _ _ | .shr _ _ _ | .sar _ _ _ | .mul _ _ _ | .mulhs _ _ _ | .mulhn _ _ _ => true
  | .divs _ _ _ | .divn _ _ _ | .rems _ _ _ | .remn _ _ _ | .slt _ _ _ | .sltn _ _ _ => true
  | .bz _ _ | .bnz _ _ | .bltz _ _ | .bgez _ _ | .j _ | .jal _ | .jr _ | .jalr _ => true
  | .ld8s _ _ | .ld8n _ _ | .ld16s _ _ | .ld16n _ _ | .ld32s _ _ | .ld32n _ _ | .ld64 _ _ | .st8 _ _ | .st16 _ _ | .st32 _ _ | .st64 _ _ => true
  | .fence _ _ | .pref _ _ _ | .tlget _ _ | .tlwait _ _ | .csrr _ _ | .spill _ _ | .fill _ _ => true
  | .vld _ _ _ _ | .vst _ _ _ _ | .vlds _ _ _ _ _ | .vsts _ _ _ _ _ | .vgatl _ _ _ _ | .vsctl _ _ _ _ | .vbcst _ _ _ | .vext _ _ _ _ | .vins _ _ _ _ | .vmov _ _ => true
  | .vadd _ _ _ _ _ | .vsub _ _ _ _ _ | .vmul _ _ _ _ _ _ | .vfma _ _ _ _ _ | .vmin _ _ _ _ _ | .vmax _ _ _ _ _ | .vabs _ _ _ _ | .vneg _ _ _ _ => true
  | .vand _ _ _ | .vor _ _ _ | .vxor _ _ _ | .vshl _ _ _ _ _ | .vshr _ _ _ _ | .vsar _ _ _ _ | .vcmp _ _ _ _ _ | .vsel _ _ _ _ | .vcvt _ _ _ _ _ => true
  | .vwadd _ _ _ _ _ _ | .vscan _ _ _ _ _ _ | .vred _ _ _ _ _ _ | .vperm _ _ _ _ | .vmath _ _ _ _ => true
  | _ => false

/-- Whether slot t may issue an instruction (R124, R140, R217, R236, R264, R267, R278, R288, R289). -/
def slotMay (i : Instr) (t : Nat) : Bool :=
  (t != 11 || inRoutine i) && (decide (t ≤ 10) || !threadsOnly i) &&
  (match i with
    | .sync _ | .gang _ => t == 0
    | .fret => t == 11
    | .loopb _ _ _ _ => t == 12
    | _ => true)

/-- Instructions of domain 0 alone (R257). -/
def privileged : Instr → Bool
  | .tlbfill _ _ | .tlbinv _ _ | .replay _ _ | .gtwrite _ _ | .domsw _ => true
  | _ => false

/-! ## Control registers -/

/-- What reading a control register gives the issuing slot (R133 to R138, R191, R258, R348, R380); none for a number that names none. -/
def csrValue (s : State) (n : Nat) : Option Word :=
  let e := s.me.ec
  [(0x000, BitVec.ofNat 64 s.cur.slot), (0x001, BitVec.ofNat 64 s.cur.core), (0x002, BitVec.ofNat 64 (s.cur.core % 64 + s.cur.core / 64 * 256)),
   (0x003, s.mine.jobgrid), (0x004, s.mine.sstep), (0x005, s.mine.cycle), (0x006, s.rtime), (0x007, 0x0100), (0x008, 0x1FF), (0x009, 0),
   (0x00A, 0x00104040), (0x010, s.me.tvec), (0x011, s.me.tcause), (0x012, s.me.taddr), (0x013, s.me.tpc), (0x014, s.me.tinfo), (0x020, s.me.prio),
   (0x021, s.me.waitlim), (0x022, BitVec.ofNat 64 (s.mine.hdone.toNat * 2)), (0x023, s.mine.spillbase), (0x024, tilesWord s.mine.tiles),
   (0x030, s.me.asid.setWidth 64), (0x031, BitVec.ofNat 64 (s.me.dom.toNat + ofBool (s.me.dom == 0) * 64 + s.me.key.toNat * 256)),
   (0x032, BitVec.ofNat 64 (ofBool s.mine.det)), (0x033, s.me.codebase), (0x034, s.me.codelim),
   (0x040, e.fmta), (0x041, e.fmtb), (0x042, e.scla), (0x043, e.sclb), (0x044, e.zpa), (0x045, e.zpb), (0x046, e.plna), (0x047, e.plnb), (0x048, e.astr),
   (0x049, e.bstr), (0x04A, e.klen), (0x04B, e.mjoin), (0x04C, e.dfmt), (0x04D, e.cstr), (0x04E, e.amaxp), (0x050, s.mine.smask), (0x051, s.mine.domch),
   (0x052, s.mine.xarea), (0x060, e.cpyw), (0x061, e.cpyh), (0x062, e.cpyss), (0x063, e.cpyds), (0x064, e.cpymask), (0x080, s.mine.profctl),
   (0x081, s.mine.profbase), (0x0D0, s.remapix), (0x0D1, tget s.remap s.remapix.toNat 0), (0x0D4, s.mine.bkpt[0]), (0x0D5, s.mine.bkpt[1]),
   (0x0D6, s.mine.bkpt[2]), (0x0D7, s.mine.bkpt[3])].lookup n

/-- Registers that a slot may write whatever the value, with their writable bits (R133, R191); XAREA and the remap window stand apart. -/
def csrWritable : List (Nat × Word) :=
  [(0x010, BitVec.allOnes 64), (0x020, 0x3), (0x021, 0xFFFFFFFF), (0x023, BitVec.allOnes 64), (0x040, 0x3F), (0x041, 0x3F), (0x042, BitVec.allOnes 64),
   (0x043, BitVec.allOnes 64), (0x044, BitVec.allOnes 64), (0x045, BitVec.allOnes 64), (0x046, BitVec.allOnes 64), (0x047, BitVec.allOnes 64),
   (0x048, 0xFFFFFFFF), (0x049, 0xFFFFFFFF), (0x04A, 0xFFFFF), (0x04B, 0x3), (0x04C, 0x3F), (0x04D, 0xFFFFFFFF), (0x04E, BitVec.allOnes 64),
   (0x060, 0xFFFFFFFFFF), (0x061, 0xFFFFFFFF), (0x062, BitVec.allOnes 64), (0x063, BitVec.allOnes 64), (0x064, 0x3F7F1F3F), (0x080, 0x1F),
   (0x081, BitVec.allOnes 64), (0x0D4, BitVec.allOnes 64), (0x0D5, BitVec.allOnes 64), (0x0D6, BitVec.allOnes 64), (0x0D7, BitVec.allOnes 64)]

/-- Register, sources and new value of CSRW, CSRS and CSRC (R131). -/
def csrForm : Instr → Option (BitVec 12 × Reg × Reg × (Word → Word → Word))
  | .csrw n a c => some (n, a, c, fun _ v => v)
  | .csrs n a c => some (n, a, c, fun old v => old ||| v)
  | .csrc n a c => some (n, a, c, fun old v => old &&& ~~~v)
  | _ => none

/-! ## Forms of page 1 -/

/-- Sign, size, destination and operand of a load (R150). -/
def loadForm : Instr → Option (Bool × Nat × Reg × MemOp)
  | .ld8s d m => some (true, 1, d, m)
  | .ld8n d m => some (false, 1, d, m)
  | .ld16s d m => some (true, 2, d, m)
  | .ld16n d m => some (false, 2, d, m)
  | .ld32s d m => some (true, 4, d, m)
  | .ld32n d m => some (false, 4, d, m)
  | .ld64 d m => some (false, 8, d, m)
  | _ => none

/-- Size, source and operand of a store (R150). -/
def storeForm : Instr → Option (Nat × Reg × MemOp)
  | .st8 d m => some (1, d, m)
  | .st16 d m => some (2, d, m)
  | .st32 d m => some (4, d, m)
  | .st64 d m => some (8, d, m)
  | _ => none

/-- OP, size, register and operand of a scalar atomic (R154, R155). -/
def atomicForm : Instr → Option (Nat × Nat × Reg × MemOp)
  | .aadd d m w => some (11, if w then 8 else 4, d, m)
  | .aand d m w => some (12, if w then 8 else 4, d, m)
  | .aor d m w => some (13, if w then 8 else 4, d, m)
  | .axor d m w => some (14, if w then 8 else 4, d, m)
  | .amins d m w => some (15, if w then 8 else 4, d, m)
  | .amaxs d m w => some (16, if w then 8 else 4, d, m)
  | .aminn d m w => some (17, if w then 8 else 4, d, m)
  | .amaxn d m w => some (18, if w then 8 else 4, d, m)
  | .aswp d m w => some (19, if w then 8 else 4, d, m)
  | .acas d m w => some (20, if w then 8 else 4, d, m)
  | .afadd d m => some (21, 4, d, m)
  | .afmaxa d m => some (22, 4, d, m)
  | _ => none

/-- The address of an atomic: base plus offset plus scaled index; the index register of ACAS holds the expected value instead (R144, R155). -/
def atomicAddr (op : Nat) (m : MemOp) (x : Slot) (n : Nat) : Word := if op = 20 then x.rd m.base + m.off else x.rd m.base + m.off + x.rd m.idx * BitVec.ofNat 64 n

/-- An access that entered the issuing slot's list: what it is, where it goes, and its park where its translation misses (R144, R147). -/
def beganAccess (s t : State) (r : Access) (k : AccKind) (a : Word) (n : Nat) (x : BitVec 4) (scope order : BitVec 2) : Prop :=
  t.me.acc = s.me.acc ++ [r] ∧ r.id = s.nextId ∧ r.kind = k ∧ r.va = a ∧ r.size = n ∧ r.x = x ∧ r.scope = scope ∧ r.order = order ∧ r.dom = s.me.dom ∧
  r.asid = s.me.asid ∧ r.key = s.me.key ∧ r.fpc = s.cur.pc ∧
  (spaceOf a ≠ .reserved → s.tlbPlace s.cur.core s.me.asid a = none →
    r.phase = .miss ∧ r.place = none ∧ t.me.park.map (·.kind) = some (.tlb r.id)) ∧
  (∀ p, s.tlbPlace s.cur.core s.me.asid a = some p → p.lacks k.acc = true →
    r.phase = .miss ∧ r.place = none ∧ t.me.park.map (·.kind) = some (.tlb r.id)) ∧
  (∀ p, s.tlbPlace s.cur.core s.me.asid a = some p → p.lacks k.acc = false → r.phase = .ready ∧ r.place = some p) ∧
  (spaceOf a = .reserved → r.phase = .ready ∧ r.place = some Place.nowhere) ∧
  t.me.pc = s.nextPc ∧ t.me.icount = s.me.icount + 1 ∧ regsKeep s t ∧ t.mem = s.mem ∧ onlyMeId s t

/-- What a performed store leaves: its bytes at its place, every other byte, and its slot without it. -/
def performedStore (s u : State) (c t : Nat) (a : Access) (p : Place) : Prop :=
  Memory.readBytes u.mem p.key a.size = bytesOf a.size a.data ∧
  (∀ k, (k < p.key ∨ p.key + a.size ≤ k) → Memory.read u.mem k = Memory.read s.mem k) ∧
  (u.slot c t).acc = (s.slot c t).acc.filter (fun b => b.id != a.id) ∧ (u.slot c t).g = (s.slot c t).g ∧ (u.slot c t).v = (s.slot c t).v ∧
  (u.slot c t).pend = (s.slot c t).pend ∧ (u.slot c t).traps = (s.slot c t).traps ∧ (u.slot c t).results = (s.slot c t).results

/-! ## Engine commands -/

/-- A command that entered queue e at its end with the next number of its context (R13, R41, R44). -/
def entered (s t : State) (e : Nat) (i : Instr) (args : List Word) : Prop :=
  ∃ m, tget t.mine.queue e [] = tget s.mine.queue e [] ++ [m] ∧ m.instr = i ∧ m.args = args ∧ m.slot = s.cur.slot ∧
    m.num = (ectx s.me.issued e).toNat + 1 ∧ m.ec = s.me.ec ∧ m.dom = s.me.dom ∧ m.asid = s.me.asid ∧ m.key = s.me.key ∧ m.fpc = s.cur.pc ∧
    t.me.issued = ectxSet s.me.issued e (ectx s.me.issued e + 1) ∧ t.me.acc = s.me.acc ∧ t.mine.exec = s.mine.exec ∧ t.mine.tiles = s.mine.tiles ∧
    regsKeep s t ∧ onlyMineId s t

/-- Nothing holds a command at issue: no access before a fence is unperformed, and queue e has room (R13, R162, R169). -/
def queueOpen (s : State) (e : Nat) : Bool := !s.me.fenced && decide ((tget s.mine.queue e []).length < 2)

/-- An engine's agent may read n bytes from a, unit by unit, and B is what it reads (R195, R309). -/
def engineReads (s : State) (g : Agent) (a : Word) (n : Nat) (B : Word → Byte) : Prop :=
  ∀ q ∈ unitsOf a n, ∃ p, s.engPlace g q.1 q.2 4 1 = .ok p ∧ ∀ j, j < q.2 → B (q.1 + BitVec.ofNat 64 j) = s.readByte p j

/-- A copy may read its source, unit by unit, and B is what it reads (R205, R309). -/
def sourceReads (s : State) (c : Nat) (m : Cmd) (B : Word → Byte) : Prop :=
  ∀ r ∈ copyReads m, ∃ bs, s.partsRead (s.cmdAgent c 2 m) r = .ok bs ∧ ∀ j, j < r.hull.2 → B (r.hull.1 + BitVec.ofNat 64 j) = bs.getD j 0

/-- Command m, at place k of core c's executing ones of engine e, has read and written nothing yet, and no other of its core has its number. -/
abbrev untouched (s : State) (c e k : Nat) (m : Cmd) : Prop :=
  (tget (s.core c).exec e [])[k]? = some m ∧ m.dead = false ∧ m.walk.reads = [] ∧ m.walk.wrote = [] ∧ (∀ p ∈ (s.core c).exec, ∀ q ∈ p.2, q.id = m.id → q = m)

/-- Copy command m, completed, has put byte val d i at address dst d i for every destination d of l and every i below n, wherever those addresses may be
written, are apart and, for an apart copy, off its source; it has changed no other byte and counts n (R205, R206, R210). -/
def copies (s : State) (c k : Nat) (m : Cmd) (apart : Bool) (n : Nat) (l : List Nat) (dst : Nat → Nat → Word) (val : Nat → Nat → Byte) : Prop :=
  ∀ Q : Nat → Nat → Place, (∀ d ∈ l, ∀ i, i < n → s.engPlace (s.cmdAgent c 2 m) (dst d i) 1 5 2 = .ok (Q d i)) →
    (∀ d ∈ l, ∀ e ∈ l, ∀ i j, i < n → j < n → (Q d i).key = (Q e j).key → d = e ∧ i = j) →
    (apart = true → ∀ d ∈ l, ∀ i, i < n → ∀ r ∈ s.copyKeys c m, meets r.1 r.2 (Q d i).key 1 = false) →
    ∃ u, exec (.engineCommandComplete c 2 k) s = .next u ∧ (∀ d ∈ l, ∀ i, i < n → u.readByte (Q d i) 0 = val d i) ∧
      (∀ x, (∀ d ∈ l, ∀ i, i < n → (Q d i).key ≠ x) → Memory.read u.mem x = Memory.read s.mem x) ∧
      (0 < n → tget (u.slot c m.slot).copyBytes m.num 0 = n) ∧ (u.slot c m.slot).g = (s.slot c m.slot).g ∧
      tget (u.core c).exec 2 [] = (tget (s.core c).exec 2 []).filter (fun q => q.id != m.id)

/-- Vector commands of register sources alone, with the general registers they sample (R167, R172). -/
def vecForm : Instr → Option (List Reg)
  | .vbcst _ _ b => some [b]
  | .vins _ _ b l => some (b :: laneRegs l)
  | .vmov _ _ => some []
  | .vadd _ _ _ _ _ | .vsub _ _ _ _ _ | .vmul _ _ _ _ _ _ | .vfma _ _ _ _ _ | .vmin _ _ _ _ _ | .vmax _ _ _ _ _ => some []
  | .vabs _ _ _ _ | .vneg _ _ _ _ | .vand _ _ _ | .vor _ _ _ | .vxor _ _ _ => some []
  | .vshl _ _ _ _ _ | .vshr _ _ _ _ | .vsar _ _ _ _ | .vcmp _ _ _ _ _ | .vsel _ _ _ _ | .vcvt _ _ _ _ _ => some []
  | .vwadd _ _ _ _ _ _ | .vscan _ _ _ _ _ _ | .vred _ _ _ _ _ _ | .vperm _ _ _ _ | .vmath _ _ _ _ => some []
  | _ => none

/-- Lane i of a vector (R63). -/
def laneAt (t : VType) (v : Vec) (i : Nat) : Nat := v.toNat / 2 ^ (i * laneBits t) % 2 ^ laneBits t

/-- Lane i of a command's second source: a register read at start, or the low bits of the immediate (R173). -/
def laneArg (t : VType) (m : Cmd) (b : VSrc) (i : Nat) : Nat :=
  match b with
  | .reg _ => laneAt t (m.src 2) i
  | .imm v => v.toNat % 2 ^ laneBits t

/-- R64: an exact result modulo 2^width, or with SAT first at the nearest bound of the type. -/
def narrowed (t : VType) (sat : Bool) (z : Int) : Nat :=
  let w := laneBits t
  let lo : Int := if t.isSigned then -((2 ^ (w - 1) : Nat) : Int) else 0
  let hi : Int := (if t.isSigned then ((2 ^ (w - 1) : Nat) : Int) else ((2 ^ w : Nat) : Int)) - 1
  ((if sat then (if z < lo then lo else if hi < z then hi else z) else z) % ((2 ^ w : Nat) : Int)).toNat

/-- General registers that an instruction reads at issue, and those it writes (R360). -/
def regsOf (i : Instr) : List Reg × List Reg :=
  if let some (d, rs, _) := regForm i then (rs, [d])
  else if let some (a, _, _) := branchForm i then ([a], [])
  else if let some (_, _, d, m) := loadForm i then ([m.base, m.idx], [d])
  else if let some (_, d, m) := storeForm i then ([d, m.base, m.idx], [])
  else if let some (_, _, d, m) := atomicForm i then ([d, m.base, m.idx], [d])
  else if let some rs := vecForm i then (rs, [])
  else if let some (_, a, c, _) := csrForm i then ([a], [c])
  else match i with
    | .pause b | .tlwait _ b | .ewait _ _ b | .arv _ b | .waitp _ b | .gang b | .hjoin b | .domsw b | .spill _ b => ([b], [])
    | .jal _ => ([], [31])
    | .jr a => ([a], [])
    | .jalr a => ([a], [31])
    | .tlget d _ | .mprog d | .mstat d _ | .rxcnt d _ | .rtake d _ | .rpeek d | .mpoll d | .xcnt d _ | .bphase d _ | .bred d _ _ | .hstat d | .csrr d _ | .fill d _ => ([], [d])
    | .pref a b _ | .vld _ a b _ | .vst _ a b _ | .vlds _ _ a b _ | .vsts _ _ a b _ => ([a, b], [])
    | .vamo _ m _ => ([m.base, m.idx], [])
    | .vgatl _ _ _ a | .vsctl _ _ _ a | .mld _ a _ | .mldt _ a _ | .mst _ a _ _ | .stdrop a | .flddrop a => ([a], [])
    | .vext _ d _ l => (laneRegs l, [d])
    | .mma _ a b | .mmaj _ a b | .cpy2 a b _ _ | .rxopen _ _ _ a b | .rput a b _ | .xput _ a b _ | .xputr a b _ _ | .stbind a b | .stload a b => ([a, b], [])
    | .cpy a b c | .cpym a b c | .cfill a b c | .msend a b c | .loopb a b c _ => ([a, b, c], [])
    | .mrecv a b c => ([], [a, b, c])
    | .start a b => ([a, b], [a])
    | .cprog d b | .freq d b | .boost d b | .flddef d b | .fldstat d b | .stget d b _ => ([b], [d])
    | .stx _ a b c | .fldsnap a b c => ([a, b] ++ c.toList, [])
    | .fldrun a b | .fldhold a b | .tlbfill a b | .tlbinv a b | .replay a b | .gtwrite a b => ([a, b], [])
    | _ => ([], [])

end Sys2Proof.Safety
end

