-- ==== Sys2Proof/Certificates/Slice0/Obligations.lean ====
section
/-! DEFINITION. The statements for the provers. -/

open Sys2Proof Sys2Proof.Machine Sys2Proof.Safety

/-- R335 and R424: what reset leaves, that each bring-up stage begins after the one before it, READY with stage 7 unless the device is too hot, and a
failure's code and stage. In which stage bring-up fails with which code is log entry 53 (DEDUCED). -/
def Obligations.ResetIsUnready : Prop :=
  State.reset.ready = false ∧ State.reset.stage = 0 ∧ State.reset.rtime = 0 ∧ State.reset.jobs = [] ∧
  (∀ c, (State.reset.core c).phase = .free) ∧
  (∀ s : State, s.ready = false → s.fail = false → s.stage < 7 → s.bringUpFail = none → (s.stage = 1 → s.hbmShort = false) →
    (s.stage = 2 → ∀ q ∈ s.seam, q.2.lost = false) → (s.stage = 6 → s.banksShort = false ∧ ∀ q ∈ s.rebind.remap, q.2.getLsbD 24 = true) →
    s.bringUp.stage = s.stage + 1 ∧ (s.bringUp.ready = true ↔ s.stage = 6 ∧ s.hot = false) ∧ s.bringUp.mem = s.mem) ∧
  (∀ (s : State) (st code : BitVec 4), s.ready = false → s.fail = false → s.stage < 7 →
    ((s.bringUpFail = some (st, code) ∧ st.toNat = s.stage + 1 ∧
        (st.toNat, code.toNat) ∈ [(1, 1), (1, 2), (1, 3), (2, 4), (3, 6), (6, 7), (7, 5)]) ∨
     (s.bringUpFail = none ∧ s.stage = 1 ∧ s.hbmShort = true ∧ st = 2 ∧ code = 4) ∨
     (s.bringUpFail = none ∧ s.stage = 2 ∧ (∃ q ∈ s.seam, q.2.lost = true) ∧ st = 3 ∧ code = 6) ∨
     (s.bringUpFail = none ∧ s.stage = 6 ∧ s.banksShort = true ∧ st = 7 ∧ code = 5) ∨
     (s.bringUpFail = none ∧ s.stage = 6 ∧ s.banksShort = false ∧ (∃ q ∈ s.rebind.remap, q.2.getLsbD 24 = false) ∧ st = 7 ∧ code = 7)) →
    s.bringUp.fail = true ∧ s.bringUp.failCode = code ∧ s.bringUp.failStage = st ∧ s.bringUp.ready = false ∧ s.bringUp.stage = s.stage)

/-- R83, R86, R87: the instruction at the slot's pc is the one that issues. That the members of a gang (R50) issue it one after another, each in a step of
its own, the first as the leader fetches it, is log entry 36 (DEDUCED). -/
def Obligations.StepRunsTheFetchedInstruction : Prop :=
  (∀ (s : State) (d : Decoded), s.issuing = true → (s.inGang = true → s.gangStep = none) →
    let c := if s.inGang then (s.gangOf s.cur.core).headD s.cur.core else s.cur.core
    let x := s.slot c s.cur.slot
    let ws := (((List.range 5).map (fun i => x.pc + BitVec.ofNat 64 (2 * i))).takeWhile (fun a => decide (a.toNat < x.codelim.toNat))).map
      (fun a => s.coreHalf c (codeOff a))
    bufferFresh s c x.pc → x.codebase.toNat ≤ x.pc.toNat → x.pc.toNat < x.codelim.toNat → x.pc.toNat % 2 = 0 →
    decode ws = .ok d → s.poisoned (coreKey c (codeOff x.pc)) (2 * wordsRead ws) = none →
    ∃ t, step s = gangRun d.instr t ∧ (s.inGang = false → step s = exec d.instr t) ∧
      (s.inGang = true → ownTraps d.instr t ((s.gangOf s.cur.core).filter (fun e => (s.core e).gangDone.isNone)) = [] →
        ∀ u, exec d.instr t = .next u →
          step s = .next ((u.memberDone t d.instr).gangNext (s.gangOf s.cur.core))) ∧
      t.cur = { s.cur with pc := x.pc, len := 2 * d.words, page := d.page, op := d.op, mark := d.mark, held := false } ∧
      t = ({ s with issuing := false, cur := t.cur } : State).setCore c { s.core c with ibuf := (t.core c).ibuf }) ∧
  (∀ (s : State) (g : GangStep), s.issuing = true → s.inGang = true → s.gangStep = some g →
    step s = gangRun g.instr { s with
      issuing := false, cur := { s.cur with pc := s.me.pc, len := g.len, page := g.page, op := g.op, mark := g.mark, held := false } })

/-- The encodings the manual prints beside R111, R115, R121, R125 to R127, R131, R192, R204, R237 and R264. -/
def Obligations.SpecEncodingsDecode : Prop :=
  (∃ d, decode [0x3464, 0] = .ok d ∧ d.instr = .divs 3 3 (.reg 4) ∧ d.words = 1) ∧
  (∃ d, decode [0x7D40, 0x7CFF, 0x44FF, 0] = .ok d ∧ d.instr = .slt 7 8 (.imm (BitVec.ofInt 64 (-1))) ∧ d.words = 3) ∧
  (∃ d, decode [0x7C01, 0x1CB8, 0] = .ok d ∧ d.instr = .shl 5 5 (.imm 56) ∧ d.words = 2) ∧
  (∃ d, decode [0x7BE0, 0] = .ok d ∧ d.instr = .jr 31 ∧ d.words = 1) ∧
  (∃ d, decode [0x78C1, 0] = .ok d ∧ d.instr = .jalr 6 ∧ d.words = 1) ∧
  (∃ d, decode [0x0086, 0] = .ok d ∧ d.instr = .pause 6 ∧ d.words = 1) ∧
  (∃ d, decode [0x00A5, 0] = .ok d ∧ d.instr = .trap 5 ∧ d.words = 1) ∧
  (∃ d, decode [0x0060, 0] = .ok d ∧ d.instr = .brk ∧ d.words = 1) ∧
  (∃ d, decode [0x7E05, 0x1405, 0] = .ok d ∧ d.instr = .gang 5 ∧ d.words = 2) ∧
  (∃ d, decode [0x7C1F, 0x0868, 0] = .ok d ∧ d.instr = .add 3 3 (.imm 1000) ∧ d.words = 2) ∧
  (∃ d, decode [0x7F09, 0x7CF8, 0x7E01, 0x9885, 0] = .ok d ∧ d.mark = true ∧ d.words = 4 ∧
    d.instr = .ld64 4 { base := 5, idx := 0, off := BitVec.ofInt 64 (-8), x := 0, scope := 2, order := 1 }) ∧
  (∃ d, decode [0x7D10, 0x7F40, 0x7E02, 0x2823, 0] = .ok d ∧ d.instr = .vadd .i32 false 1 2 (.reg 3) ∧ d.words = 4) ∧
  (∃ d, decode [0x7D38, 0x7E03, 0x0066, 0] = .ok d ∧ d.instr = .mma 3 6 7 ∧ d.words = 3) ∧
  (∃ d, decode [0x7D0B, 0x7E04, 0x1485, 0] = .ok d ∧ d.instr = .rxopen 1 true true 4 5 ∧ d.words = 3) ∧
  (∃ d, decode [0x7C03, 0x7E06, 0x1404, 0] = .ok d ∧ d.instr = .gate 100 ∧ d.words = 3) ∧
  (∃ d, decode [0x7C01, 0x7E07, 0x0480, 0] = .ok d ∧ d.instr = .csrw 0x020 4 0 ∧ d.words = 3)

/-- R86 against the encoder written from the same tables: no bit of an encoding is dropped. -/
def Obligations.EncodeThenDecodeGivesBack : Prop :=
  ∀ (i : Instr) (mk : Bool) (rest : List Half), i.isStep = false → i.wf = true →
    ∃ d, decode (encode mk i ++ rest) = .ok d ∧ d.instr = i ∧ d.mark = mk ∧ d.words = (encode mk i).length ∧ d.words ≤ 5

/-- R87: an instruction is at most five words; reserved encodings (R105) are refused. -/
def Obligations.DecodedInstructionIsWellFormed : Prop :=
  ∀ (ws : List Half) (d : Decoded), decode ws = .ok d → d.instr.isStep = false ∧ d.instr.wf = true ∧ 1 ≤ d.words ∧ d.words ≤ 5 ∧ d.words ≤ ws.length

/-- The model's own invariant of its memory (log entry 3): no step breaks it. -/
def Obligations.MemoryStaysCanonical : Prop :=
  ∀ s t : State, memInv s → step s = .next t → memInv t

/-- Companion of MemoryStaysCanonical. -/
def Obligations.MemoryCanonicalAtReset : Prop :=
  memInv State.reset ∧ State.reset.mem = []

/-- The basic laws of memory on which every store statement rests. -/
def Obligations.StoredByteReadsBack : Prop :=
  ∀ (m : List Host.Cell) (k : Nat) (v : Byte) (bs : List Byte), Memory.wf m = true →
    Memory.read (Memory.write m k v) k = v ∧ (∀ j, j ≠ k → Memory.read (Memory.write m k v) j = Memory.read m j) ∧
    (∀ j, (j < k ∨ k + bs.length ≤ j) → Memory.read (Memory.writeBytes m k bs) j = Memory.read m j) ∧
    Memory.readBytes (Memory.writeBytes m k bs) k bs.length = bs ∧ Memory.wf (Memory.writeBytes m k bs) = true

/-- R257: domain 0 alone is privileged; what only privileged instructions write stays unchanged under every other. -/
def Obligations.OnlyDomainZeroChangesSystemTables : Prop :=
  ∀ (i : Instr) (s t : State), i.isStep = false → s.me.dom ≠ 0 → exec i s = .next t →
    t.gates = s.gates ∧ t.remapix = s.remapix ∧ t.remap = s.remap ∧ t.domCode = s.domCode ∧ t.ctc = s.ctc ∧ t.casts = s.casts ∧
    t.keysLoaded = s.keysLoaded ∧ t.pageTables = s.pageTables

/-- R31: one slot issues, from the ready slots of highest effective level. That a core cycle is settled in a step of its own, in which the waits of the slots
that cannot issue begin in R31's order before the choice among the others, is log entry 28 (DESIGN CHOICE). -/
def Obligations.HighestLevelIssues : Prop :=
  (∀ (s : State) (c : Nat) (ready : List Nat), ready.Pairwise (· < ·) → (∀ t ∈ ready, t < 13) →
    (∀ t, s.choose c ready = some t → t ∈ ready ∧ ((∃ u ∈ ready, (s.slot c u).yielded = false) → (s.slot c t).yielded = false) ∧
      (∀ u ∈ s.candidates c ready, (s.slot c u).eff ≤ (s.slot c t).eff) ∧
      ∀ p, (s.core c).rr[(s.slot c t).eff % 4]? = some p → p ≤ 12 → ∀ u ∈ s.candidates c ready, (s.slot c u).eff = (s.slot c t).eff →
        (t + 13 - p) % 13 ≤ (u + 13 - p) % 13) ∧
    (ready ≠ [] → ∃ t, s.choose c ready = some t)) ∧
  (∀ (s : State) (c : Nat), s.issuing = false → s.cycleOf = some c →
    let tries := (List.range 13).filter (s.canTry c)
    let v := (s.inTurn c tries).foldl (fun u t => u.heldAt c t) { s with cycleOf := none }
    step s = .next (v.endCycle c (tries.filter (v.readyNow c))) ∧ (∀ t ∈ s.inTurn c tries, t ∈ tries) ∧
      (∀ t ∈ tries, (s.slot c t).eff ≤ 3 → t ∈ s.inTurn c tries)) ∧
  (∀ (s : State) (c t : Nat) (ready : List Nat), s.choose c ready = some t →
    let u := s.endCycle c ready
    u.issuing = true ∧ u.cur.core = c ∧ u.cur.slot = t ∧ (u.core c).rr[(s.slot c t).eff % 4]? = some ((t + 1) % 13)) ∧
  (∀ (s : State) (c : Nat) (ready : List Nat), s.choose c ready = none →
    (s.endCycle c ready).issuing = s.issuing ∧ (s.endCycle c ready).cur = s.cur)

/-- R31 to R33: the cycle, aging and the PAUSE window. That a core cycle adds 1 to router time, and that a second step settles which slot issues in it, is
log entry 28 (DESIGN CHOICE). Completes issueCycle, ageBoost, pauseWindowEnd. -/
def Obligations.CycleChoosesAndCounts : Prop :=
  (∀ (s : State) (c : Nat), s.cycles c = true →
    ∃ u, exec (.issueCycle c) s = .next u ∧ u.cycleOf = some c ∧ u.rtime = s.rtime + 1 ∧ (u.core c).cycle = (s.core c).cycle + 1 ∧
      u.issuing = s.issuing ∧ u.cur = s.cur ∧ u.mem = s.mem ∧
      ∀ t, (u.slot c t).g = (s.slot c t).g ∧ (u.slot c t).v = (s.slot c t).v ∧ (u.slot c t).pc = (s.slot c t).pc) ∧
  (∀ (s : State) (c t : Nat) (ready : List Nat), (∀ v ∈ ready, v < 13) → s.choose c ready = some t →
    let u := s.endCycle c ready
    ((s.slot c t).pauseLeft = 0 → (u.slot c t).age = 0 ∧ (u.slot c t).boost = 0) ∧
    (∀ v ∈ ready, v ≠ t → (s.slot c v).pauseLeft = 0 → (u.slot c v).age = (s.slot c v).age + 1 ∧ (u.slot c v).boost = (s.slot c v).boost) ∧
    (∀ v, v ∉ ready → (u.slot c v).age = (s.slot c v).age ∧ (u.slot c v).boost = (s.slot c v).boost)) ∧
  (∀ (s : State) (c t : Nat), (s.slot c t).age = 256 →
    ∃ u, exec (.ageBoost c t) s = .next u ∧ (u.slot c t).boost = (s.slot c t).boost + 1 ∧ (u.slot c t).age = 0 ∧
      (u.slot c t).eff = min 3 (s.baseLevel c t + ((s.slot c t).boost + 1)) ∧ u = s.setSlot c t (u.slot c t)) ∧
  (∀ (s : State) (c t : Nat), (s.slot c t).pauseOver = true →
    ∃ u, exec (.pauseWindowEnd c t) s = .next u ∧ (u.slot c t).eff = min 3 (s.baseLevel c t + (s.slot c t).boost) ∧
      (u.slot c t).pauseOver = false ∧ u = s.setSlot c t (u.slot c t))

/-- R355: the entry of a delivered trap, as the one shared operation every cause uses; a block read that it ends waits at no directory entry any more. -/
def Obligations.TrapIsDelivered : Prop :=
  ∀ (s : State) (c t : Nat) (tr : Trap), t ≠ 11 → (s.slot c t).calls = [] → (s.slot c t).tvec.getLsbD 0 = true → (s.slot c t).hnd = false →
    (t ≠ 0 ∨ (s.core c).gang = 0) →
    ∃ y, s.takeTrap c t tr = (s.unqueue c (.block t)).setSlot c t y ∧
      y.tcause = BitVec.ofNat 64 (tr.code.toNat + ofBool tr.defer * 2 ^ 8 + tr.page % 8 * 2 ^ 11 + tr.op % 32 * 2 ^ 14) ∧
      y.taddr = tr.addr ∧ y.tpc = (s.slot c t).pc ∧ y.tinfo = tr.info ∧ y.savedLevel = (s.slot c t).level ∧ y.level = 3 ∧ y.hnd = true ∧
      y.pc = (s.slot c t).tvec &&& ~~~(3 : Word) ∧ y.g = (s.slot c t).g ∧ y.v = (s.slot c t).v ∧ y.acc = (s.slot c t).acc ∧
      ((s.slot c t).pend = 0 → y.park = none ∧ y.unsync = 0) ∧ ((s.slot c t).pend ≠ 0 → y.park.map (·.kind) = some .marker)

/-- R354 and R357: what an undelivered trap leaves. That memory stays as it is, the fault area being written when the job ends, is log entry 13 (DESIGN CHOICE). -/
def Obligations.UndeliveredTrapStopsTheJob : Prop :=
  ∀ (s : State) (c t : Nat) (tr : Trap), t ≠ 11 → (s.slot c t).calls = [] → tr.code ≠ 0x17 → tr.map = none →
    ((s.slot c t).tvec.getLsbD 0 = false ∨ (s.slot c t).hnd = true) → (t ≠ 0 ∨ (s.core c).gang = 0) →
    let u := s.takeTrap c t tr
    (u.slot c t).park.map (·.kind) = some .dead ∧ (u.slot c t).g = (s.slot c t).g ∧ (u.slot c t).pc = (s.slot c t).pc ∧ u.mem = s.mem ∧
    (u.slot c t).tcause = BitVec.ofNat 64 (tr.code.toNat + ofBool tr.defer * 2 ^ 8 + ofBool (s.slot c t).hnd * 2 ^ 10 + tr.page % 8 * 2 ^ 11 + tr.op % 32 * 2 ^ 14) ∧
    (u.slot c t).taddr = tr.addr ∧ (u.slot c t).tpc = (s.slot c t).pc ∧ (u.slot c t).tinfo = tr.info ∧
    (∃ r, u.faults = s.faults ++ [r] ∧ r.job = s.jobOf c ∧ r.words =
      [BitVec.ofNat 64 (tr.code.toNat + ofBool tr.defer * 2 ^ 8 + ofBool (s.slot c t).hnd * 2 ^ 10 + tr.page % 8 * 2 ^ 11 + tr.op % 32 * 2 ^ 14 +
         t * 2 ^ 19 + c * 2 ^ 23), (s.slot c t).pc, tr.addr, tr.info, tr.fpc, (s.core c).sstep, s.rtime, 0]) ∧
    (∀ (j : Nat) (x : Job), (s.core c).job = some j → x ∈ s.jobs → x.id = j → x.phase = .running →
      ∃ x' ∈ u.jobs, x'.id = j ∧ x'.phase = .stopping 6)

/-- R128 and R356. Completes eret. -/
def Obligations.HandlerReturns : Prop :=
  (∀ s : State, mayIssue {} s = true → s.inGang = false → s.me.hnd = true →
    ∃ t, exec .eret s = .next t ∧ t.me.pc = s.me.tpc ∧ t.me.level = s.me.savedLevel ∧ t.me.hnd = false ∧ t.me.tpc = s.me.tpc ∧
      regsKeep s t ∧ t.me.acc = s.me.acc ∧ onlyMe s t) ∧
  (∀ s : State, mayIssue {} s = true → s.me.hnd = false → traps .eret s 0x0F 0 (BitVec.ofNat 64 s.cur.slot))

/-- R125 and R127: TPC of TRAP holds next_pc, TPC of BRK its own address. Completes trap, brk. -/
def Obligations.TrapAndBreakInstructions : Prop :=
  (∀ (s : State) (n : BitVec 5), mayIssue { who := .any } s = true →
    exec (.trap n) s = .next ((s.onMe (fun x => { x with park := none, pc := s.nextPc, icount := x.icount + 1 })).issueTrap 0x18 0 (n.setWidth 64))) ∧
  (∀ s : State, mayIssue { who := .any } s = true → traps .brk s 0x17 0 0)

/-- R360: detection depends only on the program. That SLOT and PRIV come before ORDER is log entry 34 (DEDUCED). -/
def Obligations.UnsynchronisedRegisterTraps : Prop :=
  (∀ (i : Instr) (s : State), i.isStep = false → slotMay i s.cur.slot = true → (privileged i = true → s.me.dom = 0) → s.me.branches = [] →
    (∃ r ∈ (regsOf i).1, s.me.unsync.getLsbD r.toNat = true) →
    ∃ r ∈ (regsOf i).1, s.me.unsync.getLsbD r.toNat = true ∧ traps i s 0x03 0 (BitVec.ofNat 64 (r.toNat + ofBool s.cur.mark * 32))) ∧
  (∀ (i : Instr) (s : State), i.isStep = false → slotMay i s.cur.slot = true → (privileged i = true → s.me.dom = 0) → s.me.branches = [] →
    (∀ r ∈ (regsOf i).1, s.me.unsync.getLsbD r.toNat = false) → s.cur.mark = false → (∃ d ∈ (regsOf i).2, s.me.unsync.getLsbD d.toNat = true) →
    ∃ d ∈ (regsOf i).2, s.me.unsync.getLsbD d.toNat = true ∧ traps i s 0x03 0 (BitVec.ofNat 64 d.toNat))

/-- R257: privileged instructions and registers are legal only in domain 0. That PRIV comes before ORDER, and for a number from 0x0C0 on that names no
register before ILLEGAL 5, is log entry 34 (DEDUCED). -/
def Obligations.PrivilegeIsChecked : Prop :=
  (∀ (s : State) (a b : Reg) (i : Instr), i ∈ [Instr.tlbfill a b, .tlbinv a b, .replay a b, .gtwrite a b, .domsw b] → s.cur.slot ≠ 11 →
    s.me.dom ≠ 0 → s.me.branches = [] → traps i s 0x05 0 0xFFF) ∧
  (∀ (s : State) (d : Reg) (n : BitVec 12), mayIssue { ws := [d], late := false, who := .any } s = true → s.me.branches = [] → 0x0C0 ≤ n.toNat →
    s.me.dom ≠ 0 → traps (.csrr d n) s 0x05 0 (n.setWidth 64)) ∧
  (∀ (s : State) (a c : Reg) (n : BitVec 12) (i : Instr), i ∈ [Instr.csrw n a c, .csrs n a c, .csrc n a c] →
    mayIssue { rs := [a], ws := [c] } s = true → 0x0C0 ≤ n.toNat → s.me.dom ≠ 0 → traps i s 0x05 0 (n.setWidth 64))

/-- The slots that may issue each instruction, and what a site routine may (R289); SLOT of R358. A routine's store outside its reach is in StoresIssue. That SLOT comes before PRIV and ORDER is log entry 34 (DEDUCED); that GANG in slots 1 to 10
takes SLOT is log entry 81 (DESIGN CHOICE). -/
def Obligations.WrongSlotTraps : Prop :=
  (∀ (i : Instr) (s : State), threadsOnly i = true → 11 ≤ s.cur.slot → s.me.branches = [] → traps i s 0x0F 0 (BitVec.ofNat 64 s.cur.slot)) ∧
  (∀ (i : Instr) (s : State) (l : BitVec 2) (b : Reg), i ∈ [Instr.sync l, .gang b] → s.cur.slot ≠ 0 → s.me.branches = [] →
    traps i s 0x0F 0 (BitVec.ofNat 64 s.cur.slot)) ∧
  (∀ s : State, s.cur.slot ≠ 11 → s.me.branches = [] → traps .fret s 0x0F 0 (BitVec.ofNat 64 s.cur.slot)) ∧
  (∀ s : State, s.cur.slot = 11 → s.me.branches = [] → traps .gret s 0x0F 0 11) ∧
  (∀ (s : State) (a b c : Reg) (fin : Bool), s.cur.slot ≠ 12 → s.me.branches = [] → traps (.loopb a b c fin) s 0x0F 0 (BitVec.ofNat 64 s.cur.slot)) ∧
  (∀ (i : Instr) (s : State), i.isStep = false → inRoutine i = false → s.cur.slot = 11 → s.me.branches = [] → traps i s 0x0F 0 11)

/-- R145: accesses are aligned to their size. That ALIGN comes before WINDOW reason 6 at a reserved space, and before SLOT of the sweep thread's store, is
log entry 34 (DEDUCED). -/
def Obligations.MisalignedAccessTraps : Prop :=
  (∀ (i : Instr) (sg : Bool) (n : Nat) (d : Reg) (m : MemOp) (s : State), loadForm i = some (sg, n, d, m) →
    mayIssue { rs := [m.base, m.idx], ws := [d], who := .any } s = true → (memAddr m s.me n).toNat % n ≠ 0 →
    traps i s 0x06 (memAddr m s.me n) (BitVec.ofNat 64 (Nat.log2 n))) ∧
  (∀ (i : Instr) (n : Nat) (d : Reg) (m : MemOp) (s : State), storeForm i = some (n, d, m) →
    mayIssue { rs := [d, m.base, m.idx], who := .any } s = true → (memAddr m s.me n).toNat % n ≠ 0 →
    traps i s 0x06 (memAddr m s.me n) (BitVec.ofNat 64 (Nat.log2 n))) ∧
  (∀ (i : Instr) (o n : Nat) (d : Reg) (m : MemOp) (s : State), atomicForm i = some (o, n, d, m) →
    mayIssue { rs := [d, m.base, m.idx], ws := [d] } s = true → (atomicAddr o m s.me n).toNat % n ≠ 0 →
    traps i s 0x06 (atomicAddr o m s.me n) (BitVec.ofNat 64 (Nat.log2 n)))

/-- R361: the fates of a bad target, a chain that crosses CODELIM among them, and PREFIX and ILLEGAL of R358 and R359. That every member of a gang takes
such a trap with a cause of its own (R357) is log entry 36 (DEDUCED); that a decoder's PREFIX or ILLEGAL is taken whatever the slot and domain, before SLOT,
PRIV and ORDER, is log entry 64 (DESIGN CHOICE). -/
def Obligations.BadFetchTraps : Prop :=
  (∀ s : State, s.issuing = true → (s.inGang = true → s.gangStep = none) → s.me.branches = [] →
    let c := if s.inGang then (s.gangOf s.cur.core).headD s.cur.core else s.cur.core
    let x := s.slot c s.cur.slot
    let outside := x.pc.toNat < x.codebase.toNat ∨ x.codelim.toNat ≤ x.pc.toNat
    let ws := (((List.range 5).map (fun i => x.pc + BitVec.ofNat 64 (2 * i))).takeWhile (fun a => decide (a.toNat < x.codelim.toNat))).map
      (fun a => s.coreHalf c (codeOff a))
    (outside ∨ x.pc.toNat % 2 = 1 ∨
      (bufferFresh s c x.pc ∧ s.poisoned (coreKey c (codeOff x.pc)) (2 * wordsRead ws) = none ∧ decode ws = .error .short)) →
    ∃ tr : Trap, tr.code = 0x04 ∧ tr.defer = false ∧ tr.addr = x.pc ∧ tr.fpc = x.pc ∧
      tr.info = BitVec.ofNat 64 (if outside ∨ x.pc.toNat % 2 = 1 then ofBool (decide outside) + x.pc.toNat % 2 * 2 else 4) ∧
      step s = .next { ({ s with issuing := false, cur := { s.cur with core := c } } : State).takeTrap c s.cur.slot tr with cur := s.cur }) ∧
  (∀ (s : State) (r p o : Nat), s.issuing = true → (s.inGang = true → s.gangStep = none) → s.me.branches = [] →
    let c := if s.inGang then (s.gangOf s.cur.core).headD s.cur.core else s.cur.core
    let x := s.slot c s.cur.slot
    let ws := (((List.range 5).map (fun i => x.pc + BitVec.ofNat 64 (2 * i))).takeWhile (fun a => decide (a.toNat < x.codelim.toNat))).map
      (fun a => s.coreHalf c (codeOff a))
    bufferFresh s c x.pc → x.codebase.toNat ≤ x.pc.toNat → x.pc.toNat < x.codelim.toNat → x.pc.toNat % 2 = 0 →
    s.poisoned (coreKey c (codeOff x.pc)) (2 * wordsRead ws) = none → decode ws = .error (.illegal r p o) →
    ∃ tr : Trap, tr.code = 0x01 ∧ tr.defer = false ∧ tr.info = BitVec.ofNat 64 r ∧ tr.page = p ∧ tr.op = o ∧ tr.fpc = x.pc ∧
      (s.inGang = false → step s = .next (({ s with issuing := false } : State).takeTrap s.cur.core s.cur.slot tr)) ∧
      (s.inGang = true → (s.core c).gang = s.mine.gang → s.gangOf c = s.gangOf s.cur.core →
        step s = .next { ({ s with issuing := false, cur := { s.cur with core := c } } : State).takeGang ((s.gangOf s.cur.core).map (fun d => (d, tr))) with cur := s.cur })) ∧
  (∀ (s : State) (r p : Nat), s.issuing = true → (s.inGang = true → s.gangStep = none) → s.me.branches = [] →
    let c := if s.inGang then (s.gangOf s.cur.core).headD s.cur.core else s.cur.core
    let x := s.slot c s.cur.slot
    let ws := (((List.range 5).map (fun i => x.pc + BitVec.ofNat 64 (2 * i))).takeWhile (fun a => decide (a.toNat < x.codelim.toNat))).map
      (fun a => s.coreHalf c (codeOff a))
    bufferFresh s c x.pc → x.codebase.toNat ≤ x.pc.toNat → x.pc.toNat < x.codelim.toNat → x.pc.toNat % 2 = 0 →
    s.poisoned (coreKey c (codeOff x.pc)) (2 * wordsRead ws) = none → decode ws = .error (.chain r p) →
    ∃ tr : Trap, tr.code = 0x02 ∧ tr.defer = false ∧ tr.info = BitVec.ofNat 64 (r + p * 16) ∧ tr.addr = 0 ∧ tr.fpc = x.pc ∧
      (s.inGang = false → step s = .next (({ s with issuing := false } : State).takeTrap s.cur.core s.cur.slot tr)) ∧
      (s.inGang = true → (s.core c).gang = s.mine.gang → s.gangOf c = s.gangOf s.cur.core →
        step s = .next { ({ s with issuing := false, cur := { s.cur with core := c } } : State).takeGang ((s.gangOf s.cur.core).map (fun d => (d, tr))) with cur := s.cur }))

/-- R112 to R118: the results of page 0, as completion statements with their frame. Completes mov, add, sub, and, or, xor, shl, shr, sar, mul, mulhs, mulhn, divs, divn, rems, remn, slt, sltn, addi, li, mix32, clz, popc. -/
def Obligations.RegisterResults : Prop :=
  ∀ (i : Instr) (d : Reg) (rs : List Reg) (f : Slot → Word) (s : State), regForm i = some (d, rs, f) →
    mayIssue { rs := rs, ws := [d], late := false, who := .any } s = true →
    ∃ t, exec i s = .next t ∧ wroteReg s t d (f s.me)

/-- R123, R126 and R163. Completes nop, pref, yield, pause. -/
def Obligations.PlainIssue : Prop :=
  (∀ s : State, mayIssue { late := false, who := .any } s = true →
    ∃ t, exec .nop s = .next t ∧ leftAs s t s.nextPc ∧ regsKeep s t ∧ onlyMe s t ∧ onlyRegs s t) ∧
  (∀ (s : State) (b x : Reg) (off : Word), mayIssue { rs := [b, x], who := .any } s = true →
    ∃ t, exec (.pref b x off) s = .next t ∧ leftAs s t s.nextPc ∧ regsKeep s t ∧ onlyMe s t ∧ onlyRegs s t) ∧
  (∀ s : State, mayIssue { late := false, who := .any } s = true →
    ∃ t, exec .yield s = .next t ∧ leftAs s t s.nextPc ∧ regsKeep s t ∧ onlyMe s t ∧ t.me.yielded = true ∧
      t.me.eff = s.me.eff ∧ t.me.age = s.me.age ∧ t.me.boost = s.me.boost) ∧
  (∀ (s : State) (b : Reg), mayIssue { rs := [b], who := .any } s = true →
    ∃ t, exec (.pause b) s = .next t ∧ leftAs s t s.nextPc ∧ regsKeep s t ∧ onlyMe s t ∧
      t.me.pauseLeft = if (s.me.rd b).toNat % 2 ^ 32 = 0 then s.me.pauseLeft else (s.me.rd b).toNat % 2 ^ 32)

/-- R119: conditional branches. That a branch without a prediction resolves at issue is the model's choice (log entry 5). Completes bz, bnz, bltz, bgez. -/
def Obligations.ConditionalBranches : Prop :=
  ∀ (i : Instr) (a : Reg) (off : Word) (test : Word → Bool) (s : State), branchForm i = some (a, off, test) →
    mayIssue { rs := [a], late := false, who := .any } s = true → resolvesNow s = true →
    ∃ t, exec i s = .next t ∧ leftAs s t (if test (s.lead.rd a) then s.nextPc + off + off else s.nextPc) ∧ regsKeep s t ∧ onlyMe s t ∧ onlyRegs s t

/-- R120 and R121. That JR without a prediction, in a gang or marked, resolves at issue is the model's choice (log entry 5). Completes j, jal, jr, jalr. -/
def Obligations.JumpsAndLinks : Prop :=
  (∀ (s : State) (off : Word), mayIssue { late := false, who := .any } s = true →
    ∃ t, exec (.j off) s = .next t ∧ leftAs s t (s.nextPc + off + off) ∧ regsKeep s t ∧ onlyMe s t ∧ onlyRegs s t) ∧
  (∀ (s : State) (off : Word), mayIssue { ws := [31], late := false, who := .any } s = true →
    ∃ t, exec (.jal off) s = .next t ∧ leftAs s t (s.nextPc + off + off) ∧ t.me.rd 31 = s.nextPc ∧ othersKeep s t 31 ∧ t.me.v = s.me.v ∧ onlyMe s t ∧
      onlyRegs s t) ∧
  (∀ (s : State) (a : Reg), mayIssue { rs := [a], late := false, who := .any } s = true → resolvesNow s = true →
    ∃ t, exec (.jr a) s = .next t ∧ leftAs s t (s.lead.rd a) ∧ regsKeep s t ∧ onlyMe s t ∧ onlyRegs s t) ∧
  (∀ (s : State) (a : Reg), mayIssue { rs := [a], ws := [31], late := false, who := .any } s = true →
    ∃ t, exec (.jalr a) s = .next t ∧ leftAs s t (s.lead.rd a) ∧ t.me.rd 31 = s.nextPc ∧ othersKeep s t 31 ∧ t.me.v = s.me.v ∧ onlyMe s t ∧ onlyRegs s t)

/-- R39 and R40: a discarded instruction has no visible effect. Completes branchResolve. -/
def Obligations.MispredictionIsUndone : Prop :=
  (∀ (i : Instr) (a : Reg) (off : Word) (test : Word → Bool) (s : State) (p : Word) (ps : List Word), branchForm i = some (a, off, test) →
    mayIssue { rs := [a], late := false, who := .any } s = true → s.predictions = p :: ps → s.inGang = false → s.cur.mark = false →
    ∃ t b, exec i s = .next t ∧ t.predictions = ps ∧ t.me.branches = s.me.branches ++ [b] ∧ t.me.pc = b.guess ∧ t.me.g = s.me.g ∧
      b.actual = (if test (s.me.rd a) then s.nextPc + off + off else s.nextPc) ∧ (b.guess = s.nextPc ∨ b.guess = s.nextPc + off + off) ∧
      b.g = s.me.g ∧ b.pend = s.me.pend ∧ b.more = s.me.more ∧ b.unsync = s.me.unsync ∧ b.issued = s.me.issued ∧ t.mem = s.mem) ∧
  (∀ (s : State) (a : Reg) (p : Word) (ps : List Word), mayIssue { rs := [a], late := false, who := .any } s = true → s.predictions = p :: ps →
    s.inGang = false → s.cur.mark = false →
    ∃ t b, exec (.jr a) s = .next t ∧ t.predictions = ps ∧ t.me.branches = s.me.branches ++ [b] ∧ t.me.pc = b.guess ∧ t.me.g = s.me.g ∧
      b.actual = s.me.rd a ∧ b.guess = p ∧
      b.g = s.me.g ∧ b.pend = s.me.pend ∧ b.more = s.me.more ∧ b.unsync = s.me.unsync ∧ b.issued = s.me.issued ∧ t.mem = s.mem) ∧
  (∀ (s : State) (c t : Nat) (b : Checkpoint) (r : List Checkpoint), (s.slot c t).branches = b :: r → b.guess ≠ b.actual →
    ∃ u, exec (.branchResolve c t) s = .next u ∧ (u.slot c t).g = b.g ∧ (u.slot c t).pend = b.pend ∧ (u.slot c t).more = b.more ∧ (u.slot c t).unsync = b.unsync ∧
      (u.slot c t).issued = b.issued ∧ (u.slot c t).pc = b.actual ∧ (u.slot c t).branches = [] ∧ (u.slot c t).park = none ∧
      (u.slot c t).v = (s.slot c t).v ∧
      (∀ e, tget (u.core c).queue e [] = (tget (s.core c).queue e []).filter (fun m => m.slot != t || m.depth == 0)) ∧
      (∀ q, q ≠ t → u.slot c q = s.slot c q) ∧ (∀ d, d ≠ c → u.core d = s.core d)) ∧
  (∀ (s : State) (c t : Nat) (b : Checkpoint) (r : List Checkpoint), (s.slot c t).branches = b :: r → b.guess = b.actual →
    ∃ u, exec (.branchResolve c t) s = .next u ∧ (u.slot c t).g = (s.slot c t).g ∧ (u.slot c t).pc = (s.slot c t).pc ∧
      (u.slot c t).issued = (s.slot c t).issued ∧ (u.slot c t).branches = r ∧ (∀ d, d ≠ c → u.core d = s.core d))

/-- R27, R29, R124 and R137. Completes stop, helperSlotFree. -/
def Obligations.StopAndHelperEnd : Prop :=
  (∀ s : State, mayIssue { who := .threads } s = true →
    ∃ t, exec .stop s = .next t ∧ t.me.mode = (if s.cur.slot = 0 then s.me.mode else .draining) ∧
      t.me.park.map (·.kind) = (if s.cur.slot = 0 then some .ended else none) ∧
      t.me.pc = s.me.pc ∧ t.me.icount = s.me.icount + 1 ∧ regsKeep s t ∧ t.me.acc = s.me.acc ∧ t.mine.queue = s.mine.queue ∧
      (s.cur.slot = 0 → s.lastOfGang = true → (∀ d ∈ s.gangOf s.cur.core, (t.core d).gang = 0) ∧ (∀ d ∉ s.gangOf s.cur.core, d ≠ s.cur.core → t.core d = s.core d) ∧
        t = { s with cores := t.cores }) ∧
      (s.cur.slot ≠ 0 ∨ s.mine.gang = 0 ∨ s.lastOfGang = false → onlyMine s t ∧ t.mine.gang = s.mine.gang)) ∧
  (∀ (s : State) (c t : Nat), 1 ≤ t → t ≤ 10 → (s.slot c t).mode = .draining → (s.slot c t).pend = 0 →
    (∀ e, e < 4 → ∀ m ∈ (s.core c).cmds e, m.slot ≠ t) →
    ∃ u, exec (.helperSlotFree c t) s = .next u ∧ (u.slot c t).mode = .free ∧ (u.slot c t).issued = (s.slot c t).issued ∧
      (u.slot c t).counter = (s.slot c t).counter ∧ (u.slot c t).spill = [] ∧ (∀ r, (u.slot c t).rd r = 0) ∧
      (u.core c).hdone = (s.core c).hdone ||| ((1 : BitVec 10) <<< (t - 1)) ∧ (u.slot c t).acc = [] ∧
      (u.slot c (departed t)).acc = (s.slot c (departed t)).acc ++ (s.slot c t).acc ∧
      (∀ q, q ≠ t → q ≠ departed t → u.slot c q = s.slot c q) ∧ (∀ d, d ≠ c → u.core d = s.core d))

/-- R131 to R138: the control registers and what reading each one gives. The numbers of FMTA to AMAXP and CPYW to CPYMASK among them are log entry 60
(DEDUCED). Completes csrr. -/
def Obligations.ControlRegisterReads : Prop :=
  (∀ (s : State) (d : Reg) (n : BitVec 12) (v : Word), csrValue s n.toNat = some v → n.toNat < 0x0C0 ∨ s.me.dom = 0 →
    mayIssue { ws := [d], late := false, who := .any } s = true →
    ∃ t, exec (.csrr d n) s = .next t ∧ wroteReg s t d v) ∧
  (∀ (s : State) (d : Reg) (n : BitVec 12), csrValue s n.toNat = none → n.toNat < 0x0C0 ∨ s.me.dom = 0 → s.me.branches = [] →
    mayIssue { ws := [d], late := false, who := .any } s = true → traps (.csrr d n) s 0x01 0 5)

/-- R131: the read and the write of a control register are one; a number that names none is ILLEGAL 5 (R132, R358). The numbers
of the matrix and copy registers are log entry 60 (DEDUCED). Completes csrw, csrs, csrc. -/
def Obligations.ControlRegisterWrites : Prop :=
  (∀ (i : Instr) (n : BitVec 12) (a c : Reg) (f : Word → Word → Word) (m old : Word) (s : State), csrForm i = some (n, a, c, f) → (n.toNat, m) ∈ csrWritable →
    mayIssue { rs := [a], ws := [c] } s = true → n.toNat < 0x0C0 ∨ s.me.dom = 0 → csrValue s n.toNat = some old →
    ∃ t, exec i s = .next t ∧
      csrValue t n.toNat = some ((f old (s.me.rd a) &&& m) ||| (if n = 0x080 then old &&& ~~~m else 0)) ∧
      t.me.rd c = written c old ∧ othersKeep s t c ∧ t.me.v = s.me.v ∧ t.mem = s.mem ∧ leftAs s t s.nextPc ∧
      (∀ k, k ≠ s.cur.core → t.core k = s.core k) ∧ t.remapix = s.remapix ∧ t.remap = s.remap) ∧
  (∀ (i : Instr) (n : BitVec 12) (a c : Reg) (f : Word → Word → Word) (old : Word) (s : State), csrForm i = some (n, a, c, f) →
    n ∈ ([0x000, 0x001, 0x002, 0x003, 0x004, 0x005, 0x006, 0x007, 0x008, 0x009, 0x00A, 0x011, 0x012, 0x013, 0x014, 0x022, 0x024, 0x030, 0x031, 0x032,
      0x033, 0x034, 0x050, 0x051] : List (BitVec 12)) →
    mayIssue { rs := [a], ws := [c] } s = true → csrValue s n.toNat = some old → traps i s 0x01 0 5) ∧
  (∀ (i : Instr) (n : BitVec 12) (a c : Reg) (f : Word → Word → Word) (s : State), csrForm i = some (n, a, c, f) → csrValue s n.toNat = none →
    n.toNat < 0x0C0 ∨ s.me.dom = 0 → mayIssue { rs := [a], ws := [c] } s = true → traps i s 0x01 0 5) ∧
  (∀ (i : Instr) (a c : Reg) (f : Word → Word → Word) (s : State), csrForm i = some (0x052, a, c, f) → mayIssue { rs := [a], ws := [c] } s = true →
    ((f s.mine.xarea (s.me.rd a)).toNat / 2 ^ 32 % 2 ^ 20 % 64 ≠ 0 ∨
      (f s.mine.xarea (s.me.rd a)).toNat / 2 ^ 6 % 2 ^ 13 * 64 + (f s.mine.xarea (s.me.rd a)).toNat / 2 ^ 32 % 2 ^ 20 > 0x80000) → traps i s 0x01 0 3) ∧
  (∀ (i : Instr) (a c : Reg) (f : Word → Word → Word) (s : State), csrForm i = some (0x052, a, c, f) → mayIssue { rs := [a], ws := [c] } s = true →
    (f s.mine.xarea (s.me.rd a)).toNat / 2 ^ 32 % 2 ^ 20 % 64 = 0 →
    (f s.mine.xarea (s.me.rd a)).toNat / 2 ^ 6 % 2 ^ 13 * 64 + (f s.mine.xarea (s.me.rd a)).toNat / 2 ^ 32 % 2 ^ 20 ≤ 0x80000 →
    ∃ t, exec i s = .next t ∧ t.mine.xarea = f s.mine.xarea (s.me.rd a) &&& 0x000FFFFF0007FFC0 ∧ t.me.rd c = written c s.mine.xarea ∧ othersKeep s t c ∧
      t.mem = s.mem ∧ t.mine.xareaNow = s.mine.xareaNow ∧ leftAs s t s.nextPc) ∧
  (∀ (i : Instr) (n : BitVec 12) (a c : Reg) (f : Word → Word → Word) (s : State), csrForm i = some (n, a, c, f) → n = 0x0D0 ∨ n = 0x0D1 →
    mayIssue { rs := [a], ws := [c] } s = true → s.me.dom = 0 →
    ∃ t, exec i s = .next t ∧ t.me.rd c = written c (if n = 0x0D0 then s.remapix else tget s.remap s.remapix.toNat 0) ∧ othersKeep s t c ∧
      (n = 0x0D0 → t.remapix = f s.remapix (s.me.rd a) &&& 0x7FF ∧ t.remap = s.remap) ∧
      (n = 0x0D1 → tget t.remap s.remapix.toNat 0 = f (tget s.remap s.remapix.toNat 0) (s.me.rd a) &&& 0x1FFFFFF ∧ t.remapix = s.remapix))

/-- R45, R46 and R265. That a word which SPILL would write into core memory at a place that the slot's domain may not write, or in a running field's ranges,
is dropped is log entry 74 (DESIGN CHOICE), and that of SPILLBASE the low 19 bits count is log entry 87 (DESIGN CHOICE). Completes spill, fill. -/
def Obligations.SpillAndFill : Prop :=
  (∀ (s : State) (n : BitVec 8) (b : Reg), mayIssue { rs := [b], who := .any } s = true → s.me.calls = [] → memInv s →
    ∃ t e, exec (.spill n b) s = .next t ∧ t.me.spill.find? (fun q => q.1 == n.toNat) = some (n.toNat, e) ∧ e.val = s.me.rd b ∧
      (∀ q, s.me.spill.find? (fun q => q.1 == n.toNat) = some q → e.place = q.2.place) ∧
      (s.me.spill.find? (fun q => q.1 == n.toNat) = none → match e.place with
        | .tile u col row => u < 16 ∧ col < 32 ∧ row < 16 ∧ (tget s.mine.tiles u Tile.reset).alloc = false ∧ e.place ∉ s.mine.spilled
        | .bank u x => u ≤ 10 ∧ x < 31 ∧ (s.mine.slot u).mode = .free ∧ e.place ∉ s.mine.spilled ∧
            (∀ v w y, v < 16 → w < 32 → y < 16 → (tget s.mine.tiles v Tile.reset).alloc = false → SpillPlace.tile v w y ∈ s.mine.spilled)
        | .memory => (∀ v w y, v < 16 → w < 32 → y < 16 → (tget s.mine.tiles v Tile.reset).alloc = false → SpillPlace.tile v w y ∈ s.mine.spilled) ∧
            (∀ v x, v ≤ 10 → x < 31 → (s.mine.slot v).mode = .free → SpillPlace.bank v x ∈ s.mine.spilled)) ∧
      (∀ m, m ≠ n.toNat → t.filled s.cur.core s.cur.slot m = s.filled s.cur.core s.cur.slot m) ∧
      t.filled s.cur.core s.cur.slot n.toNat = s.me.rd b ∧ regsKeep s t ∧ leftAs s t s.nextPc ∧
      (∀ k, (e.place ≠ .memory ∨ k < coreKey s.cur.core (s.spillOff s.cur.core s.cur.slot n.toNat) ∨
          coreKey s.cur.core (s.spillOff s.cur.core s.cur.slot n.toNat) + 8 ≤ k) → Memory.read t.mem k = Memory.read s.mem k) ∧
      (e.place = .memory → s.foreign s.cur.core s.me.dom (s.spillOff s.cur.core s.cur.slot n.toNat) 8 = false →
        s.fieldGuard s.cur.core (s.spillOff s.cur.core s.cur.slot n.toNat) 8 = false →
        t.coreWord s.cur.core (s.spillOff s.cur.core s.cur.slot n.toNat) = s.me.rd b) ∧
      (e.place = .memory → s.foreign s.cur.core s.me.dom (s.spillOff s.cur.core s.cur.slot n.toNat) 8 = true ∨
        s.fieldGuard s.cur.core (s.spillOff s.cur.core s.cur.slot n.toNat) 8 = true → t.mem = s.mem)) ∧
  (∀ (s : State) (n : BitVec 8) (b : Reg) (k : Call) (r : List Call), mayIssue { rs := [b], who := .any } s = true → s.me.calls = k :: r → memInv s →
    (n.toNat < 32 → ∃ t, exec (.spill n b) s = .next t ∧ t.filled s.cur.core s.cur.slot n.toNat = s.me.rd b ∧ t.me.spill = s.me.spill ∧
      t.coreWord s.cur.core (frameSpill (frameOff s.cur.slot r.length) n.toNat) = s.me.rd b ∧
      (∀ j, (j < coreKey s.cur.core (frameSpill (frameOff s.cur.slot r.length) n.toNat) ∨
          coreKey s.cur.core (frameSpill (frameOff s.cur.slot r.length) n.toNat) + 8 ≤ j) → Memory.read t.mem j = Memory.read s.mem j) ∧
      regsKeep s t ∧ leftAs s t s.nextPc ∧ (∀ d, d ≠ s.cur.core → t.core d = s.core d)) ∧
    (32 ≤ n.toNat → traps (.spill n b) s 0x01 0 3)) ∧
  (∀ (s : State) (d : Reg) (n : BitVec 8), mayIssue { ws := [d], var := true, late := false, who := .any } s = true →
    ((n.toNat < 32 ∨ s.me.calls = []) → ∃ t, exec (.fill d n) s = .next t ∧ sentResult s t d (s.filled s.cur.core s.cur.slot n.toNat) ∧ onlyMe s t) ∧
    (32 ≤ n.toNat → s.me.calls ≠ [] → s.me.branches = [] → traps (.fill d n) s 0x01 0 3))

/-- R144, R147 and R150: the issue of a load, or WINDOW reason 6 at issue in a reserved space (R367, R369). Completes ld8s, ld8n, ld16s, ld16n, ld32s, ld32n, ld64. -/
def Obligations.LoadsIssue : Prop :=
  ∀ (i : Instr) (sg : Bool) (n : Nat) (d : Reg) (m : MemOp) (s : State), loadForm i = some (sg, n, d, m) →
    mayIssue { rs := [m.base, m.idx], ws := [d], var := true, who := .any } s = true → (memAddr m s.me n).toNat % n = 0 →
    (spaceOf (memAddr m s.me n) ≠ .reserved → s.memHeld s.me = false →
      ∃ t r, exec i s = .next t ∧ beganAccess s t r (.load sg) (memAddr m s.me n) n m.x m.scope m.order ∧ r.dest = d ∧
        t.me.pend = setBit s.me.pend d ∧
        (∀ p, s.tlbPlace s.cur.core s.me.asid (memAddr m s.me n) = some p → p.lacks 0 = false → leftPending s t s.nextPc d)) ∧
    (spaceOf (memAddr m s.me n) = .reserved → traps i s 0x07 (memAddr m s.me n) (memInfo 6 0 5 s.me.asid 0 false))

/-- R144 and R150: the issue of a store, or WINDOW reason 6 at issue in a reserved space (R367, R369); a sweep thread's store outside the self window or in a
field's ranges takes SLOT (R289, R398), before WINDOW of R367 and R369 at a reserved space: log entry 34 (DEDUCED). Completes st8, st16, st32, st64. -/
def Obligations.StoresIssue : Prop :=
  ∀ (i : Instr) (n : Nat) (d : Reg) (m : MemOp) (s : State), storeForm i = some (n, d, m) →
    mayIssue { rs := [d, m.base, m.idx], who := .any } s = true → (memAddr m s.me n).toNat % n = 0 →
    let a := memAddr m s.me n
    let free := ∃ off, spaceOf a = .self off ∧ ∀ p ∈ s.mine.fields, ∀ q ∈ fRanges p.2.desc, meets off n q.1 q.2 = false
    (spaceOf a ≠ .reserved → s.memHeld s.me = false → (s.cur.slot = 11 → free) →
      ∃ t r, exec i s = .next t ∧ beganAccess s t r .store a n m.x m.scope m.order ∧ r.data = (s.me.rd d).toNat % 2 ^ (8 * n) ∧
        t.me.pend = s.me.pend ∧
        (∀ p, s.tlbPlace s.cur.core s.me.asid a = some p → p.lacks 1 = false → leftAs s t s.nextPc)) ∧
    (spaceOf a = .reserved → s.cur.slot ≠ 11 → traps i s 0x07 a (memInfo 6 1 5 s.me.asid 0 false)) ∧
    (s.cur.slot = 11 → ¬free → traps i s 0x0F a 11)

/-- R154, R155 and R161: the issue of an atomic, or WINDOW reason 6 at issue in a reserved space (R367, R369). Completes aadd, aand, aor, axor, amins, amaxs, aminn, amaxn, aswp, acas, afadd, afmaxa, vamo. -/
def Obligations.AtomicsIssue : Prop :=
  (∀ (i : Instr) (o n : Nat) (d : Reg) (m : MemOp) (s : State), atomicForm i = some (o, n, d, m) →
    mayIssue { rs := [d, m.base, m.idx], ws := [d], var := true } s = true → (atomicAddr o m s.me n).toNat % n = 0 →
    (spaceOf (atomicAddr o m s.me n) ≠ .reserved → s.memHeld s.me = false →
      ∃ t r, exec i s = .next t ∧ beganAccess s t r (.atomic o) (atomicAddr o m s.me n) n m.x m.scope m.order ∧ r.dest = d ∧
        r.data = (s.me.rd d).toNat % 2 ^ (8 * n) ∧ r.exp.toNat = (if o = 20 then (s.me.rd m.idx).toNat % 2 ^ (8 * n) else 0) ∧
        t.me.pend = setBit s.me.pend d) ∧
    (spaceOf (atomicAddr o m s.me n) = .reserved → traps i s 0x07 (atomicAddr o m s.me n) (memInfo 6 2 5 s.me.asid 0 false))) ∧
  (∀ (s : State) (v : VReg) (m : MemOp) (op : BitVec 3), mayIssue { rs := [m.base, m.idx] } s = true → (memAddr m s.me 64).toNat % 64 = 0 →
    (spaceOf (memAddr m s.me 64) ≠ .reserved → s.memHeld s.me = false → s.mine.vecBusy s.cur.slot v = false →
      ∃ t r, exec (.vamo v m op) s = .next t ∧ beganAccess s t r (.vamo op) (memAddr m s.me 64) 64 m.x m.scope m.order ∧
        r.data = (s.me.vrd v).toNat ∧ t.me.pend = s.me.pend) ∧
    (spaceOf (memAddr m s.me 64) = .reserved → traps (.vamo v m op) s 0x07 (memAddr m s.me 64) (memInfo 6 3 5 s.me.asid 0 false)))

/-- R251 to R254. Completes stbind, stdrop, stx, stget. -/
def Obligations.StagedInstructionsIssue : Prop :=
  (∀ (s : State) (a b : Reg), mayIssue { rs := [a, b] } s = true → s.memHeld s.me = false →
    ∃ t r, exec (.stbind a b) s = .next t ∧ beganAccess s t r .stbind (s.me.rd a) 1 0 0 0 ∧ r.data = (s.me.rd b).toNat ∧ t.me.pend = s.me.pend) ∧
  (∀ (s : State) (a : Reg), mayIssue { rs := [a] } s = true → s.memHeld s.me = false →
    ∃ t r, exec (.stdrop a) s = .next t ∧ beganAccess s t r .stdrop (s.me.rd a) 1 0 0 1 ∧ t.me.pend = s.me.pend) ∧
  (∀ (s : State) (x : BitVec 4) (a b : Reg) (c : Option Reg), mayIssue { rs := [a, b] ++ c.toList } s = true → s.memHeld s.me = false →
    ∃ t r, exec (.stx x a b c) s = .next t ∧ beganAccess s t r (.stx (c.map (fun q => (s.me.rd q).toNat % 2048))) (s.me.rd a) 1 x 0 0 ∧
      r.data = (s.me.rd b).toNat ∧ t.me.pend = s.me.pend) ∧
  (∀ (s : State) (d b : Reg) (tag : Bool), mayIssue { rs := [b], ws := [d], var := true } s = true → s.me.fenced = false → s.startHeld s.me = false →
    ∃ t r, exec (.stget d b tag) s = .next t ∧ beganAccess s t r (.stget tag) (s.me.rd b) 1 0 0 0 ∧ r.dest = d ∧ t.me.pend = setBit s.me.pend d)

/-- R150: MEM[a, size] := gA, and R212's landing rule. Completes storePerform, remoteWriteLand. -/
def Obligations.StoresPerform : Prop :=
  (∀ (s : State) (c t id : Nat) (before : List Access) (a : Access) (p : Place), (s.slot c t).splitAcc id = (before, some a) → a.kind = .store →
    a.place = some p → a.x = 0 → s.objOf p = none → (∀ d o, spaceOf a.va ≠ .window d o) → s.mayPerform before a = true →
    s.deny (a.agent c t) a.va a.size p 1 .plain = none → s.capDeny c a.va p 1 = none → memInv s →
    ∃ u, exec (.storePerform c t id) s = .next u ∧ performedStore s u c t a p) ∧
  (∀ (s : State) (c t id d o : Nat) (before : List Access) (a : Access) (p : Place), t ≠ 15 → t < 128 → (s.slot c t).splitAcc id = (before, some a) →
    a.kind = .store → a.place = some p → a.x = 0 → s.objOf p = none → spaceOf a.va = .window d o → d ≠ c → s.mayPerform before a = true →
    s.targetPaused c a.va = false → s.deny (a.agent c t) a.va a.size p 1 .plain = none → memInv s →
    ∃ u, exec (.remoteWriteLand c t id) s = .next u ∧ performedStore s u c t a p ∧
      (∀ w, w < 4 → (∀ i, i < a.size → (s.core d).windowAt true (o + i) = some w) →
        (tget (u.core d).windows w Window.reset).cnt = (tget (s.core d).windows w Window.reset).cnt + BitVec.ofNat 64 a.size))

/-- R36, R37 and R150: what a load gives; that a register for which more values are on their way stays pending, and takes
each as it returns, is log entry 88 (DEDUCED, DESIGN CHOICE). Completes variableLatencyResult, coreWindowRead. -/
def Obligations.LoadedValuesReturn : Prop :=
  (∀ (s : State) (c t : Nat) (r : Reg) (l1 l2 : List Result) (q : Result), r ≠ 0 → (s.slot c t).results = l1 ++ q :: l2 → q.reg = r → (∀ x ∈ l1, x.reg ≠ r) →
    ∃ u, exec (.variableLatencyResult c t r) s = .next u ∧ (u.slot c t).rd r = q.val ∧ (∀ x, x ≠ r → (u.slot c t).rd x = (s.slot c t).rd x) ∧
      (r ∉ (s.slot c t).more → (u.slot c t).pend = clearBit (s.slot c t).pend r) ∧ (r ∈ (s.slot c t).more → (u.slot c t).pend = (s.slot c t).pend) ∧
      (u.slot c t).more = (s.slot c t).more.erase r ∧ (u.slot c t).unsync = (s.slot c t).unsync ∧ (u.slot c t).results = l1 ++ l2 ∧
      u = s.setSlot c t (u.slot c t)) ∧
  (∀ (s : State) (c t : Nat) (r : Reg) (sg : Bool) (a : Access) (p : Place), r ≠ 0 → (∀ x ∈ (s.slot c t).results, x.reg ≠ r) →
    s.readyLoad (s.slot c t) r = some (a, p) → a.kind = .load sg → s.deny (a.agent c t) a.va a.size p 0 .plain = none →
    ∃ u, exec (.variableLatencyResult c t r) s = .next u ∧
      (u.slot c t).rd r = (if sg then (BitVec.ofNat (8 * a.size) (ofBytes (s.readAt p a.size))).signExtend 64 else BitVec.ofNat 64 (ofBytes (s.readAt p a.size))) ∧
      (∀ x, x ≠ r → (u.slot c t).rd x = (s.slot c t).rd x) ∧ (r ∉ (s.slot c t).more → (u.slot c t).pend = clearBit (s.slot c t).pend r) ∧
      (r ∈ (s.slot c t).more → (u.slot c t).pend = (s.slot c t).pend) ∧ (u.slot c t).more = (s.slot c t).more.erase r ∧
      (u.slot c t).acc = (s.slot c t).acc.filter (fun b => b.id != a.id) ∧ u.mem = s.mem) ∧
  (∀ (s : State) (c t id d o : Nat) (sg : Bool) (before : List Access) (a : Access) (p : Place), (s.slot c t).splitAcc id = (before, some a) →
    a.kind = .load sg → a.dest ≠ 0 → a.place = some p → a.x = 0 → s.objOf p = none → spaceOf a.va = .window d o → s.mayPerform before a = true →
    s.targetPaused c a.va = false → s.deny (a.agent c t) a.va a.size p 0 .plain = none →
    ∃ u q, exec (.coreWindowRead c t id) s = .next u ∧ (u.slot c t).results = (s.slot c t).results ++ [q] ∧ q.reg = a.dest ∧
      q.val = (if sg then (BitVec.ofNat (8 * a.size) (ofBytes (s.readAt p a.size))).signExtend 64 else BitVec.ofNat 64 (ofBytes (s.readAt p a.size))) ∧
      (u.slot c t).acc = (s.slot c t).acc.filter (fun b => b.id != a.id) ∧ u.mem = s.mem)

/-- R154, R155 and R157. Completes atomicExecute, vamoExecute. -/
def Obligations.AtomicsExecute : Prop :=
  (∀ (s : State) (c t id op : Nat) (before : List Access) (a : Access) (p : Place), (s.slot c t).splitAcc id = (before, some a) → a.kind = .atomic op →
    a.place = some p → a.x = 0 → s.objOf p = none → s.mayPerform before a = true → a.dest ≠ 0 → s.inClusterUnit a p = false →
    (∀ d o, spaceOf a.va ≠ .window d o) → s.deny (a.agent c t) a.va a.size p 2 (a.kind.shape a.span) = none → s.capDeny c a.va p 2 = none → memInv s →
    ∃ u q, exec (.atomicExecute c t id) s = .next u ∧
      Memory.readN u.mem p.key a.size = atomicFn op (8 * a.size) (ofBytes (s.readAt p a.size)) a.data a.exp.toNat % 2 ^ (8 * a.size) ∧
      (∀ k, (k < p.key ∨ p.key + a.size ≤ k) → Memory.read u.mem k = Memory.read s.mem k) ∧
      (u.slot c t).results = (s.slot c t).results ++ [q] ∧ q.reg = a.dest ∧ q.val = BitVec.ofNat 64 (ofBytes (s.readAt p a.size)) ∧
      (u.slot c t).acc = (s.slot c t).acc.filter (fun b => b.id != a.id) ∧ (u.slot c t).g = (s.slot c t).g) ∧
  (∀ (s : State) (c t id op : Nat) (before : List Access) (a : Access) (p : Place), (s.slot c t).splitAcc id = (before, some a) → a.kind = .atomic op →
    a.place = some p → a.x = 0 → s.mayPerform before a = true → a.dest ≠ 0 → s.inClusterUnit a p = true →
    s.deny (a.agent c t) a.va a.size p 2 (a.kind.shape a.span) = none → s.capDeny c a.va p 2 = none → memInv s →
    (a.mid = none → s.unitBusy c a p = false →
      ∃ u, exec (.atomicExecute c t id) s = .next u ∧ u.mem = s.mem ∧ (u.slot c t).g = (s.slot c t).g ∧ (u.slot c t).results = (s.slot c t).results ∧
        ∃ b, (u.slot c t).splitAcc id = (before, some b) ∧ b = { a with mid := some (ofBytes (s.readAt p a.size)) }) ∧
    (∀ old, a.mid = some old → old < 2 ^ (8 * a.size) →
      ∃ u q, exec (.atomicExecute c t id) s = .next u ∧
        Memory.readN u.mem p.key a.size = atomicFn op (8 * a.size) old a.data a.exp.toNat % 2 ^ (8 * a.size) ∧
        (∀ k, (k < p.key ∨ p.key + a.size ≤ k) → Memory.read u.mem k = Memory.read s.mem k) ∧
        (u.slot c t).results = (s.slot c t).results ++ [q] ∧ q.reg = a.dest ∧ q.val = BitVec.ofNat 64 old ∧
        (u.slot c t).acc = (s.slot c t).acc.filter (fun b => b.id != a.id) ∧ (u.slot c t).g = (s.slot c t).g)) ∧
  (∀ w old x e : Nat, atomicFn 11 w old x e = (old + x) % 2 ^ w ∧ atomicFn 12 w old x e = old &&& x ∧ atomicFn 13 w old x e = old ||| x ∧
    atomicFn 14 w old x e = old ^^^ x ∧ atomicFn 17 w old x e = min old x ∧ atomicFn 18 w old x e = max old x ∧ atomicFn 19 w old x e = x ∧
    atomicFn 20 w old x e = (if old = e then x else old)) ∧
  (∀ old x : BitVec 32, (atomicFn 15 32 old.toNat x.toNat 0 = if old.toInt ≤ x.toInt then old.toNat else x.toNat) ∧
    (atomicFn 16 32 old.toNat x.toNat 0 = if old.toInt ≤ x.toInt then x.toNat else old.toNat)) ∧
  (∀ old x : BitVec 64, (atomicFn 15 64 old.toNat x.toNat 0 = if old.toInt ≤ x.toInt then old.toNat else x.toNat) ∧
    (atomicFn 16 64 old.toNat x.toNat 0 = if old.toInt ≤ x.toInt then x.toNat else old.toNat)) ∧
  (∀ (s : State) (c t id : Nat) (op : BitVec 3) (before : List Access) (a : Access) (p : Place), (s.slot c t).splitAcc id = (before, some a) →
    a.kind = .vamo op → a.place = some p → a.size = 64 → a.x = 0 → s.objOf p = none → s.mayPerform before a = true →
    (∀ d o, spaceOf a.va ≠ .window d o) → s.deny (a.agent c t) a.va 64 p 3 .vamo = none → s.capDeny c a.va p 3 = none → memInv s →
    ∃ u, exec (.vamoExecute c t id) s = .next u ∧
      Memory.readBytes u.mem p.key 64 = vecBytes (vamoFn op.toNat (bytesVec (s.readAt p 64)) (BitVec.ofNat 512 a.data)) ∧
      (∀ k, (k < p.key ∨ p.key + 64 ≤ k) → Memory.read u.mem k = Memory.read s.mem k) ∧ (u.slot c t).g = (s.slot c t).g ∧
      (u.slot c t).results = (s.slot c t).results)

/-- R37 and R162 to R166. Completes fence, tlget, tlwait, ewait, ewaitMarkerComplete, markerParkEnd. -/
def Obligations.FencesAndTimelines : Prop :=
  (∀ (s : State) (o c : BitVec 2), mayIssue { who := .any } s = true →
    (¬(o = 2 ∧ c = 0) → ∃ t, exec (.fence o c) s = .next t ∧ leftAs s t s.nextPc ∧ regsKeep s t ∧ t.me.fence = !s.me.acc.isEmpty ∧
      t.me.acc = s.me.acc ∧ onlyMe s t) ∧
    (o = 2 → c = 0 → s.me.acc = [] → ∃ t, exec (.fence o c) s = .next t ∧ leftAs s t s.nextPc ∧ regsKeep s t ∧ t.me.acc = [] ∧ t.mem = s.mem ∧
      t.mine.ibuf = [] ∧ onlyMine s t) ∧
    (o = 2 → c = 0 → s.me.acc ≠ [] → waits (.fence o c) s .order)) ∧
  (∀ (s : State) (d : Reg) (sel : BitVec 3), mayIssue { ws := [d], var := true, who := .any } s = true →
    ∃ t, exec (.tlget d sel) s = .next t ∧ onlyMe s t ∧
      sentResult s t d (if sel.toNat < 4 then ectx s.me.counter sel.toNat else ectx s.me.issued (sel.toNat - 4))) ∧
  (∀ (s : State) (e : BitVec 2) (b : Reg), mayIssue { rs := [b], who := .any } s = true →
    ((s.me.rd b).toNat ≤ (ectx s.me.counter e.toNat).toNat →
      ∃ t, exec (.tlwait e b) s = .next t ∧ leftAs s t s.nextPc ∧ regsKeep s t ∧ onlyMe s t ∧ onlyRegs s t) ∧
    ((ectx s.me.counter e.toNat).toNat < (s.me.rd b).toNat → waits (.tlwait e b) s (.tl e.toNat (s.me.rd b)))) ∧
  (∀ (s : State) (e f : BitVec 2) (b : Reg), mayIssue { rs := [b], late := false } s = true → (tget s.mine.queue e.toNat []).length < 2 →
    (e = f → (s.me.rd b).toNat ≤ (ectx s.me.issued e.toNat).toNat) →
    ∃ t, exec (.ewait e f b) s = .next t ∧ entered s t e.toNat (.ewait e f b) [s.me.rd b] ∧ leftAs s t s.nextPc) ∧
  (∀ (s : State) (e : BitVec 2) (b : Reg), mayIssue { rs := [b], late := false } s = true → s.me.branches = [] →
    (ectx s.me.issued e.toNat).toNat < (s.me.rd b).toNat →
    traps (.ewait e e b) s 0x15 0 (BitVec.ofNat 64 (e.toNat + 16 + ((ectx s.me.issued e.toNat).toNat + 1) % 2 ^ 32 * 2 ^ 32))) ∧
  (∀ (s : State) (c e : Nat) (e' f : BitVec 2) (b : Reg) (m : Cmd) (l1 l2 : List Cmd), tget (s.core c).exec e [] = l1 ++ m :: l2 → m.instr = .ewait e' f b →
    (∀ q ∈ l1, ∀ x y z, q.instr ≠ .ewait x y z) → (m.args.getD 0 0).toNat ≤ (ectx (s.slot c m.slot).counter f.toNat).toNat →
    ∃ u, exec (.ewaitMarkerComplete c e) s = .next u ∧ tget (u.core c).exec e [] = (l1 ++ m :: l2).filter (fun q => q.id != m.id) ∧
      (e < 2 ∨ e = 3 → (ectx (u.slot c m.slot).counter e) = BitVec.ofNat 64 m.num) ∧ (u.slot c m.slot).g = (s.slot c m.slot).g) ∧
  (∀ (s : State) (c t : Nat) (w : Wait), (s.slot c t).park = some w → w.kind = .marker → (s.slot c t).pend = 0 →
    ∃ u, exec (.markerParkEnd c t) s = .next u ∧ u = s.setSlot c t { s.slot c t with park := none, unsync := 0 })

/-- R318 and R373 to R381: the translation service. Completes translationMissRequest, atsTranslationCompletion, prgResponse. -/
def Obligations.TranslationMisses : Prop :=
  (∀ (s : State) (c t id : Nat) (a : Access), t < 13 → (s.core c).vf.moving = none →
    (s.slot c t).acc.find? (fun a => a.id == id) = some a → a.phase = .miss →
    ((∀ e va, spaceOf a.va = .virt va → s.serviceLookup c a.asid va = some e → lookup (s.core c).tlb a.asid va = none →
        (Misser.access t a).refusedBy e = false →
        ∃ u, exec (.translationMissRequest c t id) s = .next u ∧ e ∈ (u.core c).tlb ∧ (∃ b ∈ (u.slot c t).acc, b.id = id ∧ b.phase = .ready ∧ b.place.isSome = true) ∧
          (u.slot c t).g = (s.slot c t).g ∧ u.mem = s.mem) ∧
     (lookup (s.core c).tlb a.asid a.va.toNat = none → s.serviceLookup c a.asid a.va.toNat = none → s.pv c = true →
        ∃ u r, exec (.translationMissRequest c t id) s = .next u ∧ u.atsReqs = s.atsReqs ++ [r] ∧ r.core = c ∧ r.slot = t ∧ r.acc = id ∧ r.pasid = s.pasid c ∧
          r.va = a.va.toNat / 4096 * 4096 ∧ r.stale = [] ∧ (∀ b ∈ (u.slot c t).acc, b.id = a.id → b.phase = .ats r.id) ∧ (u.slot c t).g = (s.slot c t).g ∧
          u.mem = s.mem) ∧
     (lookup (s.core c).tlb a.asid a.va.toNat = none → s.serviceLookup c a.asid a.va.toNat = none → s.pv c = false → (s.slot c t).mode ≠ .free →
        ∃ u tr, exec (.translationMissRequest c t id) s = .next u ∧ (u.slot c t).acc = (s.slot c t).acc.filter (fun b => b.id != a.id) ∧
          (u.slot c t).traps = (s.slot c t).traps ++ [tr] ∧ tr.code = 0x09 ∧ tr.defer = true ∧ tr.addr = a.va ∧ tr.info.toNat % 16 = 0 ∧ tr.fpc = a.fpc ∧
          u.mem = s.mem))) ∧
  (∀ (s : State) (req : Nat) (r : AtsReq) (a : Access), s.atsReqs.find? (fun x => x.id == req) = some r → r.core ≠ 2048 → r.slot < 13 →
    (s.slot r.core r.slot).acc.find? (fun a => a.id == r.acc) = some a → a.phase = .ats req →
    (∀ ans : AtsAnswer, (∃ q ∈ r.stale, match ans with
        | .present _ size _ _ => meets q.1 (pageBytes q.2) (r.va / pageBytes size * pageBytes size) (pageBytes size) = true
        | .absent => meets q.1 (pageBytes q.2) r.va 4096 = true) →
      ∃ u, exec (.atsTranslationCompletion req ans) s = .next u ∧ u.cores = s.cores ∧ u.ctc = s.ctc ∧
        u.atsReqs = s.atsReqs.map (fun x => if x.id = req then { x with stale := [] } else x)) ∧
    ((∀ q ∈ r.stale, meets q.1 (pageBytes q.2) r.va 4096 = false) → s.priEnable = true → s.priFailed = false → s.pageReqs = [] → 0 < s.priAlloc →
      ∃ u q, exec (.atsTranslationCompletion req .absent) s = .next u ∧ u.pageReqs = [q] ∧ q.va = a.va.toNat / 4096 * 4096 ∧ q.pasid = s.pasid r.core ∧
        q.r = (accReads a.kind.acc && !accWrites a.kind.acc) ∧ q.w = accWrites a.kind.acc ∧
        (∀ b ∈ (u.slot r.core r.slot).acc, b.id = a.id → ∃ n, b.phase = .pageReq q.id n) ∧
        u.atsReqs = s.atsReqs.filter (fun x => x.id != req) ∧ u.mem = s.mem) ∧
    ((s.core r.core).vf.moving = none → ∀ (pa : Word) (size : BitVec 2),
      (∀ q ∈ r.stale, meets q.1 (pageBytes q.2) (r.va / pageBytes size * pageBytes size) (pageBytes size) = false) → ∃ u e, exec (.atsTranslationCompletion req (.present pa size true true)) s = .next u ∧ e ∈ (u.core r.core).tlb ∧ e ∈ tget u.ctc (clusterOf r.core) [] ∧
        e.asid = a.asid ∧ e.host = true ∧ e.r = true ∧ e.w = true ∧ e.va = a.va.toNat / pageBytes size * pageBytes size ∧
        e.pa = pa.toNat / pageBytes size * pageBytes size ∧ u.mem = s.mem)) ∧
  (∀ (s : State) (req : Nat) (r : PageReq) (code : BitVec 2), s.pageReqs.find? (fun x => x.id == req) = some r → code ≠ 3 →
    ∃ u k w, exec (.prgResponse req code) s = .next u ∧ u.pageReqs = s.pageReqs.filter (fun x => x.id != req) ∧
      u.priEnable = s.priEnable ∧ u.priFailed = (s.priFailed || code == 2) ∧
      k ∈ u.casts ∧ k.what = .replay (BitVec.ofNat 64 r.va) w ∧ k.left = List.range 2048 ∧ w.toNat % 2 ^ 16 = r.asid.toNat ∧
      w.toNat / 2 ^ 21 % 4 = code.toNat ∧ u.cores = s.cores ∧ u.mem = s.mem)

/-- R376, R380 and R381; in the recovery configuration an invalidation drops nothing (R424). That an access parked at a directory entry does not hold the acknowledgement is log entry 49 (DEDUCED). Completes atsInvalidationRequest, tlbInvalidationAck, replayCommandReceive. -/
def Obligations.BroadcastsAreAcknowledged : Prop :=
  (∀ (s : State) (pasid : BitVec 20) (va : Word) (size : BitVec 2), s.fail = true → exec (.atsInvalidationRequest pasid va size) s = .next s) ∧
  (∀ (s : State) (pasid : BitVec 20) (va : Word) (size : BitVec 2), s.fail = false →
    ∃ u k, exec (.atsInvalidationRequest pasid va size) s = .next u ∧ u.casts = s.casts ++ [k] ∧ k.what = .ats va.toNat size ∧ k.left = List.range 2048 ∧
      (∀ j, ∀ e ∈ tget u.ctc j [], e.host = true → meets e.va (pageBytes e.size) (va.toNat / pageBytes size * pageBytes size) (pageBytes size) = false) ∧
      u.atsReqs = s.atsReqs.map (fun r => if r.pasid = pasid then { r with stale := r.stale ++ [(va.toNat / pageBytes size * pageBytes size, size)] } else r) ∧
      u.cores = s.cores ∧ u.mem = s.mem) ∧
  (∀ (s : State) (c : Nat) (r : CastRec), s.casts.find? (fun r => r.left.contains c && (match r.what with | .replay _ _ => false | _ => true)) = some r →
    ∃ u, exec (.tlbInvalidationAck c) s = .next u ∧ (∀ e ∈ (u.core c).tlb, r.what.drops e = false) ∧
      (∀ e ∈ (s.core c).tlb, r.what.drops e = false → e ∈ (u.core c).tlb) ∧
      ((∀ p ∈ (s.core c).slots, ∀ a ∈ p.2.acc, a.phase = .ready → r.what.covers a = false) → ∀ k ∈ u.casts, k.id = r.id → c ∉ k.left) ∧
      ((∃ p ∈ (s.core c).slots, ∃ a ∈ p.2.acc, a.phase = .ready ∧ r.what.covers a = true) → u.casts = s.casts) ∧ u.mem = s.mem) ∧
  (∀ (s : State) (c : Nat) (r : CastRec) (a b : Word), s.casts.find? (fun r => r.left.contains c && (match r.what with | .replay _ _ => true | _ => false)) = some r →
    r.what = .replay a b → (s.core c).vf.moving = none → b.toNat / 2 ^ 21 % 4 = 0 →
    ∃ u, exec (.replayCommandReceive c) s = .next u ∧ (∀ k ∈ u.casts, k.id = r.id → c ∉ k.left) ∧ u.mem = s.mem ∧
      (∀ (t q n : Nat) (x : Access), (∃ y, (t, y) ∈ (s.core c).slots ∧ x ∈ y.acc) → x.phase = .pageReq q n → replayHits a b (.access t x) = true →
        ∀ y ∈ (u.slot c t).acc, y.id = x.id → y.phase = .miss)) ∧
  (∀ (s : State) (c : Nat), (s.core c).vf.moving.isSome = true → exec (.replayCommandReceive c) s = .next s)

/-- R41, R44 and R167: a vector command at issue. Completes vbcst, vins, vmov, vadd, vsub, vmul, vfma, vmin, vmax, vabs, vneg, vand, vor, vxor, vshl, vshr, vsar, vcmp, vsel, vcvt, vwadd, vscan, vred, vperm, vmath, vext, vld, vst, vlds, vsts, vgatl, vsctl. -/
def Obligations.VectorCommandsEnter : Prop :=
  (∀ (i : Instr) (rs : List Reg) (s : State), vecForm i = some rs → mayIssue { rs := rs, late := false, who := .any } s = true → queueOpen s 1 = true →
    ∃ t, exec i s = .next t ∧ entered s t 1 i (rs.map s.me.rd) ∧ leftAs s t s.nextPc) ∧
  (∀ (s : State) (ty : VType) (d : Reg) (b : VReg) (l : Lane), mayIssue { rs := laneRegs l, ws := [d], var := true, late := false, who := .any } s = true →
    queueOpen s 1 = true →
    ∃ t, exec (.vext ty d b l) s = .next t ∧ entered s t 1 (.vext ty d b l) ((laneRegs l).map s.me.rd) ∧ leftPending s t s.nextPc d) ∧
  (∀ (i : Instr) (s : State) (d : VReg) (b x : Reg) (off : Word), i ∈ [Instr.vld d b x off, .vst d b x off] →
    mayIssue { rs := [b, x], late := false, who := .any } s = true → queueOpen s 1 = true → (s.me.rd b + off + s.me.rd x * 64).toNat % 64 = 0 →
    ∃ t, exec i s = .next t ∧ entered s t 1 i [s.me.rd b + off + s.me.rd x * 64] ∧ leftAs s t s.nextPc) ∧
  (∀ (i : Instr) (s : State) (ty : VType) (d : VReg) (b x : Reg) (off : Word), i ∈ [Instr.vlds ty d b x off, .vsts ty d b x off] →
    mayIssue { rs := [b, x], late := false, who := .any } s = true → queueOpen s 1 = true →
    (∀ k, k < ty.lanes → (s.me.rd b + off + BitVec.ofNat 64 k * s.me.rd x).toNat % ty.width = 0) →
    ∃ t, exec i s = .next t ∧ entered s t 1 i [s.me.rd b, off, s.me.rd x] ∧ leftAs s t s.nextPc) ∧
  (∀ (i : Instr) (s : State) (ty : VType) (d x : VReg) (b : Reg), i ∈ [Instr.vgatl ty d x b, .vsctl ty d x b] →
    mayIssue { rs := [b], late := false, who := .any } s = true → queueOpen s 1 = true → (s.me.rd b).toNat % ty.width = 0 →
    ∃ t, exec i s = .next t ∧ entered s t 1 i [s.me.rd b] ∧ leftAs s t s.nextPc)

/-- R41, R42 and R167: an engine's command from queue to completion. That VLD and VST move what is left of their bytes at the completion is log entry 26
(DESIGN CHOICE). Completes engineCommandStart, engineCommandComplete. -/
def Obligations.EnginesStartAndComplete : Prop :=
  (∀ (s : State) (c e : Nat) (m : Cmd) (r : List Cmd), e < 3 → tget (s.core c).queue e [] = m :: r → m.depth = 0 → s.clockOn c = true → s.runs c = true →
    (∀ q ∈ tget (s.core c).exec e [], ∀ x y z, q.instr ≠ .ewait x y z) →
    (if e = 2 then (tget (s.core c).exec e []).length < 4 else tget (s.core c).exec e [] = []) → (∀ x y z, m.instr ≠ .mmaj x y z) →
    ∃ u m', exec (.engineCommandStart c e) s = .next u ∧ tget (u.core c).queue e [] = r ∧ tget (u.core c).exec e [] = tget (s.core c).exec e [] ++ [m'] ∧
      m' = { m with srcs := startSources (s.slot c m.slot) m.instr } ∧ u.mem = s.mem ∧ (∀ t, u.slot c t = s.slot c t) ∧ (∀ d, d ≠ c → u.core d = s.core d)) ∧
  (∀ (s : State) (c i : Nat) (m : Cmd) (rs : List Reg) (d : VReg), (tget (s.core c).exec 1 [])[i]? = some m → vecForm m.instr = some rs → vdestOf m.instr = some d →
    m.dead = false →
    ∃ u, exec (.engineCommandComplete c 1 i) s = .next u ∧ (u.slot c m.slot).vrd d = vecValue m ∧
      (∀ x, x ≠ d → (u.slot c m.slot).vrd x = (s.slot c m.slot).vrd x) ∧ (u.slot c m.slot).g = (s.slot c m.slot).g ∧
      ectx (u.slot c m.slot).counter 1 = BitVec.ofNat 64 m.num ∧ tget (u.core c).exec 1 [] = (tget (s.core c).exec 1 []).filter (fun q => q.id != m.id) ∧
      u.mem = s.mem ∧ (∀ t, t ≠ m.slot → u.slot c t = s.slot c t) ∧ (∀ k, k ≠ c → u.core k = s.core k)) ∧
  (∀ (s : State) (c i : Nat) (m : Cmd) (d : VReg) (b x : Reg) (off : Word) (p : Place), (tget (s.core c).exec 1 [])[i]? = some m → m.instr = .vld d b x off →
    m.dead = false → m.walk.reads = [] → s.engPlace (s.cmdAgent c 1 m) (m.arg 0) 64 4 1 = .ok p →
    ∃ u, exec (.engineCommandComplete c 1 i) s = .next u ∧ (u.slot c m.slot).vrd d = bytesVec (s.readAt p 64) ∧
      (∀ x, x ≠ d → (u.slot c m.slot).vrd x = (s.slot c m.slot).vrd x) ∧ ectx (u.slot c m.slot).counter 1 = BitVec.ofNat 64 m.num ∧ u.mem = s.mem) ∧
  (∀ (s : State) (c i : Nat) (m : Cmd) (d : VReg) (b x : Reg) (off : Word) (p : Place), (tget (s.core c).exec 1 [])[i]? = some m → m.instr = .vst d b x off →
    m.dead = false → m.walk.wrote = [] → memInv s → s.engPlace (s.cmdAgent c 1 m) (m.arg 0) 64 5 2 = .ok p →
    ∃ u, exec (.engineCommandComplete c 1 i) s = .next u ∧ Memory.readBytes u.mem p.key 64 = vecBytes (m.src 0) ∧
      (∀ k, (k < p.key ∨ p.key + 64 ≤ k) → Memory.read u.mem k = Memory.read s.mem k) ∧ ectx (u.slot c m.slot).counter 1 = BitVec.ofNat 64 m.num ∧
      (u.slot c m.slot).v = (s.slot c m.slot).v) ∧
  (∀ (s : State) (c e i : Nat) (m : Cmd), (tget (s.core c).exec e [])[i]? = some m → m.isMarker = false → m.dead = true →
    (∀ t d b l, m.instr ≠ .vext t d b l) →
    ∃ u, exec (.engineCommandComplete c e i) s = .next u ∧ tget (u.core c).exec e [] = (tget (s.core c).exec e []).filter (fun q => q.id != m.id) ∧
      u.mem = s.mem ∧ (u.slot c m.slot).g = (s.slot c m.slot).g ∧ (u.slot c m.slot).v = (s.slot c m.slot).v ∧
      (e = 0 ∨ e = 1 ∨ e = 3 → ectx (u.slot c m.slot).counter e = BitVec.ofNat 64 m.num) ∧
      (e = 2 → (s.slot c m.slot).early = [] →
        (m.num = (ectx (s.slot c m.slot).counter 2).toNat + 1 → ectx (u.slot c m.slot).counter 2 = BitVec.ofNat 64 m.num) ∧
        (m.num ≠ (ectx (s.slot c m.slot).counter 2).toNat + 1 → ectx (u.slot c m.slot).counter 2 = ectx (s.slot c m.slot).counter 2 ∧ m.num ∈ (u.slot c m.slot).early)))

/-- R64 and R178 to R184: what the integer and moving commands compute. -/
def Obligations.IntegerLanes : Prop :=
  ∀ (m : Cmd) (t : VType) (sat : Bool) (d a : VReg) (b : VSrc) (i : Nat), i < t.lanes →
    let w := laneBits t
    let x := laneAt t (m.src 0) i
    let y := laneArg t m b i
    (t.isFloat = false →
      (m.instr = .vadd t sat d a b → laneAt t (vecValue m) i = narrowed t sat (laneInt t x + laneInt t y)) ∧
      (m.instr = .vsub t sat d a b → laneAt t (vecValue m) i = narrowed t sat (laneInt t x - laneInt t y)) ∧
      (m.instr = .vmul t sat false d a b → laneAt t (vecValue m) i = narrowed t sat (laneInt t x * laneInt t y)) ∧
      (m.instr = .vmul t sat true d a b → laneAt t (vecValue m) i = (laneInt t x * laneInt t y / (2 ^ w : Nat) % (2 ^ w : Nat)).toNat) ∧
      (m.instr = .vfma t sat d a b → laneAt t (vecValue m) i = narrowed t sat (laneInt t (laneAt t (m.src 1) i) + laneInt t x * laneInt t y)) ∧
      (m.instr = .vshl t sat d a b → laneAt t (vecValue m) i = narrowed t sat (laneInt t x * (2 ^ (y % w) : Nat))) ∧
      (m.instr = .vmin t sat d a b → laneAt t (vecValue m) i = if laneInt t x ≤ laneInt t y then x else y) ∧
      (m.instr = .vmax t sat d a b → laneAt t (vecValue m) i = if laneInt t x ≤ laneInt t y then y else x) ∧
      (m.instr = .vshr t d a b → laneAt t (vecValue m) i = x / 2 ^ (y % w)) ∧
      (m.instr = .vsar t d a b → laneAt t (vecValue m) i = (signed w x / (2 ^ (y % w) : Nat) % (2 ^ w : Nat)).toNat) ∧
      (∀ c, m.instr = .vneg t sat d c → laneAt t (vecValue m) i = narrowed t sat (-laneInt t x)) ∧
      (∀ c e, let z := laneInt t (laneAt t (m.src 1) i)
        (m.instr = .vcmp t 0 d c e → laneAt t (vecValue m) i = if laneInt t x = z then 2 ^ w - 1 else 0) ∧
        (m.instr = .vcmp t 1 d c e → laneAt t (vecValue m) i = if laneInt t x = z then 0 else 2 ^ w - 1) ∧
        (m.instr = .vcmp t 2 d c e → laneAt t (vecValue m) i = if laneInt t x < z then 2 ^ w - 1 else 0) ∧
        (m.instr = .vcmp t 3 d c e → laneAt t (vecValue m) i = if laneInt t x ≤ z then 2 ^ w - 1 else 0))) ∧
    (∀ g l, m.instr = .vins t d g l → laneAt t (vecValue m) i = if i = m.lane t l then (m.arg 0).toNat % 2 ^ w else x) ∧
    (∀ c e, m.instr = .vperm t d c e → laneAt t (vecValue m) i =
      if 2 ^ (w - 1) ≤ laneAt t (m.src 1) i then 0 else laneAt t (m.src 0) (laneAt t (m.src 1) i % t.lanes)) ∧
    (∀ c e, m.instr = .vsel t d c e → laneAt t (vecValue m) i = if laneAt t (m.src 2) i ≠ 0 then laneAt t (m.src 1) i else x) ∧
    (∀ c, m.instr = .vbcst t d c → laneAt t (vecValue m) i = (m.arg 0).toNat % 2 ^ w) ∧
    (∀ c, m.instr = .vmov d c → vecValue m = m.src 0) ∧
    (∀ r, (m.instr = .vand d a (.reg r) → vecValue m = m.src 0 &&& m.src 2) ∧ (m.instr = .vor d a (.reg r) → vecValue m = m.src 0 ||| m.src 2) ∧
      (m.instr = .vxor d a (.reg r) → vecValue m = m.src 0 ^^^ m.src 2))

/-- R193: a matrix command at issue. Completes mma, mmaj, mld, mldt, mst, mzero, mrow. -/
def Obligations.MatrixCommandsEnter : Prop :=
  (∀ (s : State) (t : TileNo) (a b : Reg), mayIssue { rs := [a, b], late := false } s = true → queueOpen s 0 = true →
    (s.tile s.cur.core t).alloc = true → formatFault s.me.ec.fmta s.me.ec.fmtb s.me.ec.klen = none →
    (s.tile s.cur.core t).int = pairInt (fmtCode s.me.ec.fmta) (fmtCode s.me.ec.fmtb) →
    sideFault s.me.ec.fmta s.me.ec.astr s.me.ec.scla s.me.ec.plna (s.me.rd a) = none →
    sideFault s.me.ec.fmtb s.me.ec.bstr s.me.ec.sclb s.me.ec.plnb (s.me.rd b) = none →
    (∃ u, exec (.mma t a b) s = .next u ∧ entered s u 0 (.mma t a b) [s.me.rd a, s.me.rd b] ∧ leftAs s u s.nextPc) ∧
    (s.cur.core % 2 ^ (s.me.ec.mjoin.toNat % 4) = 0 →
      ∃ u, exec (.mmaj t a b) s = .next u ∧ entered s u 0 (.mmaj t a b) [s.me.rd a, s.me.rd b] ∧ leftAs s u s.nextPc)) ∧
  (∀ (s : State) (t : TileNo) (a b : Reg), mayIssue { rs := [a, b], late := false } s = true → queueOpen s 0 = true →
    (s.tile s.cur.core t).alloc = true → s.cur.core % 2 ^ (s.me.ec.mjoin.toNat % 4) ≠ 0 → fmtCode s.me.ec.fmta < 12 →
    (10 ≤ fmtCode s.me.ec.fmta → groupCode s.me.ec.fmta ≠ 3) →
    ((s.tile s.cur.core t).int = true → pairInt (fmtCode s.me.ec.fmta) (fmtCode s.me.ec.fmta) = true) →
    sideFault s.me.ec.fmta s.me.ec.astr s.me.ec.scla s.me.ec.plna (s.me.rd a) = none →
    ∃ u, exec (.mmaj t a b) s = .next u ∧ entered s u 0 (.mmaj t a b) [s.me.rd a, s.me.rd b] ∧ leftAs s u s.nextPc) ∧
  (∀ (i : Instr) (s : State) (t : TileNo) (b : Reg) (off : Word), i ∈ [Instr.mld t b off, .mldt t b off] → mayIssue { rs := [b], late := false } s = true →
    queueOpen s 0 = true → (s.tile s.cur.core t).alloc = true → s.me.ec.cstr.toNat % 2 ^ 32 % 64 = 0 → (s.me.rd b + off).toNat % 64 = 0 →
    ∃ u, exec i s = .next u ∧ entered s u 0 i [s.me.rd b + off] ∧ leftAs s u s.nextPc) ∧
  (∀ (s : State) (t : TileNo) (b : Reg) (off : Word) (z : Bool), mayIssue { rs := [b], late := false } s = true → queueOpen s 0 = true →
    (s.tile s.cur.core t).alloc = true →
    (if (s.tile s.cur.core t).int = true then s.me.ec.dfmt.toNat % 16 ∈ [2, 7, 8, 9] ∧ s.me.ec.dfmt.toNat / 16 % 2 = 0 else s.me.ec.dfmt.toNat % 16 ≤ 6) →
    (s.me.ec.dfmt.toNat / 16 % 2 = 1 → s.me.ec.amaxp.toNat % 4 = 0) → (s.me.rd b + off).toNat % 64 = 0 →
    (if s.me.ec.dfmt.toNat % 16 ∈ [5, 6] then s.me.ec.cstr.toNat % 2 ^ 32 % 128 = 0 ∧ s.me.ec.plna.toNat % 64 = 0 else s.me.ec.cstr.toNat % 2 ^ 32 % 64 = 0) →
    ∃ u, exec (.mst t b off z) s = .next u ∧ entered s u 0 (.mst t b off z) [s.me.rd b + off] ∧ leftAs s u s.nextPc) ∧
  (∀ (i : Instr) (s : State) (t : TileNo) (put : Bool) (v : VReg) (row : BitVec 5), i ∈ [Instr.mzero t, .mrow put v t row] → mayIssue { late := false } s = true →
    queueOpen s 0 = true → (s.tile s.cur.core t).alloc = true →
    ∃ u, exec i s = .next u ∧ entered s u 0 i [] ∧ leftAs s u s.nextPc) ∧
  (∀ (i : Instr) (s : State) (t : TileNo) (a b : Reg) (off : Word) (z put : Bool) (v : VReg) (row : BitVec 5) (rs : List Reg),
    (i, rs) ∈ [(Instr.mma t a b, [a, b]), (.mmaj t a b, [a, b]), (.mld t a off, [a]), (.mldt t a off, [a]), (.mst t a off z, [a]), (.mzero t, []), (.mrow put v t row, [])] →
    mayIssue { rs := rs, late := false } s = true → s.me.branches = [] → (s.tile s.cur.core t).alloc = false →
    traps i s 0x12 0 (BitVec.ofNat 64 t.toNat)) ∧
  (∀ (i : Instr) (s : State) (t : TileNo) (a b : Reg), i ∈ [Instr.mma t a b, .mmaj t a b] → mayIssue { rs := [a, b], late := false } s = true →
    s.me.branches = [] → (s.tile s.cur.core t).alloc = true → (i = .mmaj t a b → s.cur.core % 2 ^ (s.me.ec.mjoin.toNat % 4) = 0) →
    formatFault s.me.ec.fmta s.me.ec.fmtb s.me.ec.klen = none → (s.tile s.cur.core t).int ≠ pairInt (fmtCode s.me.ec.fmta) (fmtCode s.me.ec.fmtb) →
    traps i s 0x12 0 (BitVec.ofNat 64 (t.toNat + 48)))

/-- R201, and R198: a joint command starts in every member at once, and its segment's lowest member reads B for all. R199, R200, R68, R69 and R73: what
loads, products and drains leave. That B is read as that member's command executes, and what a member keeps of its own, are log entries 44 and 20 (DEDUCED);
that the paused side of a SHARED pair counts as come is log entry 45 (DESIGN CHOICE); that a command's reads and writes which have not been performed singly
are performed as it completes is log entry 26 (DESIGN CHOICE). Completes mmajJointStart. -/
def Obligations.MatrixCommandsAct : Prop :=
  (∀ (s : State) (c i : Nat) (m : Cmd) (t : TileNo), (tget (s.core c).exec 0 [])[i]? = some m → m.dead = false →
    (m.instr = .mzero t → ∃ u, exec (.engineCommandComplete c 0 i) s = .next u ∧ (∀ x y, (u.tile c t).el x y = 0) ∧ (u.tile c t).alloc = (s.tile c t).alloc ∧
      (∀ k, k ≠ t → u.tile c k = s.tile c k) ∧ u.mem = s.mem ∧ ectx (u.slot c m.slot).counter 0 = BitVec.ofNat 64 m.num) ∧
    (∀ a b, m.instr = .mma t a b → m.ec.klen.toNat % 2 ^ 20 = 0 → ∃ u, exec (.engineCommandComplete c 0 i) s = .next u ∧ (∀ k, u.tile c k = s.tile c k) ∧
      u.mem = s.mem ∧ ectx (u.slot c m.slot).counter 0 = BitVec.ofNat 64 m.num) ∧
    (∀ v row, m.instr = .mrow true v t row → ∃ u, exec (.engineCommandComplete c 0 i) s = .next u ∧
      (∀ x y, x < 32 → y < 32 → (u.tile c t).el x y =
        if x = row.toNat then BitVec.ofNat 32 ((lanesOf 32 (m.srcs.getD 0 0) ++ lanesOf 32 (m.srcs.getD 1 0)).getD y 0) else (s.tile c t).el x y) ∧
      (u.slot c m.slot).v = (s.slot c m.slot).v ∧ u.mem = s.mem) ∧
    (∀ v row, m.instr = .mrow false v t row → v.toNat % 2 = 0 → ∃ u, exec (.engineCommandComplete c 0 i) s = .next u ∧
      (∀ y, y < 16 → laneAt .n32 ((u.slot c m.slot).vrd v) y = ((s.tile c t).el row.toNat y).toNat ∧
        laneAt .n32 ((u.slot c m.slot).vrd (v ||| 1)) y = ((s.tile c t).el row.toNat (16 + y)).toNat) ∧
      (∀ k, u.tile c k = s.tile c k) ∧ u.mem = s.mem)) ∧
  (∀ (s : State) (c : Nat) (m low : Cmd), s.jointHead c = some m →
    s.jointBad c m = false → (∀ d ∈ segment c (m.ec.mjoin.toNat % 4), ∃ h, s.jointHead d = some h ∧ h.joint = m.joint) →
    s.jointHead ((segment c (m.ec.mjoin.toNat % 4)).headD c) = some low →
    ∃ u, exec (.mmajJointStart c) s = .next u ∧ u.mem = s.mem ∧
      ∀ d ∈ segment c (m.ec.mjoin.toNat % 4), ∃ h h', s.jointHead d = some h ∧ tget (u.core d).exec 0 [] = [h'] ∧ h'.id = h.id ∧ h'.num = h.num ∧
        h'.brows = h.brows ∧ h'.args = (if h.id = low.id then h.args else h.args.take 1) ∧ h'.ec.fmtb = low.ec.fmtb ∧ h'.ec.klen = low.ec.klen ∧
        h'.ec.fmta = h.ec.fmta ∧ tget (u.core d).queue 0 [] = (tget (s.core d).queue 0 []).drop 1) ∧
  (∀ (s w : State) (c i : Nat) (m : Cmd) (rows : List OpRow), (tget (s.core c).exec 0 [])[i]? = some m → m.readsB = true → m.dead = false → s.jointB c m = .ok (w, rows) →
    ∃ u, exec (.engineCommandComplete c 0 i) s = .next u ∧ u.mem = s.mem ∧
      ∀ q ∈ s.jointMates c m, q.1 ≠ c → ∃ h ∈ tget (u.core q.1).exec 0 [], h.id = q.2.id ∧ h.brows = rows.map (fun r => (r.els, r.scl, r.zps))) ∧
  (∀ (s : State) (c k : Nat) (m : Cmd) (t : TileNo) (b : Reg) (off : Word) (tr : Bool) (B : Word → Byte), untouched s c 0 k m →
    m.instr = (if tr then .mldt t b off else .mld t b off) →
    (∀ r, r < 32 → engineReads s (s.cmdAgent c 0 m) (m.args.getD 0 0 + BitVec.ofNat 64 (r * (m.ec.cstr.toNat % 2 ^ 32))) 128 B) →
    ∃ u, exec (.engineCommandComplete c 0 k) s = .next u ∧
      (∀ x y, x < 32 → y < 32 → (u.tile c t).el x y = BitVec.ofNat 32 (ofBytes ((List.range 4).map (fun j =>
        B (m.args.getD 0 0 + BitVec.ofNat 64 ((if tr then y else x) * (m.ec.cstr.toNat % 2 ^ 32)) + BitVec.ofNat 64 (4 * (if tr then x else y) + j)))))) ∧
      (u.tile c t).alloc = (s.tile c t).alloc ∧ (u.tile c t).int = (s.tile c t).int ∧ (∀ q, q ≠ t → u.tile c q = s.tile c q) ∧ u.mem = s.mem ∧
      ectx (u.slot c m.slot).counter 0 = BitVec.ofNat 64 m.num) ∧
  (∀ (s : State) (g : Agent) (o : Operand) (k n i : Nat) (B : Word → Byte), g.walk.reads = [] → (∀ q ∈ o.runs k n i, engineReads s g q.1 q.2 B) →
    ∃ r, s.readRow g o k n i = .ok r ∧ r.els.length = k ∧ ∀ j, j < k →
      let f := o.fmt.toNat % 16
      let row (x : Nat) : Nat := (B (o.p + BitVec.ofNat 64 (i * (o.str.toNat % 2 ^ 32)) + BitVec.ofNat 64 x)).toNat
      let low (x : Nat) : Nat := (B (o.pln + BitVec.ofNat 64 (i * (o.str.toNat % 2 ^ 32 / 2)) + BitVec.ofNat 64 x)).toNat
      r.els.getD j 0 =
        if f = 5 ∨ f = 6 then row (j / 2) / 16 ^ (j % 2) % 16 * 4 + low (j / 4) / 4 ^ (j % 4) % 4
        else if f = 9 ∨ f = 11 then row (j / 2) / 16 ^ (j % 2) % 16
        else if f = 2 then row (4 * j) + 2 ^ 8 * row (4 * j + 1) + 2 ^ 16 * row (4 * j + 2) + 2 ^ 24 * row (4 * j + 3)
        else if f ≤ 1 then row (2 * j) + 2 ^ 8 * row (2 * j + 1) else row j) ∧
  (∀ (s : State) (c k : Nat) (m : Cmd) (t : TileNo) (pa pb : Reg) (ra rb : List OpRow), untouched s c 0 k m → m.instr = .mma t pa pb →
    let n := m.ec.klen.toNat % 2 ^ 20
    let g := s.cmdAgent c 0 m
    0 < n → s.unitsOk g (operandUnits n (opGroup m) [opA m, opB m]) = .ok () → s.readRows g (opA m) n (opGroup m) (List.range 32) = .ok ra →
    s.readRows g (opB m) n (opGroup m) (List.range 32) = .ok rb →
    ∃ u, exec (.engineCommandComplete c 0 k) s = .next u ∧
      (∀ x y p q, x < 32 → y < 32 → ra[x]? = some p → rb[y]? = some q →
        let old := (s.tile c t).el x y
        (u.tile c t).el x y = (accEl m.ec.fmta m.ec.fmtb n old p q).1 ∧
        (pairInt (fmtCode m.ec.fmta) (fmtCode m.ec.fmtb) = true → (u.tile c t).el x y = BitVec.ofInt 32 (old.toInt +
          ((p.els.zip q.els).map (fun e => intEl (fmtCode m.ec.fmta) e.1 * intEl (fmtCode m.ec.fmtb) e.2)).sum)) ∧
        (isFloatCode (fmtCode m.ec.fmta) = true → isFloatCode (fmtCode m.ec.fmtb) = true → (u.tile c t).el x y = BitVec.ofNat 32 ((p.els.zip q.els).foldl
          (fun a e => Fmt.sf32.round ((Fmt.sf32.decode a).add (((codeFmt (fmtCode m.ec.fmta)).decode e.1).mul ((codeFmt (fmtCode m.ec.fmtb)).decode e.2)))) old.toNat))) ∧
      ((u.slot c m.slot).iovf = true ↔ (s.slot c m.slot).iovf = true ∨ ∃ x y p q, x < 32 ∧ y < 32 ∧ ra[x]? = some p ∧ rb[y]? = some q ∧
        (accEl m.ec.fmta m.ec.fmtb n ((s.tile c t).el x y) p q).2 = true) ∧
      (u.tile c t).alloc = (s.tile c t).alloc ∧ (∀ q, q ≠ t → u.tile c q = s.tile c q) ∧ u.mem = s.mem ∧ ectx (u.slot c m.slot).counter 0 = BitVec.ofNat 64 m.num) ∧
  (∀ (s : State) (c k : Nat) (m : Cmd) (t : TileNo) (b : Reg) (off : Word) (z : Bool), untouched s c 0 k m → m.instr = .mst t b off z → memInv s →
    let ti := s.tile c t
    let g := s.cmdAgent c 0 m
    let l := (List.range 32).flatMap (drainRuns m ti)
    let at_ := coreKey c (m.ec.amaxp.toNat % 2 ^ 19)
    (∀ w ∈ drainAll m ti, ∀ r ∈ w.parts, ∃ o, spaceOf r.1 = .self o ∧ o + r.2.length ≤ 0x80000 ∧ s.engPlace g r.1 r.2.length 5 2 = .ok (.plain (coreKey c o))) →
    (m.ec.dfmt.getLsbD 4 = true → s.engPlace g m.ec.amaxp 4 5 3 = .ok (.plain at_) ∧ m.ec.amaxp.toNat % 2 ^ 19 + 4 ≤ 0x80000 ∧
      (∃ o, spaceOf m.ec.amaxp = .self o) ∧ s.mergeFault g m.ec.amaxp = none ∧ ∀ i, i < 4 → runByte l (m.ec.amaxp + BitVec.ofNat 64 i) = none) →
    ∃ u, exec (.engineCommandComplete c 0 k) s = .next u ∧
      (∀ o, o < 0x80000 → (m.ec.dfmt.getLsbD 4 = true → coreKey c o < at_ ∨ at_ + 4 ≤ coreKey c o) →
        Memory.read u.mem (coreKey c o) = (runByte l (selfAddr o)).getD (Memory.read s.mem (coreKey c o))) ∧
      (m.ec.dfmt.getLsbD 4 = true → Memory.readN u.mem at_ 4 = atomicFn 22 32 (Memory.readN s.mem at_ 4) (amaxOf ti) 0) ∧
      (∀ x, x < coreKey c 0 ∨ coreKey c 0x80000 ≤ x → Memory.read u.mem x = Memory.read s.mem x) ∧
      (∀ x y, (u.tile c t).el x y = if z then 0 else ti.el x y) ∧ (u.tile c t).alloc = ti.alloc ∧ (∀ q, q ≠ t → u.tile c q = s.tile c q) ∧
      (u.slot c m.slot).dnan = ((s.slot c m.slot).dnan || (List.range 32).any (fun i => (drainRow m ti i).any (·.2.1))) ∧
      (u.slot c m.slot).dovf = ((s.slot c m.slot).dovf || (List.range 32).any (fun i => (drainRow m ti i).any (·.2.2))) ∧
      ectx (u.slot c m.slot).counter 0 = BitVec.ofNat 64 m.num)

/-- R47, R190 and R202. TALLOC moves the spill values of the tile to core memory and changes none, in whichever slot. How much of the work done MPROG shows is
log entry 8 (DESIGN CHOICE); that a moved word is dropped at a place its domain may not write, log entry 74 (DESIGN CHOICE). Completes talloc, tfree, mprog, mstat. -/
def Obligations.TilesAndStatus : Prop :=
  (∀ (s : State) (t : TileNo) (int : Bool), mayIssue {} s = true → memInv s → (s.tile s.cur.core t).alloc = false →
    ∃ u, exec (.talloc t int) s = .next u ∧ (u.tile s.cur.core t).alloc = true ∧ (u.tile s.cur.core t).int = int ∧ (∀ x y, (u.tile s.cur.core t).el x y = 0) ∧
      (∀ k, k ≠ t → u.tile s.cur.core k = s.tile s.cur.core k) ∧ regsKeep s u ∧ leftAs s u s.nextPc ∧
      (∀ q, (u.mine.slot q).spill.map (fun e => (e.1, e.2.val)) = (s.mine.slot q).spill.map (fun e => (e.1, e.2.val)) ∧ (u.mine.slot q).calls = (s.mine.slot q).calls ∧
        ((s.mine.slot q).calls = [] → ∀ n, u.filled s.cur.core q n = s.filled s.cur.core q n) ∧
        (q < 13 → ∀ e ∈ (u.mine.slot q).spill, ∀ x y, e.2.place ≠ .tile t.toNat x y) ∧
        (q < 13 → ∀ e ∈ (s.mine.slot q).spill, (∃ x y, e.2.place = .tile t.toNat x y) →
          (e.1, { e.2 with place := .memory }) ∈ (u.mine.slot q).spill ∧
          (s.foreign s.cur.core e.2.dom (s.spillOff s.cur.core q e.1) 8 = false → s.fieldGuard s.cur.core (s.spillOff s.cur.core q e.1) 8 = false →
            (∀ r, r < 13 → ∀ f ∈ (s.mine.slot r).spill, (∃ x y, f.2.place = .tile t.toNat x y) → r = q ∧ f = e ∨
              s.spillOff s.cur.core r f.1 + 8 ≤ s.spillOff s.cur.core q e.1 ∨ s.spillOff s.cur.core q e.1 + 8 ≤ s.spillOff s.cur.core r f.1) →
            u.coreWord s.cur.core (s.spillOff s.cur.core q e.1) = e.2.val))) ∧
      (∀ k, (∀ q, q < 13 → ∀ e ∈ (s.mine.slot q).spill, (∃ x y, e.2.place = .tile t.toNat x y) →
          k < coreKey s.cur.core (s.spillOff s.cur.core q e.1) ∨ coreKey s.cur.core (s.spillOff s.cur.core q e.1) + 8 ≤ k) →
        Memory.read u.mem k = Memory.read s.mem k) ∧ (∀ d, d ≠ s.cur.core → u.core d = s.core d)) ∧
  (∀ (s : State) (t : TileNo), mayIssue {} s = true → (s.tile s.cur.core t).alloc = true → (∀ m ∈ s.mine.cmds 0, tileNamed m.instr ≠ some t) →
    ∃ u, exec (.tfree t) s = .next u ∧ (u.tile s.cur.core t).alloc = false ∧ (∀ k, k ≠ t → u.tile s.cur.core k = s.tile s.cur.core k) ∧ regsKeep s u ∧
      leftAs s u s.nextPc ∧ u.mem = s.mem ∧ onlyMine s u) ∧
  (∀ (s : State) (t : TileNo) (int : Bool), mayIssue {} s = true →
    ((s.tile s.cur.core t).alloc = true → traps (.talloc t int) s 0x12 0 (BitVec.ofNat 64 (t.toNat + 16))) ∧
    ((s.tile s.cur.core t).alloc = false → traps (.tfree t) s 0x12 0 (BitVec.ofNat 64 (t.toNat + 32)))) ∧
  (∀ (s : State) (d : Reg), mayIssue { ws := [d], var := true } s = true →
    ((∀ m ∈ tget s.mine.exec 0 [], m.slot ≠ s.cur.slot) → ∃ u, exec (.mprog d) s = .next u ∧ sentResult s u d 0 ∧ onlyMe s u) ∧
    (∀ m, (tget s.mine.exec 0 []).find? (fun m => m.slot == s.cur.slot) = some m →
      ∃ u n, exec (.mprog d) s = .next u ∧ m.shown ≤ n ∧ n ≤ max m.shown (s.matWork s.cur.core m) ∧ sentResult s u d (BitVec.ofNat 64 (n + m.num % 2 ^ 32 * 2 ^ 32)) ∧ u.mem = s.mem)) ∧
  (∀ (s : State) (d : Reg) (clr : Bool), mayIssue { ws := [d] } s = true →
    ∃ u, exec (.mstat d clr) s = .next u ∧ leftAs s u s.nextPc ∧ othersKeep s u d ∧ u.me.v = s.me.v ∧ onlyMe s u ∧
      u.me.rd d = written d (BitVec.ofNat 64 (ofBool s.me.iovf + ofBool s.me.dnan * 2 + ofBool s.me.dovf * 4 +
        ofBool (s.mine.cmds 0 |>.any (fun m => m.slot == s.cur.slot)) * 8)) ∧
      u.me.iovf = (s.me.iovf && !clr) ∧ u.me.dnan = (s.me.dnan && !clr) ∧ u.me.dovf = (s.me.dovf && !clr))

/-- R204 to R212. That a copy's reads and writes which have not been performed singly are performed as it completes is log entry 26 (DESIGN CHOICE). Completes cpy, cfill, cpym, cpy2, cprog, rxopen, rxclose, rxcnt. -/
def Obligations.CopiesAndWindows : Prop :=
  (∀ (i : Instr) (s : State) (a b c : Reg), i ∈ [Instr.cpy a b c, .cfill a b c] → mayIssue { rs := [a, b, c], late := false } s = true → queueOpen s 2 = true →
    (s.me.rd c).toNat < 2 ^ 40 →
    ∃ u, exec i s = .next u ∧ entered s u 2 i [s.me.rd a, s.me.rd b, s.me.rd c] ∧ leftAs s u s.nextPc) ∧
  (∀ (s : State) (a b c : Reg), mayIssue { rs := [a, b, c], late := false } s = true → queueOpen s 2 = true →
    (s.me.rd c).toNat < 2 ^ 40 → (s.me.rd a).toNat < 0x80000 → rectInside s.me.ec.cpymask s.mine.jobgrid = true →
    ∃ u, exec (.cpym a b c) s = .next u ∧ entered s u 2 (.cpym a b c) [s.me.rd a, s.me.rd b, s.me.rd c] ∧ leftAs s u s.nextPc) ∧
  (∀ (s : State) (a b : Reg) (tr : Bool) (es : BitVec 2), mayIssue { rs := [a, b], late := false } s = true → queueOpen s 2 = true →
    (tr = true → (s.me.rd a).toNat % 2 ^ es.toNat = 0 ∧ (s.me.rd b).toNat % 2 ^ es.toNat = 0 ∧ s.me.ec.cpyw.toNat % 2 ^ 40 % 2 ^ es.toNat = 0) →
    ∃ u, exec (.cpy2 a b tr es) s = .next u ∧ entered s u 2 (.cpy2 a b tr es) [s.me.rd a, s.me.rd b] ∧ leftAs s u s.nextPc) ∧
  (∀ (i : Instr) (s : State) (a b c : Reg), i ∈ [Instr.cpy a b c, .cfill a b c, .cpym a b c] → mayIssue { rs := [a, b, c], late := false } s = true →
    s.me.branches = [] → 2 ^ 40 ≤ (s.me.rd c).toNat →
    traps i s 0x15 0 (BitVec.ofNat 64 (2 + 2 * 16 + ((ectx s.me.issued 2).toNat + 1) % 2 ^ 32 * 2 ^ 32))) ∧
  (∀ (s : State) (d b : Reg), mayIssue { rs := [b], ws := [d] } s = true → (∀ m ∈ tget s.mine.exec 2 [], m.slot = s.cur.slot → m.num ≠ (s.me.rd b).toNat) →
    ∃ u, exec (.cprog d b) s = .next u ∧ wroteReg s u d (BitVec.ofNat 64 (tget s.me.copyBytes (s.me.rd b).toNat 0))) ∧
  (∀ (s : State) (d b : Reg) (m : Cmd), mayIssue { rs := [b], ws := [d] } s = true → m.isMarker = false →
    (tget s.mine.exec 2 []).find? (fun m => m.slot == s.cur.slot && m.num == (s.me.rd b).toNat) = some m →
    ∃ u, exec (.cprog d b) s = .next u ∧ wroteReg s u d (BitVec.ofNat 64 (copyProgress m))) ∧
  (∀ (s : State) (n : BitVec 2) (w r : Bool) (a b : Reg) (off : Nat), mayIssue { rs := [a, b] } s = true → spaceOf (s.me.rd a) = .self off → off % 64 = 0 →
    0 < (s.me.rd b).toNat → (s.me.rd b).toNat % 64 = 0 → off + (s.me.rd b).toNat ≤ 0x80000 →
    ∃ u, exec (.rxopen n w r a b) s = .next u ∧
      tget u.mine.windows n.toNat Window.reset = { isOpen := true, w := w, r := r, base := off, len := (s.me.rd b).toNat, cnt := 0, known := true } ∧
      (∀ k, k ≠ n.toNat → tget u.mine.windows k Window.reset = tget s.mine.windows k Window.reset) ∧ regsKeep s u ∧ leftAs s u s.nextPc ∧ u.mem = s.mem ∧ onlyMine s u) ∧
  (∀ (s : State) (n : BitVec 2) (w r : Bool) (a b : Reg), mayIssue { rs := [a, b] } s = true →
    ((∀ off, spaceOf (s.me.rd a) ≠ .self off) ∨ (s.me.rd a).toNat % 64 ≠ 0 ∨ (s.me.rd b).toNat = 0 ∨ (s.me.rd b).toNat % 64 ≠ 0 ∨
      0x80000 < (s.me.rd a).toNat % 2 ^ 19 + (s.me.rd b).toNat) → traps (.rxopen n w r a b) s 0x01 0 3) ∧
  (∀ (s : State) (n : BitVec 2), mayIssue {} s = true →
    ∃ u, exec (.rxclose n) s = .next u ∧ (tget u.mine.windows n.toNat Window.reset).isOpen = false ∧
      (tget u.mine.windows n.toNat Window.reset).cnt = (tget s.mine.windows n.toNat Window.reset).cnt ∧
      (tget u.mine.windows n.toNat Window.reset).base = (tget s.mine.windows n.toNat Window.reset).base ∧
      (tget u.mine.windows n.toNat Window.reset).len = (tget s.mine.windows n.toNat Window.reset).len ∧
      (∀ k, k ≠ n.toNat → tget u.mine.windows k Window.reset = tget s.mine.windows k Window.reset) ∧ regsKeep s u ∧ leftAs s u s.nextPc ∧ u.mem = s.mem ∧ onlyMine s u) ∧
  (∀ (s : State) (d : Reg) (n : BitVec 2), mayIssue { ws := [d] } s = true →
    ∃ u, exec (.rxcnt d n) s = .next u ∧ wroteReg s u d (tget s.mine.windows n.toNat Window.reset).cnt) ∧
  (∀ (s : State) (c k : Nat) (m : Cmd) (B : Word → Byte) (x y z : Reg), untouched s c 2 k m → memInv s → sourceReads s c m B → m.instr = .cpy x y z →
    copies s c k m false ((m.args.getD 2 0).toNat % 2 ^ 40) [0] (fun _ i => m.args.getD 0 0 + BitVec.ofNat 64 i) (fun _ i => B (m.args.getD 1 0 + BitVec.ofNat 64 i))) ∧
  (∀ (s : State) (c k : Nat) (m : Cmd) (B : Word → Byte) (x y z : Reg), untouched s c 2 k m → memInv s → sourceReads s c m B → m.instr = .cpym x y z →
    copies s c k m true ((m.args.getD 2 0).toNat % 2 ^ 40) (gridCores m.ec.cpymask) (fun d i => windowAddr d ((m.args.getD 0 0).toNat + i))
      (fun _ i => B (m.args.getD 1 0 + BitVec.ofNat 64 i))) ∧
  (∀ (s : State) (c k : Nat) (m : Cmd) (B : Word → Byte) (x y : Reg) (tr : Bool) (es : BitVec 2), untouched s c 2 k m → memInv s → sourceReads s c m B →
    m.instr = .cpy2 x y tr es →
    let w := m.ec.cpyw.toNat % 2 ^ 40
    let n := 2 ^ es.toNat
    copies s c k m true (w * (m.ec.cpyh.toNat % 2 ^ 32)) [0]
      (fun _ i => if tr then m.args.getD 0 0 + BitVec.ofNat 64 (i % w / n) * m.ec.cpyds + BitVec.ofNat 64 (i / w * n + i % w % n)
        else m.args.getD 0 0 + BitVec.ofNat 64 (i / w) * m.ec.cpyds + BitVec.ofNat 64 (i % w))
      (fun _ i => B (m.args.getD 1 0 + BitVec.ofNat 64 (i / w) * m.ec.cpyss + BitVec.ofNat 64 (i % w)))) ∧
  (∀ (s : State) (c k : Nat) (m : Cmd) (x y z : Reg), untouched s c 2 k m → memInv s → m.instr = .cfill x y z →
    copies s c k m false ((m.args.getD 2 0).toNat % 2 ^ 40) [0] (fun _ i => m.args.getD 0 0 + BitVec.ofNat 64 i)
      (fun _ i => BitVec.ofNat 8 ((m.args.getD 1 0).toNat / 2 ^ (8 * (((m.args.getD 0 0).toNat + i) % 8)))))

/-- R230 to R232. The TINFO of WINDOW reason 7, with TADDR 0, ACC 1 and SPACE 3, is log entry 35 (DEDUCED). Completes rput, portWriteArrival, rtake, rpeek. -/
def Obligations.PortRegisters : Prop :=
  (∀ (s : State) (a b : Reg) (idx : BitVec 5), mayIssue { rs := [a, b] } s = true →
    ((s.me.rd a).toNat < 2048 → s.inJob s.cur.core (s.me.rd a).toNat = true → s.returnedTo (s.me.rd a).toNat = false → s.sendHeld = false → s.startHeld s.me = false →
      ∃ u w, exec (.rput a b idx) s = .next u ∧ u.portWrites = s.portWrites ++ [w] ∧ w.src = s.cur.core ∧ w.dst = (s.me.rd a).toNat ∧ w.idx = idx.toNat ∧
        w.val = s.me.rd b ∧ w.returned = false ∧ regsKeep s u ∧ leftAs s u s.nextPc ∧ u.mem = s.mem ∧ u.messages = s.messages) ∧
    (2048 ≤ (s.me.rd a).toNat → traps (.rput a b idx) s 0x01 0 3) ∧
    ((s.me.rd a).toNat < 2048 → s.inJob s.cur.core (s.me.rd a).toNat = false → traps (.rput a b idx) s 0x07 0 (memInfo 7 1 3 s.me.asid 0 false))) ∧
  (∀ (s : State) (i : Nat) (w : PortWrite), s.portWrites[i]? = some w → (∀ v ∈ s.portWrites.take i, ¬(v.src = w.src ∧ v.dst = w.dst)) →
    (s.core w.dst).vf.moving = none → s.seamHolds 3 w.src w.dst = false → (s.core w.dst).phase = .running → (s.core w.dst).job = (s.core w.src).job →
    ∃ u, exec (.portWriteArrival i) s = .next u ∧ u.mem = s.mem ∧
      ((tget (s.core w.dst).ports w.idx Port.reset).present = false → tget (u.core w.dst).ports w.idx Port.reset = { present := true, val := w.val } ∧
        u.portWrites = s.portWrites.eraseIdx i ∧ (u.core w.dst).held = (s.core w.dst).held) ∧
      ((tget (s.core w.dst).ports w.idx Port.reset).present = true → (s.core w.dst).held.length < 64 →
        (u.core w.dst).ports = (s.core w.dst).ports ∧ (u.core w.dst).held = (s.core w.dst).held ++ [{ w with returned := false }] ∧
        u.portWrites = s.portWrites.eraseIdx i) ∧
      ((tget (s.core w.dst).ports w.idx Port.reset).present = true → 64 ≤ (s.core w.dst).held.length →
        u.cores = s.cores ∧ u.portWrites = s.portWrites.set i { w with returned := true })) ∧
  (∀ (s : State) (d : Reg) (idx : BitVec 5) (v : Word), mayIssue { ws := [d] } s = true → tget s.mine.ports idx.toNat Port.reset = { present := true, val := v } →
    s.mine.rtakeBefore s.cur.slot idx.toNat (s.me.waitsSince (.rtake idx.toNat) s.rtime.toNat) = false →
    ∃ u, exec (.rtake d idx) s = .next u ∧ u.me.rd d = written d v ∧ othersKeep s u d ∧ leftAs s u s.nextPc ∧ onlyMine s u ∧
      ((∀ w ∈ s.mine.held, w.idx ≠ idx.toNat) → (tget u.mine.ports idx.toNat Port.reset).present = false ∧ u.mine.held = s.mine.held) ∧
      (∀ l1 w l2, s.mine.held = l1 ++ w :: l2 → w.idx = idx.toNat → (∀ x ∈ l1, x.idx ≠ idx.toNat) →
        tget u.mine.ports idx.toNat Port.reset = { present := true, val := w.val } ∧ u.mine.held = s.mine.held.erase w) ∧
      (∀ k, k ≠ idx.toNat → tget u.mine.ports k Port.reset = tget s.mine.ports k Port.reset)) ∧
  (∀ (s : State) (d : Reg) (idx : BitVec 5), mayIssue { ws := [d] } s = true → (tget s.mine.ports idx.toNat Port.reset).present = false →
    waits (.rtake d idx) s (.rtake idx.toNat)) ∧
  (∀ (s : State) (d : Reg), mayIssue { ws := [d], late := false } s = true →
    ∃ u v, exec (.rpeek d) s = .next u ∧ wroteReg s u d v ∧ ∀ i, i < 64 → v.getLsbD i = (decide (i < 32) && (tget s.mine.ports i Port.reset).present))

/-- R233 to R236, and the sends that R229 and R405 refuse: WINDOW reason 7, whose TINFO is log entry 35 (DEDUCED). The count of the Retriever's heap is log
entry 40 (DEDUCED). Completes msend, messageArrival, mrecv, mpoll, loopb. -/
def Obligations.Messages : Prop :=
  (∀ (s : State) (a b c : Reg), mayIssue { rs := [a, b, c] } s = true → (s.me.rd a).toNat < 2048 → s.inJob s.cur.core (s.me.rd a).toNat = true →
    s.returnedTo (s.me.rd a).toNat = false → s.sendHeld = false → s.startHeld s.me = false →
    ∃ u m, exec (.msend a b c) s = .next u ∧ u.messages = s.messages ++ [m] ∧ m.src = s.cur.core ∧ m.dst = (s.me.rd a).toNat ∧ m.w0 = s.me.rd b ∧
      m.w1 = s.me.rd c ∧ regsKeep s u ∧ leftAs s u s.nextPc ∧ u.mem = s.mem ∧ u.portWrites = s.portWrites) ∧
  (∀ (s : State) (a b c : Reg), mayIssue { rs := [a, b, c] } s = true →
    (2048 ≤ (s.me.rd a).toNat → traps (.msend a b c) s 0x01 0 3) ∧
    ((s.me.rd a).toNat < 2048 → s.inJob s.cur.core (s.me.rd a).toNat = false → traps (.msend a b c) s 0x07 0 (memInfo 7 1 3 s.me.asid 0 false))) ∧
  (∀ (s : State) (a b c : Reg) (fin : Bool), mayIssue { rs := [a, b, c], who := .retriever } s = true → s.inJob s.cur.core ((s.me.rd c).toNat % 2048) = false →
    traps (.loopb a b c fin) s 0x07 0 (memInfo 7 1 3 s.me.asid 0 false)) ∧
  (∀ (s : State) (i : Nat) (m : Msg), s.messages[i]? = some m → (∀ v ∈ s.messages.take i, ¬(v.src = m.src ∧ v.dst = m.dst)) →
    (s.core m.dst).vf.moving = none → s.seamHolds 3 m.src m.dst = false → (s.core m.dst).phase = .running → (s.core m.dst).job = (s.core m.src).job →
    ∃ u, exec (.messageArrival i) s = .next u ∧ u.mem = s.mem ∧
      ((s.core m.dst).backlog = false → (s.core m.dst).inbox.length < 32 →
        (u.core m.dst).inbox = (s.core m.dst).inbox ++ [m] ∧ u.messages = s.messages.eraseIdx i ∧ (u.core m.dst).backlog = false) ∧
      ((s.core m.dst).backlog = true ∨ 32 ≤ (s.core m.dst).inbox.length → (u.core m.dst).backlog = true ∧ (u.core m.dst).inbox = (s.core m.dst).inbox ∧
        ((s.core m.dst).staging.length < 4 → (u.core m.dst).staging = (s.core m.dst).staging ++ [m] ∧ u.messages = s.messages.eraseIdx i) ∧
        (4 ≤ (s.core m.dst).staging.length → (u.core m.dst).staging = (s.core m.dst).staging ∧ u.messages = s.messages) ∧
        ((s.slot m.dst 12).mode = .free → (u.slot m.dst 12).mode = .live ∧ (u.slot m.dst 12).dom = 0 ∧ (u.slot m.dst 12).eff = 3))) ∧
  (∀ (s : State) (a b c : Reg) (m : Msg) (r : List Msg), mayIssue { ws := [a, b, c] } s = true → s.cur.slot ≠ 12 → s.mine.inbox = m :: r →
    ∃ u, exec (.mrecv a b c) s = .next u ∧ u.mine.inbox = r ∧ u.me.rd c = written c (BitVec.ofNat 64 m.src) ∧ (b ≠ c → u.me.rd b = written b m.w1) ∧
      (a ≠ b → a ≠ c → u.me.rd a = written a m.w0) ∧ (∀ x, x ≠ a → x ≠ b → x ≠ c → u.me.rd x = s.me.rd x) ∧ leftAs s u s.nextPc ∧ onlyMine s u) ∧
  (∀ (s : State) (a b c : Reg) (m : Msg) (r : List Msg), mayIssue { ws := [a, b, c] } s = true → s.cur.slot = 12 → s.mine.staging = m :: r →
    s.mine.heap < s.mine.hcap →
    ∃ u, exec (.mrecv a b c) s = .next u ∧ u.mine.staging = r ∧ u.mine.heap = s.mine.heap + 1 ∧ u.me.rd c = written c (BitVec.ofNat 64 m.src) ∧
      u.mine.inbox = s.mine.inbox) ∧
  (∀ (s : State) (a b c : Reg), mayIssue { ws := [a, b, c] } s = true → s.cur.slot ≠ 12 → s.mine.inbox = [] →
    waits (.mrecv a b c) s .mrecv) ∧
  (∀ (s : State) (d : Reg), mayIssue { ws := [d], late := false } s = true →
    ∃ u, exec (.mpoll d) s = .next u ∧ wroteReg s u d (BitVec.ofNat 64 (s.mine.inbox.length % 64 + ofBool s.mine.backlog * 2 ^ 32))) ∧
  (∀ (s : State) (a b c : Reg) (fin : Bool), mayIssue { rs := [a, b, c], who := .retriever } s = true → s.inJob s.cur.core ((s.me.rd c).toNat % 2048) = true →
    s.mine.inbox.length < 32 →
    ∃ u m, exec (.loopb a b c fin) s = .next u ∧ u.mine.inbox = s.mine.inbox ++ [m] ∧ m.w0 = s.me.rd a ∧ m.w1 = s.me.rd b ∧ m.src = (s.me.rd c).toNat % 2048 ∧
      u.mem = s.mem ∧ (∀ d, d ≠ s.cur.core → u.core d = s.core d) ∧
      (fin = true → s.mine.staging = [] → u.mine.backlog = false ∧ u.me.mode = .free ∧ (s.me.acc = [] → onlyMine s u)) ∧
      (fin = false ∨ s.mine.staging ≠ [] → u.mine.backlog = s.mine.backlog ∧ leftAs s u s.nextPc ∧ regsKeep s u ∧ onlyMine s u))

/-- R225 to R228, and R407: a refused post counts. That each slot of a core counts for itself, with the number of its first refused post's exchange slot, is log entry 68
(DEDUCED). Completes xput, xputr, xcnt. -/
def Obligations.ExchangePosts : Prop :=
  (∀ (s : State) (v : VReg) (b c : Reg) (l : BitVec 2), mayIssue { rs := [b, c] } s = true → (s.me.rd c).toNat % 64 = 0 →
    ((∃ p ∈ s.mine.xslot, p.tag = l.toNat + 1 ∧ p.slot = (s.me.rd b).toNat % 65536) → s.mine.vecBusy s.cur.slot v = false →
      ∃ u q, exec (.xput v b c l) s = .next u ∧ q ∈ u.mine.posts ∧ q.lvl = l.toNat + 1 ∧ q.slot = (s.me.rd b).toNat % 65536 ∧ q.port = none ∧ q.off = s.me.rd c ∧
        q.data = s.me.vrd v ∧ (∀ x ∈ u.mine.posts, x.lvl = q.lvl → x.slot = q.slot → x = q) ∧
        (∀ x, ¬(x.lvl = q.lvl ∧ x.slot = q.slot) → (x ∈ u.mine.posts ↔ x ∈ s.mine.posts)) ∧ u.mine.overrun = s.mine.overrun ∧ regsKeep s u ∧ leftAs s u s.nextPc ∧
        u.mem = s.mem ∧ onlyMine s u) ∧
    ((∀ p ∈ s.mine.xslot, ¬(p.tag = l.toNat + 1 ∧ p.slot = (s.me.rd b).toNat % 65536)) →
      ∃ u, exec (.xput v b c l) s = .next u ∧ u.mine.posts = s.mine.posts ∧
        ((∀ o ∈ s.mine.overrun, ¬(o.lvl = l.toNat + 1 ∧ o.by_ = s.cur.slot ∧ o.carried = false)) →
          u.mine.overrun = s.mine.overrun ++ [({ lvl := l.toNat + 1, carried := false, fslot := (s.me.rd b).toNat % 65536, count := 1, by_ := s.cur.slot, fpc := s.cur.pc, page := s.cur.page, op := s.cur.op } : Overrun)]) ∧
        ((∃ o ∈ s.mine.overrun, o.lvl = l.toNat + 1 ∧ o.by_ = s.cur.slot ∧ o.carried = false) →
          u.mine.overrun = s.mine.overrun.map (fun o => if o.lvl = l.toNat + 1 ∧ o.by_ = s.cur.slot ∧ o.carried = false then { o with count := o.count + 1 } else o)) ∧
        regsKeep s u ∧ leftAs s u s.nextPc ∧ u.mem = s.mem ∧ onlyMine s u)) ∧
  (∀ (s : State) (v : VReg) (b c : Reg) (l : BitVec 2), mayIssue { rs := [b, c] } s = true → (s.me.rd c).toNat % 64 ≠ 0 →
    traps (.xput v b c l) s 0x06 (s.me.rd c) 6) ∧
  (∀ (s : State) (a b : Reg) (idx : BitVec 5) (l : BitVec 2), mayIssue { rs := [a, b] } s = true →
    (∃ p ∈ s.mine.xslot, p.tag = l.toNat + 1 ∧ p.slot = (s.me.rd b).toNat % 65536) →
    ∃ u q, exec (.xputr a b idx l) s = .next u ∧ q ∈ u.mine.posts ∧ q.lvl = l.toNat + 1 ∧ q.slot = (s.me.rd b).toNat % 65536 ∧ q.port = some idx.toNat ∧
      q.data.setWidth 64 = s.me.rd a ∧ (∀ x ∈ u.mine.posts, x.lvl = q.lvl → x.slot = q.slot → x = q) ∧ regsKeep s u ∧ leftAs s u s.nextPc ∧ u.mem = s.mem ∧
      onlyMine s u) ∧
  (∀ (s : State) (a b : Reg) (idx : BitVec 5) (l : BitVec 2), mayIssue { rs := [a, b] } s = true →
    (∀ p ∈ s.mine.xslot, ¬(p.tag = l.toNat + 1 ∧ p.slot = (s.me.rd b).toNat % 65536)) →
    ∃ u, exec (.xputr a b idx l) s = .next u ∧ u.mine.posts = s.mine.posts ∧
      ((∀ o ∈ s.mine.overrun, ¬(o.lvl = l.toNat + 1 ∧ o.by_ = s.cur.slot ∧ o.carried = false)) →
        u.mine.overrun = s.mine.overrun ++ [({ lvl := l.toNat + 1, carried := false, fslot := (s.me.rd b).toNat % 65536, count := 1, by_ := s.cur.slot, fpc := s.cur.pc, page := s.cur.page, op := s.cur.op } : Overrun)]) ∧
      ((∃ o ∈ s.mine.overrun, o.lvl = l.toNat + 1 ∧ o.by_ = s.cur.slot ∧ o.carried = false) →
        u.mine.overrun = s.mine.overrun.map (fun o => if o.lvl = l.toNat + 1 ∧ o.by_ = s.cur.slot ∧ o.carried = false then { o with count := o.count + 1 } else o)) ∧
      regsKeep s u ∧ leftAs s u s.nextPc ∧ u.mem = s.mem ∧ onlyMine s u) ∧
  (∀ (s : State) (d : Reg) (l : BitVec 2), mayIssue { ws := [d], late := false } s = true →
    ∃ u, exec (.xcnt d l) s = .next u ∧ wroteReg s u d (tget s.mine.xcnt (l.toNat + 1) 0))

/-- R215 and R218 to R221; ILLEGAL reason 6 of R405. That WAITP of a phase exactly 32,768 ahead parks, as R219's difference says, is log entry 62 (DEDUCED).
Completes arv, waitp, bphase, bred, barrierArrival. -/
def Obligations.BarrierInstructions : Prop :=
  (∀ (s : State) (ch : BitVec 5) (b : Reg), mayIssue { rs := [b], who := .threads } s = true → s.mine.member ch.toNat = true → s.mine.chanLevel ch.toNat = none →
    s.mine.fieldChan ch.toNat = false → (s.mine.chan ch.toNat).ac - (s.mine.chan ch.toNat).p ≠ 32767 →
    ∃ u p, exec (.arv ch b) s = .next u ∧ (u.mine.chan ch.toNat).ac = (s.mine.chan ch.toNat).ac + 1 ∧ (u.mine.chan ch.toNat).p = (s.mine.chan ch.toNat).p ∧
      u.mine.arvs = s.mine.arvs ++ [p] ∧ p.ch = ch.toNat ∧ p.value = (s.me.rd b).setWidth 32 ∧ (∀ x ∈ s.me.acc, x.id ∈ p.after) ∧ regsKeep s u ∧
      leftAs s u s.nextPc ∧ u.mem = s.mem ∧ u.arrivals = s.arrivals ∧ onlyMine s u) ∧
  (∀ (s : State) (ch : BitVec 5) (b : Reg), mayIssue { rs := [b], who := .threads } s = true → s.mine.member ch.toNat = true →
    ((s.mine.chanLevel ch.toNat).isSome = true ∨ s.mine.fieldChan ch.toNat = true → traps (.arv ch b) s 0x01 0 6) ∧
    (s.mine.chanLevel ch.toNat = none → s.mine.fieldChan ch.toNat = false → (s.mine.chan ch.toNat).ac - (s.mine.chan ch.toNat).p = 32767 →
      waits (.arv ch b) s (.arv ch.toNat))) ∧
  (∀ (s : State) (ch : BitVec 5) (b : Reg), mayIssue { rs := [b], who := .threads } s = true → s.mine.member ch.toNat = true →
    (0 ≤ ((s.mine.chan ch.toNat).p - (s.me.rd b).setWidth 16).toInt →
      ∃ u, exec (.waitp ch b) s = .next u ∧ regsKeep s u ∧ leftAs s u s.nextPc ∧ onlyMe s u ∧ onlyRegs s u) ∧
    (((s.mine.chan ch.toNat).p - (s.me.rd b).setWidth 16).toInt < 0 →
      waits (.waitp ch b) s (.waitp ch.toNat ((s.me.rd b).setWidth 16)))) ∧
  (∀ (s : State) (d : Reg) (ch : BitVec 5), mayIssue { ws := [d], who := .threads } s = true → s.mine.member ch.toNat = true →
    ∃ u, exec (.bphase d ch) s = .next u ∧ wroteReg s u d (BitVec.ofNat 64 ((s.mine.chan ch.toNat).p.toNat + (s.mine.chan ch.toNat).ac.toNat * 2 ^ 16 +
      (s.members s.cur.core ch.toNat).length % 4096 * 2 ^ 32 + s.mine.segMode ch.toNat % 4 * 2 ^ 44))) ∧
  (∀ (s : State) (d : Reg) (ch : BitVec 5) (item : BitVec 3), mayIssue { ws := [d], who := .threads } s = true → s.mine.member ch.toNat = true →
    ∃ u v, exec (.bred d ch item) s = .next u ∧ wroteReg s u d v ∧
      (item = 0 → v = BitVec.ofNat 64 (s.mine.chan ch.toNat).last.sum) ∧ (item = 1 → v = BitVec.ofNat 64 (s.mine.chan ch.toNat).last.min) ∧
      (item = 2 → v = BitVec.ofNat 64 (s.mine.chan ch.toNat).last.max) ∧ (item = 4 → v = BitVec.ofNat 64 (s.mine.chan ch.toNat).last.rlast)) ∧
  (∀ (i : Instr) (s : State) (ch : BitVec 5) (b d : Reg) (item : BitVec 3) (n : Need),
    (i, n) ∈ [(Instr.arv ch b, ({ rs := [b], who := .threads } : Need)), (.waitp ch b, { rs := [b], who := .threads }), (.bphase d ch, { ws := [d], who := .threads }),
      (.bred d ch item, { ws := [d], who := .threads })] → mayIssue n s = true → s.mine.member ch.toNat = false → traps i s 0x01 0 6) ∧
  (∀ (s : State) (c ch : Nat) (l1 l2 : List PendArv) (p : PendArv), (s.core c).arvs = l1 ++ p :: l2 → p.ch = ch → (∀ x ∈ l1, x.ch ≠ ch) →
    (∀ i ∈ p.after, i ∉ s.outstanding c p.slot) →
    ∃ u a, exec (.barrierArrival c ch) s = .next u ∧ u.arrivals = s.arrivals ++ [a] ∧ a.core = c ∧ a.ch = ch ∧ a.value = p.value ∧ a.time = s.rtime.toNat ∧
      a.k = ((s.core c).chan ch).p + BitVec.ofNat 16 (s.arrivals.filter (fun a => a.core == c && a.ch == ch)).length + 1 ∧
      (u.core c).arvs = (s.core c).arvs.erase p ∧ u.mem = s.mem)

/-- R54 and R214 to R222; the release of a level's phase that an overrun has cancelled (R407, R408) and of a field's channel (R284, R399). That a SYNC whose
arrival stands and whose phase is over completes at once is log entry 41 (DEDUCED). Completes sync, syncArrival and barrierRelease. -/
def Obligations.SyncAndPhases : Prop :=
  (∀ (s : State) (l : BitVec 2) (ch : Nat), mayIssue { who := .control } s = true → s.mine.levelChan (l.toNat + 1) = some ch → s.mine.member ch = true →
    s.mine.sync = .none →
    (s.me.syncStands ≠ some (l.toNat + 1) → ∃ u, exec (.sync l) s = .next u ∧ u.mine.sync = .drain (l.toNat + 1) s.nextPc ∧
      u.me.park.map (·.kind) = some (.sync (l.toNat + 1)) ∧ u.me.pc = s.me.pc ∧ regsKeep s u ∧ u.me.acc = s.me.acc ∧ u.mem = s.mem ∧ onlyMine s u) ∧
    (s.me.syncStands = some (l.toNat + 1) → ∃ u, exec (.sync l) s = .next u ∧ leftAs s u s.nextPc ∧ u.me.syncStands = none ∧ regsKeep s u ∧ onlyMe s u)) ∧
  (∀ (s : State) (c l ch : Nat) (n : Word), (s.core c).sync = .drain l n → (s.core c).levelChan l = some ch → s.drained c = true →
    ∃ u a, exec (.syncArrival c) s = .next u ∧ u.arrivals = s.arrivals ++ [a] ∧ a.core = c ∧ a.ch = ch ∧ a.value = s.rtime.setWidth 32 ∧ a.time = s.rtime.toNat ∧
      a.ovr = (s.core c).overrun.any (fun o => o.lvl == l) ∧ (u.core c).sync = .arrived l n ∧ ((u.core c).chan ch).ac = ((s.core c).chan ch).ac + 1 ∧
      ((u.core c).chan ch).p = ((s.core c).chan ch).p ∧ (u.slot c 0).syncStands = some l ∧ (u.slot c 0).g = (s.slot c 0).g ∧ u.mem = s.mem) ∧
  (∀ (s : State) (c ch : Nat) (l : List Arrival), s.phaseArrivals c ch = some l → l ≠ [] → (l.map (·.core)).Nodup → (s.core c).chanLevel ch = none →
    (s.core c).fieldOn ch = none → phaseTime l ≤ s.rtime.toNat →
    ∃ u, exec (.barrierRelease c ch) s = .next u ∧ u.mem = s.mem ∧ u.exchanges = s.exchanges ∧
      u.arrivals = s.arrivals.filter (fun a => !l.contains a) ∧
      (∀ a ∈ l, ((u.core a.core).chan ch).p = ((s.core a.core).chan ch).p + 1 ∧ ((u.core a.core).chan ch).ac = ((s.core a.core).chan ch).ac ∧
        ((u.core a.core).chan ch).last.sum = (l.map (fun x => x.value.toNat)).sum ∧
        (∃ x ∈ l, ((u.core a.core).chan ch).last.min = x.value.toNat) ∧ (∀ x ∈ l, ((u.core a.core).chan ch).last.min ≤ x.value.toNat) ∧
        (∃ x ∈ l, ((u.core a.core).chan ch).last.max = x.value.toNat) ∧ (∀ x ∈ l, x.value.toNat ≤ ((u.core a.core).chan ch).last.max) ∧
        (∃ x ∈ l, ((u.core a.core).chan ch).last.rlast = x.time) ∧ (∀ x ∈ l, x.time ≤ ((u.core a.core).chan ch).last.rlast)) ∧
      (∀ d, (∀ a ∈ l, a.core ≠ d) → u.core d = s.core d)) ∧
  (∀ (s : State) (c ch n : Nat) (l : List Arrival), s.phaseArrivals c ch = some l → l ≠ [] → (l.map (·.core)).Nodup → (s.core c).chanLevel ch = some n →
    s.holdsRelease (l.map (·.core)) = false → (∀ a ∈ l, a.ovr = false) → phaseTime l ≤ s.rtime.toNat →
    ∃ u e, exec (.barrierRelease c ch) s = .next u ∧ u.mem = s.mem ∧ u.exchanges = s.exchanges ++ [e] ∧ e.tag = n ∧ e.members = l.map (·.core) ∧ e.c = none ∧
      e.cancelled = false ∧ e.air = [] ∧ e.e = s.rtime.toNat ∧
      (∀ a ∈ l, ((u.core a.core).chan ch).p = ((s.core a.core).chan ch).p + 1 ∧ (u.core a.core).posts = (s.core a.core).posts.filter (fun p => p.lvl != n) ∧
        (u.core a.core).xareaNow = (s.core a.core).xarea)) ∧
  (∀ (s : State) (c ch n : Nat) (l : List Arrival), s.phaseArrivals c ch = some l → l ≠ [] → (l.map (·.core)).Nodup → (s.core c).chanLevel ch = some n →
    s.holdsRelease (l.map (·.core)) = false → (∃ a ∈ l, a.ovr = true) → phaseTime l ≤ s.rtime.toNat →
    ∃ u e, exec (.barrierRelease c ch) s = .next u ∧ u.mem = s.mem ∧ u.exchanges = s.exchanges ++ [e] ∧ e.tag = n ∧ e.members = l.map (·.core) ∧ e.c = none ∧
      e.cancelled = true ∧ e.slots = 0 ∧ e.todo = [] ∧ e.air = [] ∧ e.e = s.rtime.toNat ∧
      (∀ a ∈ l, ((u.core a.core).chan ch).p = ((s.core a.core).chan ch).p + 1 ∧ (u.core a.core).posts = (s.core a.core).posts.filter (fun p => p.lvl != n) ∧
        tget (u.core a.core).xcnt n 0 = 0x8000000000000000)) ∧
  (∀ (s : State) (c ch : Nat) (l : List Arrival), s.phaseArrivals c ch = some l → l ≠ [] → (l.map (·.core)).Nodup → (s.core c).chanLevel ch = none →
    ((s.core c).fieldOn ch).isSome = true → (∀ a ∈ l, ((s.core a.core).fieldOn ch).isSome = true) → s.holdsRelease (l.map (·.core)) = false →
    phaseTime l ≤ s.rtime.toNat →
    ((∀ a ∈ l, ∀ b ∈ l, a.digest = b.digest) →
      ∃ u e, exec (.barrierRelease c ch) s = .next u ∧ u.mem = s.mem ∧ u.exchanges = s.exchanges ++ [e] ∧ 8 ≤ e.tag ∧ e.ch = ch ∧
        e.members = l.map (·.core) ∧ e.c = none ∧ e.cancelled = false ∧ e.e = s.rtime.toNat ∧
        ∀ a ∈ l, ((u.core a.core).chan ch).p = ((s.core a.core).chan ch).p + 1 ∧
          ∀ q f, (s.core a.core).fieldOn ch = some (q, f) → (u.core a.core).fieldOn ch = some (q, { f with stage := .release })) ∧
    ((∃ a ∈ l, ∃ b ∈ l, a.digest ≠ b.digest) →
      ∃ u, exec (.barrierRelease c ch) s = .next u ∧ u.mem = s.mem ∧ u.exchanges = s.exchanges ∧
        ∀ a ∈ l, ((u.core a.core).chan ch).p = ((s.core a.core).chan ch).p + 1 ∧
          ∀ q f, (s.core a.core).fieldOn ch = some (q, f) →
            (∃ f', (u.core a.core).field? q = some f' ∧ f'.run = false ∧ f'.stage = .stopped ∧ f'.next = f.next) ∧
            ((s.slot a.core (s.fieldSlot a.core f)).mode ≠ .free →
              ∃ tr ∈ (u.slot a.core (s.fieldSlot a.core f)).traps, tr.code = 0x13 ∧ tr.defer = true ∧ tr.info.toNat % 16 = 10))) ∧
  (∀ (s : State) (c ch : Nat), (s.phaseArrivals c ch = none ∨ ∃ l, s.phaseArrivals c ch = some l ∧ s.rtime.toNat < phaseTime l) →
    exec (.barrierRelease c ch) s = .next s) ∧
  (∀ l : List Arrival, ∀ a ∈ l, a.time + 28 ≤ phaseTime l)

/-- R54, R55, R223, R227 and R410, and the SLOT traps of a cancelled phase, which stand at its compute release (R407, R408). That the imbalance record of R347
leaves memory as it is, is log entry 55 (DESIGN CHOICE); that a halo flit which would land in another running field's ranges is dropped (R397), log entry 74
(DESIGN CHOICE). Completes exchangeFlitInject, exchangeDelivery, computeRelease and computeReleaseArrival. -/
def Obligations.ExchangePhases : Prop :=
  (∀ (s : State) (xid : Nat) (e : Exch) (f : Flit) (r : List Flit), s.exch? xid = some e → e.todo = f :: r → s.flitTime e f ≤ s.rtime.toNat →
    ∃ u, exec (.exchangeFlitInject xid) s = .next u ∧ u.exch? xid = some { e with todo := r, air := e.air ++ [f] } ∧ u.cores = s.cores ∧ u.mem = s.mem ∧ u.rtime = s.rtime ∧
      e.e + f.slot ≤ s.rtime.toNat) ∧
  (∀ (s : State) (xid i : Nat) (e : Exch) (f : Flit), s.exch? xid = some e → e.air[i]? = some f → (∀ g ∈ e.air.take i, g.dst ≠ f.dst) →
    s.seamHolds 2 f.src f.dst = false → e.tag < 8 → s.flitTime e f + 2 + hops f.src f.dst + 2 ≤ s.rtime.toNat → memInv s →
    ∃ u, exec (.exchangeDelivery xid i) s = .next u ∧
      (f.port ≠ none ∨ s.deliveryFault f = none → u.exch? xid = some { e with air := e.air.eraseIdx i }) ∧
      (f.port = none → inXarea (s.core f.dst).xareaNow f.off = true → s.fieldGuard f.dst f.off.toNat 64 = false → s.foreign f.dst f.dom f.off.toNat 64 = false →
        Memory.readBytes u.mem (coreKey f.dst f.off.toNat) 64 = vecBytes f.data ∧
        (∀ k, (k < coreKey f.dst f.off.toNat ∨ coreKey f.dst f.off.toNat + 64 ≤ k) → Memory.read u.mem k = Memory.read s.mem k) ∧
        tget (u.core f.dst).xcnt e.tag 0 = tget (s.core f.dst).xcnt e.tag 0 + 1 ∧ (u.core f.dst).windows = (s.core f.dst).windows) ∧
      (∀ w, f.port = none → s.deliveryFault f = some w → u.mem = s.mem ∧ u.cores = s.cores ∧
        ∃ tr : Trap, u.exch? xid = some { e with air := e.air.eraseIdx i, late := e.late ++ [(f.src, f.by_, tr)] } ∧
          tr.code = 0x07 ∧ tr.defer = true ∧ tr.addr = windowAddr f.dst f.off.toNat ∧ tr.info = memInfo w 1 3 f.asid 0 false ∧ tr.fpc = f.fpc) ∧
      (f.port = none → inXarea (s.core f.dst).xareaNow f.off = false → s.foreign f.dst f.dom f.off.toNat 64 = false → s.deliveryFault f = some 2) ∧
      (∀ p, f.port = some p → u.mem = s.mem ∧ tget (u.core f.dst).ports p Port.reset = { present := true, val := f.data.setWidth 64 } ∧
        (u.core f.dst).held = (s.core f.dst).held ∧ tget (u.core f.dst).xcnt e.tag 0 = tget (s.core f.dst).xcnt e.tag 0 + 1)) ∧
  (∀ (s : State) (xid i : Nat) (e : Exch) (f : Flit), s.exch? xid = some e → e.air[i]? = some f → (∀ g ∈ e.air.take i, g.dst ≠ f.dst) →
    s.seamHolds 2 f.src f.dst = false → 8 ≤ e.tag → s.flitTime e f + 2 + hops f.src f.dst + 2 ≤ s.rtime.toNat → memInv s →
    ∃ u, exec (.exchangeDelivery xid i) s = .next u ∧
      (s.haloGuard f.dst e.ch f.off.toNat f.bytes = false → Memory.readBytes u.mem (coreKey f.dst f.off.toNat) f.bytes = bytesOf f.bytes f.data.toNat) ∧
      (s.haloGuard f.dst e.ch f.off.toNat f.bytes = true → u.mem = s.mem) ∧
      (∀ k, (k < coreKey f.dst f.off.toNat ∨ coreKey f.dst f.off.toNat + f.bytes ≤ k) → Memory.read u.mem k = Memory.read s.mem k)) ∧
  (∀ (s : State) (xid hold : Nat) (e : Exch), s.exch? xid = some e → e.todo = [] → e.air = [] → e.c = none → s.withheld e = false → s.releaseTime e + hold ≤ s.rtime.toNat →
    ∃ u, exec (.computeRelease xid hold) s = .next u ∧ u.exch? xid = some { e with c := some s.rtime.toNat, released := e.members } ∧
      (e.slots = 0 → s.releaseTime e = e.e) ∧ (e.slots ≠ 0 → e.e + (e.slots - 1) + 4 + e.hops ≤ s.releaseTime e) ∧ u.cores = s.cores ∧ u.mem = s.mem) ∧
  (∀ (s : State) (c : Nat) (e : Exch), s.releasing c = some e → e.tag < 8 → s.staggered e c (e.c.getD 0) ≤ s.rtime.toNat →
    ∃ u, exec (.computeReleaseArrival c) s = .next u ∧ (u.core c).sync = .none ∧ (u.core c).sstep = (s.core c).sstep + (if e.tag = 1 then 1 else 0) ∧
      (∀ w, (s.slot c 0).park = some w → w.kind = .sync e.tag → (s.core c).gangDone = none →
        (u.slot c 0).pc = (s.core c).sync.next ∧ (w.mark = false → (u.slot c 0).park = none)) ∧ (u.slot c 0).g = (s.slot c 0).g ∧
      (∀ o ∈ (s.core c).overrun, o.lvl = e.tag → o.carried = true → (s.slot c o.by_).mode ≠ .free →
        ∃ tr ∈ (u.slot c o.by_).traps, tr.code = 0x0F ∧ tr.defer = true ∧ tr.fpc = o.fpc ∧ tr.info = overrunInfo o.by_ e.tag o) ∧
      (∀ o, o ∈ (u.core c).overrun ↔ o ∈ (s.core c).overrun ∧ ¬(o.lvl = e.tag ∧ o.carried = true)) ∧
      (∀ q ∈ e.late, q.1 = c → (s.slot c q.2.1).mode ≠ .free → q.2.2 ∈ (u.slot c q.2.1).traps) ∧
      (∀ x ∈ u.exchanges, x.xid = e.xid → c ∉ x.released) ∧ u.mem = s.mem)

/-- R28, R140 to R142, R237 and R238. That a helper's accesses outlive its slot is log entry 39 (DESIGN CHOICE); that the members of a gang go on four bytes after
the leader's GANG is log entry 36 (DEDUCED). Completes start, hjoin, hstat, gang, gangForm and split. -/
def Obligations.HelpersAndGangs : Prop :=
  (∀ (s : State) (a b : Reg) (h : Nat), mayIssue { rs := [a, b], ws := [a], var := true, who := .threads } s = true → s.me.mode ≠ .free → 1 ≤ h → h ≤ 10 →
    (s.mine.slot h).mode = .free → (∀ q, 1 ≤ q → q < h → (s.mine.slot q).mode ≠ .free) →
    ∃ u, exec (.start a b) s = .next u ∧ (u.mine.slot h).mode = .live ∧ (u.mine.slot h).pc = s.me.rd a ∧ (u.mine.slot h).rd 1 = s.me.rd b ∧
      (∀ r, r ≠ 1 → (u.mine.slot h).rd r = 0) ∧ (u.mine.slot h).dom = s.me.dom ∧ (u.mine.slot h).asid = s.me.asid ∧ (u.mine.slot h).key = s.me.key ∧
      (u.mine.slot h).codebase = s.me.codebase ∧ (u.mine.slot h).codelim = s.me.codelim ∧ (u.mine.slot h).issued = (s.mine.slot h).issued ∧
      (u.mine.slot h).counter = (s.mine.slot h).counter ∧ 
      (∀ x ∈ s.me.acc, (∀ sg, x.kind ≠ .load sg) → (∀ tag, x.kind ≠ .stget tag) → (s.cur.slot, x.id) ∈ (u.mine.slot h).after) ∧
      u.mine.hdone.getLsbD (h - 1) = false ∧
      (∀ q, q < 10 → q ≠ h - 1 → u.mine.hdone.getLsbD q = s.mine.hdone.getLsbD q) ∧ sentResult s u a (BitVec.ofNat 64 h)) ∧
  (∀ (s : State) (a b : Reg), mayIssue { rs := [a, b], ws := [a], var := true, who := .threads } s = true → (∀ q, 1 ≤ q → q ≤ 10 → (s.mine.slot q).mode ≠ .free) →
    waits (.start a b) s .startSlot) ∧
  (∀ (s : State) (b : Reg), mayIssue { rs := [b], who := .threads } s = true →
    ((∀ q, 1 ≤ q → q ≤ 10 → (s.me.rd b).getLsbD q = true → s.mine.hdone.getLsbD (q - 1) = true ∧ (s.mine.slot (departed q)).acc = []) →
      ∃ u, exec (.hjoin b) s = .next u ∧ leftAs s u s.nextPc ∧ regsKeep s u ∧ onlyMe s u ∧ onlyRegs s u) ∧
    ((∃ q, 1 ≤ q ∧ q ≤ 10 ∧ (s.me.rd b).getLsbD q = true ∧ (s.mine.hdone.getLsbD (q - 1) = false ∨ (s.mine.slot (departed q)).acc ≠ [])) →
      waits (.hjoin b) s (.hjoin (s.me.rd b)))) ∧
  (∀ (s : State) (d : Reg), mayIssue { ws := [d], who := .threads } s = true →
    ∃ u v, exec (.hstat d) s = .next u ∧ wroteReg s u d v ∧ ∀ i, i < 64 → v.getLsbD i = (decide (i < 13) && (s.mine.slot i).mode != .free)) ∧
  (∀ (s : State) (b : Reg), mayIssue { rs := [b], who := .control } s = true →
    (s.inGang = false → (s.me.rd b) ∈ ([0x03, 0x0C, 0x30, 0xC0, 0x0F, 0xF0, 0xFF] : List Word) → (s.me.rd b).getLsbD (s.cur.core % 8) = true →
      ∃ u, exec (.gang b) s = .next u ∧ u.mine.gangReq.setWidth 64 = s.me.rd b ∧ u.me.park.map (·.kind) = some .gang ∧ u.me.pc = s.me.pc ∧ regsKeep s u ∧
        u.mem = s.mem ∧ onlyMine s u) ∧
    (s.inGang = false → ¬((s.me.rd b) ∈ ([0x03, 0x0C, 0x30, 0xC0, 0x0F, 0xF0, 0xFF] : List Word) ∧ (s.me.rd b).getLsbD (s.cur.core % 8) = true) → traps (.gang b) s 0x01 0 3) ∧
    (s.inGang = true → traps (.gang b) s 0x01 0 6)) ∧
  (∀ (s : State) (c : Nat), (s.core c).gangReq ≠ 0 → (∀ d ∈ gangCores c (s.core c).gangReq, s.asksGang d (s.core c).gangReq = true ∧
      ∀ w, (s.slot d 0).park = some w → w.since + 4 ≤ s.rtime.toNat) → 4 ≤ s.rtime.toNat →
    ∃ u, exec (.gangForm c) s = .next u ∧ u.mem = s.mem ∧
      ∀ d ∈ gangCores c (s.core c).gangReq, (u.core d).gang = (s.core c).gangReq ∧ (u.core d).gangReq = 0 ∧
        (u.slot d 0).pc = (s.slot ((gangCores c (s.core c).gangReq).headD c) 0).pc + 4 ∧ (u.slot d 0).park.map (·.kind) ≠ some .gang ∧ (u.slot d 0).g = (s.slot d 0).g) ∧
  (∀ s : State, mayIssue { who := .threads } s = true →
    ∃ u, exec .split s = .next u ∧ leftAs s u s.nextPc ∧ regsKeep s u ∧ u.mem = s.mem ∧
      (s.cur.slot = 0 → s.lastOfGang = true → ∀ d ∈ s.gangOf s.cur.core, (u.core d).gang = 0) ∧
      (s.cur.slot ≠ 0 ∨ s.lastOfGang = false → onlyMe s u))

/-- R239, R240 and R336 to R344. Whether a boost fits and how much idle energy a window has are free values (log entries 9 and 10); in a window in which jobs
ran the free value is that energy over the sum of cores times time. Of a joint command whose segment holds both sides of a pair the drain waits for neither
(log entry 45, DESIGN CHOICE). That memory stays as it is while a time slice's context is saved (R344) is log entry 45, and while a traced step leaves its record (R347) log entry 55 (DESIGN CHOICE). Completes freq, boost, vfMoveBegin, vfMoveEnd, thermalCapStep, energyWindowEnd and timesliceSwitch. -/
def Obligations.PowerSteps : Prop :=
  (∀ (s : State) (d b : Reg), mayIssue { rs := [b], ws := [d], who := .threads } s = true →
    let l := max s.mine.vf.fmin (min (min s.mine.vf.fmax 9) ((s.me.rd b).toNat % 16))
    ∃ u, exec (.freq d b) s = .next u ∧ u.me.rd d = written d (BitVec.ofNat 64 l) ∧ othersKeep s u d ∧ leftAs s u s.nextPc ∧ onlyMine s u ∧ u.mem = s.mem ∧
      u.mine.vf.lastFreq = some l ∧ u.mine.vf.mail = (if s.mine.vf.lease = 0 then some l else s.mine.vf.mail) ∧ u.mine.vf.level = s.mine.vf.level) ∧
  (∀ (s : State) (d b : Reg), mayIssue { rs := [b], ws := [d], who := .threads } s = true →
    ((s.me.rd b).toNat % 65536 = 0 → ∃ u, exec (.boost d b) s = .next u ∧ u.me.rd d = 0 ∧ u.mine.vf.lease = 0 ∧ othersKeep s u d ∧ leftAs s u s.nextPc ∧
      (0 < s.mine.vf.lease → u.mine.vf.mail = some (s.mine.vf.lastFreq.getD (max s.mine.vf.fmin (min s.mine.vf.fmax 9))))) ∧
    ((s.me.rd b).toNat % 65536 ≠ 0 → ∃ u, exec (.boost d b) s = .next u ∧ othersKeep s u d ∧ leftAs s u s.nextPc ∧ u.mem = s.mem ∧
      ((u.me.rd d = written d (BitVec.ofNat 64 (min ((s.me.rd b).toNat % 65536) 1024)) ∧ u.mine.vf.lease = min ((s.me.rd b).toNat % 65536) 1024 ∧
          u.mine.vf.mail = some s.mine.vf.fmax ∧ 10 ≤ s.mine.vf.fmax) ∨
       (u.me.rd d = 0 ∧ u.mine.vf = s.mine.vf)))) ∧
  (∀ (s : State) (c l : Nat), (s.core c).vf.mail = some l → (s.core c).vf.moving = none → s.exchanging c = false →
    ∃ u, exec (.vfMoveBegin c) s = .next u ∧ (u.core c).vf.moving = some (min l (s.core c).vf.cap) ∧ (u.core c).vf.mail = none ∧
      (u.core c).vf.level = (s.core c).vf.level ∧ u.clockOn c = false ∧ (u.core c).cycle = (s.core c).cycle ∧ u.mem = s.mem) ∧
  (∀ (s : State) (c l : Nat), (s.core c).vf.moving = some l →
    ∃ u, exec (.vfMoveEnd c) s = .next u ∧ (u.core c).vf.level = l ∧ (u.core c).vf.moving = none ∧ (u.core c).cycle = (s.core c).cycle ∧ u.mem = s.mem ∧
      (∀ t, (u.slot c t).g = (s.slot c t).g ∧ (u.slot c t).pc = (s.slot c t).pc)) ∧
  (∀ (s : State) (c : Nat), ∃ u, exec (.thermalCapStep c true) s = .next u ∧ (u.core c).vf.cap = min (s.core c).vf.cap (s.core c).vf.level - 1 ∧ u.mem = s.mem) ∧
  (∀ (s : State) (c : Nat), (s.core c).vf.cap < 15 → ∃ u, exec (.thermalCapStep c false) s = .next u ∧ (u.core c).vf.cap = (s.core c).vf.cap + 1 ∧ u.mem = s.mem) ∧
  (∀ s : State, ∃ u, exec .energyWindowEnd s = .next u ∧ u.windowsEnded = s.windowsEnded + 1 ∧ u.windowAt = s.rtime.toNat ∧ u.cores = s.cores ∧ u.mem = s.mem ∧
      u.gone = [] ∧ u.jobs.length = s.jobs.length ∧
      (∀ (i : Nat) (j : Job), s.jobs[i]? = some j → ∃ k, u.jobs[i]? = some k ∧ k.id = j.id ∧ k.phase = j.phase ∧ k.worked = 0 ∧
        k.energy = j.energy + Config.idleRate s.windowsEnded * (j.cores.length * s.timeInWindow j) / 2 ^ 64) ∧
      ((∀ j ∈ s.jobs, s.timeInWindow j = 0) → s.gone = [] → u.idle = s.idle + Config.idleEnergy s.windowsEnded)) ∧
  (∀ (s : State) (c d : Nat), c ≠ d → s.partner c = some d → (s.core c).slice = false → (s.core d).slice = true → (s.core d).phase = .running → (s.core d).atSync = false →
    (20000 ≤ ((s.core c).cycle - (s.core c).sliceAt).toNat ∨ (s.core c).atSync = true) →
    (s.drained c = true → s.drains c = false) ∧ (s.drains c = true → exec (.timesliceSwitch c) s = .next s) ∧ (s.drains c = false →
    ∃ u, exec (.timesliceSwitch c) s = .next u ∧ (u.core c).slice = true ∧ (u.core d).slice = false ∧ (u.core c).tlb = [] ∧ (∀ t, u.slot c t = s.slot c t ∧ u.slot d t = s.slot d t) ∧
      u.mem = s.mem))

/-- R264 to R267: a gate call and its return. The layout inside a frame, and that GRET goes by the entry which GATE read, kept with the call, are log entry 21
(DESIGN CHOICE); that GRET leaves HND 0 also after a GATE issued inside a handler of the caller, log entry 84 (DESIGN CHOICE). Completes gate and gret. -/
def Obligations.GateCalls : Prop :=
  (∀ (s : State) (n : BitVec 10), mayIssue { who := .threads } s = true → (∀ d ∈ s.waiting, s.gateFault d s.cur.slot n = none) →
    s.gateFault s.cur.core s.cur.slot n = none → (∀ d ∈ s.waiting, s.busy d s.cur.slot = false) → s.me.pend = 0 → memInv s → s.cur.slot ≤ 10 →
    let e := s.me.gated.getD (s.gateEntry n.toNat)
    let f := coreKey s.cur.core (frameOff s.cur.slot s.me.calls.length)
    ∃ u, exec (.gate n) s = .next u ∧ u.me.pc = e.w1 ∧ (∀ r : Reg, r.toNat ≤ e.narg → u.me.rd r = s.me.rd r) ∧ (∀ r : Reg, e.narg < r.toNat → u.me.rd r = 0) ∧
      (∀ v : VReg, v.toNat < e.vpass → u.me.vrd v = s.me.vrd v) ∧ (∀ v : VReg, e.vpass ≤ v.toNat → u.me.vrd v = 0) ∧
      u.me.dom = e.tdom ∧ u.me.key = e.tkey ∧ u.me.asid = e.tasid ∧ u.me.tvec = 0 ∧ u.me.ec = EngCsr.reset ∧ u.me.unsync = 0 ∧
      u.me.calls.length = s.me.calls.length + 1 ∧ u.me.issued = s.me.issued ∧
      (∀ k, (k < f ∨ f + 0x800 ≤ k) → Memory.read u.mem k = Memory.read s.mem k) ∧
      (∀ s' : State, s'.cur.core = s.cur.core → s'.cur.slot = s.cur.slot → mayIssue {} s' = true → s'.me.calls = u.me.calls →
        (∀ d ∈ s'.waiting, s'.busy d s.cur.slot = false) → (∀ k, f ≤ k → k < f + 0x800 → Memory.read s'.mem k = Memory.read u.mem k) →
        ∃ v, exec .gret s' = .next v ∧ v.me.pc = s.nextPc ∧ (∀ r : Reg, 8 ≤ r.toNat → v.me.rd r = s.me.rd r) ∧
          (∀ r : Reg, r.toNat ≤ e.nres → r.toNat ≤ 7 → v.me.rd r = s'.me.rd r) ∧ (∀ r : Reg, e.nres < r.toNat → r.toNat ≤ 7 → v.me.rd r = 0) ∧
          (∀ r : VReg, r.toNat < e.vpass → v.me.vrd r = s'.me.vrd r) ∧ (∀ r : VReg, e.vpass ≤ r.toNat → v.me.vrd r = if e.vsave then s.me.vrd r else 0) ∧
          v.me.dom = s.me.dom ∧ v.me.key = s.me.key ∧ v.me.asid = s.me.asid ∧ v.me.codebase = s.me.codebase ∧ v.me.codelim = s.me.codelim ∧
          v.me.tvec = s.me.tvec ∧ v.me.ec = s.me.ec ∧ v.me.calls = s.me.calls ∧ v.me.hnd = false ∧ v.mem = s'.mem)) ∧
  (∀ (s : State) (k : Call) (r : List Call), mayIssue {} s = true → s.me.calls = k :: r → (∀ d ∈ s.waiting, s.busy d s.cur.slot = false) →
    ∃ u, exec .gret s = .next u ∧ u.me.calls = r ∧ u.me.hnd = false ∧ u.me.acc = s.me.acc ∧ u.mem = s.mem ∧ onlyMe s u ∧
      (∀ q : Reg, q.toNat ≤ k.entry.nres → q.toNat ≤ 7 → u.me.rd q = s.me.rd q) ∧ (∀ q : Reg, k.entry.nres < q.toNat → q.toNat ≤ 7 → u.me.rd q = 0)) ∧
  (∀ s : State, mayIssue {} s = true → s.me.calls = [] → traps .gret s 0x0D 0 3072)

/-- R242 to R255: staged objects at their directory entries. Completes stagedAccessArrive and stload. -/
def Obligations.DirectoryChecks : Prop :=
  (∀ (s : State) (o : Obj) (c e : Nat), s.dirCheck o c 2 0 false = .legal e → o.owned = true ∧ o.owner = c) ∧
  (∀ (s : State) (c t id : Nat) (before : List Access) (a : Access) (p : Place) (o : Obj), (s.slot c t).splitAcc id = (before, some a) → a.place = some p → a.x = 0 →
    s.objOf p = some o → s.mayPerform before a = true → s.targetPaused c a.va = false → s.deny (a.agent c t) a.va a.size p a.kind.acc (a.kind.shape a.span) = none →
    (∀ e sg, a.kind = .load sg → s.dirCheck o c 1 0 false = .legal e → ∃ u, exec (.stagedAccessArrive c t id) s = .next u ∧ u.mem = s.mem ∧ 
      (∀ x ∈ s.objs, ∃ y ∈ u.objs, y.id = x.id ∧ y.state = x.state ∧ y.owner = x.owner ∧ y.owned = x.owned ∧ y.tag = x.tag) ∧
      (a.dest ≠ 0 → ∃ q, (u.slot c t).results = (s.slot c t).results ++ [q] ∧ q.reg = a.dest ∧ q.val = extend sg a.size (ofBytes (s.readAt p a.size)))) ∧
    (∀ e, a.kind = .store → memInv s → (∀ d q, spaceOf a.va ≠ .window d q) → s.dirCheck o c 2 0 false = .legal e → ∃ u, exec (.stagedAccessArrive c t id) s = .next u ∧
      Memory.readBytes u.mem p.key a.size = bytesOf a.size a.data ∧ (∀ k, (k < p.key ∨ p.key + a.size ≤ k) → Memory.read u.mem k = Memory.read s.mem k) ∧
      (∀ x ∈ s.objs, ∃ y ∈ u.objs, y.id = x.id ∧ y.state = x.state ∧ y.owner = x.owner ∧ y.owned = x.owned ∧ y.tag = x.tag)) ∧
    (∀ w, a.kind = .store ∨ (∃ sg, a.kind = .load sg) → s.dirCheck o c a.kind.need 0 false = .fault w → (s.slot c t).mode ≠ .free → ∃ u tr, exec (.stagedAccessArrive c t id) s = .next u ∧ u.mem = s.mem ∧
      (u.slot c t).traps = (s.slot c t).traps ++ [tr] ∧ tr.code = 0x0B ∧ tr.defer = true ∧ tr.addr = a.va ∧
      (u.slot c t).acc = (s.slot c t).acc.filter (fun b => b.id != a.id)) ∧
    (a.kind = .store ∨ (∃ sg, a.kind = .load sg) → s.dirCheck o c a.kind.need 0 false = .park → s.parksFull o = false →
      (∀ q ∈ o.queue, q.who ≠ .acc t a.id) → ∃ u, exec (.stagedAccessArrive c t id) s = .next u ∧ u.mem = s.mem ∧
      (∀ b ∈ (u.slot c t).acc, b.id = a.id → b.phase = .parked) ∧
      (∃ y ∈ u.objs, y.id = o.id ∧ (∃ q, y.queue = o.queue ++ [q] ∧ q.core = c ∧ q.who = .acc t a.id) ∧ y.state = o.state))) ∧
  (∀ (s : State) (c t id : Nat) (before : List Access) (a : Access) (p : Place) (tag : Bool), (s.slot c t).splitAcc id = (before, some a) → a.place = some p →
    a.kind = .stget tag → a.x = 0 → a.dest ≠ 0 → s.mayPerform before a = true → s.targetPaused c a.va = false →
    ∃ u q, exec (.stagedAccessArrive c t id) s = .next u ∧ (u.slot c t).results = (s.slot c t).results ++ [q] ∧ q.reg = a.dest ∧
      q.val = (match s.objOf p with
        | none => 0
        | some o => if tag then o.tag else BitVec.ofNat 64 (o.state % 16 + o.cls % 64 * 2 ^ 4 + o.owner % 2048 * 2 ^ 10 + ofBool o.owned * 2 ^ 21 +
            ofBool (!o.queue.isEmpty) * 2 ^ 22 + o.log2 % 32 * 2 ^ 23 + o.scope.toNat * 2 ^ 28 + 2 ^ 30)) ∧
      u.mem = s.mem ∧ u.objs = s.objs) ∧
  (∀ (s : State) (c t id : Nat) (before : List Access) (a : Access) (p : Place) (o : Obj), (s.slot c t).splitAcc id = (before, some a) → a.place = some p →
    a.kind = .stdrop → a.x = 0 → s.objOf p = some o → o.base = p.key → (o.owned = false ∨ o.owner = c) → o.queue = [] → s.mayPerform before a = true →
    s.targetPaused c a.va = false →
    ∃ u, exec (.stagedAccessArrive c t id) s = .next u ∧ u.objs = s.objs.filter (fun x => x.id != o.id) ∧ (u.slot c t).traps = (s.slot c t).traps ∧ u.mem = s.mem) ∧
  (∀ (s : State) (a b : Reg), mayIssue { rs := [a, b] } s = true → (s.me.rd b).toNat % 64 = 0 → spaceOf (s.me.rd b) = .reserved →
    traps (.stload a b) s 0x07 (s.me.rd b) (memInfo 6 0 5 s.me.asid 0 false)) ∧
  (∀ (s : State) (a b : Reg) (l : List Byte), mayIssue { rs := [a, b] } s = true → (s.me.rd b).toNat % 64 = 0 → spaceOf (s.me.rd b) ≠ .reserved →
    s.blockHeld (s.me.rd b) 512 = false →
    (∀ o ∈ s.objs, ¬(o.binder = s.me.dom ∧ o.cls = (s.me.rd a).toNat % 64)) → (s.onMe (fun x => { x with park := none })).blockRead (s.me.rd b) 512 = .ok l →
    tableOk ((List.range 256).map (fun i => BitVec.ofNat 16 (ofBytes ((l.drop (2 * i)).take 2)))) = true →
    ∃ u, exec (.stload a b) s = .next u ∧ leftAs s u s.nextPc ∧ regsKeep s u ∧ u.mem = s.mem ∧ onlyMe { s with classes := u.classes } u ∧
      tget u.classes (s.me.dom.toNat * 64 + (s.me.rd a).toNat % 64) [] = (List.range 256).map (fun i => BitVec.ofNat 16 (ofBytes ((l.drop (2 * i)).take 2))))

/-- R262, R263, R374, R375, R380 and R386. That ALIGN of GTWRITE and TLBFILL comes first, whatever gA and the space, before ILLEGAL 3 and WINDOW 6, is log
entry 34 (DEDUCED). Completes tlbfill, tlbinv, replay, gtwrite and domsw. -/
def Obligations.FirmwareInstructions : Prop :=
  (∀ (s : State) (a b : Reg) (off : Nat) (e : TlbEntry), mayIssue { rs := [a, b], priv := true } s = true → spaceOf (s.me.rd b) = .self off → off % 32 = 0 →
    (s.me.rd a).toNat < 2048 → s.blockHeld (s.me.rd b) 32 = false → s.poisoned (coreKey s.cur.core off) 32 = none →
    fillEntry (s.coreWord s.cur.core off) (s.coreWord s.cur.core (off + 8)) (s.coreWord s.cur.core (off + 16)) (s.coreWord s.cur.core (off + 24)) = some (e, true) →
    ((s.core (s.me.rd a).toNat).vf.moving = none →
      ∃ u, exec (.tlbfill a b) s = .next u ∧ e ∈ (u.core (s.me.rd a).toNat).tlb ∧ leftAs s u s.nextPc ∧ regsKeep s u ∧ u.mem = s.mem) ∧
    ((s.core (s.me.rd a).toNat).vf.moving ≠ none → waits (.tlbfill a b) s (.paused (s.me.rd a).toNat))) ∧
  (∀ (s : State) (a b : Reg), mayIssue { rs := [a, b], priv := true } s = true →
    ((s.me.rd b).toNat < 2 ^ 32 → ∃ u k, exec (.tlbinv a b) s = .next u ∧ u.casts = s.casts ++ [k] ∧ u.me.park.map (·.kind) = some (.acks k.id) ∧
      k.what = .inv (BitVec.ofNat 16 (s.me.rd b).toNat) ((s.me.rd b).getLsbD 19) ((s.me.rd b).getLsbD 18) (s.me.rd a).toNat (BitVec.ofNat 2 ((s.me.rd b).toNat / 65536)) ∧
      k.left = (if (s.me.rd b).getLsbD 31 then List.range 2048 else [(s.me.rd b).toNat / 2 ^ 20 % 2048]) ∧ u.me.pc = s.nextPc ∧ regsKeep s u ∧ u.mem = s.mem) ∧
    (2 ^ 32 ≤ (s.me.rd b).toNat → traps (.tlbinv a b) s 0x01 0 3)) ∧
  (∀ (s : State) (a b : Reg), mayIssue { rs := [a, b], priv := true } s = true →
    ((s.me.rd b).toNat < 2 ^ 23 → (s.me.rd b).toNat / 2 ^ 21 % 4 ≠ 3 → ∃ u k, exec (.replay a b) s = .next u ∧ u.casts = s.casts ++ [k] ∧
      u.me.park.map (·.kind) = some (.acks k.id) ∧ k.what = .replay (s.me.rd a) (s.me.rd b) ∧ k.left = List.range 2048 ∧ u.me.pc = s.nextPc ∧ regsKeep s u ∧
      u.mem = s.mem) ∧
    (2 ^ 23 ≤ (s.me.rd b).toNat ∨ (s.me.rd b).toNat / 2 ^ 21 % 4 = 3 → traps (.replay a b) s 0x01 0 3)) ∧
  (∀ (s : State) (a b : Reg) (l : List Byte) (e : GateEntry), mayIssue { rs := [a, b], priv := true } s = true → (s.me.rd b).toNat % 32 = 0 →
    (s.me.rd a).toNat < 1024 → spaceOf (s.me.rd b) ≠ .reserved → s.blockHeld (s.me.rd b) 32 = false →
    (s.onMe (fun x => { x with park := none })).blockRead (s.me.rd b) 32 = .ok l →
    e = { w0 := BitVec.ofNat 64 (ofBytes (l.take 8)), w1 := BitVec.ofNat 64 (ofBytes ((l.drop 8).take 8)), w2 := BitVec.ofNat 64 (ofBytes ((l.drop 16).take 8)),
          w3 := BitVec.ofNat 64 (ofBytes ((l.drop 24).take 8)) } → e.ok = true →
    ∃ u, exec (.gtwrite a b) s = .next u ∧ u.gateEntry (s.me.rd a).toNat = e ∧ (∀ n, n ≠ (s.me.rd a).toNat → u.gateEntry n = s.gateEntry n) ∧ leftAs s u s.nextPc ∧
      regsKeep s u ∧ u.mem = s.mem) ∧
  (∀ (s : State) (a b : Reg), mayIssue { rs := [a, b], priv := true } s = true →
    ((s.me.rd b).toNat % 32 ≠ 0 → traps (.gtwrite a b) s 0x06 (s.me.rd b) 5 ∧ traps (.tlbfill a b) s 0x06 (s.me.rd b) 5) ∧
    ((s.me.rd b).toNat % 32 = 0 → 1024 ≤ (s.me.rd a).toNat → traps (.gtwrite a b) s 0x01 0 3) ∧
    ((s.me.rd b).toNat % 32 = 0 → (s.me.rd a).toNat < 1024 → spaceOf (s.me.rd b) = .reserved →
      traps (.gtwrite a b) s 0x07 (s.me.rd b) (memInfo 6 0 5 s.me.asid 0 false))) ∧
  (∀ (s : State) (b : Reg), mayIssue { rs := [b], priv := true } s = true →
    ∃ u, exec (.domsw b) s = .next u ∧ u.me.dom.toNat = (s.me.rd b).toNat % 64 ∧ u.me.key.toNat = (s.me.rd b).toNat / 2 ^ 8 % 128 ∧
      u.me.asid.toNat = (s.me.rd b).toNat / 2 ^ 32 % 65536 ∧ u.me.codebase = (tget s.domCode ((s.me.rd b).toNat % 64) (0, 0)).1 ∧
      u.me.codelim = (tget s.domCode ((s.me.rd b).toNat % 64) (0, 0)).2 ∧ leftAs s u s.nextPc ∧ regsKeep s u ∧ onlyMe s u)

/-- R129, R277 to R295: fields and the Herder. That FRET takes g2 as it is, with no ORDER trap, is log entry 38 (DEDUCED); that the sweep thread's
level is the LEVEL of the definition, log entry 76 (DESIGN CHOICE). Completes flddef, fldrun, fldhold, flddrop, fldsnap, fldstat, fret, siteRoutineStart, couplingAdoptionRequest, herderSweepStart, halfStepArrival and snapshotCopy. -/
def Obligations.FieldsAndTheHerder : Prop :=
  (∀ (s : State) (i : Instr) (a : Reg) (rs : List Reg) (f : Field), (∃ b, (i = .fldrun a b ∨ i = .fldhold a b) ∧ rs = [a, b]) ∨ (i = .flddrop a ∧ rs = [a]) →
    mayIssue { rs := rs, who := .threads } s = true → (tget s.mine.queue 3 []).length < 2 → s.mine.field? (s.me.rd a).toNat = some f →
    ∃ u, exec i s = .next u ∧ entered s u 3 i (rs.map s.me.rd) ∧ leftAs s u s.nextPc) ∧
  (∀ (s : State) (a b c : Reg) (f : Field), mayIssue { rs := [a, b, c], who := .threads } s = true → (tget s.mine.queue 3 []).length < 2 →
    s.mine.field? (s.me.rd a).toNat = some f → (s.me.rd c).toNat % 64 = 0 →
    ∃ u, exec (.fldsnap a b (some c)) s = .next u ∧ entered s u 3 (.fldsnap a b (some c)) [s.me.rd a, BitVec.ofNat 64 ((s.me.rd b).toNat % 2 ^ 32), s.me.rd c] ∧
      leftAs s u s.nextPc) ∧
  (∀ (s : State) (i : Instr) (a : Reg) (rs : List Reg), (∃ b, (i = .fldrun a b ∨ i = .fldhold a b ∨ i = .fldsnap a b none) ∧ rs = [a, b]) ∨ (i = .flddrop a ∧ rs = [a]) →
    mayIssue { rs := rs, who := .threads } s = true → s.mine.field? (s.me.rd a).toNat = none →
    traps i s 0x13 0 (BitVec.ofNat 64 ((s.me.rd a).toNat % 4 * 2 ^ 4))) ∧
  (∀ (s : State) (d b : Reg), mayIssue { rs := [b], ws := [d], late := false, who := .threads } s = true →
    ∃ u, exec (.fldstat d b) s = .next u ∧ wroteReg s u d (match s.mine.field? (s.me.rd b).toNat with
      | none => 0
      | some f => BitVec.ofNat 64 (f.next % 2 ^ 32 + (if f.run then f.colour % 16 else 0) * 2 ^ 32 + ofBool f.run * 2 ^ 36 + 2 ^ 37 + ofBool ((s.objWithBase (f.cts.getD 1 0)).any (fun o => o.state == 3)) * 2 ^ 38))) ∧
  (∀ (s : State) (d b : Reg) (id off : Nat) (desc : List Word) (keys : List Nat) (live1 : Bool) (w : State), mayIssue { rs := [b], ws := [d], who := .threads } s = true →
    s.me.acc = [] → s.startHeld s.me = false → id < 4 → id ∉ tkeys s.mine.fields → (∀ j, j < id → j ∈ tkeys s.mine.fields) → spaceOf (s.me.rd b) = .self off →
    off % 64 = 0 → off + 128 ≤ 0x80000 → s.fieldReach s.cur.core s.me.dom off desc = true → desc = (List.range 16).map (fun i => s.coreWord s.cur.core (off + 8 * i)) → descReserved desc = true → descShape desc = true →
    descColours desc = true → descRanges s.mine desc = true → s.descPlace s.cur.core desc = true → s.me.codebase.toNat ≤ (fENTRY desc).toNat →
    (fENTRY desc).toNat < s.me.codelim.toNat → clash desc = none →
    (let t : State := s.onMe (fun x => { x with park := none }); t.couple s.cur.core (t.slotAgent s.cur.core s.cur.slot) desc) = .ok (w, keys, live1) →
    ∃ u f, exec (.flddef d b) s = .next u ∧ u.mine.field? id = some f ∧ f.desc = desc ∧ f.next = 0 ∧ f.run = false ∧ f.dom = s.me.dom ∧ f.asid = s.me.asid ∧ f.key = s.me.key ∧
      f.live1 = live1 ∧ f.cts = keys ∧ u.mem = w.mem ∧ u.me.rd d = written d (BitVec.ofNat 64 id) ∧ othersKeep s u d) ∧
  (∀ (s : State) (id l : Nat) (f : Field), mayIssue { who := .sweep } s = true →
    s.mine.fields.findSome? (fun p => match p.2.stage with | .routine l => some (p.1, p.2, l) | _ => none) = some (id, f, l) → s.me.pend = 0 → s.me.acc = [] →
    (∀ m ∈ s.mine.cmds 1, m.slot ≠ 11) → memInv s →
    ∃ u, exec .fret s = .next u ∧ u.me.mode = .free ∧
      Memory.readBytes u.mem (coreKey s.cur.core (fPATCH f.desc + l * fW f.desc)) (fW f.desc) = bytesOf (fW f.desc) (s.me.rd 2).toNat ∧
      (∀ k, (k < coreKey s.cur.core (fPATCH f.desc + l * fW f.desc) ∨ coreKey s.cur.core (fPATCH f.desc + l * fW f.desc) + fW f.desc ≤ k) →
        Memory.read u.mem k = Memory.read s.mem k)) ∧
  (∀ (s : State) (c id l : Nat) (f : Field) (r : List Nat), (s.core c).field? id = some f → f.todo = l :: r → f.stage = .sites → f.failed = false →
    (s.slot c 11).mode = .free → s.herds c = true →
    ∃ u f', exec (.siteRoutineStart c id) s = .next u ∧ u.mem = s.mem ∧ (u.core c).field? id = some f' ∧ f'.todo = r ∧ f'.stage = .routine l ∧ (u.slot c 11).mode = .live ∧
      (u.slot c 11).pc = fENTRY f.desc ∧ (u.slot c 11).dom = f.dom ∧ (u.slot c 11).eff = fLEVEL f.desc ∧
      (u.slot c 11).rd 1 = BitVec.ofNat 64 (fGlobal f.desc (fCoord f.desc c l)) ∧ (u.slot c 11).rd 2 = s.siteVal c f.desc (fCoord f.desc c l) ∧
      (u.slot c 11).rd 11 = BitVec.ofNat 64 ((fNeighbours f.desc (fCoord f.desc c l)).filter (·.isSome)).length ∧
      (u.slot c 11).rd 12 = fieldDraw f.desc f.next (fGlobal f.desc (fCoord f.desc c l)) ∧
      (u.slot c 11).rd 14 = BitVec.ofNat 64 f.next ∧ (u.slot c 11).rd 15 = BitVec.ofNat 64 f.colour ∧
      (∀ q : Reg, 16 ≤ q.toNat → (u.slot c 11).rd q = 0) ∧ (∀ q : VReg, (u.slot c 11).vrd q = 0)) ∧
  (∀ (s : State) (c id : Nat) (f : Field), (s.core c).field? id = some f → f.stage = .sweep → f.asked = false → (s.core c).snapping id f = false → s.herds c = true →
    ∃ u f', exec (.couplingAdoptionRequest c id) s = .next u ∧ (u.core c).field? id = some f' ∧ f'.asked = true ∧ f'.next = f.next ∧
      (∀ o l, s.objWithBase (f.cts.getD (ofBool (!f.live1)) 0) = some o → s.objWithBase (f.cts.getD (ofBool f.live1) 0) = some l →
        ∃ y ∈ u.objs, y.id = o.id ∧ y.m = some (match o.m with | some m => max m f.next | none => f.next))) ∧
  (∀ (s : State) (c id : Nat) (f : Field), (s.core c).field? id = some f → f.stage = .sweep → f.asked = true → s.herds c = true →
    (∀ t, s.adoptedAt f = true → s.coupleCopy c (s.fieldAgent c id f) f.desc (!f.live1) = .ok t → ∃ u f', exec (.herderSweepStart c id) s = .next u ∧
      (u.core c).field? id = some f' ∧ f'.stage = .sites ∧ f'.colour = 0 ∧ f'.live1 = (!f.live1) ∧ u.mem = t.mem) ∧
    (s.adoptedAt f = false → ∃ u f', exec (.herderSweepStart c id) s = .next u ∧ (u.core c).field? id = some f' ∧ f'.stage = .sites ∧ f'.colour = 0 ∧ f'.live1 = f.live1 ∧
      f'.todo = (List.range (fSites f.desc)).filter (fun l => fColour f.desc (fCoord f.desc c l) == 0) ∧ u.mem = s.mem)) ∧
  (∀ (s : State) (c id : Nat) (f : Field), (s.core c).field? id = some f → f.stage = .sites → f.todo = [] → s.herds c = true →
    ∃ u f' a, exec (.halfStepArrival c id) s = .next u ∧ (u.core c).field? id = some f' ∧ f'.stage = .wait ∧ u.arrivals = s.arrivals ++ [a] ∧ a.core = c ∧
      a.ch = fCHAN f.desc ∧ a.value = (if f.failed then 0 else BitVec.ofNat 32 f.e) ∧ ((u.core c).chan (fCHAN f.desc)).ac = ((s.core c).chan (fCHAN f.desc)).ac + 1 ∧
      u.mem = s.mem) ∧
  (∀ (s : State) (c : Nat) (m : Cmd) (f : Field) (w : State), (tget (s.core c).exec 3 []).find? (fun m => match m.instr with | .fldsnap _ _ _ => true | _ => false) = some m →
    (s.core c).field? (m.args.getD 0 0).toNat = some f → f.atEnd (m.args.getD 1 0).toNat = true →
    s.poisoned (coreKey c (fPATCH f.desc)) (fSites f.desc * fW f.desc) = none →
    s.engWrites (s.cmdAgent c 3 m) 0 ((s.snapUnits c f.desc (m.args.getD 2 0)).map .run) = .ok w →
    ∃ u, exec (.snapshotCopy c) s = .next u ∧ u.mem = w.mem ∧ tget (u.core c).exec 3 [] = (tget (w.core c).exec 3 []).filter (fun q => q.id != m.id) ∧
      ectx (u.slot c m.slot).counter 3 = BitVec.ofNat 64 m.num)

/-- R30, R56 to R62, R317 to R335, R348, R349, R353, R366, R389, R400, R424 and R425. That a resumed core starts with an empty TLB is R376; the energy, step and fault words of a completion record are not stated here. What device reset keeps beside memory and retired
parts is log entry 53 (DEDUCED); which number an image has in the attestation log, log entry 86 (DESIGN CHOICE); that RIDX moves on at the check, log entry 51 (DEDUCED); that a save between
safe points takes two steps, log entry 52 (DEDUCED); that a save leaves memory as it is, log entry 55 (DESIGN CHOICE); what an object makes of a host access, log entry 56
(DEDUCED); that a completion trap is taken in a wait which counts as a boundary, with TPC the waiting pc, log entry 23 (DEDUCED). Completes deviceReset, configurationRequest, queueDescriptorWrite, writeIndexDoorbell, msixUnmask, hostRegisterWrite, hostBar4Access, firmwareUpdate, launchHeadCheck, schedulerStart, launchImagePlaced, launchRelease, coreEnd, jobEnd, jobKill, savedJobDiscard, debugStop, preemptSafePoint, preemptBetweenSafePoints, stepLimitReached, jobResume, waitTimeout and completionTrapTake. -/
def Obligations.HostSideAndJobs : Prop :=
  (∀ (s : State) (a b : BitVec 4), ∃ u, exec (.deviceReset a b) s = .next u ∧ u.ready = false ∧ u.stage = 0 ∧ u.cores = [] ∧ u.jobs = [] ∧ u.queues = [] ∧
    u.gates = [] ∧ u.rtime = 0 ∧ u.mem = s.mem ∧ u.retired = s.retired ∧ u.attest = s.attest ∧ u.firmware = s.firmware) ∧
  (∀ (s : State) (r : CfgWrite), (s.ready = false → ∃ u, exec (.configurationRequest r) s = .next u ∧ u.configRetries = s.configRetries + 1) ∧
    (s.ready = true → ∃ u, exec (.configurationRequest r) s = .next u ∧ u.priEnable = r.pri.getD s.priEnable ∧ u.priAlloc = r.alloc.getD s.priAlloc ∧
      (r.pri ≠ some true → u.priFailed = s.priFailed) ∧ (s.priEnable = true → u.priFailed = s.priFailed) ∧ (r.pri = some true → s.priEnable = false → u.priFailed = false) ∧
      u = { s with priEnable := u.priEnable, priFailed := u.priFailed, priAlloc := u.priAlloc })) ∧
  (∀ s : State, s.fail = true → (∀ q w v, exec (.queueDescriptorWrite q w v) s = .next s) ∧ (∀ v, exec (.msixUnmask v) s = .next s) ∧
    (∀ a v, exec (.hostRegisterWrite a v) s = .next s) ∧ (∀ w a v, exec (.hostBar4Access w a v) s = .next s)) ∧
  (∀ (s : State) (q : Nat) (w : BitVec 2) (v : Word), s.fail = false → q < 65536 → ∃ u, exec (.queueDescriptorWrite q w v) s = .next u ∧ (∀ p, p ≠ q → u.queue p = s.queue p) ∧
    u.mem = s.mem ∧ (w = 0 → u.queue q = { s.queue q with ring := v }) ∧ (2 ≤ w.toNat → u = s) ∧
    (w = 1 → (u.queue q).log2 = v.toNat % 32 ∧ (u.queue q).prio = v.toNat / 2 ^ 5 % 8 ∧ (u.queue q).weight = v.toNat / 2 ^ 8 % 16 + 1 ∧
      (u.queue q).en = v.getLsbD 13 ∧ (u.queue q).vec = v.toNat / 2 ^ 16 % 2048 ∧ (u.queue q).ien = v.getLsbD 27 ∧ (u.queue q).ring = (s.queue q).ring ∧
      (v.getLsbD 13 = true → (s.queue q).en = false → (u.queue q).ridx = 0 ∧ (u.queue q).widx = 0 ∧ (u.queue q).qerr = 0))) ∧
  (∀ (s : State) (q : Nat) (v : Word), s.ready = true → q < 65536 → (s.queue q).en = true → (s.queue q).ridx < 2 ^ 32 → (s.queue q).widx < 2 ^ 32 →
    let x := s.queue q
    let w := v.toNat % 2 ^ 32
    ((w + 2 ^ 32 - x.widx) % 2 ^ 32 < 2 ^ 31 → (w + 2 ^ 32 - x.ridx) % 2 ^ 32 ≤ 2 ^ x.log2 →
      ∃ u, exec (.writeIndexDoorbell q v) s = .next u ∧ u = s.setQueue q { x with widx := w }) ∧
    (2 ^ 31 ≤ (w + 2 ^ 32 - x.widx) % 2 ^ 32 ∨ 2 ^ x.log2 < (w + 2 ^ 32 - x.ridx) % 2 ^ 32 → ∃ u, exec (.writeIndexDoorbell q v) s = .next u ∧
      (u.queue q).en = false ∧ (u.queue q).widx = x.widx ∧ u.hlcount = s.hlcount + 1 ∧
      (u.queue q).qerr = (if 2 ^ 31 ≤ (w + 2 ^ 32 - x.widx) % 2 ^ 32 then 1 else 2) ∧
      (x.ien = true → (s.msixVec x.vec).masked = false → u.msixSent = s.msixSent ++ [x.vec]))) ∧
  (∀ (s : State) (v : Nat), s.fail = false → v < 2048 → ∃ u, exec (.msixUnmask v) s = .next u ∧ (u.msixVec v).masked = false ∧
    u.msixSent = (if (s.msixVec v).pending then s.msixSent ++ [v] else s.msixSent) ∧ u.mem = s.mem) ∧
  (∀ (s : State) (n : Nat) (v : Word), s.fail = false → n < 2048 → ∃ u, exec (.hostRegisterWrite (0x300000 + 16 * n + 8) v) s = .next u ∧ u.mem = s.mem ∧ u.queues = s.queues ∧
    (u.msixVec n).masked = v.getLsbD 32 ∧ (v.getLsbD 32 = true → u.msixSent = s.msixSent)) ∧
  (∀ (s : State) (off : Nat) (v : Word), memInv s → s.fail = false → s.hostWaits = [] → off % 8 = 0 → off < Config.commonsBytes →
    (s.admits (commonsKey off) true = true → ∃ u, exec (.hostBar4Access true off v) s = .next u ∧ Memory.readBytes u.mem (commonsKey off) 8 = bytesOf 8 v.toNat ∧
      (∀ k, (k < commonsKey off ∨ commonsKey off + 8 ≤ k) → Memory.read u.mem k = Memory.read s.mem k)) ∧
    (s.admits (commonsKey off) false = true → ∃ u r, exec (.hostBar4Access false off v) s = .next u ∧ u = { s with reads := s.reads ++ [r] } ∧ r.port = none ∧
      r.data = Memory.readBytes s.mem (commonsKey off) 8 ∧ r.poisoned = (s.poisoned (commonsKey off) 8).isSome) ∧
    (∀ w, s.admits (commonsKey off) w = false → s.faultsFor (commonsKey off) w = false →
      ∃ u, exec (.hostBar4Access w off v) s = .next u ∧ u.hostWaits = [{ id := s.nextId, write := w, off := off, val := v }] ∧ u.mem = s.mem ∧ u.reads = s.reads ∧
        (∀ o, s.objAt (commonsKey off) = some o → s.parksFull o = false → (∀ q ∈ o.queue, q.who ≠ .host s.nextId) →
          ∃ y ∈ u.objs, y.id = o.id ∧ y.state = o.state ∧ ∃ q, y.queue = o.queue ++ [q] ∧ q.core = 2048 ∧ q.who = .host s.nextId)) ∧
    (∀ w, s.faultsFor (commonsKey off) w = true → exec (.hostBar4Access w off v) s = .next s)) ∧
  (∀ (s : State) (ok : Bool), s.fail = true → ∃ u, exec (.firmwareUpdate ok) s = .next u ∧
    u.attest = s.attest ++ [{ image := s.attest.length + 1, ok := ok }] ∧ u.firmware = (if ok then s.attest.length + 1 else s.firmware) ∧ u.fail = true ∧ u.ready = s.ready ∧
    u.mem = s.mem) ∧
  (∀ (s : State) (q : Nat) (p : List Word), s.ready = true → (s.queue q).en = true → (s.queue q).ridx ≠ (s.queue q).widx → (∀ x ∈ s.heads, x.1 ≠ q) →
    (∀ x ∈ s.verdicts, x.1 ≠ q) → s.keepsHead q = false → s.readEntry q (jobId q ((s.queue q).num + 1)) = .ok p →
    (s.objs = [] → s.devReads = [] → p = words64 32 (Memory.readBytes s.mem (s.entryKey q) 256)) ∧
    (∀ h, s.checkHead q ((s.queue q).num + 1) p = .accept h → ∃ u, exec (.launchHeadCheck q) s = .next u ∧ (q, h) ∈ u.heads ∧ u.mem = s.mem ∧ u.cores = s.cores ∧
      (u.queue q).ridx = ((s.queue q).ridx + 1) % 2 ^ 32 ∧ (u.queue q).num = (s.queue q).num + 1) ∧
    (∀ st w, s.checkHead q ((s.queue q).num + 1) p = .reject st → s.devWrite (pkAgent (jobId q ((s.queue q).num + 1)) p) (pkW p 18)
        ((rejectRecord st ((s.queue q).num + 1) s.rtime).flatMap (fun w => bytesOf 8 w.toNat)) = .ok w →
      ∃ u, exec (.launchHeadCheck q) s = .next u ∧ u.heads = s.heads ∧ u.mem = w.mem ∧ u.cores = s.cores ∧ u.jobs = s.jobs ∧
        (u.queue q).ridx = ((s.queue q).ridx + 1) % 2 ^ 32 ∧ (u.queue q).num = (s.queue q).num + 1) ∧
    (∀ st va, s.checkHead q ((s.queue q).num + 1) p = .reject st → s.devWrite (pkAgent (jobId q ((s.queue q).num + 1)) p) (pkW p 18)
        ((rejectRecord st ((s.queue q).num + 1) s.rtime).flatMap (fun w => bytesOf 8 w.toNat)) = .need va →
      ∃ u, exec (.launchHeadCheck q) s = .next u ∧ (q, { num := (s.queue q).num + 1, pkt := p, status := st }) ∈ u.verdicts ∧ u.heads = s.heads ∧ u.mem = s.mem ∧
        (u.queue q).ridx = ((s.queue q).ridx + 1) % 2 ^ 32 ∧ (u.queue q).num = (s.queue q).num + 1)) ∧
  (∀ (s w : State) (q : Nat) (v : Verdict), s.ready = true → s.verdicts.find? (fun x => x.1 == q) = some (q, v) →
    s.devWrite (pkAgent (jobId q v.num) v.pkt) (pkW v.pkt 18) ((rejectRecord v.status v.num s.rtime).flatMap (fun w => bytesOf 8 w.toNat)) = .ok w →
    ∃ u, exec (.launchHeadCheck q) s = .next u ∧ u.mem = w.mem ∧ (∀ x ∈ u.verdicts, x.1 ≠ q) ∧ u.heads = s.heads ∧ u.jobs = s.jobs ∧ u.cores = s.cores ∧
      (u.queue q).ridx = (s.queue q).ridx ∧ (u.queue q).num = (s.queue q).num) ∧
  (∀ (s w : State) (q : Nat) (h : Head), s.ready = true → s.markPreempt.pickQueue = some (q, h, w) → pkResume h.pkt = false →
    ∃ u j, exec .schedulerStart s = .next u ∧ j ∈ u.jobs ∧ j.id = jobId q h.num ∧ j.phase = .claimed ∧ j.pkt = h.pkt ∧ (∀ x ∈ u.heads, x.1 ≠ q) ∧
      (∀ c ∈ gridCores (pkGrid h.pkt), (u.core c).job = some j.id) ∧ u.mem = s.mem ∧
      (∀ x ∈ s.heads, s.markPreempt.eligible x.1 x.2 = true → s.headPrio x.1 x.2 ≤ s.headPrio q h)) ∧
  (∀ (s : State) (job : Nat) (j : Job) (img : Option (List Byte × List Byte)), s.job? job = some j → j.phase = .claimed → s.movingIn (pkGrid j.pkt) = false → s.readImage j = .ok img → j.cores.Nodup →
    ∃ u, exec (.launchImagePlaced job) s = .next u ∧ (u.job? job).map (·.phase) = some .placed ∧
      (∀ p ∈ j.cores.zipIdx, (u.core p.1).phase = .placed ∧ (u.core p.1).smask = BitVec.ofNat 64 (j.memb.getD p.2 0) ∧ (u.core p.1).sstep = 0 ∧
        (u.slot p.1 0).mode = .live ∧ (u.slot p.1 0).pc = selfAddr (hdEntry j.hdr) ∧ (u.slot p.1 0).rd 1 = selfAddr (pkArgOff j.pkt) ∧
        (∀ r : Reg, r ≠ 1 → (u.slot p.1 0).rd r = 0) ∧ (∀ t, 0 < t → (u.slot p.1 t).mode = .free))) ∧
  (∀ (s : State) (job : Nat) (j : Job), s.job? job = some j → j.phase = .placed → ∃ u, exec (.launchRelease job) s = .next u ∧
    (u.job? job).map (·.phase) = some .running ∧ (∀ c ∈ j.cores, (u.core c).phase = .running) ∧ u.mem = s.mem) ∧
  (∀ (s : State) (c : Nat), s.coreDone c = true → ∃ u, exec (.coreEnd c) s = .next u ∧ (u.core c).phase = .ended ∧ (u.core c).inbox = [] ∧
    (∀ p ∈ (u.core c).windows, p.2.isOpen = false) ∧ (∀ d, d ≠ c → s.partner c ≠ some d → u.core d = s.core d)) ∧
  (∀ (s : State) (job st : Nat) (j : Job), memInv s → s.job? job = some j → s.cancelledAt j = false → s.finalStatus j = some st → s.inFlight j = false →
    s.behind j = false → st ≠ 7 → pkPv j.pkt = false →
    (∀ i, i < 64 → s.admits ((if (j.pw 18).toNat / 2 ^ 56 = 0x0D then commonsKey ((j.pw 18).toNat % 2 ^ 28) else hostKey (j.pw 18).toNat) + i) true = true) →
    (j.pw 18).toNat % 64 = 0 → oneSpace (j.pw 18) 64 = true → ∃ u e f g,
      exec (.jobEnd job) s = .next u ∧ Memory.readBytes u.mem (if (j.pw 18).toNat / 2 ^ 56 = 0x0D then commonsKey ((j.pw 18).toNat % 2 ^ 28) else hostKey (j.pw 18).toNat) 64 =
        ([BitVec.ofNat 64 st, BitVec.ofNat 64 j.num, BitVec.ofNat 64 j.tstart, s.rtime, e, f, g, 0] : List Word).flatMap (fun w => bytesOf 8 w.toNat) ∧
      u.job? job = none ∧ (∀ c ∈ s.held j, (u.core c).job = none) ∧ (u.queue j.queue).ctl = BitVec.ofNat 64 (u.ctlOf j.queue) ∧
      (∀ o ∈ u.objs, o.binder ≠ j.dom)) ∧
  (∀ (s : State) (job : Nat) (j : Job), s.job? job = some j → (∀ st, j.phase ≠ .stopping st) → j.phase ≠ .stopped7 → ∃ u, exec (.jobKill job) s = .next u ∧
    (u.job? job).map (·.phase) = some (.stopping 5) ∧ (∀ c ∈ s.held j, (u.core c).vf.lease = 0 ∧ (u.core c).vf.mail.isSome = true) ∧ u.mem = s.mem) ∧
  (∀ (s : State) (n : Nat) (j : Job), s.jobs.find? (fun j => j.save == some n && (match j.phase with | .stopped7 => true | _ => false)) = some j →
    ∃ u, exec (.savedJobDiscard n) s = .next u ∧ u.job? j.id = none ∧ (∀ o ∈ u.objs, o.binder ≠ j.dom) ∧ u.mem = s.mem ∧
      (∀ c t, (u.slot c t).g = (s.slot c t).g ∧ (u.slot c t).pc = (s.slot c t).pc)) ∧
  (∀ (s : State) (job : Nat) (j : Job), s.job? job = some j → j.phase = .running →
    (s.safePoint j = true → (∃ c ∈ s.held j, (s.core c).bkptHit = true) → ∃ u v, exec (.debugStop job) s = .next u ∧ (u.job? job).map (·.phase) = some (.saved true) ∧
      v ∈ u.saves ∧ v.job.id = job ∧ v.cores = (s.held j).map (fun c => (c, s.core c)) ∧ u.mem = s.mem ∧ (∀ c ∈ s.held j, (u.core c).job = none)) ∧
    (s.safePoint j = true → j.preempt = true → ∃ u v, exec (.preemptSafePoint job) s = .next u ∧ (u.job? job).map (·.phase) = some (.saved true) ∧
      v ∈ u.saves ∧ v.job.id = job ∧ v.cores.map (·.1) = s.held j ∧ (∀ p ∈ v.cores, p.2.slots = (s.core p.1).slots) ∧ (∀ c ∈ s.held j, (u.core c).job = none)) ∧
    (j.preempt = true → pkDet j.pkt = false → j.draining = false → ∃ u, exec (.preemptBetweenSafePoints job) s = .next u ∧
      (u.job? job).map (·.draining) = some true ∧ u.cores = s.cores ∧ u.mem = s.mem) ∧
    (j.preempt = true → pkDet j.pkt = false → j.draining = true → s.quiet j false = true → ∃ u v, exec (.preemptBetweenSafePoints job) s = .next u ∧
      (u.job? job).map (·.phase) = some (.saved false) ∧ v ∈ u.saves ∧ v.job.id = job ∧ v.cores.map (·.1) = s.held j) ∧
    (∀ c t n, s.stepLimit = some (c, t, n) → n ≤ (s.slot c t).icount → (s.core c).job = some job → s.quiet j true = true → ∃ u v, exec .stepLimitReached s = .next u ∧
      (u.job? job).map (·.phase) = some (.saved false) ∧ v ∈ u.saves ∧ v.job.id = job ∧ v.cores = (s.held j).map (fun c => (c, s.core c)) ∧ u.stepLimit = none)) ∧
  (∀ (s : State) (job : Nat) (j : Job) (v : Save) (safe : Bool) (limit : Option (Nat × Nat × Nat)), s.job? job = some j → j.phase = .saved safe →
    s.resumeFrom j limit.isSome = some v → s.ready = true → s.movingIn (pkGrid j.pkt) = false → (∀ o ∈ s.objs, o.queue = []) → s.answers = [] → s.busyGrid (pkGrid j.pkt) = false → s.remapped (pkGrid j.pkt) = true →
    s.blocked j.prio (pkGrid j.pkt) = false → s.outranked j.prio (pkGrid j.pkt) = false → (v.cores.map (·.1)).Nodup → ∃ u, exec (.jobResume job limit) s = .next u ∧ (u.job? job).map (·.phase) = some .running ∧
      (∀ p ∈ v.cores, (u.core p.1).job = some job ∧ (u.core p.1).phase = p.2.phase ∧ (u.core p.1).tlb = [] ∧
        (∀ t, (u.slot p.1 t).g = (p.2.slot t).g ∧ (u.slot p.1 t).v = (p.2.slot t).v ∧ (u.slot p.1 t).pc = (p.2.slot t).pc)) ∧
      (∀ l, limit = some l → u.stepLimit = some l)) ∧
  (∀ (s : State) (c t : Nat) (w : Wait) (k : WaitWord), (s.slot c t).park = some w → s.expired c t w = true → s.waitWord c t w = some k → t ≠ 11 →
    (s.slot c t).calls = [] → (s.slot c t).tvec.getLsbD 0 = true → (s.slot c t).hnd = false → (t ≠ 0 ∨ (s.core c).gang = 0) →
    ∃ u, exec (.waitTimeout c t) s = .next u ∧ (u.slot c t).tcause.toNat % 2 ^ 11 = 0x10 ∧ (u.slot c t).tinfo = k.info ∧
      (k.kind ≠ 10 ∨ k.acc ≠ none → (u.slot c t).tpc = (s.slot c t).pc) ∧
      (u.slot c t).pc = (s.slot c t).tvec &&& ~~~(3 : Word) ∧ (u.slot c t).hnd = true ∧ u.mem = s.mem ∧
      (k.acc = none → (u.slot c t).g = (s.slot c t).g ∧ (u.slot c t).acc = (s.slot c t).acc) ∧ (k.kind = 6 → k.acc = none → (u.core c).gangReq = 0) ∧
      (∀ a, k.acc = some a → (u.slot c t).acc = (s.slot c t).acc.filter (fun b => b.id != a.id))) ∧
  (∀ (s : State) (c t : Nat) (tr : Trap), (s.core c).vf.moving = none → (s.slot c t).abort = none → s.boundary c t = true → s.nextTrap c t = some tr → t ≠ 11 → (s.slot c t).calls = [] →
    (s.slot c t).tvec.getLsbD 0 = true → (s.slot c t).hnd = false → (t ≠ 0 ∨ (s.core c).gang = 0) → ∃ u, exec (.completionTrapTake c t) s = .next u ∧
      (u.slot c t).tcause.toNat % 2 ^ 8 = tr.code.toNat ∧ (u.slot c t).taddr = tr.addr ∧ (u.slot c t).tinfo = tr.info ∧ (u.slot c t).tpc = (s.slot c t).pc ∧
      (u.slot c t).pc = (s.slot c t).tvec &&& ~~~(3 : Word) ∧ (u.slot c t).traps = (s.slot c t).traps.erase tr ∧ (u.slot c t).g = (s.slot c t).g ∧ u.mem = s.mem)

/-- R332, R341, R383 and R417 to R424: in the recovery configuration no firmware retires or recalibrates. The numbering of counted units is the model's own (log entry 31, DESIGN CHOICE); so is the value 99 for a block that is not
poisoned. That fault records reach memory only when the job ends is log entry 13 (DESIGN CHOICE); what a lost core, row or port leaves, log entry 57 (DESIGN CHOICE).
Completes eccUncorrectable, eccCorrected, errorCountRetirement, agingRecalibration, thermalStop, thermalReadyRestore, deviceFault, seamCrcRetry, seamLaneRetire, seamRetrainComplete, fabricOperationReceive, fabricLinkDown, fabricLinkUp and fabricPortTimeout. -/
def Obligations.ErrorsWearAndLinks : Prop :=
  (∀ (s : State) (loc : Nat) (slice : Bool), loc < Config.hostBase → ∃ u, exec (.eccUncorrectable loc slice) s = .next u ∧
    tget u.poison (loc / 64) 99 = (if slice then 2 else if Config.coreBase ≤ loc then 0 else if Config.commonsBase ≤ loc then 1 else 3) ∧
    (∀ b, b ≠ loc / 64 → tget u.poison b 99 = tget s.poison b 99) ∧ u.count (s.unitOf loc) true = s.count (s.unitOf loc) true + 1 ∧ u.mem = s.mem ∧ u.cores = s.cores) ∧
  (∀ (s : State) (n : Nat), n < coreUnit → ∃ u, exec (.eccCorrected n) s = .next u ∧ u.count n false = s.count n false + 1 ∧ u.hlcount = s.hlcount + 1 ∧
    u = { s with errCounts := u.errCounts, health := u.health, hlcount := u.hlcount }) ∧
  (∀ s : State, s.fail = true → (∀ n, exec (.errorCountRetirement n) s = .next s) ∧ (∀ bad, exec (.agingRecalibration bad) s = .next s)) ∧
  (∀ (s : State) (n : Nat), s.fail = false → n < laneUnit → (1 ≤ s.count n true ∨ (if n < wayUnit then 16 else 4) ≤ s.count n false) → ∃ u, exec (.errorCountRetirement n) s = .next u ∧ n ∈ u.retired ∧
    u.count n true = 0 ∧ u.count n false = 0 ∧ u.hlcount = s.hlcount + 1 ∧ u.mem = s.mem) ∧
  (∀ (s : State) (p l : Nat), s.fail = false → p < 16 → l < 64 → 0 < s.count (fabricUnit + 64 * p + l) false → Config.laneBits p < 10 ^ 5 * s.count (fabricUnit + 64 * p + l) false →
    ∃ u, exec (.errorCountRetirement (fabricUnit + 64 * p + l)) s = .next u ∧ fabricUnit + 64 * p + l ∈ u.retired ∧ u.count (fabricUnit + 64 * p + l) false = 0 ∧
      u.hlcount = s.hlcount + 1 ∧ u.mem = s.mem) ∧
  (∀ (s : State) (bad : List Nat), s.fail = false → (∀ p ∈ s.cores, p.2.job = none) → ∃ u, exec (.agingRecalibration bad) s = .next u ∧ (∀ p ∈ bad, p < 2176 + 2 * Config.servicePerDie → agingUnit p ∈ u.retired) ∧
    (∀ n ∈ s.retired, n ∈ u.retired) ∧ u.calibrated = s.calibrated + 1 ∧ u.mem = s.mem ∧ u.cores = s.cores) ∧
  (∀ s : State, ∃ u, exec .thermalStop s = .next u ∧ u.ready = false ∧ u.hot = true ∧ u.mem = s.mem ∧
    (∀ j ∈ s.jobs, (∀ st, j.phase ≠ .stopping st) → j.phase ≠ .stopped7 → (∃ y ∈ u.jobs, y.id = j.id ∧ y.phase = .stopping 8) ∧
      (s.job? j.id = some j → ∀ c ∈ s.held j, ∃ r ∈ u.faults, r.job = j.id ∧ (r.words.headD 0).toNat % 2 ^ 8 = 0x1A ∧ r.words.getD 3 0 = 4))) ∧
  (∀ s : State, s.hot = true → s.stage = 7 → s.fail = false → ∃ u, exec .thermalReadyRestore s = .next u ∧ u.ready = true ∧ u.hot = false ∧ u.jobs = s.jobs) ∧
  (∀ (s : State) (c : Nat) (j : Job), (s.core c).job.bind s.job? = some j → j.phase = .running → c ∈ j.cores → c ∈ s.sharing c →
    ∃ u, exec (.deviceFault (.core c)) s = .next u ∧
    (u.job? j.id).map (·.phase) = some (.stopping 9) ∧ (∀ r, r ∈ s.faults → r ∈ u.faults) ∧ (∃ r ∈ u.faults, (r.words.headD 0).toNat % 2 ^ 8 = 0x1A ∧ r.words.getD 3 0 = 1) ∧
    (u.core c).slots = [] ∧ (∀ d, d ∉ s.sharing c → u.core d = s.core d) ∧
    (∀ k, (∀ d ∈ s.sharing c, k < coreKey d 0 ∨ coreKey d 0 + Config.coreBytes ≤ k) → Memory.read u.mem k = Memory.read s.mem k) ∧ coreUnit + physOf (s.placeOf c) ∈ u.retired ∧ u.hlcount = s.hlcount + 1) ∧
  (∀ (s : State) (r l : Nat), r < 128 → l < 64 → (∃ u, exec (.seamCrcRetry r l) s = .next u ∧ (tget u.seam r Link.reset).retries = (tget s.seam r Link.reset).retries + 1 ∧
      u.count (seamLane r l) false = s.count (seamLane r l) false + 1 ∧ u = { s with seam := u.seam, errCounts := u.errCounts, health := u.health, hlcount := u.hlcount }) ∧
    (1000 ≤ s.count (seamLane r l) false → ∃ u, exec (.seamLaneRetire r l) s = .next u ∧ (tget u.seam r Link.reset).up = false ∧
      (tget u.seam r Link.reset).spares = (tget s.seam r Link.reset).spares - 1 ∧ seamLane r l ∈ u.retired ∧ u.count (seamLane r l) false = 0 ∧
      ((tget s.seam r Link.reset).spares = 0 → (tget u.seam r Link.reset).half = true) ∧ u.hlcount = s.hlcount + 1 ∧ u.mem = s.mem) ∧
    (s.count (seamLane r l) false < 1000 → exec (.seamLaneRetire r l) s = .next s) ∧
    (∀ tr, (tget s.seam r Link.reset).lost = true → exec (.seamRetrainComplete { link := r, trained := tr }) s = .next s) ∧
    ((tget s.seam r Link.reset).lost = false →
      (∃ u, exec (.seamRetrainComplete { link := r, trained := true }) s = .next u ∧ (tget u.seam r Link.reset).up = true ∧ u = { s with seam := u.seam }) ∧
      (∃ u, exec (.seamRetrainComplete { link := r, trained := false }) s = .next u ∧ (tget u.seam r Link.reset).up = false ∧ (tget u.seam r Link.reset).lost = true ∧
        u.hlcount = s.hlcount + 1 ∧ u.mem = s.mem ∧
        ∀ j a b, s.job? j.id = some j → j.phase = .running → a ∈ s.held j → b ∈ s.held j → coreY a = r / 4 → coreY b = r / 4 → dieOf a = 0 → dieOf b = 1 →
          (u.job? j.id).map (·.phase) = some (.stopping 9)))) ∧
  (∀ (s : State) (r p : Nat), p < 4 → ∃ u, exec (.deviceFault (.seamRow r)) s = .next u ∧ (tget u.seam (seamLink r p) Link.reset).up = false ∧
    (tget u.seam (seamLink r p) Link.reset).lost = true ∧ u.hlcount = s.hlcount + 1 ∧ u.mem = s.mem) ∧
  (∀ (s : State) (p : Nat), p < 16 → s.fail = false → (s.port p).lost = false →
    (∀ op, (s.port p).up = false → ∃ u, exec (.fabricOperationReceive p op) s = .next u ∧ (u.port p).waiting = (s.port p).waiting ++ [op] ∧ u.mem = s.mem) ∧
    (∀ key bs, memInv s → (s.port p).up = true → (s.port p).waiting = [] → s.peerAdmits (.write key bs) = true → peerReach key bs.length = true → ∃ u, exec (.fabricOperationReceive p (.write key bs)) s = .next u ∧
      Memory.readBytes u.mem key bs.length = bs ∧ (∀ k, (k < key ∨ key + bs.length ≤ k) → Memory.read u.mem k = Memory.read s.mem k)) ∧
    (∀ key n, (s.port p).up = true → (s.port p).waiting = [] → s.peerAdmits (.read key n) = true → peerReach key n = true → ∃ u r,
      exec (.fabricOperationReceive p (.read key n)) s = .next u ∧ u.reads = s.reads ++ [r] ∧ r.port = some p ∧ r.data = Memory.readBytes s.mem key n ∧ u.mem = s.mem) ∧
    (∀ key x e, memInv s → (s.port p).up = true → (s.port p).waiting = [] → s.peerAdmits (.atomic key 11 true x e) = true → peerReach key 8 = true → key % 8 = 0 → s.poisoned key 8 = none →
      ∃ u, exec (.fabricOperationReceive p (.atomic key 11 true x e)) s = .next u ∧
        Memory.readBytes u.mem key 8 = bytesOf 8 ((Memory.readN s.mem key 8 + x.toNat) % 2 ^ 64)) ∧
    (∃ u, exec (.fabricLinkDown p) s = .next u ∧ (u.port p).up = false ∧ (u.port p).waiting = (s.port p).waiting ∧ u.mem = s.mem) ∧
    ((s.port p).up = false → 2 ≤ (s.retiredIn (fabricUnit + 64 * p) (fabricUnit + 64 * p + 64)).length → exec (.fabricLinkUp p) s = .next s) ∧
    ((s.port p).half = false → (s.retiredIn (fabricUnit + 64 * p) (fabricUnit + 64 * p + 64)).length ≤ 1 → ∃ u, exec (.fabricLinkUp p) s = .next u ∧ (u.port p).up = true ∧
      ((∀ op ∈ (s.port p).waiting, s.peerAdmits op = true) → (u.port p).waiting = []) ∧
      (∀ key bs, (s.port p).waiting = [.write key bs] → s.peerAdmits (.write key bs) = true → peerReach key bs.length = true → memInv s → Memory.readBytes u.mem key bs.length = bs)) ∧
    ((s.port p).up = false → ∃ u, exec (.fabricPortTimeout p) s = .next u ∧ (u.port p).waiting = [] ∧ (u.port p).up = false ∧ (u.port p).lost = true ∧ u.hlcount = s.hlcount + 1 ∧ u.mem = s.mem) ∧
    (∃ u, exec (.deviceFault (.fabricPort p)) s = .next u ∧ (u.port p).up = false ∧ (u.port p).lost = true ∧ u.mem = s.mem ∧
      (∀ j c x a q n, s.job? j.id = some j → j.phase = .running → c ∈ s.held j → x ∈ (s.core c).slots → a ∈ x.2.acc → a.place = some q → q.peer = some n → n.toNat = p →
        (u.job? j.id).map (·.phase) = some (.stopping 9))))
end

