-- ==== Sys2Proof/Laws/State.lean ====
section
/-! SUPPORT. One lemma per field per update of the state, a core and a slot, so that no proof unfolds a record update. -/

namespace Sys2Proof.Machine

open Sys2Proof

/-! ## A core replaced -/

@[simp] theorem State.setCore_mem (s : State) (c : Nat) (x : Core) : (s.setCore c x).mem = s.mem := rfl
@[simp] theorem State.setCore_poison (s : State) (c : Nat) (x : Core) : (s.setCore c x).poison = s.poison := rfl
@[simp] theorem State.setCore_wkey (s : State) (c : Nat) (x : Core) : (s.setCore c x).wkey = s.wkey := rfl
@[simp] theorem State.setCore_rtime (s : State) (c : Nat) (x : Core) : (s.setCore c x).rtime = s.rtime := rfl
@[simp] theorem State.setCore_cores (s : State) (c : Nat) (x : Core) : (s.setCore c x).cores = tset s.cores c x := rfl
@[simp] theorem State.setCore_gates (s : State) (c : Nat) (x : Core) : (s.setCore c x).gates = s.gates := rfl
@[simp] theorem State.setCore_remapix (s : State) (c : Nat) (x : Core) : (s.setCore c x).remapix = s.remapix := rfl
@[simp] theorem State.setCore_remap (s : State) (c : Nat) (x : Core) : (s.setCore c x).remap = s.remap := rfl
@[simp] theorem State.setCore_service (s : State) (c : Nat) (x : Core) : (s.setCore c x).service = s.service := rfl
@[simp] theorem State.setCore_banks (s : State) (c : Nat) (x : Core) : (s.setCore c x).banks = s.banks := rfl
@[simp] theorem State.setCore_ways (s : State) (c : Nat) (x : Core) : (s.setCore c x).ways = s.ways := rfl
@[simp] theorem State.setCore_hbm (s : State) (c : Nat) (x : Core) : (s.setCore c x).hbm = s.hbm := rfl
@[simp] theorem State.setCore_spared (s : State) (c : Nat) (x : Core) : (s.setCore c x).spared = s.spared := rfl
@[simp] theorem State.setCore_verdicts (s : State) (c : Nat) (x : Core) : (s.setCore c x).verdicts = s.verdicts := rfl
@[simp] theorem State.setCore_refusals (s : State) (c : Nat) (x : Core) : (s.setCore c x).refusals = s.refusals := rfl
@[simp] theorem State.setCore_hostWaits (s : State) (c : Nat) (x : Core) : (s.setCore c x).hostWaits = s.hostWaits := rfl
@[simp] theorem State.setCore_devReads (s : State) (c : Nat) (x : Core) : (s.setCore c x).devReads = s.devReads := rfl
@[simp] theorem State.setCore_firmware (s : State) (c : Nat) (x : Core) : (s.setCore c x).firmware = s.firmware := rfl
@[simp] theorem State.setCore_objs (s : State) (c : Nat) (x : Core) : (s.setCore c x).objs = s.objs := rfl
@[simp] theorem State.setCore_classes (s : State) (c : Nat) (x : Core) : (s.setCore c x).classes = s.classes := rfl
@[simp] theorem State.setCore_domCode (s : State) (c : Nat) (x : Core) : (s.setCore c x).domCode = s.domCode := rfl
@[simp] theorem State.setCore_domRange (s : State) (c : Nat) (x : Core) : (s.setCore c x).domRange = s.domRange := rfl
@[simp] theorem State.setCore_keysLoaded (s : State) (c : Nat) (x : Core) : (s.setCore c x).keysLoaded = s.keysLoaded := rfl
@[simp] theorem State.setCore_keyGen (s : State) (c : Nat) (x : Core) : (s.setCore c x).keyGen = s.keyGen := rfl
@[simp] theorem State.setCore_pageTables (s : State) (c : Nat) (x : Core) : (s.setCore c x).pageTables = s.pageTables := rfl
@[simp] theorem State.setCore_ctc (s : State) (c : Nat) (x : Core) : (s.setCore c x).ctc = s.ctc := rfl
@[simp] theorem State.setCore_atsReqs (s : State) (c : Nat) (x : Core) : (s.setCore c x).atsReqs = s.atsReqs := rfl
@[simp] theorem State.setCore_pageReqs (s : State) (c : Nat) (x : Core) : (s.setCore c x).pageReqs = s.pageReqs := rfl
@[simp] theorem State.setCore_answers (s : State) (c : Nat) (x : Core) : (s.setCore c x).answers = s.answers := rfl
@[simp] theorem State.setCore_priEnable (s : State) (c : Nat) (x : Core) : (s.setCore c x).priEnable = s.priEnable := rfl
@[simp] theorem State.setCore_priFailed (s : State) (c : Nat) (x : Core) : (s.setCore c x).priFailed = s.priFailed := rfl
@[simp] theorem State.setCore_priAlloc (s : State) (c : Nat) (x : Core) : (s.setCore c x).priAlloc = s.priAlloc := rfl
@[simp] theorem State.setCore_casts (s : State) (c : Nat) (x : Core) : (s.setCore c x).casts = s.casts := rfl
@[simp] theorem State.setCore_queues (s : State) (c : Nat) (x : Core) : (s.setCore c x).queues = s.queues := rfl
@[simp] theorem State.setCore_heads (s : State) (c : Nat) (x : Core) : (s.setCore c x).heads = s.heads := rfl
@[simp] theorem State.setCore_jobs (s : State) (c : Nat) (x : Core) : (s.setCore c x).jobs = s.jobs := rfl
@[simp] theorem State.setCore_resident (s : State) (c : Nat) (x : Core) : (s.setCore c x).resident = s.resident := rfl
@[simp] theorem State.setCore_msix (s : State) (c : Nat) (x : Core) : (s.setCore c x).msix = s.msix := rfl
@[simp] theorem State.setCore_msixSent (s : State) (c : Nat) (x : Core) : (s.setCore c x).msixSent = s.msixSent := rfl
@[simp] theorem State.setCore_bar0 (s : State) (c : Nat) (x : Core) : (s.setCore c x).bar0 = s.bar0 := rfl
@[simp] theorem State.setCore_health (s : State) (c : Nat) (x : Core) : (s.setCore c x).health = s.health := rfl
@[simp] theorem State.setCore_hlcount (s : State) (c : Nat) (x : Core) : (s.setCore c x).hlcount = s.hlcount := rfl
@[simp] theorem State.setCore_configRetries (s : State) (c : Nat) (x : Core) : (s.setCore c x).configRetries = s.configRetries := rfl
@[simp] theorem State.setCore_stage (s : State) (c : Nat) (x : Core) : (s.setCore c x).stage = s.stage := rfl
@[simp] theorem State.setCore_ready (s : State) (c : Nat) (x : Core) : (s.setCore c x).ready = s.ready := rfl
@[simp] theorem State.setCore_fail (s : State) (c : Nat) (x : Core) : (s.setCore c x).fail = s.fail := rfl
@[simp] theorem State.setCore_failCode (s : State) (c : Nat) (x : Core) : (s.setCore c x).failCode = s.failCode := rfl
@[simp] theorem State.setCore_failStage (s : State) (c : Nat) (x : Core) : (s.setCore c x).failStage = s.failStage := rfl
@[simp] theorem State.setCore_bringUpFail (s : State) (c : Nat) (x : Core) : (s.setCore c x).bringUpFail = s.bringUpFail := rfl
@[simp] theorem State.setCore_arrivals (s : State) (c : Nat) (x : Core) : (s.setCore c x).arrivals = s.arrivals := rfl
@[simp] theorem State.setCore_exchanges (s : State) (c : Nat) (x : Core) : (s.setCore c x).exchanges = s.exchanges := rfl
@[simp] theorem State.setCore_portWrites (s : State) (c : Nat) (x : Core) : (s.setCore c x).portWrites = s.portWrites := rfl
@[simp] theorem State.setCore_messages (s : State) (c : Nat) (x : Core) : (s.setCore c x).messages = s.messages := rfl
@[simp] theorem State.setCore_trace (s : State) (c : Nat) (x : Core) : (s.setCore c x).trace = s.trace := rfl
@[simp] theorem State.setCore_faults (s : State) (c : Nat) (x : Core) : (s.setCore c x).faults = s.faults := rfl
@[simp] theorem State.setCore_saves (s : State) (c : Nat) (x : Core) : (s.setCore c x).saves = s.saves := rfl
@[simp] theorem State.setCore_safe (s : State) (c : Nat) (x : Core) : (s.setCore c x).safe = s.safe := rfl
@[simp] theorem State.setCore_gone (s : State) (c : Nat) (x : Core) : (s.setCore c x).gone = s.gone := rfl
@[simp] theorem State.setCore_reads (s : State) (c : Nat) (x : Core) : (s.setCore c x).reads = s.reads := rfl
@[simp] theorem State.setCore_idle (s : State) (c : Nat) (x : Core) : (s.setCore c x).idle = s.idle := rfl
@[simp] theorem State.setCore_windowsEnded (s : State) (c : Nat) (x : Core) : (s.setCore c x).windowsEnded = s.windowsEnded := rfl
@[simp] theorem State.setCore_windowAt (s : State) (c : Nat) (x : Core) : (s.setCore c x).windowAt = s.windowAt := rfl
@[simp] theorem State.setCore_hot (s : State) (c : Nat) (x : Core) : (s.setCore c x).hot = s.hot := rfl
@[simp] theorem State.setCore_seam (s : State) (c : Nat) (x : Core) : (s.setCore c x).seam = s.seam := rfl
@[simp] theorem State.setCore_fabric (s : State) (c : Nat) (x : Core) : (s.setCore c x).fabric = s.fabric := rfl
@[simp] theorem State.setCore_errCounts (s : State) (c : Nat) (x : Core) : (s.setCore c x).errCounts = s.errCounts := rfl
@[simp] theorem State.setCore_retired (s : State) (c : Nat) (x : Core) : (s.setCore c x).retired = s.retired := rfl
@[simp] theorem State.setCore_calibrated (s : State) (c : Nat) (x : Core) : (s.setCore c x).calibrated = s.calibrated := rfl
@[simp] theorem State.setCore_attest (s : State) (c : Nat) (x : Core) : (s.setCore c x).attest = s.attest := rfl
@[simp] theorem State.setCore_stepLimit (s : State) (c : Nat) (x : Core) : (s.setCore c x).stepLimit = s.stepLimit := rfl
@[simp] theorem State.setCore_cur (s : State) (c : Nat) (x : Core) : (s.setCore c x).cur = s.cur := rfl
@[simp] theorem State.setCore_issuing (s : State) (c : Nat) (x : Core) : (s.setCore c x).issuing = s.issuing := rfl
@[simp] theorem State.setCore_cycleOf (s : State) (c : Nat) (x : Core) : (s.setCore c x).cycleOf = s.cycleOf := rfl
@[simp] theorem State.setCore_agenda (s : State) (c : Nat) (x : Core) : (s.setCore c x).agenda = s.agenda := rfl
@[simp] theorem State.setCore_predictions (s : State) (c : Nat) (x : Core) : (s.setCore c x).predictions = s.predictions := rfl
@[simp] theorem State.setCore_fresh (s : State) (c : Nat) (x : Core) : (s.setCore c x).fresh = s.fresh := rfl
@[simp] theorem State.setCore_nextId (s : State) (c : Nat) (x : Core) : (s.setCore c x).nextId = s.nextId := rfl

/-! ## The other updates of the state are a core replaced -/

theorem State.onCore_def (s : State) (c : Nat) (f : Core → Core) : s.onCore c f = s.setCore c (f (s.core c)) := rfl
theorem State.setSlot_def (s : State) (c t : Nat) (y : Slot) : s.setSlot c t y = s.setCore c ((s.core c).setSlot t y) := rfl
theorem State.onSlot_def (s : State) (c t : Nat) (f : Slot → Slot) : s.onSlot c t f = s.setSlot c t (f (s.slot c t)) := rfl
theorem State.setMe_def (s : State) (y : Slot) : s.setMe y = s.setSlot s.cur.core s.cur.slot y := rfl
theorem State.onMe_def (s : State) (f : Slot → Slot) : s.onMe f = s.setMe (f s.me) := rfl
theorem State.onMine_def (s : State) (f : Core → Core) : s.onMine f = s.setCore s.cur.core (f s.mine) := rfl

@[simp] theorem State.onCore_mem (s : State) (c : Nat) (f : Core → Core) : (s.onCore c f).mem = s.mem := rfl
@[simp] theorem State.onCore_poison (s : State) (c : Nat) (f : Core → Core) : (s.onCore c f).poison = s.poison := rfl
@[simp] theorem State.onCore_wkey (s : State) (c : Nat) (f : Core → Core) : (s.onCore c f).wkey = s.wkey := rfl
@[simp] theorem State.onCore_rtime (s : State) (c : Nat) (f : Core → Core) : (s.onCore c f).rtime = s.rtime := rfl
@[simp] theorem State.onCore_gates (s : State) (c : Nat) (f : Core → Core) : (s.onCore c f).gates = s.gates := rfl
@[simp] theorem State.onCore_remapix (s : State) (c : Nat) (f : Core → Core) : (s.onCore c f).remapix = s.remapix := rfl
@[simp] theorem State.onCore_remap (s : State) (c : Nat) (f : Core → Core) : (s.onCore c f).remap = s.remap := rfl
@[simp] theorem State.onCore_service (s : State) (c : Nat) (f : Core → Core) : (s.onCore c f).service = s.service := rfl
@[simp] theorem State.onCore_banks (s : State) (c : Nat) (f : Core → Core) : (s.onCore c f).banks = s.banks := rfl
@[simp] theorem State.onCore_ways (s : State) (c : Nat) (f : Core → Core) : (s.onCore c f).ways = s.ways := rfl
@[simp] theorem State.onCore_hbm (s : State) (c : Nat) (f : Core → Core) : (s.onCore c f).hbm = s.hbm := rfl
@[simp] theorem State.onCore_spared (s : State) (c : Nat) (f : Core → Core) : (s.onCore c f).spared = s.spared := rfl
@[simp] theorem State.onCore_verdicts (s : State) (c : Nat) (f : Core → Core) : (s.onCore c f).verdicts = s.verdicts := rfl
@[simp] theorem State.onCore_refusals (s : State) (c : Nat) (f : Core → Core) : (s.onCore c f).refusals = s.refusals := rfl
@[simp] theorem State.onCore_hostWaits (s : State) (c : Nat) (f : Core → Core) : (s.onCore c f).hostWaits = s.hostWaits := rfl
@[simp] theorem State.onCore_devReads (s : State) (c : Nat) (f : Core → Core) : (s.onCore c f).devReads = s.devReads := rfl
@[simp] theorem State.onCore_firmware (s : State) (c : Nat) (f : Core → Core) : (s.onCore c f).firmware = s.firmware := rfl
@[simp] theorem State.onCore_objs (s : State) (c : Nat) (f : Core → Core) : (s.onCore c f).objs = s.objs := rfl
@[simp] theorem State.onCore_classes (s : State) (c : Nat) (f : Core → Core) : (s.onCore c f).classes = s.classes := rfl
@[simp] theorem State.onCore_domCode (s : State) (c : Nat) (f : Core → Core) : (s.onCore c f).domCode = s.domCode := rfl
@[simp] theorem State.onCore_domRange (s : State) (c : Nat) (f : Core → Core) : (s.onCore c f).domRange = s.domRange := rfl
@[simp] theorem State.onCore_keysLoaded (s : State) (c : Nat) (f : Core → Core) : (s.onCore c f).keysLoaded = s.keysLoaded := rfl
@[simp] theorem State.onCore_keyGen (s : State) (c : Nat) (f : Core → Core) : (s.onCore c f).keyGen = s.keyGen := rfl
@[simp] theorem State.onCore_pageTables (s : State) (c : Nat) (f : Core → Core) : (s.onCore c f).pageTables = s.pageTables := rfl
@[simp] theorem State.onCore_ctc (s : State) (c : Nat) (f : Core → Core) : (s.onCore c f).ctc = s.ctc := rfl
@[simp] theorem State.onCore_atsReqs (s : State) (c : Nat) (f : Core → Core) : (s.onCore c f).atsReqs = s.atsReqs := rfl
@[simp] theorem State.onCore_pageReqs (s : State) (c : Nat) (f : Core → Core) : (s.onCore c f).pageReqs = s.pageReqs := rfl
@[simp] theorem State.onCore_answers (s : State) (c : Nat) (f : Core → Core) : (s.onCore c f).answers = s.answers := rfl
@[simp] theorem State.onCore_priEnable (s : State) (c : Nat) (f : Core → Core) : (s.onCore c f).priEnable = s.priEnable := rfl
@[simp] theorem State.onCore_priFailed (s : State) (c : Nat) (f : Core → Core) : (s.onCore c f).priFailed = s.priFailed := rfl
@[simp] theorem State.onCore_priAlloc (s : State) (c : Nat) (f : Core → Core) : (s.onCore c f).priAlloc = s.priAlloc := rfl
@[simp] theorem State.onCore_casts (s : State) (c : Nat) (f : Core → Core) : (s.onCore c f).casts = s.casts := rfl
@[simp] theorem State.onCore_queues (s : State) (c : Nat) (f : Core → Core) : (s.onCore c f).queues = s.queues := rfl
@[simp] theorem State.onCore_heads (s : State) (c : Nat) (f : Core → Core) : (s.onCore c f).heads = s.heads := rfl
@[simp] theorem State.onCore_jobs (s : State) (c : Nat) (f : Core → Core) : (s.onCore c f).jobs = s.jobs := rfl
@[simp] theorem State.onCore_resident (s : State) (c : Nat) (f : Core → Core) : (s.onCore c f).resident = s.resident := rfl
@[simp] theorem State.onCore_msix (s : State) (c : Nat) (f : Core → Core) : (s.onCore c f).msix = s.msix := rfl
@[simp] theorem State.onCore_msixSent (s : State) (c : Nat) (f : Core → Core) : (s.onCore c f).msixSent = s.msixSent := rfl
@[simp] theorem State.onCore_bar0 (s : State) (c : Nat) (f : Core → Core) : (s.onCore c f).bar0 = s.bar0 := rfl
@[simp] theorem State.onCore_health (s : State) (c : Nat) (f : Core → Core) : (s.onCore c f).health = s.health := rfl
@[simp] theorem State.onCore_hlcount (s : State) (c : Nat) (f : Core → Core) : (s.onCore c f).hlcount = s.hlcount := rfl
@[simp] theorem State.onCore_configRetries (s : State) (c : Nat) (f : Core → Core) : (s.onCore c f).configRetries = s.configRetries := rfl
@[simp] theorem State.onCore_stage (s : State) (c : Nat) (f : Core → Core) : (s.onCore c f).stage = s.stage := rfl
@[simp] theorem State.onCore_ready (s : State) (c : Nat) (f : Core → Core) : (s.onCore c f).ready = s.ready := rfl
@[simp] theorem State.onCore_fail (s : State) (c : Nat) (f : Core → Core) : (s.onCore c f).fail = s.fail := rfl
@[simp] theorem State.onCore_failCode (s : State) (c : Nat) (f : Core → Core) : (s.onCore c f).failCode = s.failCode := rfl
@[simp] theorem State.onCore_failStage (s : State) (c : Nat) (f : Core → Core) : (s.onCore c f).failStage = s.failStage := rfl
@[simp] theorem State.onCore_bringUpFail (s : State) (c : Nat) (f : Core → Core) : (s.onCore c f).bringUpFail = s.bringUpFail := rfl
@[simp] theorem State.onCore_arrivals (s : State) (c : Nat) (f : Core → Core) : (s.onCore c f).arrivals = s.arrivals := rfl
@[simp] theorem State.onCore_exchanges (s : State) (c : Nat) (f : Core → Core) : (s.onCore c f).exchanges = s.exchanges := rfl
@[simp] theorem State.onCore_portWrites (s : State) (c : Nat) (f : Core → Core) : (s.onCore c f).portWrites = s.portWrites := rfl
@[simp] theorem State.onCore_messages (s : State) (c : Nat) (f : Core → Core) : (s.onCore c f).messages = s.messages := rfl
@[simp] theorem State.onCore_trace (s : State) (c : Nat) (f : Core → Core) : (s.onCore c f).trace = s.trace := rfl
@[simp] theorem State.onCore_faults (s : State) (c : Nat) (f : Core → Core) : (s.onCore c f).faults = s.faults := rfl
@[simp] theorem State.onCore_saves (s : State) (c : Nat) (f : Core → Core) : (s.onCore c f).saves = s.saves := rfl
@[simp] theorem State.onCore_safe (s : State) (c : Nat) (f : Core → Core) : (s.onCore c f).safe = s.safe := rfl
@[simp] theorem State.onCore_gone (s : State) (c : Nat) (f : Core → Core) : (s.onCore c f).gone = s.gone := rfl
@[simp] theorem State.onCore_reads (s : State) (c : Nat) (f : Core → Core) : (s.onCore c f).reads = s.reads := rfl
@[simp] theorem State.onCore_idle (s : State) (c : Nat) (f : Core → Core) : (s.onCore c f).idle = s.idle := rfl
@[simp] theorem State.onCore_windowsEnded (s : State) (c : Nat) (f : Core → Core) : (s.onCore c f).windowsEnded = s.windowsEnded := rfl
@[simp] theorem State.onCore_windowAt (s : State) (c : Nat) (f : Core → Core) : (s.onCore c f).windowAt = s.windowAt := rfl
@[simp] theorem State.onCore_hot (s : State) (c : Nat) (f : Core → Core) : (s.onCore c f).hot = s.hot := rfl
@[simp] theorem State.onCore_seam (s : State) (c : Nat) (f : Core → Core) : (s.onCore c f).seam = s.seam := rfl
@[simp] theorem State.onCore_fabric (s : State) (c : Nat) (f : Core → Core) : (s.onCore c f).fabric = s.fabric := rfl
@[simp] theorem State.onCore_errCounts (s : State) (c : Nat) (f : Core → Core) : (s.onCore c f).errCounts = s.errCounts := rfl
@[simp] theorem State.onCore_retired (s : State) (c : Nat) (f : Core → Core) : (s.onCore c f).retired = s.retired := rfl
@[simp] theorem State.onCore_calibrated (s : State) (c : Nat) (f : Core → Core) : (s.onCore c f).calibrated = s.calibrated := rfl
@[simp] theorem State.onCore_attest (s : State) (c : Nat) (f : Core → Core) : (s.onCore c f).attest = s.attest := rfl
@[simp] theorem State.onCore_stepLimit (s : State) (c : Nat) (f : Core → Core) : (s.onCore c f).stepLimit = s.stepLimit := rfl
@[simp] theorem State.onCore_cur (s : State) (c : Nat) (f : Core → Core) : (s.onCore c f).cur = s.cur := rfl
@[simp] theorem State.onCore_issuing (s : State) (c : Nat) (f : Core → Core) : (s.onCore c f).issuing = s.issuing := rfl
@[simp] theorem State.onCore_cycleOf (s : State) (c : Nat) (f : Core → Core) : (s.onCore c f).cycleOf = s.cycleOf := rfl
@[simp] theorem State.onCore_agenda (s : State) (c : Nat) (f : Core → Core) : (s.onCore c f).agenda = s.agenda := rfl
@[simp] theorem State.onCore_predictions (s : State) (c : Nat) (f : Core → Core) : (s.onCore c f).predictions = s.predictions := rfl
@[simp] theorem State.onCore_fresh (s : State) (c : Nat) (f : Core → Core) : (s.onCore c f).fresh = s.fresh := rfl
@[simp] theorem State.onCore_nextId (s : State) (c : Nat) (f : Core → Core) : (s.onCore c f).nextId = s.nextId := rfl

@[simp] theorem State.setSlot_mem (s : State) (c t : Nat) (y : Slot) : (s.setSlot c t y).mem = s.mem := rfl
@[simp] theorem State.setSlot_poison (s : State) (c t : Nat) (y : Slot) : (s.setSlot c t y).poison = s.poison := rfl
@[simp] theorem State.setSlot_wkey (s : State) (c t : Nat) (y : Slot) : (s.setSlot c t y).wkey = s.wkey := rfl
@[simp] theorem State.setSlot_rtime (s : State) (c t : Nat) (y : Slot) : (s.setSlot c t y).rtime = s.rtime := rfl
@[simp] theorem State.setSlot_gates (s : State) (c t : Nat) (y : Slot) : (s.setSlot c t y).gates = s.gates := rfl
@[simp] theorem State.setSlot_remapix (s : State) (c t : Nat) (y : Slot) : (s.setSlot c t y).remapix = s.remapix := rfl
@[simp] theorem State.setSlot_remap (s : State) (c t : Nat) (y : Slot) : (s.setSlot c t y).remap = s.remap := rfl
@[simp] theorem State.setSlot_service (s : State) (c t : Nat) (y : Slot) : (s.setSlot c t y).service = s.service := rfl
@[simp] theorem State.setSlot_banks (s : State) (c t : Nat) (y : Slot) : (s.setSlot c t y).banks = s.banks := rfl
@[simp] theorem State.setSlot_ways (s : State) (c t : Nat) (y : Slot) : (s.setSlot c t y).ways = s.ways := rfl
@[simp] theorem State.setSlot_hbm (s : State) (c t : Nat) (y : Slot) : (s.setSlot c t y).hbm = s.hbm := rfl
@[simp] theorem State.setSlot_spared (s : State) (c t : Nat) (y : Slot) : (s.setSlot c t y).spared = s.spared := rfl
@[simp] theorem State.setSlot_verdicts (s : State) (c t : Nat) (y : Slot) : (s.setSlot c t y).verdicts = s.verdicts := rfl
@[simp] theorem State.setSlot_refusals (s : State) (c t : Nat) (y : Slot) : (s.setSlot c t y).refusals = s.refusals := rfl
@[simp] theorem State.setSlot_hostWaits (s : State) (c t : Nat) (y : Slot) : (s.setSlot c t y).hostWaits = s.hostWaits := rfl
@[simp] theorem State.setSlot_devReads (s : State) (c t : Nat) (y : Slot) : (s.setSlot c t y).devReads = s.devReads := rfl
@[simp] theorem State.setSlot_firmware (s : State) (c t : Nat) (y : Slot) : (s.setSlot c t y).firmware = s.firmware := rfl
@[simp] theorem State.setSlot_objs (s : State) (c t : Nat) (y : Slot) : (s.setSlot c t y).objs = s.objs := rfl
@[simp] theorem State.setSlot_classes (s : State) (c t : Nat) (y : Slot) : (s.setSlot c t y).classes = s.classes := rfl
@[simp] theorem State.setSlot_domCode (s : State) (c t : Nat) (y : Slot) : (s.setSlot c t y).domCode = s.domCode := rfl
@[simp] theorem State.setSlot_domRange (s : State) (c t : Nat) (y : Slot) : (s.setSlot c t y).domRange = s.domRange := rfl
@[simp] theorem State.setSlot_keysLoaded (s : State) (c t : Nat) (y : Slot) : (s.setSlot c t y).keysLoaded = s.keysLoaded := rfl
@[simp] theorem State.setSlot_keyGen (s : State) (c t : Nat) (y : Slot) : (s.setSlot c t y).keyGen = s.keyGen := rfl
@[simp] theorem State.setSlot_pageTables (s : State) (c t : Nat) (y : Slot) : (s.setSlot c t y).pageTables = s.pageTables := rfl
@[simp] theorem State.setSlot_ctc (s : State) (c t : Nat) (y : Slot) : (s.setSlot c t y).ctc = s.ctc := rfl
@[simp] theorem State.setSlot_atsReqs (s : State) (c t : Nat) (y : Slot) : (s.setSlot c t y).atsReqs = s.atsReqs := rfl
@[simp] theorem State.setSlot_pageReqs (s : State) (c t : Nat) (y : Slot) : (s.setSlot c t y).pageReqs = s.pageReqs := rfl
@[simp] theorem State.setSlot_answers (s : State) (c t : Nat) (y : Slot) : (s.setSlot c t y).answers = s.answers := rfl
@[simp] theorem State.setSlot_priEnable (s : State) (c t : Nat) (y : Slot) : (s.setSlot c t y).priEnable = s.priEnable := rfl
@[simp] theorem State.setSlot_priFailed (s : State) (c t : Nat) (y : Slot) : (s.setSlot c t y).priFailed = s.priFailed := rfl
@[simp] theorem State.setSlot_priAlloc (s : State) (c t : Nat) (y : Slot) : (s.setSlot c t y).priAlloc = s.priAlloc := rfl
@[simp] theorem State.setSlot_casts (s : State) (c t : Nat) (y : Slot) : (s.setSlot c t y).casts = s.casts := rfl
@[simp] theorem State.setSlot_queues (s : State) (c t : Nat) (y : Slot) : (s.setSlot c t y).queues = s.queues := rfl
@[simp] theorem State.setSlot_heads (s : State) (c t : Nat) (y : Slot) : (s.setSlot c t y).heads = s.heads := rfl
@[simp] theorem State.setSlot_jobs (s : State) (c t : Nat) (y : Slot) : (s.setSlot c t y).jobs = s.jobs := rfl
@[simp] theorem State.setSlot_resident (s : State) (c t : Nat) (y : Slot) : (s.setSlot c t y).resident = s.resident := rfl
@[simp] theorem State.setSlot_msix (s : State) (c t : Nat) (y : Slot) : (s.setSlot c t y).msix = s.msix := rfl
@[simp] theorem State.setSlot_msixSent (s : State) (c t : Nat) (y : Slot) : (s.setSlot c t y).msixSent = s.msixSent := rfl
@[simp] theorem State.setSlot_bar0 (s : State) (c t : Nat) (y : Slot) : (s.setSlot c t y).bar0 = s.bar0 := rfl
@[simp] theorem State.setSlot_health (s : State) (c t : Nat) (y : Slot) : (s.setSlot c t y).health = s.health := rfl
@[simp] theorem State.setSlot_hlcount (s : State) (c t : Nat) (y : Slot) : (s.setSlot c t y).hlcount = s.hlcount := rfl
@[simp] theorem State.setSlot_configRetries (s : State) (c t : Nat) (y : Slot) : (s.setSlot c t y).configRetries = s.configRetries := rfl
@[simp] theorem State.setSlot_stage (s : State) (c t : Nat) (y : Slot) : (s.setSlot c t y).stage = s.stage := rfl
@[simp] theorem State.setSlot_ready (s : State) (c t : Nat) (y : Slot) : (s.setSlot c t y).ready = s.ready := rfl
@[simp] theorem State.setSlot_fail (s : State) (c t : Nat) (y : Slot) : (s.setSlot c t y).fail = s.fail := rfl
@[simp] theorem State.setSlot_failCode (s : State) (c t : Nat) (y : Slot) : (s.setSlot c t y).failCode = s.failCode := rfl
@[simp] theorem State.setSlot_failStage (s : State) (c t : Nat) (y : Slot) : (s.setSlot c t y).failStage = s.failStage := rfl
@[simp] theorem State.setSlot_bringUpFail (s : State) (c t : Nat) (y : Slot) : (s.setSlot c t y).bringUpFail = s.bringUpFail := rfl
@[simp] theorem State.setSlot_arrivals (s : State) (c t : Nat) (y : Slot) : (s.setSlot c t y).arrivals = s.arrivals := rfl
@[simp] theorem State.setSlot_exchanges (s : State) (c t : Nat) (y : Slot) : (s.setSlot c t y).exchanges = s.exchanges := rfl
@[simp] theorem State.setSlot_portWrites (s : State) (c t : Nat) (y : Slot) : (s.setSlot c t y).portWrites = s.portWrites := rfl
@[simp] theorem State.setSlot_messages (s : State) (c t : Nat) (y : Slot) : (s.setSlot c t y).messages = s.messages := rfl
@[simp] theorem State.setSlot_trace (s : State) (c t : Nat) (y : Slot) : (s.setSlot c t y).trace = s.trace := rfl
@[simp] theorem State.setSlot_faults (s : State) (c t : Nat) (y : Slot) : (s.setSlot c t y).faults = s.faults := rfl
@[simp] theorem State.setSlot_saves (s : State) (c t : Nat) (y : Slot) : (s.setSlot c t y).saves = s.saves := rfl
@[simp] theorem State.setSlot_safe (s : State) (c t : Nat) (y : Slot) : (s.setSlot c t y).safe = s.safe := rfl
@[simp] theorem State.setSlot_gone (s : State) (c t : Nat) (y : Slot) : (s.setSlot c t y).gone = s.gone := rfl
@[simp] theorem State.setSlot_reads (s : State) (c t : Nat) (y : Slot) : (s.setSlot c t y).reads = s.reads := rfl
@[simp] theorem State.setSlot_idle (s : State) (c t : Nat) (y : Slot) : (s.setSlot c t y).idle = s.idle := rfl
@[simp] theorem State.setSlot_windowsEnded (s : State) (c t : Nat) (y : Slot) : (s.setSlot c t y).windowsEnded = s.windowsEnded := rfl
@[simp] theorem State.setSlot_windowAt (s : State) (c t : Nat) (y : Slot) : (s.setSlot c t y).windowAt = s.windowAt := rfl
@[simp] theorem State.setSlot_hot (s : State) (c t : Nat) (y : Slot) : (s.setSlot c t y).hot = s.hot := rfl
@[simp] theorem State.setSlot_seam (s : State) (c t : Nat) (y : Slot) : (s.setSlot c t y).seam = s.seam := rfl
@[simp] theorem State.setSlot_fabric (s : State) (c t : Nat) (y : Slot) : (s.setSlot c t y).fabric = s.fabric := rfl
@[simp] theorem State.setSlot_errCounts (s : State) (c t : Nat) (y : Slot) : (s.setSlot c t y).errCounts = s.errCounts := rfl
@[simp] theorem State.setSlot_retired (s : State) (c t : Nat) (y : Slot) : (s.setSlot c t y).retired = s.retired := rfl
@[simp] theorem State.setSlot_calibrated (s : State) (c t : Nat) (y : Slot) : (s.setSlot c t y).calibrated = s.calibrated := rfl
@[simp] theorem State.setSlot_attest (s : State) (c t : Nat) (y : Slot) : (s.setSlot c t y).attest = s.attest := rfl
@[simp] theorem State.setSlot_stepLimit (s : State) (c t : Nat) (y : Slot) : (s.setSlot c t y).stepLimit = s.stepLimit := rfl
@[simp] theorem State.setSlot_cur (s : State) (c t : Nat) (y : Slot) : (s.setSlot c t y).cur = s.cur := rfl
@[simp] theorem State.setSlot_issuing (s : State) (c t : Nat) (y : Slot) : (s.setSlot c t y).issuing = s.issuing := rfl
@[simp] theorem State.setSlot_cycleOf (s : State) (c t : Nat) (y : Slot) : (s.setSlot c t y).cycleOf = s.cycleOf := rfl
@[simp] theorem State.setSlot_agenda (s : State) (c t : Nat) (y : Slot) : (s.setSlot c t y).agenda = s.agenda := rfl
@[simp] theorem State.setSlot_predictions (s : State) (c t : Nat) (y : Slot) : (s.setSlot c t y).predictions = s.predictions := rfl
@[simp] theorem State.setSlot_fresh (s : State) (c t : Nat) (y : Slot) : (s.setSlot c t y).fresh = s.fresh := rfl
@[simp] theorem State.setSlot_nextId (s : State) (c t : Nat) (y : Slot) : (s.setSlot c t y).nextId = s.nextId := rfl

@[simp] theorem State.onSlot_mem (s : State) (c t : Nat) (f : Slot → Slot) : (s.onSlot c t f).mem = s.mem := rfl
@[simp] theorem State.onSlot_poison (s : State) (c t : Nat) (f : Slot → Slot) : (s.onSlot c t f).poison = s.poison := rfl
@[simp] theorem State.onSlot_wkey (s : State) (c t : Nat) (f : Slot → Slot) : (s.onSlot c t f).wkey = s.wkey := rfl
@[simp] theorem State.onSlot_rtime (s : State) (c t : Nat) (f : Slot → Slot) : (s.onSlot c t f).rtime = s.rtime := rfl
@[simp] theorem State.onSlot_gates (s : State) (c t : Nat) (f : Slot → Slot) : (s.onSlot c t f).gates = s.gates := rfl
@[simp] theorem State.onSlot_remapix (s : State) (c t : Nat) (f : Slot → Slot) : (s.onSlot c t f).remapix = s.remapix := rfl
@[simp] theorem State.onSlot_remap (s : State) (c t : Nat) (f : Slot → Slot) : (s.onSlot c t f).remap = s.remap := rfl
@[simp] theorem State.onSlot_service (s : State) (c t : Nat) (f : Slot → Slot) : (s.onSlot c t f).service = s.service := rfl
@[simp] theorem State.onSlot_banks (s : State) (c t : Nat) (f : Slot → Slot) : (s.onSlot c t f).banks = s.banks := rfl
@[simp] theorem State.onSlot_ways (s : State) (c t : Nat) (f : Slot → Slot) : (s.onSlot c t f).ways = s.ways := rfl
@[simp] theorem State.onSlot_hbm (s : State) (c t : Nat) (f : Slot → Slot) : (s.onSlot c t f).hbm = s.hbm := rfl
@[simp] theorem State.onSlot_spared (s : State) (c t : Nat) (f : Slot → Slot) : (s.onSlot c t f).spared = s.spared := rfl
@[simp] theorem State.onSlot_verdicts (s : State) (c t : Nat) (f : Slot → Slot) : (s.onSlot c t f).verdicts = s.verdicts := rfl
@[simp] theorem State.onSlot_refusals (s : State) (c t : Nat) (f : Slot → Slot) : (s.onSlot c t f).refusals = s.refusals := rfl
@[simp] theorem State.onSlot_hostWaits (s : State) (c t : Nat) (f : Slot → Slot) : (s.onSlot c t f).hostWaits = s.hostWaits := rfl
@[simp] theorem State.onSlot_devReads (s : State) (c t : Nat) (f : Slot → Slot) : (s.onSlot c t f).devReads = s.devReads := rfl
@[simp] theorem State.onSlot_firmware (s : State) (c t : Nat) (f : Slot → Slot) : (s.onSlot c t f).firmware = s.firmware := rfl
@[simp] theorem State.onSlot_objs (s : State) (c t : Nat) (f : Slot → Slot) : (s.onSlot c t f).objs = s.objs := rfl
@[simp] theorem State.onSlot_classes (s : State) (c t : Nat) (f : Slot → Slot) : (s.onSlot c t f).classes = s.classes := rfl
@[simp] theorem State.onSlot_domCode (s : State) (c t : Nat) (f : Slot → Slot) : (s.onSlot c t f).domCode = s.domCode := rfl
@[simp] theorem State.onSlot_domRange (s : State) (c t : Nat) (f : Slot → Slot) : (s.onSlot c t f).domRange = s.domRange := rfl
@[simp] theorem State.onSlot_keysLoaded (s : State) (c t : Nat) (f : Slot → Slot) : (s.onSlot c t f).keysLoaded = s.keysLoaded := rfl
@[simp] theorem State.onSlot_keyGen (s : State) (c t : Nat) (f : Slot → Slot) : (s.onSlot c t f).keyGen = s.keyGen := rfl
@[simp] theorem State.onSlot_pageTables (s : State) (c t : Nat) (f : Slot → Slot) : (s.onSlot c t f).pageTables = s.pageTables := rfl
@[simp] theorem State.onSlot_ctc (s : State) (c t : Nat) (f : Slot → Slot) : (s.onSlot c t f).ctc = s.ctc := rfl
@[simp] theorem State.onSlot_atsReqs (s : State) (c t : Nat) (f : Slot → Slot) : (s.onSlot c t f).atsReqs = s.atsReqs := rfl
@[simp] theorem State.onSlot_pageReqs (s : State) (c t : Nat) (f : Slot → Slot) : (s.onSlot c t f).pageReqs = s.pageReqs := rfl
@[simp] theorem State.onSlot_answers (s : State) (c t : Nat) (f : Slot → Slot) : (s.onSlot c t f).answers = s.answers := rfl
@[simp] theorem State.onSlot_priEnable (s : State) (c t : Nat) (f : Slot → Slot) : (s.onSlot c t f).priEnable = s.priEnable := rfl
@[simp] theorem State.onSlot_priFailed (s : State) (c t : Nat) (f : Slot → Slot) : (s.onSlot c t f).priFailed = s.priFailed := rfl
@[simp] theorem State.onSlot_priAlloc (s : State) (c t : Nat) (f : Slot → Slot) : (s.onSlot c t f).priAlloc = s.priAlloc := rfl
@[simp] theorem State.onSlot_casts (s : State) (c t : Nat) (f : Slot → Slot) : (s.onSlot c t f).casts = s.casts := rfl
@[simp] theorem State.onSlot_queues (s : State) (c t : Nat) (f : Slot → Slot) : (s.onSlot c t f).queues = s.queues := rfl
@[simp] theorem State.onSlot_heads (s : State) (c t : Nat) (f : Slot → Slot) : (s.onSlot c t f).heads = s.heads := rfl
@[simp] theorem State.onSlot_jobs (s : State) (c t : Nat) (f : Slot → Slot) : (s.onSlot c t f).jobs = s.jobs := rfl
@[simp] theorem State.onSlot_resident (s : State) (c t : Nat) (f : Slot → Slot) : (s.onSlot c t f).resident = s.resident := rfl
@[simp] theorem State.onSlot_msix (s : State) (c t : Nat) (f : Slot → Slot) : (s.onSlot c t f).msix = s.msix := rfl
@[simp] theorem State.onSlot_msixSent (s : State) (c t : Nat) (f : Slot → Slot) : (s.onSlot c t f).msixSent = s.msixSent := rfl
@[simp] theorem State.onSlot_bar0 (s : State) (c t : Nat) (f : Slot → Slot) : (s.onSlot c t f).bar0 = s.bar0 := rfl
@[simp] theorem State.onSlot_health (s : State) (c t : Nat) (f : Slot → Slot) : (s.onSlot c t f).health = s.health := rfl
@[simp] theorem State.onSlot_hlcount (s : State) (c t : Nat) (f : Slot → Slot) : (s.onSlot c t f).hlcount = s.hlcount := rfl
@[simp] theorem State.onSlot_configRetries (s : State) (c t : Nat) (f : Slot → Slot) : (s.onSlot c t f).configRetries = s.configRetries := rfl
@[simp] theorem State.onSlot_stage (s : State) (c t : Nat) (f : Slot → Slot) : (s.onSlot c t f).stage = s.stage := rfl
@[simp] theorem State.onSlot_ready (s : State) (c t : Nat) (f : Slot → Slot) : (s.onSlot c t f).ready = s.ready := rfl
@[simp] theorem State.onSlot_fail (s : State) (c t : Nat) (f : Slot → Slot) : (s.onSlot c t f).fail = s.fail := rfl
@[simp] theorem State.onSlot_failCode (s : State) (c t : Nat) (f : Slot → Slot) : (s.onSlot c t f).failCode = s.failCode := rfl
@[simp] theorem State.onSlot_failStage (s : State) (c t : Nat) (f : Slot → Slot) : (s.onSlot c t f).failStage = s.failStage := rfl
@[simp] theorem State.onSlot_bringUpFail (s : State) (c t : Nat) (f : Slot → Slot) : (s.onSlot c t f).bringUpFail = s.bringUpFail := rfl
@[simp] theorem State.onSlot_arrivals (s : State) (c t : Nat) (f : Slot → Slot) : (s.onSlot c t f).arrivals = s.arrivals := rfl
@[simp] theorem State.onSlot_exchanges (s : State) (c t : Nat) (f : Slot → Slot) : (s.onSlot c t f).exchanges = s.exchanges := rfl
@[simp] theorem State.onSlot_portWrites (s : State) (c t : Nat) (f : Slot → Slot) : (s.onSlot c t f).portWrites = s.portWrites := rfl
@[simp] theorem State.onSlot_messages (s : State) (c t : Nat) (f : Slot → Slot) : (s.onSlot c t f).messages = s.messages := rfl
@[simp] theorem State.onSlot_trace (s : State) (c t : Nat) (f : Slot → Slot) : (s.onSlot c t f).trace = s.trace := rfl
@[simp] theorem State.onSlot_faults (s : State) (c t : Nat) (f : Slot → Slot) : (s.onSlot c t f).faults = s.faults := rfl
@[simp] theorem State.onSlot_saves (s : State) (c t : Nat) (f : Slot → Slot) : (s.onSlot c t f).saves = s.saves := rfl
@[simp] theorem State.onSlot_safe (s : State) (c t : Nat) (f : Slot → Slot) : (s.onSlot c t f).safe = s.safe := rfl
@[simp] theorem State.onSlot_gone (s : State) (c t : Nat) (f : Slot → Slot) : (s.onSlot c t f).gone = s.gone := rfl
@[simp] theorem State.onSlot_reads (s : State) (c t : Nat) (f : Slot → Slot) : (s.onSlot c t f).reads = s.reads := rfl
@[simp] theorem State.onSlot_idle (s : State) (c t : Nat) (f : Slot → Slot) : (s.onSlot c t f).idle = s.idle := rfl
@[simp] theorem State.onSlot_windowsEnded (s : State) (c t : Nat) (f : Slot → Slot) : (s.onSlot c t f).windowsEnded = s.windowsEnded := rfl
@[simp] theorem State.onSlot_windowAt (s : State) (c t : Nat) (f : Slot → Slot) : (s.onSlot c t f).windowAt = s.windowAt := rfl
@[simp] theorem State.onSlot_hot (s : State) (c t : Nat) (f : Slot → Slot) : (s.onSlot c t f).hot = s.hot := rfl
@[simp] theorem State.onSlot_seam (s : State) (c t : Nat) (f : Slot → Slot) : (s.onSlot c t f).seam = s.seam := rfl
@[simp] theorem State.onSlot_fabric (s : State) (c t : Nat) (f : Slot → Slot) : (s.onSlot c t f).fabric = s.fabric := rfl
@[simp] theorem State.onSlot_errCounts (s : State) (c t : Nat) (f : Slot → Slot) : (s.onSlot c t f).errCounts = s.errCounts := rfl
@[simp] theorem State.onSlot_retired (s : State) (c t : Nat) (f : Slot → Slot) : (s.onSlot c t f).retired = s.retired := rfl
@[simp] theorem State.onSlot_calibrated (s : State) (c t : Nat) (f : Slot → Slot) : (s.onSlot c t f).calibrated = s.calibrated := rfl
@[simp] theorem State.onSlot_attest (s : State) (c t : Nat) (f : Slot → Slot) : (s.onSlot c t f).attest = s.attest := rfl
@[simp] theorem State.onSlot_stepLimit (s : State) (c t : Nat) (f : Slot → Slot) : (s.onSlot c t f).stepLimit = s.stepLimit := rfl
@[simp] theorem State.onSlot_cur (s : State) (c t : Nat) (f : Slot → Slot) : (s.onSlot c t f).cur = s.cur := rfl
@[simp] theorem State.onSlot_issuing (s : State) (c t : Nat) (f : Slot → Slot) : (s.onSlot c t f).issuing = s.issuing := rfl
@[simp] theorem State.onSlot_cycleOf (s : State) (c t : Nat) (f : Slot → Slot) : (s.onSlot c t f).cycleOf = s.cycleOf := rfl
@[simp] theorem State.onSlot_agenda (s : State) (c t : Nat) (f : Slot → Slot) : (s.onSlot c t f).agenda = s.agenda := rfl
@[simp] theorem State.onSlot_predictions (s : State) (c t : Nat) (f : Slot → Slot) : (s.onSlot c t f).predictions = s.predictions := rfl
@[simp] theorem State.onSlot_fresh (s : State) (c t : Nat) (f : Slot → Slot) : (s.onSlot c t f).fresh = s.fresh := rfl
@[simp] theorem State.onSlot_nextId (s : State) (c t : Nat) (f : Slot → Slot) : (s.onSlot c t f).nextId = s.nextId := rfl

@[simp] theorem State.setMe_mem (s : State) (y : Slot) : (s.setMe y).mem = s.mem := rfl
@[simp] theorem State.setMe_poison (s : State) (y : Slot) : (s.setMe y).poison = s.poison := rfl
@[simp] theorem State.setMe_wkey (s : State) (y : Slot) : (s.setMe y).wkey = s.wkey := rfl
@[simp] theorem State.setMe_rtime (s : State) (y : Slot) : (s.setMe y).rtime = s.rtime := rfl
@[simp] theorem State.setMe_gates (s : State) (y : Slot) : (s.setMe y).gates = s.gates := rfl
@[simp] theorem State.setMe_remapix (s : State) (y : Slot) : (s.setMe y).remapix = s.remapix := rfl
@[simp] theorem State.setMe_remap (s : State) (y : Slot) : (s.setMe y).remap = s.remap := rfl
@[simp] theorem State.setMe_service (s : State) (y : Slot) : (s.setMe y).service = s.service := rfl
@[simp] theorem State.setMe_banks (s : State) (y : Slot) : (s.setMe y).banks = s.banks := rfl
@[simp] theorem State.setMe_ways (s : State) (y : Slot) : (s.setMe y).ways = s.ways := rfl
@[simp] theorem State.setMe_hbm (s : State) (y : Slot) : (s.setMe y).hbm = s.hbm := rfl
@[simp] theorem State.setMe_spared (s : State) (y : Slot) : (s.setMe y).spared = s.spared := rfl
@[simp] theorem State.setMe_verdicts (s : State) (y : Slot) : (s.setMe y).verdicts = s.verdicts := rfl
@[simp] theorem State.setMe_refusals (s : State) (y : Slot) : (s.setMe y).refusals = s.refusals := rfl
@[simp] theorem State.setMe_hostWaits (s : State) (y : Slot) : (s.setMe y).hostWaits = s.hostWaits := rfl
@[simp] theorem State.setMe_devReads (s : State) (y : Slot) : (s.setMe y).devReads = s.devReads := rfl
@[simp] theorem State.setMe_firmware (s : State) (y : Slot) : (s.setMe y).firmware = s.firmware := rfl
@[simp] theorem State.setMe_objs (s : State) (y : Slot) : (s.setMe y).objs = s.objs := rfl
@[simp] theorem State.setMe_classes (s : State) (y : Slot) : (s.setMe y).classes = s.classes := rfl
@[simp] theorem State.setMe_domCode (s : State) (y : Slot) : (s.setMe y).domCode = s.domCode := rfl
@[simp] theorem State.setMe_domRange (s : State) (y : Slot) : (s.setMe y).domRange = s.domRange := rfl
@[simp] theorem State.setMe_keysLoaded (s : State) (y : Slot) : (s.setMe y).keysLoaded = s.keysLoaded := rfl
@[simp] theorem State.setMe_keyGen (s : State) (y : Slot) : (s.setMe y).keyGen = s.keyGen := rfl
@[simp] theorem State.setMe_pageTables (s : State) (y : Slot) : (s.setMe y).pageTables = s.pageTables := rfl
@[simp] theorem State.setMe_ctc (s : State) (y : Slot) : (s.setMe y).ctc = s.ctc := rfl
@[simp] theorem State.setMe_atsReqs (s : State) (y : Slot) : (s.setMe y).atsReqs = s.atsReqs := rfl
@[simp] theorem State.setMe_pageReqs (s : State) (y : Slot) : (s.setMe y).pageReqs = s.pageReqs := rfl
@[simp] theorem State.setMe_answers (s : State) (y : Slot) : (s.setMe y).answers = s.answers := rfl
@[simp] theorem State.setMe_priEnable (s : State) (y : Slot) : (s.setMe y).priEnable = s.priEnable := rfl
@[simp] theorem State.setMe_priFailed (s : State) (y : Slot) : (s.setMe y).priFailed = s.priFailed := rfl
@[simp] theorem State.setMe_priAlloc (s : State) (y : Slot) : (s.setMe y).priAlloc = s.priAlloc := rfl
@[simp] theorem State.setMe_casts (s : State) (y : Slot) : (s.setMe y).casts = s.casts := rfl
@[simp] theorem State.setMe_queues (s : State) (y : Slot) : (s.setMe y).queues = s.queues := rfl
@[simp] theorem State.setMe_heads (s : State) (y : Slot) : (s.setMe y).heads = s.heads := rfl
@[simp] theorem State.setMe_jobs (s : State) (y : Slot) : (s.setMe y).jobs = s.jobs := rfl
@[simp] theorem State.setMe_resident (s : State) (y : Slot) : (s.setMe y).resident = s.resident := rfl
@[simp] theorem State.setMe_msix (s : State) (y : Slot) : (s.setMe y).msix = s.msix := rfl
@[simp] theorem State.setMe_msixSent (s : State) (y : Slot) : (s.setMe y).msixSent = s.msixSent := rfl
@[simp] theorem State.setMe_bar0 (s : State) (y : Slot) : (s.setMe y).bar0 = s.bar0 := rfl
@[simp] theorem State.setMe_health (s : State) (y : Slot) : (s.setMe y).health = s.health := rfl
@[simp] theorem State.setMe_hlcount (s : State) (y : Slot) : (s.setMe y).hlcount = s.hlcount := rfl
@[simp] theorem State.setMe_configRetries (s : State) (y : Slot) : (s.setMe y).configRetries = s.configRetries := rfl
@[simp] theorem State.setMe_stage (s : State) (y : Slot) : (s.setMe y).stage = s.stage := rfl
@[simp] theorem State.setMe_ready (s : State) (y : Slot) : (s.setMe y).ready = s.ready := rfl
@[simp] theorem State.setMe_fail (s : State) (y : Slot) : (s.setMe y).fail = s.fail := rfl
@[simp] theorem State.setMe_failCode (s : State) (y : Slot) : (s.setMe y).failCode = s.failCode := rfl
@[simp] theorem State.setMe_failStage (s : State) (y : Slot) : (s.setMe y).failStage = s.failStage := rfl
@[simp] theorem State.setMe_bringUpFail (s : State) (y : Slot) : (s.setMe y).bringUpFail = s.bringUpFail := rfl
@[simp] theorem State.setMe_arrivals (s : State) (y : Slot) : (s.setMe y).arrivals = s.arrivals := rfl
@[simp] theorem State.setMe_exchanges (s : State) (y : Slot) : (s.setMe y).exchanges = s.exchanges := rfl
@[simp] theorem State.setMe_portWrites (s : State) (y : Slot) : (s.setMe y).portWrites = s.portWrites := rfl
@[simp] theorem State.setMe_messages (s : State) (y : Slot) : (s.setMe y).messages = s.messages := rfl
@[simp] theorem State.setMe_trace (s : State) (y : Slot) : (s.setMe y).trace = s.trace := rfl
@[simp] theorem State.setMe_faults (s : State) (y : Slot) : (s.setMe y).faults = s.faults := rfl
@[simp] theorem State.setMe_saves (s : State) (y : Slot) : (s.setMe y).saves = s.saves := rfl
@[simp] theorem State.setMe_safe (s : State) (y : Slot) : (s.setMe y).safe = s.safe := rfl
@[simp] theorem State.setMe_gone (s : State) (y : Slot) : (s.setMe y).gone = s.gone := rfl
@[simp] theorem State.setMe_reads (s : State) (y : Slot) : (s.setMe y).reads = s.reads := rfl
@[simp] theorem State.setMe_idle (s : State) (y : Slot) : (s.setMe y).idle = s.idle := rfl
@[simp] theorem State.setMe_windowsEnded (s : State) (y : Slot) : (s.setMe y).windowsEnded = s.windowsEnded := rfl
@[simp] theorem State.setMe_windowAt (s : State) (y : Slot) : (s.setMe y).windowAt = s.windowAt := rfl
@[simp] theorem State.setMe_hot (s : State) (y : Slot) : (s.setMe y).hot = s.hot := rfl
@[simp] theorem State.setMe_seam (s : State) (y : Slot) : (s.setMe y).seam = s.seam := rfl
@[simp] theorem State.setMe_fabric (s : State) (y : Slot) : (s.setMe y).fabric = s.fabric := rfl
@[simp] theorem State.setMe_errCounts (s : State) (y : Slot) : (s.setMe y).errCounts = s.errCounts := rfl
@[simp] theorem State.setMe_retired (s : State) (y : Slot) : (s.setMe y).retired = s.retired := rfl
@[simp] theorem State.setMe_calibrated (s : State) (y : Slot) : (s.setMe y).calibrated = s.calibrated := rfl
@[simp] theorem State.setMe_attest (s : State) (y : Slot) : (s.setMe y).attest = s.attest := rfl
@[simp] theorem State.setMe_stepLimit (s : State) (y : Slot) : (s.setMe y).stepLimit = s.stepLimit := rfl
@[simp] theorem State.setMe_cur (s : State) (y : Slot) : (s.setMe y).cur = s.cur := rfl
@[simp] theorem State.setMe_issuing (s : State) (y : Slot) : (s.setMe y).issuing = s.issuing := rfl
@[simp] theorem State.setMe_cycleOf (s : State) (y : Slot) : (s.setMe y).cycleOf = s.cycleOf := rfl
@[simp] theorem State.setMe_agenda (s : State) (y : Slot) : (s.setMe y).agenda = s.agenda := rfl
@[simp] theorem State.setMe_predictions (s : State) (y : Slot) : (s.setMe y).predictions = s.predictions := rfl
@[simp] theorem State.setMe_fresh (s : State) (y : Slot) : (s.setMe y).fresh = s.fresh := rfl
@[simp] theorem State.setMe_nextId (s : State) (y : Slot) : (s.setMe y).nextId = s.nextId := rfl

@[simp] theorem State.onMe_mem (s : State) (f : Slot → Slot) : (s.onMe f).mem = s.mem := rfl
@[simp] theorem State.onMe_poison (s : State) (f : Slot → Slot) : (s.onMe f).poison = s.poison := rfl
@[simp] theorem State.onMe_wkey (s : State) (f : Slot → Slot) : (s.onMe f).wkey = s.wkey := rfl
@[simp] theorem State.onMe_rtime (s : State) (f : Slot → Slot) : (s.onMe f).rtime = s.rtime := rfl
@[simp] theorem State.onMe_gates (s : State) (f : Slot → Slot) : (s.onMe f).gates = s.gates := rfl
@[simp] theorem State.onMe_remapix (s : State) (f : Slot → Slot) : (s.onMe f).remapix = s.remapix := rfl
@[simp] theorem State.onMe_remap (s : State) (f : Slot → Slot) : (s.onMe f).remap = s.remap := rfl
@[simp] theorem State.onMe_service (s : State) (f : Slot → Slot) : (s.onMe f).service = s.service := rfl
@[simp] theorem State.onMe_banks (s : State) (f : Slot → Slot) : (s.onMe f).banks = s.banks := rfl
@[simp] theorem State.onMe_ways (s : State) (f : Slot → Slot) : (s.onMe f).ways = s.ways := rfl
@[simp] theorem State.onMe_hbm (s : State) (f : Slot → Slot) : (s.onMe f).hbm = s.hbm := rfl
@[simp] theorem State.onMe_spared (s : State) (f : Slot → Slot) : (s.onMe f).spared = s.spared := rfl
@[simp] theorem State.onMe_verdicts (s : State) (f : Slot → Slot) : (s.onMe f).verdicts = s.verdicts := rfl
@[simp] theorem State.onMe_refusals (s : State) (f : Slot → Slot) : (s.onMe f).refusals = s.refusals := rfl
@[simp] theorem State.onMe_hostWaits (s : State) (f : Slot → Slot) : (s.onMe f).hostWaits = s.hostWaits := rfl
@[simp] theorem State.onMe_devReads (s : State) (f : Slot → Slot) : (s.onMe f).devReads = s.devReads := rfl
@[simp] theorem State.onMe_firmware (s : State) (f : Slot → Slot) : (s.onMe f).firmware = s.firmware := rfl
@[simp] theorem State.onMe_objs (s : State) (f : Slot → Slot) : (s.onMe f).objs = s.objs := rfl
@[simp] theorem State.onMe_classes (s : State) (f : Slot → Slot) : (s.onMe f).classes = s.classes := rfl
@[simp] theorem State.onMe_domCode (s : State) (f : Slot → Slot) : (s.onMe f).domCode = s.domCode := rfl
@[simp] theorem State.onMe_domRange (s : State) (f : Slot → Slot) : (s.onMe f).domRange = s.domRange := rfl
@[simp] theorem State.onMe_keysLoaded (s : State) (f : Slot → Slot) : (s.onMe f).keysLoaded = s.keysLoaded := rfl
@[simp] theorem State.onMe_keyGen (s : State) (f : Slot → Slot) : (s.onMe f).keyGen = s.keyGen := rfl
@[simp] theorem State.onMe_pageTables (s : State) (f : Slot → Slot) : (s.onMe f).pageTables = s.pageTables := rfl
@[simp] theorem State.onMe_ctc (s : State) (f : Slot → Slot) : (s.onMe f).ctc = s.ctc := rfl
@[simp] theorem State.onMe_atsReqs (s : State) (f : Slot → Slot) : (s.onMe f).atsReqs = s.atsReqs := rfl
@[simp] theorem State.onMe_pageReqs (s : State) (f : Slot → Slot) : (s.onMe f).pageReqs = s.pageReqs := rfl
@[simp] theorem State.onMe_answers (s : State) (f : Slot → Slot) : (s.onMe f).answers = s.answers := rfl
@[simp] theorem State.onMe_priEnable (s : State) (f : Slot → Slot) : (s.onMe f).priEnable = s.priEnable := rfl
@[simp] theorem State.onMe_priFailed (s : State) (f : Slot → Slot) : (s.onMe f).priFailed = s.priFailed := rfl
@[simp] theorem State.onMe_priAlloc (s : State) (f : Slot → Slot) : (s.onMe f).priAlloc = s.priAlloc := rfl
@[simp] theorem State.onMe_casts (s : State) (f : Slot → Slot) : (s.onMe f).casts = s.casts := rfl
@[simp] theorem State.onMe_queues (s : State) (f : Slot → Slot) : (s.onMe f).queues = s.queues := rfl
@[simp] theorem State.onMe_heads (s : State) (f : Slot → Slot) : (s.onMe f).heads = s.heads := rfl
@[simp] theorem State.onMe_jobs (s : State) (f : Slot → Slot) : (s.onMe f).jobs = s.jobs := rfl
@[simp] theorem State.onMe_resident (s : State) (f : Slot → Slot) : (s.onMe f).resident = s.resident := rfl
@[simp] theorem State.onMe_msix (s : State) (f : Slot → Slot) : (s.onMe f).msix = s.msix := rfl
@[simp] theorem State.onMe_msixSent (s : State) (f : Slot → Slot) : (s.onMe f).msixSent = s.msixSent := rfl
@[simp] theorem State.onMe_bar0 (s : State) (f : Slot → Slot) : (s.onMe f).bar0 = s.bar0 := rfl
@[simp] theorem State.onMe_health (s : State) (f : Slot → Slot) : (s.onMe f).health = s.health := rfl
@[simp] theorem State.onMe_hlcount (s : State) (f : Slot → Slot) : (s.onMe f).hlcount = s.hlcount := rfl
@[simp] theorem State.onMe_configRetries (s : State) (f : Slot → Slot) : (s.onMe f).configRetries = s.configRetries := rfl
@[simp] theorem State.onMe_stage (s : State) (f : Slot → Slot) : (s.onMe f).stage = s.stage := rfl
@[simp] theorem State.onMe_ready (s : State) (f : Slot → Slot) : (s.onMe f).ready = s.ready := rfl
@[simp] theorem State.onMe_fail (s : State) (f : Slot → Slot) : (s.onMe f).fail = s.fail := rfl
@[simp] theorem State.onMe_failCode (s : State) (f : Slot → Slot) : (s.onMe f).failCode = s.failCode := rfl
@[simp] theorem State.onMe_failStage (s : State) (f : Slot → Slot) : (s.onMe f).failStage = s.failStage := rfl
@[simp] theorem State.onMe_bringUpFail (s : State) (f : Slot → Slot) : (s.onMe f).bringUpFail = s.bringUpFail := rfl
@[simp] theorem State.onMe_arrivals (s : State) (f : Slot → Slot) : (s.onMe f).arrivals = s.arrivals := rfl
@[simp] theorem State.onMe_exchanges (s : State) (f : Slot → Slot) : (s.onMe f).exchanges = s.exchanges := rfl
@[simp] theorem State.onMe_portWrites (s : State) (f : Slot → Slot) : (s.onMe f).portWrites = s.portWrites := rfl
@[simp] theorem State.onMe_messages (s : State) (f : Slot → Slot) : (s.onMe f).messages = s.messages := rfl
@[simp] theorem State.onMe_trace (s : State) (f : Slot → Slot) : (s.onMe f).trace = s.trace := rfl
@[simp] theorem State.onMe_faults (s : State) (f : Slot → Slot) : (s.onMe f).faults = s.faults := rfl
@[simp] theorem State.onMe_saves (s : State) (f : Slot → Slot) : (s.onMe f).saves = s.saves := rfl
@[simp] theorem State.onMe_safe (s : State) (f : Slot → Slot) : (s.onMe f).safe = s.safe := rfl
@[simp] theorem State.onMe_gone (s : State) (f : Slot → Slot) : (s.onMe f).gone = s.gone := rfl
@[simp] theorem State.onMe_reads (s : State) (f : Slot → Slot) : (s.onMe f).reads = s.reads := rfl
@[simp] theorem State.onMe_idle (s : State) (f : Slot → Slot) : (s.onMe f).idle = s.idle := rfl
@[simp] theorem State.onMe_windowsEnded (s : State) (f : Slot → Slot) : (s.onMe f).windowsEnded = s.windowsEnded := rfl
@[simp] theorem State.onMe_windowAt (s : State) (f : Slot → Slot) : (s.onMe f).windowAt = s.windowAt := rfl
@[simp] theorem State.onMe_hot (s : State) (f : Slot → Slot) : (s.onMe f).hot = s.hot := rfl
@[simp] theorem State.onMe_seam (s : State) (f : Slot → Slot) : (s.onMe f).seam = s.seam := rfl
@[simp] theorem State.onMe_fabric (s : State) (f : Slot → Slot) : (s.onMe f).fabric = s.fabric := rfl
@[simp] theorem State.onMe_errCounts (s : State) (f : Slot → Slot) : (s.onMe f).errCounts = s.errCounts := rfl
@[simp] theorem State.onMe_retired (s : State) (f : Slot → Slot) : (s.onMe f).retired = s.retired := rfl
@[simp] theorem State.onMe_calibrated (s : State) (f : Slot → Slot) : (s.onMe f).calibrated = s.calibrated := rfl
@[simp] theorem State.onMe_attest (s : State) (f : Slot → Slot) : (s.onMe f).attest = s.attest := rfl
@[simp] theorem State.onMe_stepLimit (s : State) (f : Slot → Slot) : (s.onMe f).stepLimit = s.stepLimit := rfl
@[simp] theorem State.onMe_cur (s : State) (f : Slot → Slot) : (s.onMe f).cur = s.cur := rfl
@[simp] theorem State.onMe_issuing (s : State) (f : Slot → Slot) : (s.onMe f).issuing = s.issuing := rfl
@[simp] theorem State.onMe_cycleOf (s : State) (f : Slot → Slot) : (s.onMe f).cycleOf = s.cycleOf := rfl
@[simp] theorem State.onMe_agenda (s : State) (f : Slot → Slot) : (s.onMe f).agenda = s.agenda := rfl
@[simp] theorem State.onMe_predictions (s : State) (f : Slot → Slot) : (s.onMe f).predictions = s.predictions := rfl
@[simp] theorem State.onMe_fresh (s : State) (f : Slot → Slot) : (s.onMe f).fresh = s.fresh := rfl
@[simp] theorem State.onMe_nextId (s : State) (f : Slot → Slot) : (s.onMe f).nextId = s.nextId := rfl

@[simp] theorem State.onMine_mem (s : State) (f : Core → Core) : (s.onMine f).mem = s.mem := rfl
@[simp] theorem State.onMine_poison (s : State) (f : Core → Core) : (s.onMine f).poison = s.poison := rfl
@[simp] theorem State.onMine_wkey (s : State) (f : Core → Core) : (s.onMine f).wkey = s.wkey := rfl
@[simp] theorem State.onMine_rtime (s : State) (f : Core → Core) : (s.onMine f).rtime = s.rtime := rfl
@[simp] theorem State.onMine_gates (s : State) (f : Core → Core) : (s.onMine f).gates = s.gates := rfl
@[simp] theorem State.onMine_remapix (s : State) (f : Core → Core) : (s.onMine f).remapix = s.remapix := rfl
@[simp] theorem State.onMine_remap (s : State) (f : Core → Core) : (s.onMine f).remap = s.remap := rfl
@[simp] theorem State.onMine_service (s : State) (f : Core → Core) : (s.onMine f).service = s.service := rfl
@[simp] theorem State.onMine_banks (s : State) (f : Core → Core) : (s.onMine f).banks = s.banks := rfl
@[simp] theorem State.onMine_ways (s : State) (f : Core → Core) : (s.onMine f).ways = s.ways := rfl
@[simp] theorem State.onMine_hbm (s : State) (f : Core → Core) : (s.onMine f).hbm = s.hbm := rfl
@[simp] theorem State.onMine_spared (s : State) (f : Core → Core) : (s.onMine f).spared = s.spared := rfl
@[simp] theorem State.onMine_verdicts (s : State) (f : Core → Core) : (s.onMine f).verdicts = s.verdicts := rfl
@[simp] theorem State.onMine_refusals (s : State) (f : Core → Core) : (s.onMine f).refusals = s.refusals := rfl
@[simp] theorem State.onMine_hostWaits (s : State) (f : Core → Core) : (s.onMine f).hostWaits = s.hostWaits := rfl
@[simp] theorem State.onMine_devReads (s : State) (f : Core → Core) : (s.onMine f).devReads = s.devReads := rfl
@[simp] theorem State.onMine_firmware (s : State) (f : Core → Core) : (s.onMine f).firmware = s.firmware := rfl
@[simp] theorem State.onMine_objs (s : State) (f : Core → Core) : (s.onMine f).objs = s.objs := rfl
@[simp] theorem State.onMine_classes (s : State) (f : Core → Core) : (s.onMine f).classes = s.classes := rfl
@[simp] theorem State.onMine_domCode (s : State) (f : Core → Core) : (s.onMine f).domCode = s.domCode := rfl
@[simp] theorem State.onMine_domRange (s : State) (f : Core → Core) : (s.onMine f).domRange = s.domRange := rfl
@[simp] theorem State.onMine_keysLoaded (s : State) (f : Core → Core) : (s.onMine f).keysLoaded = s.keysLoaded := rfl
@[simp] theorem State.onMine_keyGen (s : State) (f : Core → Core) : (s.onMine f).keyGen = s.keyGen := rfl
@[simp] theorem State.onMine_pageTables (s : State) (f : Core → Core) : (s.onMine f).pageTables = s.pageTables := rfl
@[simp] theorem State.onMine_ctc (s : State) (f : Core → Core) : (s.onMine f).ctc = s.ctc := rfl
@[simp] theorem State.onMine_atsReqs (s : State) (f : Core → Core) : (s.onMine f).atsReqs = s.atsReqs := rfl
@[simp] theorem State.onMine_pageReqs (s : State) (f : Core → Core) : (s.onMine f).pageReqs = s.pageReqs := rfl
@[simp] theorem State.onMine_answers (s : State) (f : Core → Core) : (s.onMine f).answers = s.answers := rfl
@[simp] theorem State.onMine_priEnable (s : State) (f : Core → Core) : (s.onMine f).priEnable = s.priEnable := rfl
@[simp] theorem State.onMine_priFailed (s : State) (f : Core → Core) : (s.onMine f).priFailed = s.priFailed := rfl
@[simp] theorem State.onMine_priAlloc (s : State) (f : Core → Core) : (s.onMine f).priAlloc = s.priAlloc := rfl
@[simp] theorem State.onMine_casts (s : State) (f : Core → Core) : (s.onMine f).casts = s.casts := rfl
@[simp] theorem State.onMine_queues (s : State) (f : Core → Core) : (s.onMine f).queues = s.queues := rfl
@[simp] theorem State.onMine_heads (s : State) (f : Core → Core) : (s.onMine f).heads = s.heads := rfl
@[simp] theorem State.onMine_jobs (s : State) (f : Core → Core) : (s.onMine f).jobs = s.jobs := rfl
@[simp] theorem State.onMine_resident (s : State) (f : Core → Core) : (s.onMine f).resident = s.resident := rfl
@[simp] theorem State.onMine_msix (s : State) (f : Core → Core) : (s.onMine f).msix = s.msix := rfl
@[simp] theorem State.onMine_msixSent (s : State) (f : Core → Core) : (s.onMine f).msixSent = s.msixSent := rfl
@[simp] theorem State.onMine_bar0 (s : State) (f : Core → Core) : (s.onMine f).bar0 = s.bar0 := rfl
@[simp] theorem State.onMine_health (s : State) (f : Core → Core) : (s.onMine f).health = s.health := rfl
@[simp] theorem State.onMine_hlcount (s : State) (f : Core → Core) : (s.onMine f).hlcount = s.hlcount := rfl
@[simp] theorem State.onMine_configRetries (s : State) (f : Core → Core) : (s.onMine f).configRetries = s.configRetries := rfl
@[simp] theorem State.onMine_stage (s : State) (f : Core → Core) : (s.onMine f).stage = s.stage := rfl
@[simp] theorem State.onMine_ready (s : State) (f : Core → Core) : (s.onMine f).ready = s.ready := rfl
@[simp] theorem State.onMine_fail (s : State) (f : Core → Core) : (s.onMine f).fail = s.fail := rfl
@[simp] theorem State.onMine_failCode (s : State) (f : Core → Core) : (s.onMine f).failCode = s.failCode := rfl
@[simp] theorem State.onMine_failStage (s : State) (f : Core → Core) : (s.onMine f).failStage = s.failStage := rfl
@[simp] theorem State.onMine_bringUpFail (s : State) (f : Core → Core) : (s.onMine f).bringUpFail = s.bringUpFail := rfl
@[simp] theorem State.onMine_arrivals (s : State) (f : Core → Core) : (s.onMine f).arrivals = s.arrivals := rfl
@[simp] theorem State.onMine_exchanges (s : State) (f : Core → Core) : (s.onMine f).exchanges = s.exchanges := rfl
@[simp] theorem State.onMine_portWrites (s : State) (f : Core → Core) : (s.onMine f).portWrites = s.portWrites := rfl
@[simp] theorem State.onMine_messages (s : State) (f : Core → Core) : (s.onMine f).messages = s.messages := rfl
@[simp] theorem State.onMine_trace (s : State) (f : Core → Core) : (s.onMine f).trace = s.trace := rfl
@[simp] theorem State.onMine_faults (s : State) (f : Core → Core) : (s.onMine f).faults = s.faults := rfl
@[simp] theorem State.onMine_saves (s : State) (f : Core → Core) : (s.onMine f).saves = s.saves := rfl
@[simp] theorem State.onMine_safe (s : State) (f : Core → Core) : (s.onMine f).safe = s.safe := rfl
@[simp] theorem State.onMine_gone (s : State) (f : Core → Core) : (s.onMine f).gone = s.gone := rfl
@[simp] theorem State.onMine_reads (s : State) (f : Core → Core) : (s.onMine f).reads = s.reads := rfl
@[simp] theorem State.onMine_idle (s : State) (f : Core → Core) : (s.onMine f).idle = s.idle := rfl
@[simp] theorem State.onMine_windowsEnded (s : State) (f : Core → Core) : (s.onMine f).windowsEnded = s.windowsEnded := rfl
@[simp] theorem State.onMine_windowAt (s : State) (f : Core → Core) : (s.onMine f).windowAt = s.windowAt := rfl
@[simp] theorem State.onMine_hot (s : State) (f : Core → Core) : (s.onMine f).hot = s.hot := rfl
@[simp] theorem State.onMine_seam (s : State) (f : Core → Core) : (s.onMine f).seam = s.seam := rfl
@[simp] theorem State.onMine_fabric (s : State) (f : Core → Core) : (s.onMine f).fabric = s.fabric := rfl
@[simp] theorem State.onMine_errCounts (s : State) (f : Core → Core) : (s.onMine f).errCounts = s.errCounts := rfl
@[simp] theorem State.onMine_retired (s : State) (f : Core → Core) : (s.onMine f).retired = s.retired := rfl
@[simp] theorem State.onMine_calibrated (s : State) (f : Core → Core) : (s.onMine f).calibrated = s.calibrated := rfl
@[simp] theorem State.onMine_attest (s : State) (f : Core → Core) : (s.onMine f).attest = s.attest := rfl
@[simp] theorem State.onMine_stepLimit (s : State) (f : Core → Core) : (s.onMine f).stepLimit = s.stepLimit := rfl
@[simp] theorem State.onMine_cur (s : State) (f : Core → Core) : (s.onMine f).cur = s.cur := rfl
@[simp] theorem State.onMine_issuing (s : State) (f : Core → Core) : (s.onMine f).issuing = s.issuing := rfl
@[simp] theorem State.onMine_cycleOf (s : State) (f : Core → Core) : (s.onMine f).cycleOf = s.cycleOf := rfl
@[simp] theorem State.onMine_agenda (s : State) (f : Core → Core) : (s.onMine f).agenda = s.agenda := rfl
@[simp] theorem State.onMine_predictions (s : State) (f : Core → Core) : (s.onMine f).predictions = s.predictions := rfl
@[simp] theorem State.onMine_fresh (s : State) (f : Core → Core) : (s.onMine f).fresh = s.fresh := rfl
@[simp] theorem State.onMine_nextId (s : State) (f : Core → Core) : (s.onMine f).nextId = s.nextId := rfl

/-! ## A slot replaced in its core -/

@[simp] theorem Core.setSlot_phase (k : Core) (t : Nat) (y : Slot) : (k.setSlot t y).phase = k.phase := rfl
@[simp] theorem Core.setSlot_job (k : Core) (t : Nat) (y : Slot) : (k.setSlot t y).job = k.job := rfl
@[simp] theorem Core.setSlot_slots (k : Core) (t : Nat) (y : Slot) : (k.setSlot t y).slots = tset k.slots t y := rfl
@[simp] theorem Core.setSlot_ports (k : Core) (t : Nat) (y : Slot) : (k.setSlot t y).ports = k.ports := rfl
@[simp] theorem Core.setSlot_held (k : Core) (t : Nat) (y : Slot) : (k.setSlot t y).held = k.held := rfl
@[simp] theorem Core.setSlot_tiles (k : Core) (t : Nat) (y : Slot) : (k.setSlot t y).tiles = k.tiles := rfl
@[simp] theorem Core.setSlot_queue (k : Core) (t : Nat) (y : Slot) : (k.setSlot t y).queue = k.queue := rfl
@[simp] theorem Core.setSlot_exec (k : Core) (t : Nat) (y : Slot) : (k.setSlot t y).exec = k.exec := rfl
@[simp] theorem Core.setSlot_fields (k : Core) (t : Nat) (y : Slot) : (k.setSlot t y).fields = k.fields := rfl
@[simp] theorem Core.setSlot_windows (k : Core) (t : Nat) (y : Slot) : (k.setSlot t y).windows = k.windows := rfl
@[simp] theorem Core.setSlot_inbox (k : Core) (t : Nat) (y : Slot) : (k.setSlot t y).inbox = k.inbox := rfl
@[simp] theorem Core.setSlot_backlog (k : Core) (t : Nat) (y : Slot) : (k.setSlot t y).backlog = k.backlog := rfl
@[simp] theorem Core.setSlot_staging (k : Core) (t : Nat) (y : Slot) : (k.setSlot t y).staging = k.staging := rfl
@[simp] theorem Core.setSlot_heap (k : Core) (t : Nat) (y : Slot) : (k.setSlot t y).heap = k.heap := rfl
@[simp] theorem Core.setSlot_hcap (k : Core) (t : Nat) (y : Slot) : (k.setSlot t y).hcap = k.hcap := rfl
@[simp] theorem Core.setSlot_chans (k : Core) (t : Nat) (y : Slot) : (k.setSlot t y).chans = k.chans := rfl
@[simp] theorem Core.setSlot_arvs (k : Core) (t : Nat) (y : Slot) : (k.setSlot t y).arvs = k.arvs := rfl
@[simp] theorem Core.setSlot_smask (k : Core) (t : Nat) (y : Slot) : (k.setSlot t y).smask = k.smask := rfl
@[simp] theorem Core.setSlot_domch (k : Core) (t : Nat) (y : Slot) : (k.setSlot t y).domch = k.domch := rfl
@[simp] theorem Core.setSlot_segm (k : Core) (t : Nat) (y : Slot) : (k.setSlot t y).segm = k.segm := rfl
@[simp] theorem Core.setSlot_jobgrid (k : Core) (t : Nat) (y : Slot) : (k.setSlot t y).jobgrid = k.jobgrid := rfl
@[simp] theorem Core.setSlot_det (k : Core) (t : Nat) (y : Slot) : (k.setSlot t y).det = k.det := rfl
@[simp] theorem Core.setSlot_gatesOn (k : Core) (t : Nat) (y : Slot) : (k.setSlot t y).gatesOn = k.gatesOn := rfl
@[simp] theorem Core.setSlot_xarea (k : Core) (t : Nat) (y : Slot) : (k.setSlot t y).xarea = k.xarea := rfl
@[simp] theorem Core.setSlot_xareaNow (k : Core) (t : Nat) (y : Slot) : (k.setSlot t y).xareaNow = k.xareaNow := rfl
@[simp] theorem Core.setSlot_spillbase (k : Core) (t : Nat) (y : Slot) : (k.setSlot t y).spillbase = k.spillbase := rfl
@[simp] theorem Core.setSlot_hdone (k : Core) (t : Nat) (y : Slot) : (k.setSlot t y).hdone = k.hdone := rfl
@[simp] theorem Core.setSlot_sstep (k : Core) (t : Nat) (y : Slot) : (k.setSlot t y).sstep = k.sstep := rfl
@[simp] theorem Core.setSlot_cycle (k : Core) (t : Nat) (y : Slot) : (k.setSlot t y).cycle = k.cycle := rfl
@[simp] theorem Core.setSlot_xslot (k : Core) (t : Nat) (y : Slot) : (k.setSlot t y).xslot = k.xslot := rfl
@[simp] theorem Core.setSlot_posts (k : Core) (t : Nat) (y : Slot) : (k.setSlot t y).posts = k.posts := rfl
@[simp] theorem Core.setSlot_overrun (k : Core) (t : Nat) (y : Slot) : (k.setSlot t y).overrun = k.overrun := rfl
@[simp] theorem Core.setSlot_xcnt (k : Core) (t : Nat) (y : Slot) : (k.setSlot t y).xcnt = k.xcnt := rfl
@[simp] theorem Core.setSlot_tlb (k : Core) (t : Nat) (y : Slot) : (k.setSlot t y).tlb = k.tlb := rfl
@[simp] theorem Core.setSlot_mtlb (k : Core) (t : Nat) (y : Slot) : (k.setSlot t y).mtlb = k.mtlb := rfl
@[simp] theorem Core.setSlot_ctlb (k : Core) (t : Nat) (y : Slot) : (k.setSlot t y).ctlb = k.ctlb := rfl
@[simp] theorem Core.setSlot_ibuf (k : Core) (t : Nat) (y : Slot) : (k.setSlot t y).ibuf = k.ibuf := rfl
@[simp] theorem Core.setSlot_gang (k : Core) (t : Nat) (y : Slot) : (k.setSlot t y).gang = k.gang := rfl
@[simp] theorem Core.setSlot_gangReq (k : Core) (t : Nat) (y : Slot) : (k.setSlot t y).gangReq = k.gangReq := rfl
@[simp] theorem Core.setSlot_gangDone (k : Core) (t : Nat) (y : Slot) : (k.setSlot t y).gangDone = k.gangDone := rfl
@[simp] theorem Core.setSlot_vf (k : Core) (t : Nat) (y : Slot) : (k.setSlot t y).vf = k.vf := rfl
@[simp] theorem Core.setSlot_profctl (k : Core) (t : Nat) (y : Slot) : (k.setSlot t y).profctl = k.profctl := rfl
@[simp] theorem Core.setSlot_profbase (k : Core) (t : Nat) (y : Slot) : (k.setSlot t y).profbase = k.profbase := rfl
@[simp] theorem Core.setSlot_prof (k : Core) (t : Nat) (y : Slot) : (k.setSlot t y).prof = k.prof := rfl
@[simp] theorem Core.setSlot_bkpt (k : Core) (t : Nat) (y : Slot) : (k.setSlot t y).bkpt = k.bkpt := rfl
@[simp] theorem Core.setSlot_bkptHit (k : Core) (t : Nat) (y : Slot) : (k.setSlot t y).bkptHit = k.bkptHit := rfl
@[simp] theorem Core.setSlot_rr (k : Core) (t : Nat) (y : Slot) : (k.setSlot t y).rr = k.rr := rfl
@[simp] theorem Core.setSlot_sync (k : Core) (t : Nat) (y : Slot) : (k.setSlot t y).sync = k.sync := rfl
@[simp] theorem Core.setSlot_mmajIn (k : Core) (t : Nat) (y : Slot) : (k.setSlot t y).mmajIn = k.mmajIn := rfl
@[simp] theorem Core.setSlot_slice (k : Core) (t : Nat) (y : Slot) : (k.setSlot t y).slice = k.slice := rfl
@[simp] theorem Core.setSlot_sliceAt (k : Core) (t : Nat) (y : Slot) : (k.setSlot t y).sliceAt = k.sliceAt := rfl

/-! ## A register written -/

@[simp] theorem Slot.wr_mode (x : Slot) (r : Reg) (v : Word) : (x.wr r v).mode = x.mode := by unfold Slot.wr; split <;> rfl
@[simp] theorem Slot.wr_pc (x : Slot) (r : Reg) (v : Word) : (x.wr r v).pc = x.pc := by unfold Slot.wr; split <;> rfl
@[simp] theorem Slot.wr_v (x : Slot) (r : Reg) (v : Word) : (x.wr r v).v = x.v := by unfold Slot.wr; split <;> rfl
@[simp] theorem Slot.wr_pend (x : Slot) (r : Reg) (v : Word) : (x.wr r v).pend = x.pend := by unfold Slot.wr; split <;> rfl
@[simp] theorem Slot.wr_more (x : Slot) (r : Reg) (v : Word) : (x.wr r v).more = x.more := by unfold Slot.wr; split <;> rfl
@[simp] theorem Slot.wr_unsync (x : Slot) (r : Reg) (v : Word) : (x.wr r v).unsync = x.unsync := by unfold Slot.wr; split <;> rfl
@[simp] theorem Slot.wr_park (x : Slot) (r : Reg) (v : Word) : (x.wr r v).park = x.park := by unfold Slot.wr; split <;> rfl
@[simp] theorem Slot.wr_acc (x : Slot) (r : Reg) (v : Word) : (x.wr r v).acc = x.acc := by unfold Slot.wr; split <;> rfl
@[simp] theorem Slot.wr_ahead (x : Slot) (r : Reg) (v : Word) : (x.wr r v).ahead = x.ahead := by unfold Slot.wr; split <;> rfl
@[simp] theorem Slot.wr_walk (x : Slot) (r : Reg) (v : Word) : (x.wr r v).walk = x.walk := by unfold Slot.wr; split <;> rfl
@[simp] theorem Slot.wr_results (x : Slot) (r : Reg) (v : Word) : (x.wr r v).results = x.results := by unfold Slot.wr; split <;> rfl
@[simp] theorem Slot.wr_fence (x : Slot) (r : Reg) (v : Word) : (x.wr r v).fence = x.fence := by unfold Slot.wr; split <;> rfl
@[simp] theorem Slot.wr_after (x : Slot) (r : Reg) (v : Word) : (x.wr r v).after = x.after := by unfold Slot.wr; split <;> rfl
@[simp] theorem Slot.wr_traps (x : Slot) (r : Reg) (v : Word) : (x.wr r v).traps = x.traps := by unfold Slot.wr; split <;> rfl
@[simp] theorem Slot.wr_branches (x : Slot) (r : Reg) (v : Word) : (x.wr r v).branches = x.branches := by unfold Slot.wr; split <;> rfl
@[simp] theorem Slot.wr_tvec (x : Slot) (r : Reg) (v : Word) : (x.wr r v).tvec = x.tvec := by unfold Slot.wr; split <;> rfl
@[simp] theorem Slot.wr_tcause (x : Slot) (r : Reg) (v : Word) : (x.wr r v).tcause = x.tcause := by unfold Slot.wr; split <;> rfl
@[simp] theorem Slot.wr_taddr (x : Slot) (r : Reg) (v : Word) : (x.wr r v).taddr = x.taddr := by unfold Slot.wr; split <;> rfl
@[simp] theorem Slot.wr_tpc (x : Slot) (r : Reg) (v : Word) : (x.wr r v).tpc = x.tpc := by unfold Slot.wr; split <;> rfl
@[simp] theorem Slot.wr_tinfo (x : Slot) (r : Reg) (v : Word) : (x.wr r v).tinfo = x.tinfo := by unfold Slot.wr; split <;> rfl
@[simp] theorem Slot.wr_hnd (x : Slot) (r : Reg) (v : Word) : (x.wr r v).hnd = x.hnd := by unfold Slot.wr; split <;> rfl
@[simp] theorem Slot.wr_savedLevel (x : Slot) (r : Reg) (v : Word) : (x.wr r v).savedLevel = x.savedLevel := by unfold Slot.wr; split <;> rfl
@[simp] theorem Slot.wr_prio (x : Slot) (r : Reg) (v : Word) : (x.wr r v).prio = x.prio := by unfold Slot.wr; split <;> rfl
@[simp] theorem Slot.wr_waitlim (x : Slot) (r : Reg) (v : Word) : (x.wr r v).waitlim = x.waitlim := by unfold Slot.wr; split <;> rfl
@[simp] theorem Slot.wr_asid (x : Slot) (r : Reg) (v : Word) : (x.wr r v).asid = x.asid := by unfold Slot.wr; split <;> rfl
@[simp] theorem Slot.wr_dom (x : Slot) (r : Reg) (v : Word) : (x.wr r v).dom = x.dom := by unfold Slot.wr; split <;> rfl
@[simp] theorem Slot.wr_key (x : Slot) (r : Reg) (v : Word) : (x.wr r v).key = x.key := by unfold Slot.wr; split <;> rfl
@[simp] theorem Slot.wr_codebase (x : Slot) (r : Reg) (v : Word) : (x.wr r v).codebase = x.codebase := by unfold Slot.wr; split <;> rfl
@[simp] theorem Slot.wr_codelim (x : Slot) (r : Reg) (v : Word) : (x.wr r v).codelim = x.codelim := by unfold Slot.wr; split <;> rfl
@[simp] theorem Slot.wr_ec (x : Slot) (r : Reg) (v : Word) : (x.wr r v).ec = x.ec := by unfold Slot.wr; split <;> rfl
@[simp] theorem Slot.wr_issued (x : Slot) (r : Reg) (v : Word) : (x.wr r v).issued = x.issued := by unfold Slot.wr; split <;> rfl
@[simp] theorem Slot.wr_counter (x : Slot) (r : Reg) (v : Word) : (x.wr r v).counter = x.counter := by unfold Slot.wr; split <;> rfl
@[simp] theorem Slot.wr_early (x : Slot) (r : Reg) (v : Word) : (x.wr r v).early = x.early := by unfold Slot.wr; split <;> rfl
@[simp] theorem Slot.wr_copyBytes (x : Slot) (r : Reg) (v : Word) : (x.wr r v).copyBytes = x.copyBytes := by unfold Slot.wr; split <;> rfl
@[simp] theorem Slot.wr_iovf (x : Slot) (r : Reg) (v : Word) : (x.wr r v).iovf = x.iovf := by unfold Slot.wr; split <;> rfl
@[simp] theorem Slot.wr_dnan (x : Slot) (r : Reg) (v : Word) : (x.wr r v).dnan = x.dnan := by unfold Slot.wr; split <;> rfl
@[simp] theorem Slot.wr_dovf (x : Slot) (r : Reg) (v : Word) : (x.wr r v).dovf = x.dovf := by unfold Slot.wr; split <;> rfl
@[simp] theorem Slot.wr_spill (x : Slot) (r : Reg) (v : Word) : (x.wr r v).spill = x.spill := by unfold Slot.wr; split <;> rfl
@[simp] theorem Slot.wr_calls (x : Slot) (r : Reg) (v : Word) : (x.wr r v).calls = x.calls := by unfold Slot.wr; split <;> rfl
@[simp] theorem Slot.wr_gated (x : Slot) (r : Reg) (v : Word) : (x.wr r v).gated = x.gated := by unfold Slot.wr; split <;> rfl
@[simp] theorem Slot.wr_eff (x : Slot) (r : Reg) (v : Word) : (x.wr r v).eff = x.eff := by unfold Slot.wr; split <;> rfl
@[simp] theorem Slot.wr_boost (x : Slot) (r : Reg) (v : Word) : (x.wr r v).boost = x.boost := by unfold Slot.wr; split <;> rfl
@[simp] theorem Slot.wr_age (x : Slot) (r : Reg) (v : Word) : (x.wr r v).age = x.age := by unfold Slot.wr; split <;> rfl
@[simp] theorem Slot.wr_pauseLeft (x : Slot) (r : Reg) (v : Word) : (x.wr r v).pauseLeft = x.pauseLeft := by unfold Slot.wr; split <;> rfl
@[simp] theorem Slot.wr_pauseOver (x : Slot) (r : Reg) (v : Word) : (x.wr r v).pauseOver = x.pauseOver := by unfold Slot.wr; split <;> rfl
@[simp] theorem Slot.wr_yielded (x : Slot) (r : Reg) (v : Word) : (x.wr r v).yielded = x.yielded := by unfold Slot.wr; split <;> rfl
@[simp] theorem Slot.wr_abort (x : Slot) (r : Reg) (v : Word) : (x.wr r v).abort = x.abort := by unfold Slot.wr; split <;> rfl
@[simp] theorem Slot.wr_syncStands (x : Slot) (r : Reg) (v : Word) : (x.wr r v).syncStands = x.syncStands := by unfold Slot.wr; split <;> rfl
@[simp] theorem Slot.wr_icount (x : Slot) (r : Reg) (v : Word) : (x.wr r v).icount = x.icount := by unfold Slot.wr; split <;> rfl
@[simp] theorem Slot.vwr_mode (x : Slot) (r : VReg) (v : Vec) : (x.vwr r v).mode = x.mode := rfl
@[simp] theorem Slot.vwr_pc (x : Slot) (r : VReg) (v : Vec) : (x.vwr r v).pc = x.pc := rfl
@[simp] theorem Slot.vwr_g (x : Slot) (r : VReg) (v : Vec) : (x.vwr r v).g = x.g := rfl
@[simp] theorem Slot.vwr_pend (x : Slot) (r : VReg) (v : Vec) : (x.vwr r v).pend = x.pend := rfl
@[simp] theorem Slot.vwr_more (x : Slot) (r : VReg) (v : Vec) : (x.vwr r v).more = x.more := rfl
@[simp] theorem Slot.vwr_unsync (x : Slot) (r : VReg) (v : Vec) : (x.vwr r v).unsync = x.unsync := rfl
@[simp] theorem Slot.vwr_park (x : Slot) (r : VReg) (v : Vec) : (x.vwr r v).park = x.park := rfl
@[simp] theorem Slot.vwr_acc (x : Slot) (r : VReg) (v : Vec) : (x.vwr r v).acc = x.acc := rfl
@[simp] theorem Slot.vwr_ahead (x : Slot) (r : VReg) (v : Vec) : (x.vwr r v).ahead = x.ahead := rfl
@[simp] theorem Slot.vwr_walk (x : Slot) (r : VReg) (v : Vec) : (x.vwr r v).walk = x.walk := rfl
@[simp] theorem Slot.vwr_results (x : Slot) (r : VReg) (v : Vec) : (x.vwr r v).results = x.results := rfl
@[simp] theorem Slot.vwr_fence (x : Slot) (r : VReg) (v : Vec) : (x.vwr r v).fence = x.fence := rfl
@[simp] theorem Slot.vwr_after (x : Slot) (r : VReg) (v : Vec) : (x.vwr r v).after = x.after := rfl
@[simp] theorem Slot.vwr_traps (x : Slot) (r : VReg) (v : Vec) : (x.vwr r v).traps = x.traps := rfl
@[simp] theorem Slot.vwr_branches (x : Slot) (r : VReg) (v : Vec) : (x.vwr r v).branches = x.branches := rfl
@[simp] theorem Slot.vwr_tvec (x : Slot) (r : VReg) (v : Vec) : (x.vwr r v).tvec = x.tvec := rfl
@[simp] theorem Slot.vwr_tcause (x : Slot) (r : VReg) (v : Vec) : (x.vwr r v).tcause = x.tcause := rfl
@[simp] theorem Slot.vwr_taddr (x : Slot) (r : VReg) (v : Vec) : (x.vwr r v).taddr = x.taddr := rfl
@[simp] theorem Slot.vwr_tpc (x : Slot) (r : VReg) (v : Vec) : (x.vwr r v).tpc = x.tpc := rfl
@[simp] theorem Slot.vwr_tinfo (x : Slot) (r : VReg) (v : Vec) : (x.vwr r v).tinfo = x.tinfo := rfl
@[simp] theorem Slot.vwr_hnd (x : Slot) (r : VReg) (v : Vec) : (x.vwr r v).hnd = x.hnd := rfl
@[simp] theorem Slot.vwr_savedLevel (x : Slot) (r : VReg) (v : Vec) : (x.vwr r v).savedLevel = x.savedLevel := rfl
@[simp] theorem Slot.vwr_prio (x : Slot) (r : VReg) (v : Vec) : (x.vwr r v).prio = x.prio := rfl
@[simp] theorem Slot.vwr_waitlim (x : Slot) (r : VReg) (v : Vec) : (x.vwr r v).waitlim = x.waitlim := rfl
@[simp] theorem Slot.vwr_asid (x : Slot) (r : VReg) (v : Vec) : (x.vwr r v).asid = x.asid := rfl
@[simp] theorem Slot.vwr_dom (x : Slot) (r : VReg) (v : Vec) : (x.vwr r v).dom = x.dom := rfl
@[simp] theorem Slot.vwr_key (x : Slot) (r : VReg) (v : Vec) : (x.vwr r v).key = x.key := rfl
@[simp] theorem Slot.vwr_codebase (x : Slot) (r : VReg) (v : Vec) : (x.vwr r v).codebase = x.codebase := rfl
@[simp] theorem Slot.vwr_codelim (x : Slot) (r : VReg) (v : Vec) : (x.vwr r v).codelim = x.codelim := rfl
@[simp] theorem Slot.vwr_ec (x : Slot) (r : VReg) (v : Vec) : (x.vwr r v).ec = x.ec := rfl
@[simp] theorem Slot.vwr_issued (x : Slot) (r : VReg) (v : Vec) : (x.vwr r v).issued = x.issued := rfl
@[simp] theorem Slot.vwr_counter (x : Slot) (r : VReg) (v : Vec) : (x.vwr r v).counter = x.counter := rfl
@[simp] theorem Slot.vwr_early (x : Slot) (r : VReg) (v : Vec) : (x.vwr r v).early = x.early := rfl
@[simp] theorem Slot.vwr_copyBytes (x : Slot) (r : VReg) (v : Vec) : (x.vwr r v).copyBytes = x.copyBytes := rfl
@[simp] theorem Slot.vwr_iovf (x : Slot) (r : VReg) (v : Vec) : (x.vwr r v).iovf = x.iovf := rfl
@[simp] theorem Slot.vwr_dnan (x : Slot) (r : VReg) (v : Vec) : (x.vwr r v).dnan = x.dnan := rfl
@[simp] theorem Slot.vwr_dovf (x : Slot) (r : VReg) (v : Vec) : (x.vwr r v).dovf = x.dovf := rfl
@[simp] theorem Slot.vwr_spill (x : Slot) (r : VReg) (v : Vec) : (x.vwr r v).spill = x.spill := rfl
@[simp] theorem Slot.vwr_calls (x : Slot) (r : VReg) (v : Vec) : (x.vwr r v).calls = x.calls := rfl
@[simp] theorem Slot.vwr_gated (x : Slot) (r : VReg) (v : Vec) : (x.vwr r v).gated = x.gated := rfl
@[simp] theorem Slot.vwr_eff (x : Slot) (r : VReg) (v : Vec) : (x.vwr r v).eff = x.eff := rfl
@[simp] theorem Slot.vwr_boost (x : Slot) (r : VReg) (v : Vec) : (x.vwr r v).boost = x.boost := rfl
@[simp] theorem Slot.vwr_age (x : Slot) (r : VReg) (v : Vec) : (x.vwr r v).age = x.age := rfl
@[simp] theorem Slot.vwr_pauseLeft (x : Slot) (r : VReg) (v : Vec) : (x.vwr r v).pauseLeft = x.pauseLeft := rfl
@[simp] theorem Slot.vwr_pauseOver (x : Slot) (r : VReg) (v : Vec) : (x.vwr r v).pauseOver = x.pauseOver := rfl
@[simp] theorem Slot.vwr_yielded (x : Slot) (r : VReg) (v : Vec) : (x.vwr r v).yielded = x.yielded := rfl
@[simp] theorem Slot.vwr_abort (x : Slot) (r : VReg) (v : Vec) : (x.vwr r v).abort = x.abort := rfl
@[simp] theorem Slot.vwr_syncStands (x : Slot) (r : VReg) (v : Vec) : (x.vwr r v).syncStands = x.syncStands := rfl
@[simp] theorem Slot.vwr_icount (x : Slot) (r : VReg) (v : Vec) : (x.vwr r v).icount = x.icount := rfl
@[simp] theorem Slot.wait_mode (x : Slot) (r : Reg) : (x.wait r).mode = x.mode := rfl
@[simp] theorem Slot.wait_pc (x : Slot) (r : Reg) : (x.wait r).pc = x.pc := rfl
@[simp] theorem Slot.wait_g (x : Slot) (r : Reg) : (x.wait r).g = x.g := rfl
@[simp] theorem Slot.wait_v (x : Slot) (r : Reg) : (x.wait r).v = x.v := rfl
@[simp] theorem Slot.wait_park (x : Slot) (r : Reg) : (x.wait r).park = x.park := rfl
@[simp] theorem Slot.wait_acc (x : Slot) (r : Reg) : (x.wait r).acc = x.acc := rfl
@[simp] theorem Slot.wait_ahead (x : Slot) (r : Reg) : (x.wait r).ahead = x.ahead := rfl
@[simp] theorem Slot.wait_walk (x : Slot) (r : Reg) : (x.wait r).walk = x.walk := rfl
@[simp] theorem Slot.wait_results (x : Slot) (r : Reg) : (x.wait r).results = x.results := rfl
@[simp] theorem Slot.wait_fence (x : Slot) (r : Reg) : (x.wait r).fence = x.fence := rfl
@[simp] theorem Slot.wait_after (x : Slot) (r : Reg) : (x.wait r).after = x.after := rfl
@[simp] theorem Slot.wait_traps (x : Slot) (r : Reg) : (x.wait r).traps = x.traps := rfl
@[simp] theorem Slot.wait_branches (x : Slot) (r : Reg) : (x.wait r).branches = x.branches := rfl
@[simp] theorem Slot.wait_tvec (x : Slot) (r : Reg) : (x.wait r).tvec = x.tvec := rfl
@[simp] theorem Slot.wait_tcause (x : Slot) (r : Reg) : (x.wait r).tcause = x.tcause := rfl
@[simp] theorem Slot.wait_taddr (x : Slot) (r : Reg) : (x.wait r).taddr = x.taddr := rfl
@[simp] theorem Slot.wait_tpc (x : Slot) (r : Reg) : (x.wait r).tpc = x.tpc := rfl
@[simp] theorem Slot.wait_tinfo (x : Slot) (r : Reg) : (x.wait r).tinfo = x.tinfo := rfl
@[simp] theorem Slot.wait_hnd (x : Slot) (r : Reg) : (x.wait r).hnd = x.hnd := rfl
@[simp] theorem Slot.wait_savedLevel (x : Slot) (r : Reg) : (x.wait r).savedLevel = x.savedLevel := rfl
@[simp] theorem Slot.wait_prio (x : Slot) (r : Reg) : (x.wait r).prio = x.prio := rfl
@[simp] theorem Slot.wait_waitlim (x : Slot) (r : Reg) : (x.wait r).waitlim = x.waitlim := rfl
@[simp] theorem Slot.wait_asid (x : Slot) (r : Reg) : (x.wait r).asid = x.asid := rfl
@[simp] theorem Slot.wait_dom (x : Slot) (r : Reg) : (x.wait r).dom = x.dom := rfl
@[simp] theorem Slot.wait_key (x : Slot) (r : Reg) : (x.wait r).key = x.key := rfl
@[simp] theorem Slot.wait_codebase (x : Slot) (r : Reg) : (x.wait r).codebase = x.codebase := rfl
@[simp] theorem Slot.wait_codelim (x : Slot) (r : Reg) : (x.wait r).codelim = x.codelim := rfl
@[simp] theorem Slot.wait_ec (x : Slot) (r : Reg) : (x.wait r).ec = x.ec := rfl
@[simp] theorem Slot.wait_issued (x : Slot) (r : Reg) : (x.wait r).issued = x.issued := rfl
@[simp] theorem Slot.wait_counter (x : Slot) (r : Reg) : (x.wait r).counter = x.counter := rfl
@[simp] theorem Slot.wait_early (x : Slot) (r : Reg) : (x.wait r).early = x.early := rfl
@[simp] theorem Slot.wait_copyBytes (x : Slot) (r : Reg) : (x.wait r).copyBytes = x.copyBytes := rfl
@[simp] theorem Slot.wait_iovf (x : Slot) (r : Reg) : (x.wait r).iovf = x.iovf := rfl
@[simp] theorem Slot.wait_dnan (x : Slot) (r : Reg) : (x.wait r).dnan = x.dnan := rfl
@[simp] theorem Slot.wait_dovf (x : Slot) (r : Reg) : (x.wait r).dovf = x.dovf := rfl
@[simp] theorem Slot.wait_spill (x : Slot) (r : Reg) : (x.wait r).spill = x.spill := rfl
@[simp] theorem Slot.wait_calls (x : Slot) (r : Reg) : (x.wait r).calls = x.calls := rfl
@[simp] theorem Slot.wait_gated (x : Slot) (r : Reg) : (x.wait r).gated = x.gated := rfl
@[simp] theorem Slot.wait_eff (x : Slot) (r : Reg) : (x.wait r).eff = x.eff := rfl
@[simp] theorem Slot.wait_boost (x : Slot) (r : Reg) : (x.wait r).boost = x.boost := rfl
@[simp] theorem Slot.wait_age (x : Slot) (r : Reg) : (x.wait r).age = x.age := rfl
@[simp] theorem Slot.wait_pauseLeft (x : Slot) (r : Reg) : (x.wait r).pauseLeft = x.pauseLeft := rfl
@[simp] theorem Slot.wait_pauseOver (x : Slot) (r : Reg) : (x.wait r).pauseOver = x.pauseOver := rfl
@[simp] theorem Slot.wait_yielded (x : Slot) (r : Reg) : (x.wait r).yielded = x.yielded := rfl
@[simp] theorem Slot.wait_abort (x : Slot) (r : Reg) : (x.wait r).abort = x.abort := rfl
@[simp] theorem Slot.wait_syncStands (x : Slot) (r : Reg) : (x.wait r).syncStands = x.syncStands := rfl
@[simp] theorem Slot.wait_icount (x : Slot) (r : Reg) : (x.wait r).icount = x.icount := rfl
@[simp] theorem Slot.waitFor_mode (x : Slot) (n : Nat) (k : Park) (m : Bool) : (x.waitFor n k m).mode = x.mode := rfl
@[simp] theorem Slot.waitFor_pc (x : Slot) (n : Nat) (k : Park) (m : Bool) : (x.waitFor n k m).pc = x.pc := rfl
@[simp] theorem Slot.waitFor_g (x : Slot) (n : Nat) (k : Park) (m : Bool) : (x.waitFor n k m).g = x.g := rfl
@[simp] theorem Slot.waitFor_v (x : Slot) (n : Nat) (k : Park) (m : Bool) : (x.waitFor n k m).v = x.v := rfl
@[simp] theorem Slot.waitFor_pend (x : Slot) (n : Nat) (k : Park) (m : Bool) : (x.waitFor n k m).pend = x.pend := rfl
@[simp] theorem Slot.waitFor_more (x : Slot) (n : Nat) (k : Park) (m : Bool) : (x.waitFor n k m).more = x.more := rfl
@[simp] theorem Slot.waitFor_unsync (x : Slot) (n : Nat) (k : Park) (m : Bool) : (x.waitFor n k m).unsync = x.unsync := rfl
@[simp] theorem Slot.waitFor_acc (x : Slot) (n : Nat) (k : Park) (m : Bool) : (x.waitFor n k m).acc = x.acc := rfl
@[simp] theorem Slot.waitFor_ahead (x : Slot) (n : Nat) (k : Park) (m : Bool) : (x.waitFor n k m).ahead = x.ahead := rfl
@[simp] theorem Slot.waitFor_walk (x : Slot) (n : Nat) (k : Park) (m : Bool) : (x.waitFor n k m).walk = x.walk := rfl
@[simp] theorem Slot.waitFor_results (x : Slot) (n : Nat) (k : Park) (m : Bool) : (x.waitFor n k m).results = x.results := rfl
@[simp] theorem Slot.waitFor_fence (x : Slot) (n : Nat) (k : Park) (m : Bool) : (x.waitFor n k m).fence = x.fence := rfl
@[simp] theorem Slot.waitFor_after (x : Slot) (n : Nat) (k : Park) (m : Bool) : (x.waitFor n k m).after = x.after := rfl
@[simp] theorem Slot.waitFor_traps (x : Slot) (n : Nat) (k : Park) (m : Bool) : (x.waitFor n k m).traps = x.traps := rfl
@[simp] theorem Slot.waitFor_branches (x : Slot) (n : Nat) (k : Park) (m : Bool) : (x.waitFor n k m).branches = x.branches := rfl
@[simp] theorem Slot.waitFor_tvec (x : Slot) (n : Nat) (k : Park) (m : Bool) : (x.waitFor n k m).tvec = x.tvec := rfl
@[simp] theorem Slot.waitFor_tcause (x : Slot) (n : Nat) (k : Park) (m : Bool) : (x.waitFor n k m).tcause = x.tcause := rfl
@[simp] theorem Slot.waitFor_taddr (x : Slot) (n : Nat) (k : Park) (m : Bool) : (x.waitFor n k m).taddr = x.taddr := rfl
@[simp] theorem Slot.waitFor_tpc (x : Slot) (n : Nat) (k : Park) (m : Bool) : (x.waitFor n k m).tpc = x.tpc := rfl
@[simp] theorem Slot.waitFor_tinfo (x : Slot) (n : Nat) (k : Park) (m : Bool) : (x.waitFor n k m).tinfo = x.tinfo := rfl
@[simp] theorem Slot.waitFor_hnd (x : Slot) (n : Nat) (k : Park) (m : Bool) : (x.waitFor n k m).hnd = x.hnd := rfl
@[simp] theorem Slot.waitFor_savedLevel (x : Slot) (n : Nat) (k : Park) (m : Bool) : (x.waitFor n k m).savedLevel = x.savedLevel := rfl
@[simp] theorem Slot.waitFor_prio (x : Slot) (n : Nat) (k : Park) (m : Bool) : (x.waitFor n k m).prio = x.prio := rfl
@[simp] theorem Slot.waitFor_waitlim (x : Slot) (n : Nat) (k : Park) (m : Bool) : (x.waitFor n k m).waitlim = x.waitlim := rfl
@[simp] theorem Slot.waitFor_asid (x : Slot) (n : Nat) (k : Park) (m : Bool) : (x.waitFor n k m).asid = x.asid := rfl
@[simp] theorem Slot.waitFor_dom (x : Slot) (n : Nat) (k : Park) (m : Bool) : (x.waitFor n k m).dom = x.dom := rfl
@[simp] theorem Slot.waitFor_key (x : Slot) (n : Nat) (k : Park) (m : Bool) : (x.waitFor n k m).key = x.key := rfl
@[simp] theorem Slot.waitFor_codebase (x : Slot) (n : Nat) (k : Park) (m : Bool) : (x.waitFor n k m).codebase = x.codebase := rfl
@[simp] theorem Slot.waitFor_codelim (x : Slot) (n : Nat) (k : Park) (m : Bool) : (x.waitFor n k m).codelim = x.codelim := rfl
@[simp] theorem Slot.waitFor_ec (x : Slot) (n : Nat) (k : Park) (m : Bool) : (x.waitFor n k m).ec = x.ec := rfl
@[simp] theorem Slot.waitFor_issued (x : Slot) (n : Nat) (k : Park) (m : Bool) : (x.waitFor n k m).issued = x.issued := rfl
@[simp] theorem Slot.waitFor_counter (x : Slot) (n : Nat) (k : Park) (m : Bool) : (x.waitFor n k m).counter = x.counter := rfl
@[simp] theorem Slot.waitFor_early (x : Slot) (n : Nat) (k : Park) (m : Bool) : (x.waitFor n k m).early = x.early := rfl
@[simp] theorem Slot.waitFor_copyBytes (x : Slot) (n : Nat) (k : Park) (m : Bool) : (x.waitFor n k m).copyBytes = x.copyBytes := rfl
@[simp] theorem Slot.waitFor_iovf (x : Slot) (n : Nat) (k : Park) (m : Bool) : (x.waitFor n k m).iovf = x.iovf := rfl
@[simp] theorem Slot.waitFor_dnan (x : Slot) (n : Nat) (k : Park) (m : Bool) : (x.waitFor n k m).dnan = x.dnan := rfl
@[simp] theorem Slot.waitFor_dovf (x : Slot) (n : Nat) (k : Park) (m : Bool) : (x.waitFor n k m).dovf = x.dovf := rfl
@[simp] theorem Slot.waitFor_spill (x : Slot) (n : Nat) (k : Park) (m : Bool) : (x.waitFor n k m).spill = x.spill := rfl
@[simp] theorem Slot.waitFor_calls (x : Slot) (n : Nat) (k : Park) (m : Bool) : (x.waitFor n k m).calls = x.calls := rfl
@[simp] theorem Slot.waitFor_gated (x : Slot) (n : Nat) (k : Park) (m : Bool) : (x.waitFor n k m).gated = x.gated := rfl
@[simp] theorem Slot.waitFor_eff (x : Slot) (n : Nat) (k : Park) (m : Bool) : (x.waitFor n k m).eff = x.eff := rfl
@[simp] theorem Slot.waitFor_boost (x : Slot) (n : Nat) (k : Park) (m : Bool) : (x.waitFor n k m).boost = x.boost := rfl
@[simp] theorem Slot.waitFor_age (x : Slot) (n : Nat) (k : Park) (m : Bool) : (x.waitFor n k m).age = x.age := rfl
@[simp] theorem Slot.waitFor_pauseLeft (x : Slot) (n : Nat) (k : Park) (m : Bool) : (x.waitFor n k m).pauseLeft = x.pauseLeft := rfl
@[simp] theorem Slot.waitFor_pauseOver (x : Slot) (n : Nat) (k : Park) (m : Bool) : (x.waitFor n k m).pauseOver = x.pauseOver := rfl
@[simp] theorem Slot.waitFor_yielded (x : Slot) (n : Nat) (k : Park) (m : Bool) : (x.waitFor n k m).yielded = x.yielded := rfl
@[simp] theorem Slot.waitFor_abort (x : Slot) (n : Nat) (k : Park) (m : Bool) : (x.waitFor n k m).abort = x.abort := rfl
@[simp] theorem Slot.waitFor_syncStands (x : Slot) (n : Nat) (k : Park) (m : Bool) : (x.waitFor n k m).syncStands = x.syncStands := rfl
@[simp] theorem Slot.waitFor_icount (x : Slot) (n : Nat) (k : Park) (m : Bool) : (x.waitFor n k m).icount = x.icount := rfl

end Sys2Proof.Machine
end

