-- ==== Sys2Proof/Laws/Device.lean ====
section
/-! SUPPORT. One lemma per field per update of a job, a queue, a port, the health log and the attestation log. -/

namespace Sys2Proof.Machine

open Sys2Proof

/-! ## A change of one job -/

@[simp] theorem State.onJob_mem (s : State) (j : Nat) (f : Job → Job) : (s.onJob j f).mem = s.mem := rfl
@[simp] theorem State.onJob_poison (s : State) (j : Nat) (f : Job → Job) : (s.onJob j f).poison = s.poison := rfl
@[simp] theorem State.onJob_wkey (s : State) (j : Nat) (f : Job → Job) : (s.onJob j f).wkey = s.wkey := rfl
@[simp] theorem State.onJob_rtime (s : State) (j : Nat) (f : Job → Job) : (s.onJob j f).rtime = s.rtime := rfl
@[simp] theorem State.onJob_cores (s : State) (j : Nat) (f : Job → Job) : (s.onJob j f).cores = s.cores := rfl
@[simp] theorem State.onJob_gates (s : State) (j : Nat) (f : Job → Job) : (s.onJob j f).gates = s.gates := rfl
@[simp] theorem State.onJob_remapix (s : State) (j : Nat) (f : Job → Job) : (s.onJob j f).remapix = s.remapix := rfl
@[simp] theorem State.onJob_remap (s : State) (j : Nat) (f : Job → Job) : (s.onJob j f).remap = s.remap := rfl
@[simp] theorem State.onJob_service (s : State) (j : Nat) (f : Job → Job) : (s.onJob j f).service = s.service := rfl
@[simp] theorem State.onJob_banks (s : State) (j : Nat) (f : Job → Job) : (s.onJob j f).banks = s.banks := rfl
@[simp] theorem State.onJob_ways (s : State) (j : Nat) (f : Job → Job) : (s.onJob j f).ways = s.ways := rfl
@[simp] theorem State.onJob_hbm (s : State) (j : Nat) (f : Job → Job) : (s.onJob j f).hbm = s.hbm := rfl
@[simp] theorem State.onJob_spared (s : State) (j : Nat) (f : Job → Job) : (s.onJob j f).spared = s.spared := rfl
@[simp] theorem State.onJob_objs (s : State) (j : Nat) (f : Job → Job) : (s.onJob j f).objs = s.objs := rfl
@[simp] theorem State.onJob_classes (s : State) (j : Nat) (f : Job → Job) : (s.onJob j f).classes = s.classes := rfl
@[simp] theorem State.onJob_domCode (s : State) (j : Nat) (f : Job → Job) : (s.onJob j f).domCode = s.domCode := rfl
@[simp] theorem State.onJob_domRange (s : State) (j : Nat) (f : Job → Job) : (s.onJob j f).domRange = s.domRange := rfl
@[simp] theorem State.onJob_keysLoaded (s : State) (j : Nat) (f : Job → Job) : (s.onJob j f).keysLoaded = s.keysLoaded := rfl
@[simp] theorem State.onJob_keyGen (s : State) (j : Nat) (f : Job → Job) : (s.onJob j f).keyGen = s.keyGen := rfl
@[simp] theorem State.onJob_pageTables (s : State) (j : Nat) (f : Job → Job) : (s.onJob j f).pageTables = s.pageTables := rfl
@[simp] theorem State.onJob_ctc (s : State) (j : Nat) (f : Job → Job) : (s.onJob j f).ctc = s.ctc := rfl
@[simp] theorem State.onJob_atsReqs (s : State) (j : Nat) (f : Job → Job) : (s.onJob j f).atsReqs = s.atsReqs := rfl
@[simp] theorem State.onJob_pageReqs (s : State) (j : Nat) (f : Job → Job) : (s.onJob j f).pageReqs = s.pageReqs := rfl
@[simp] theorem State.onJob_answers (s : State) (j : Nat) (f : Job → Job) : (s.onJob j f).answers = s.answers := rfl
@[simp] theorem State.onJob_priEnable (s : State) (j : Nat) (f : Job → Job) : (s.onJob j f).priEnable = s.priEnable := rfl
@[simp] theorem State.onJob_priFailed (s : State) (j : Nat) (f : Job → Job) : (s.onJob j f).priFailed = s.priFailed := rfl
@[simp] theorem State.onJob_priAlloc (s : State) (j : Nat) (f : Job → Job) : (s.onJob j f).priAlloc = s.priAlloc := rfl
@[simp] theorem State.onJob_casts (s : State) (j : Nat) (f : Job → Job) : (s.onJob j f).casts = s.casts := rfl
@[simp] theorem State.onJob_queues (s : State) (j : Nat) (f : Job → Job) : (s.onJob j f).queues = s.queues := rfl
@[simp] theorem State.onJob_heads (s : State) (j : Nat) (f : Job → Job) : (s.onJob j f).heads = s.heads := rfl
@[simp] theorem State.onJob_verdicts (s : State) (j : Nat) (f : Job → Job) : (s.onJob j f).verdicts = s.verdicts := rfl
@[simp] theorem State.onJob_refusals (s : State) (j : Nat) (f : Job → Job) : (s.onJob j f).refusals = s.refusals := rfl
@[simp] theorem State.onJob_jobs (s : State) (j : Nat) (f : Job → Job) : (s.onJob j f).jobs = s.jobs.map (fun x => if x.id = j then f x else x) := rfl
@[simp] theorem State.onJob_resident (s : State) (j : Nat) (f : Job → Job) : (s.onJob j f).resident = s.resident := rfl
@[simp] theorem State.onJob_msix (s : State) (j : Nat) (f : Job → Job) : (s.onJob j f).msix = s.msix := rfl
@[simp] theorem State.onJob_msixSent (s : State) (j : Nat) (f : Job → Job) : (s.onJob j f).msixSent = s.msixSent := rfl
@[simp] theorem State.onJob_bar0 (s : State) (j : Nat) (f : Job → Job) : (s.onJob j f).bar0 = s.bar0 := rfl
@[simp] theorem State.onJob_health (s : State) (j : Nat) (f : Job → Job) : (s.onJob j f).health = s.health := rfl
@[simp] theorem State.onJob_hlcount (s : State) (j : Nat) (f : Job → Job) : (s.onJob j f).hlcount = s.hlcount := rfl
@[simp] theorem State.onJob_configRetries (s : State) (j : Nat) (f : Job → Job) : (s.onJob j f).configRetries = s.configRetries := rfl
@[simp] theorem State.onJob_stage (s : State) (j : Nat) (f : Job → Job) : (s.onJob j f).stage = s.stage := rfl
@[simp] theorem State.onJob_ready (s : State) (j : Nat) (f : Job → Job) : (s.onJob j f).ready = s.ready := rfl
@[simp] theorem State.onJob_fail (s : State) (j : Nat) (f : Job → Job) : (s.onJob j f).fail = s.fail := rfl
@[simp] theorem State.onJob_failCode (s : State) (j : Nat) (f : Job → Job) : (s.onJob j f).failCode = s.failCode := rfl
@[simp] theorem State.onJob_failStage (s : State) (j : Nat) (f : Job → Job) : (s.onJob j f).failStage = s.failStage := rfl
@[simp] theorem State.onJob_bringUpFail (s : State) (j : Nat) (f : Job → Job) : (s.onJob j f).bringUpFail = s.bringUpFail := rfl
@[simp] theorem State.onJob_arrivals (s : State) (j : Nat) (f : Job → Job) : (s.onJob j f).arrivals = s.arrivals := rfl
@[simp] theorem State.onJob_exchanges (s : State) (j : Nat) (f : Job → Job) : (s.onJob j f).exchanges = s.exchanges := rfl
@[simp] theorem State.onJob_portWrites (s : State) (j : Nat) (f : Job → Job) : (s.onJob j f).portWrites = s.portWrites := rfl
@[simp] theorem State.onJob_messages (s : State) (j : Nat) (f : Job → Job) : (s.onJob j f).messages = s.messages := rfl
@[simp] theorem State.onJob_trace (s : State) (j : Nat) (f : Job → Job) : (s.onJob j f).trace = s.trace := rfl
@[simp] theorem State.onJob_faults (s : State) (j : Nat) (f : Job → Job) : (s.onJob j f).faults = s.faults := rfl
@[simp] theorem State.onJob_saves (s : State) (j : Nat) (f : Job → Job) : (s.onJob j f).saves = s.saves := rfl
@[simp] theorem State.onJob_safe (s : State) (j : Nat) (f : Job → Job) : (s.onJob j f).safe = s.safe := rfl
@[simp] theorem State.onJob_gone (s : State) (j : Nat) (f : Job → Job) : (s.onJob j f).gone = s.gone := rfl
@[simp] theorem State.onJob_reads (s : State) (j : Nat) (f : Job → Job) : (s.onJob j f).reads = s.reads := rfl
@[simp] theorem State.onJob_hostWaits (s : State) (j : Nat) (f : Job → Job) : (s.onJob j f).hostWaits = s.hostWaits := rfl
@[simp] theorem State.onJob_devReads (s : State) (j : Nat) (f : Job → Job) : (s.onJob j f).devReads = s.devReads := rfl
@[simp] theorem State.onJob_idle (s : State) (j : Nat) (f : Job → Job) : (s.onJob j f).idle = s.idle := rfl
@[simp] theorem State.onJob_windowsEnded (s : State) (j : Nat) (f : Job → Job) : (s.onJob j f).windowsEnded = s.windowsEnded := rfl
@[simp] theorem State.onJob_windowAt (s : State) (j : Nat) (f : Job → Job) : (s.onJob j f).windowAt = s.windowAt := rfl
@[simp] theorem State.onJob_hot (s : State) (j : Nat) (f : Job → Job) : (s.onJob j f).hot = s.hot := rfl
@[simp] theorem State.onJob_seam (s : State) (j : Nat) (f : Job → Job) : (s.onJob j f).seam = s.seam := rfl
@[simp] theorem State.onJob_fabric (s : State) (j : Nat) (f : Job → Job) : (s.onJob j f).fabric = s.fabric := rfl
@[simp] theorem State.onJob_errCounts (s : State) (j : Nat) (f : Job → Job) : (s.onJob j f).errCounts = s.errCounts := rfl
@[simp] theorem State.onJob_retired (s : State) (j : Nat) (f : Job → Job) : (s.onJob j f).retired = s.retired := rfl
@[simp] theorem State.onJob_calibrated (s : State) (j : Nat) (f : Job → Job) : (s.onJob j f).calibrated = s.calibrated := rfl
@[simp] theorem State.onJob_attest (s : State) (j : Nat) (f : Job → Job) : (s.onJob j f).attest = s.attest := rfl
@[simp] theorem State.onJob_firmware (s : State) (j : Nat) (f : Job → Job) : (s.onJob j f).firmware = s.firmware := rfl
@[simp] theorem State.onJob_stepLimit (s : State) (j : Nat) (f : Job → Job) : (s.onJob j f).stepLimit = s.stepLimit := rfl
@[simp] theorem State.onJob_cur (s : State) (j : Nat) (f : Job → Job) : (s.onJob j f).cur = s.cur := rfl
@[simp] theorem State.onJob_issuing (s : State) (j : Nat) (f : Job → Job) : (s.onJob j f).issuing = s.issuing := rfl
@[simp] theorem State.onJob_cycleOf (s : State) (j : Nat) (f : Job → Job) : (s.onJob j f).cycleOf = s.cycleOf := rfl
@[simp] theorem State.onJob_agenda (s : State) (j : Nat) (f : Job → Job) : (s.onJob j f).agenda = s.agenda := rfl
@[simp] theorem State.onJob_predictions (s : State) (j : Nat) (f : Job → Job) : (s.onJob j f).predictions = s.predictions := rfl
@[simp] theorem State.onJob_fresh (s : State) (j : Nat) (f : Job → Job) : (s.onJob j f).fresh = s.fresh := rfl
@[simp] theorem State.onJob_nextId (s : State) (j : Nat) (f : Job → Job) : (s.onJob j f).nextId = s.nextId := rfl
@[simp] theorem State.onJob_core (s : State) (j : Nat) (f : Job → Job) (d : Nat) : (s.onJob j f).core d = s.core d := rfl
@[simp] theorem State.onJob_slot (s : State) (j : Nat) (f : Job → Job) (d t : Nat) : (s.onJob j f).slot d t = s.slot d t := rfl

/-! ## A queue replaced -/

@[simp] theorem State.setQueue_mem (s : State) (q : Nat) (x : WQueue) : (s.setQueue q x).mem = s.mem := rfl
@[simp] theorem State.setQueue_poison (s : State) (q : Nat) (x : WQueue) : (s.setQueue q x).poison = s.poison := rfl
@[simp] theorem State.setQueue_wkey (s : State) (q : Nat) (x : WQueue) : (s.setQueue q x).wkey = s.wkey := rfl
@[simp] theorem State.setQueue_rtime (s : State) (q : Nat) (x : WQueue) : (s.setQueue q x).rtime = s.rtime := rfl
@[simp] theorem State.setQueue_cores (s : State) (q : Nat) (x : WQueue) : (s.setQueue q x).cores = s.cores := rfl
@[simp] theorem State.setQueue_gates (s : State) (q : Nat) (x : WQueue) : (s.setQueue q x).gates = s.gates := rfl
@[simp] theorem State.setQueue_remapix (s : State) (q : Nat) (x : WQueue) : (s.setQueue q x).remapix = s.remapix := rfl
@[simp] theorem State.setQueue_remap (s : State) (q : Nat) (x : WQueue) : (s.setQueue q x).remap = s.remap := rfl
@[simp] theorem State.setQueue_service (s : State) (q : Nat) (x : WQueue) : (s.setQueue q x).service = s.service := rfl
@[simp] theorem State.setQueue_banks (s : State) (q : Nat) (x : WQueue) : (s.setQueue q x).banks = s.banks := rfl
@[simp] theorem State.setQueue_ways (s : State) (q : Nat) (x : WQueue) : (s.setQueue q x).ways = s.ways := rfl
@[simp] theorem State.setQueue_hbm (s : State) (q : Nat) (x : WQueue) : (s.setQueue q x).hbm = s.hbm := rfl
@[simp] theorem State.setQueue_spared (s : State) (q : Nat) (x : WQueue) : (s.setQueue q x).spared = s.spared := rfl
@[simp] theorem State.setQueue_objs (s : State) (q : Nat) (x : WQueue) : (s.setQueue q x).objs = s.objs := rfl
@[simp] theorem State.setQueue_classes (s : State) (q : Nat) (x : WQueue) : (s.setQueue q x).classes = s.classes := rfl
@[simp] theorem State.setQueue_domCode (s : State) (q : Nat) (x : WQueue) : (s.setQueue q x).domCode = s.domCode := rfl
@[simp] theorem State.setQueue_domRange (s : State) (q : Nat) (x : WQueue) : (s.setQueue q x).domRange = s.domRange := rfl
@[simp] theorem State.setQueue_keysLoaded (s : State) (q : Nat) (x : WQueue) : (s.setQueue q x).keysLoaded = s.keysLoaded := rfl
@[simp] theorem State.setQueue_keyGen (s : State) (q : Nat) (x : WQueue) : (s.setQueue q x).keyGen = s.keyGen := rfl
@[simp] theorem State.setQueue_pageTables (s : State) (q : Nat) (x : WQueue) : (s.setQueue q x).pageTables = s.pageTables := rfl
@[simp] theorem State.setQueue_ctc (s : State) (q : Nat) (x : WQueue) : (s.setQueue q x).ctc = s.ctc := rfl
@[simp] theorem State.setQueue_atsReqs (s : State) (q : Nat) (x : WQueue) : (s.setQueue q x).atsReqs = s.atsReqs := rfl
@[simp] theorem State.setQueue_pageReqs (s : State) (q : Nat) (x : WQueue) : (s.setQueue q x).pageReqs = s.pageReqs := rfl
@[simp] theorem State.setQueue_answers (s : State) (q : Nat) (x : WQueue) : (s.setQueue q x).answers = s.answers := rfl
@[simp] theorem State.setQueue_priEnable (s : State) (q : Nat) (x : WQueue) : (s.setQueue q x).priEnable = s.priEnable := rfl
@[simp] theorem State.setQueue_priFailed (s : State) (q : Nat) (x : WQueue) : (s.setQueue q x).priFailed = s.priFailed := rfl
@[simp] theorem State.setQueue_priAlloc (s : State) (q : Nat) (x : WQueue) : (s.setQueue q x).priAlloc = s.priAlloc := rfl
@[simp] theorem State.setQueue_casts (s : State) (q : Nat) (x : WQueue) : (s.setQueue q x).casts = s.casts := rfl
@[simp] theorem State.setQueue_queues (s : State) (q : Nat) (x : WQueue) : (s.setQueue q x).queues = tset s.queues q x := rfl
@[simp] theorem State.setQueue_heads (s : State) (q : Nat) (x : WQueue) : (s.setQueue q x).heads = s.heads := rfl
@[simp] theorem State.setQueue_verdicts (s : State) (q : Nat) (x : WQueue) : (s.setQueue q x).verdicts = s.verdicts := rfl
@[simp] theorem State.setQueue_refusals (s : State) (q : Nat) (x : WQueue) : (s.setQueue q x).refusals = s.refusals := rfl
@[simp] theorem State.setQueue_jobs (s : State) (q : Nat) (x : WQueue) : (s.setQueue q x).jobs = s.jobs := rfl
@[simp] theorem State.setQueue_resident (s : State) (q : Nat) (x : WQueue) : (s.setQueue q x).resident = s.resident := rfl
@[simp] theorem State.setQueue_msix (s : State) (q : Nat) (x : WQueue) : (s.setQueue q x).msix = s.msix := rfl
@[simp] theorem State.setQueue_msixSent (s : State) (q : Nat) (x : WQueue) : (s.setQueue q x).msixSent = s.msixSent := rfl
@[simp] theorem State.setQueue_bar0 (s : State) (q : Nat) (x : WQueue) : (s.setQueue q x).bar0 = s.bar0 := rfl
@[simp] theorem State.setQueue_health (s : State) (q : Nat) (x : WQueue) : (s.setQueue q x).health = s.health := rfl
@[simp] theorem State.setQueue_hlcount (s : State) (q : Nat) (x : WQueue) : (s.setQueue q x).hlcount = s.hlcount := rfl
@[simp] theorem State.setQueue_configRetries (s : State) (q : Nat) (x : WQueue) : (s.setQueue q x).configRetries = s.configRetries := rfl
@[simp] theorem State.setQueue_stage (s : State) (q : Nat) (x : WQueue) : (s.setQueue q x).stage = s.stage := rfl
@[simp] theorem State.setQueue_ready (s : State) (q : Nat) (x : WQueue) : (s.setQueue q x).ready = s.ready := rfl
@[simp] theorem State.setQueue_fail (s : State) (q : Nat) (x : WQueue) : (s.setQueue q x).fail = s.fail := rfl
@[simp] theorem State.setQueue_failCode (s : State) (q : Nat) (x : WQueue) : (s.setQueue q x).failCode = s.failCode := rfl
@[simp] theorem State.setQueue_failStage (s : State) (q : Nat) (x : WQueue) : (s.setQueue q x).failStage = s.failStage := rfl
@[simp] theorem State.setQueue_bringUpFail (s : State) (q : Nat) (x : WQueue) : (s.setQueue q x).bringUpFail = s.bringUpFail := rfl
@[simp] theorem State.setQueue_arrivals (s : State) (q : Nat) (x : WQueue) : (s.setQueue q x).arrivals = s.arrivals := rfl
@[simp] theorem State.setQueue_exchanges (s : State) (q : Nat) (x : WQueue) : (s.setQueue q x).exchanges = s.exchanges := rfl
@[simp] theorem State.setQueue_portWrites (s : State) (q : Nat) (x : WQueue) : (s.setQueue q x).portWrites = s.portWrites := rfl
@[simp] theorem State.setQueue_messages (s : State) (q : Nat) (x : WQueue) : (s.setQueue q x).messages = s.messages := rfl
@[simp] theorem State.setQueue_trace (s : State) (q : Nat) (x : WQueue) : (s.setQueue q x).trace = s.trace := rfl
@[simp] theorem State.setQueue_faults (s : State) (q : Nat) (x : WQueue) : (s.setQueue q x).faults = s.faults := rfl
@[simp] theorem State.setQueue_saves (s : State) (q : Nat) (x : WQueue) : (s.setQueue q x).saves = s.saves := rfl
@[simp] theorem State.setQueue_safe (s : State) (q : Nat) (x : WQueue) : (s.setQueue q x).safe = s.safe := rfl
@[simp] theorem State.setQueue_gone (s : State) (q : Nat) (x : WQueue) : (s.setQueue q x).gone = s.gone := rfl
@[simp] theorem State.setQueue_reads (s : State) (q : Nat) (x : WQueue) : (s.setQueue q x).reads = s.reads := rfl
@[simp] theorem State.setQueue_hostWaits (s : State) (q : Nat) (x : WQueue) : (s.setQueue q x).hostWaits = s.hostWaits := rfl
@[simp] theorem State.setQueue_devReads (s : State) (q : Nat) (x : WQueue) : (s.setQueue q x).devReads = s.devReads := rfl
@[simp] theorem State.setQueue_idle (s : State) (q : Nat) (x : WQueue) : (s.setQueue q x).idle = s.idle := rfl
@[simp] theorem State.setQueue_windowsEnded (s : State) (q : Nat) (x : WQueue) : (s.setQueue q x).windowsEnded = s.windowsEnded := rfl
@[simp] theorem State.setQueue_windowAt (s : State) (q : Nat) (x : WQueue) : (s.setQueue q x).windowAt = s.windowAt := rfl
@[simp] theorem State.setQueue_hot (s : State) (q : Nat) (x : WQueue) : (s.setQueue q x).hot = s.hot := rfl
@[simp] theorem State.setQueue_seam (s : State) (q : Nat) (x : WQueue) : (s.setQueue q x).seam = s.seam := rfl
@[simp] theorem State.setQueue_fabric (s : State) (q : Nat) (x : WQueue) : (s.setQueue q x).fabric = s.fabric := rfl
@[simp] theorem State.setQueue_errCounts (s : State) (q : Nat) (x : WQueue) : (s.setQueue q x).errCounts = s.errCounts := rfl
@[simp] theorem State.setQueue_retired (s : State) (q : Nat) (x : WQueue) : (s.setQueue q x).retired = s.retired := rfl
@[simp] theorem State.setQueue_calibrated (s : State) (q : Nat) (x : WQueue) : (s.setQueue q x).calibrated = s.calibrated := rfl
@[simp] theorem State.setQueue_attest (s : State) (q : Nat) (x : WQueue) : (s.setQueue q x).attest = s.attest := rfl
@[simp] theorem State.setQueue_firmware (s : State) (q : Nat) (x : WQueue) : (s.setQueue q x).firmware = s.firmware := rfl
@[simp] theorem State.setQueue_stepLimit (s : State) (q : Nat) (x : WQueue) : (s.setQueue q x).stepLimit = s.stepLimit := rfl
@[simp] theorem State.setQueue_cur (s : State) (q : Nat) (x : WQueue) : (s.setQueue q x).cur = s.cur := rfl
@[simp] theorem State.setQueue_issuing (s : State) (q : Nat) (x : WQueue) : (s.setQueue q x).issuing = s.issuing := rfl
@[simp] theorem State.setQueue_cycleOf (s : State) (q : Nat) (x : WQueue) : (s.setQueue q x).cycleOf = s.cycleOf := rfl
@[simp] theorem State.setQueue_agenda (s : State) (q : Nat) (x : WQueue) : (s.setQueue q x).agenda = s.agenda := rfl
@[simp] theorem State.setQueue_predictions (s : State) (q : Nat) (x : WQueue) : (s.setQueue q x).predictions = s.predictions := rfl
@[simp] theorem State.setQueue_fresh (s : State) (q : Nat) (x : WQueue) : (s.setQueue q x).fresh = s.fresh := rfl
@[simp] theorem State.setQueue_nextId (s : State) (q : Nat) (x : WQueue) : (s.setQueue q x).nextId = s.nextId := rfl
@[simp] theorem State.setQueue_core (s : State) (q : Nat) (x : WQueue) (d : Nat) : (s.setQueue q x).core d = s.core d := rfl
@[simp] theorem State.setQueue_slot (s : State) (q : Nat) (x : WQueue) (d t : Nat) : (s.setQueue q x).slot d t = s.slot d t := rfl

/-! ## A fabric port replaced -/

@[simp] theorem State.setPort_mem (s : State) (p : Nat) (l : Link) : (s.setPort p l).mem = s.mem := rfl
@[simp] theorem State.setPort_poison (s : State) (p : Nat) (l : Link) : (s.setPort p l).poison = s.poison := rfl
@[simp] theorem State.setPort_wkey (s : State) (p : Nat) (l : Link) : (s.setPort p l).wkey = s.wkey := rfl
@[simp] theorem State.setPort_rtime (s : State) (p : Nat) (l : Link) : (s.setPort p l).rtime = s.rtime := rfl
@[simp] theorem State.setPort_cores (s : State) (p : Nat) (l : Link) : (s.setPort p l).cores = s.cores := rfl
@[simp] theorem State.setPort_gates (s : State) (p : Nat) (l : Link) : (s.setPort p l).gates = s.gates := rfl
@[simp] theorem State.setPort_remapix (s : State) (p : Nat) (l : Link) : (s.setPort p l).remapix = s.remapix := rfl
@[simp] theorem State.setPort_remap (s : State) (p : Nat) (l : Link) : (s.setPort p l).remap = s.remap := rfl
@[simp] theorem State.setPort_service (s : State) (p : Nat) (l : Link) : (s.setPort p l).service = s.service := rfl
@[simp] theorem State.setPort_banks (s : State) (p : Nat) (l : Link) : (s.setPort p l).banks = s.banks := rfl
@[simp] theorem State.setPort_ways (s : State) (p : Nat) (l : Link) : (s.setPort p l).ways = s.ways := rfl
@[simp] theorem State.setPort_hbm (s : State) (p : Nat) (l : Link) : (s.setPort p l).hbm = s.hbm := rfl
@[simp] theorem State.setPort_spared (s : State) (p : Nat) (l : Link) : (s.setPort p l).spared = s.spared := rfl
@[simp] theorem State.setPort_objs (s : State) (p : Nat) (l : Link) : (s.setPort p l).objs = s.objs := rfl
@[simp] theorem State.setPort_classes (s : State) (p : Nat) (l : Link) : (s.setPort p l).classes = s.classes := rfl
@[simp] theorem State.setPort_domCode (s : State) (p : Nat) (l : Link) : (s.setPort p l).domCode = s.domCode := rfl
@[simp] theorem State.setPort_domRange (s : State) (p : Nat) (l : Link) : (s.setPort p l).domRange = s.domRange := rfl
@[simp] theorem State.setPort_keysLoaded (s : State) (p : Nat) (l : Link) : (s.setPort p l).keysLoaded = s.keysLoaded := rfl
@[simp] theorem State.setPort_keyGen (s : State) (p : Nat) (l : Link) : (s.setPort p l).keyGen = s.keyGen := rfl
@[simp] theorem State.setPort_pageTables (s : State) (p : Nat) (l : Link) : (s.setPort p l).pageTables = s.pageTables := rfl
@[simp] theorem State.setPort_ctc (s : State) (p : Nat) (l : Link) : (s.setPort p l).ctc = s.ctc := rfl
@[simp] theorem State.setPort_atsReqs (s : State) (p : Nat) (l : Link) : (s.setPort p l).atsReqs = s.atsReqs := rfl
@[simp] theorem State.setPort_pageReqs (s : State) (p : Nat) (l : Link) : (s.setPort p l).pageReqs = s.pageReqs := rfl
@[simp] theorem State.setPort_answers (s : State) (p : Nat) (l : Link) : (s.setPort p l).answers = s.answers := rfl
@[simp] theorem State.setPort_priEnable (s : State) (p : Nat) (l : Link) : (s.setPort p l).priEnable = s.priEnable := rfl
@[simp] theorem State.setPort_priFailed (s : State) (p : Nat) (l : Link) : (s.setPort p l).priFailed = s.priFailed := rfl
@[simp] theorem State.setPort_priAlloc (s : State) (p : Nat) (l : Link) : (s.setPort p l).priAlloc = s.priAlloc := rfl
@[simp] theorem State.setPort_casts (s : State) (p : Nat) (l : Link) : (s.setPort p l).casts = s.casts := rfl
@[simp] theorem State.setPort_queues (s : State) (p : Nat) (l : Link) : (s.setPort p l).queues = s.queues := rfl
@[simp] theorem State.setPort_heads (s : State) (p : Nat) (l : Link) : (s.setPort p l).heads = s.heads := rfl
@[simp] theorem State.setPort_verdicts (s : State) (p : Nat) (l : Link) : (s.setPort p l).verdicts = s.verdicts := rfl
@[simp] theorem State.setPort_refusals (s : State) (p : Nat) (l : Link) : (s.setPort p l).refusals = s.refusals := rfl
@[simp] theorem State.setPort_jobs (s : State) (p : Nat) (l : Link) : (s.setPort p l).jobs = s.jobs := rfl
@[simp] theorem State.setPort_resident (s : State) (p : Nat) (l : Link) : (s.setPort p l).resident = s.resident := rfl
@[simp] theorem State.setPort_msix (s : State) (p : Nat) (l : Link) : (s.setPort p l).msix = s.msix := rfl
@[simp] theorem State.setPort_msixSent (s : State) (p : Nat) (l : Link) : (s.setPort p l).msixSent = s.msixSent := rfl
@[simp] theorem State.setPort_bar0 (s : State) (p : Nat) (l : Link) : (s.setPort p l).bar0 = s.bar0 := rfl
@[simp] theorem State.setPort_health (s : State) (p : Nat) (l : Link) : (s.setPort p l).health = s.health := rfl
@[simp] theorem State.setPort_hlcount (s : State) (p : Nat) (l : Link) : (s.setPort p l).hlcount = s.hlcount := rfl
@[simp] theorem State.setPort_configRetries (s : State) (p : Nat) (l : Link) : (s.setPort p l).configRetries = s.configRetries := rfl
@[simp] theorem State.setPort_stage (s : State) (p : Nat) (l : Link) : (s.setPort p l).stage = s.stage := rfl
@[simp] theorem State.setPort_ready (s : State) (p : Nat) (l : Link) : (s.setPort p l).ready = s.ready := rfl
@[simp] theorem State.setPort_fail (s : State) (p : Nat) (l : Link) : (s.setPort p l).fail = s.fail := rfl
@[simp] theorem State.setPort_failCode (s : State) (p : Nat) (l : Link) : (s.setPort p l).failCode = s.failCode := rfl
@[simp] theorem State.setPort_failStage (s : State) (p : Nat) (l : Link) : (s.setPort p l).failStage = s.failStage := rfl
@[simp] theorem State.setPort_bringUpFail (s : State) (p : Nat) (l : Link) : (s.setPort p l).bringUpFail = s.bringUpFail := rfl
@[simp] theorem State.setPort_arrivals (s : State) (p : Nat) (l : Link) : (s.setPort p l).arrivals = s.arrivals := rfl
@[simp] theorem State.setPort_exchanges (s : State) (p : Nat) (l : Link) : (s.setPort p l).exchanges = s.exchanges := rfl
@[simp] theorem State.setPort_portWrites (s : State) (p : Nat) (l : Link) : (s.setPort p l).portWrites = s.portWrites := rfl
@[simp] theorem State.setPort_messages (s : State) (p : Nat) (l : Link) : (s.setPort p l).messages = s.messages := rfl
@[simp] theorem State.setPort_trace (s : State) (p : Nat) (l : Link) : (s.setPort p l).trace = s.trace := rfl
@[simp] theorem State.setPort_faults (s : State) (p : Nat) (l : Link) : (s.setPort p l).faults = s.faults := rfl
@[simp] theorem State.setPort_saves (s : State) (p : Nat) (l : Link) : (s.setPort p l).saves = s.saves := rfl
@[simp] theorem State.setPort_safe (s : State) (p : Nat) (l : Link) : (s.setPort p l).safe = s.safe := rfl
@[simp] theorem State.setPort_gone (s : State) (p : Nat) (l : Link) : (s.setPort p l).gone = s.gone := rfl
@[simp] theorem State.setPort_reads (s : State) (p : Nat) (l : Link) : (s.setPort p l).reads = s.reads := rfl
@[simp] theorem State.setPort_hostWaits (s : State) (p : Nat) (l : Link) : (s.setPort p l).hostWaits = s.hostWaits := rfl
@[simp] theorem State.setPort_devReads (s : State) (p : Nat) (l : Link) : (s.setPort p l).devReads = s.devReads := rfl
@[simp] theorem State.setPort_idle (s : State) (p : Nat) (l : Link) : (s.setPort p l).idle = s.idle := rfl
@[simp] theorem State.setPort_windowsEnded (s : State) (p : Nat) (l : Link) : (s.setPort p l).windowsEnded = s.windowsEnded := rfl
@[simp] theorem State.setPort_windowAt (s : State) (p : Nat) (l : Link) : (s.setPort p l).windowAt = s.windowAt := rfl
@[simp] theorem State.setPort_hot (s : State) (p : Nat) (l : Link) : (s.setPort p l).hot = s.hot := rfl
@[simp] theorem State.setPort_seam (s : State) (p : Nat) (l : Link) : (s.setPort p l).seam = s.seam := rfl
@[simp] theorem State.setPort_fabric (s : State) (p : Nat) (l : Link) : (s.setPort p l).fabric = tset s.fabric p l := rfl
@[simp] theorem State.setPort_errCounts (s : State) (p : Nat) (l : Link) : (s.setPort p l).errCounts = s.errCounts := rfl
@[simp] theorem State.setPort_retired (s : State) (p : Nat) (l : Link) : (s.setPort p l).retired = s.retired := rfl
@[simp] theorem State.setPort_calibrated (s : State) (p : Nat) (l : Link) : (s.setPort p l).calibrated = s.calibrated := rfl
@[simp] theorem State.setPort_attest (s : State) (p : Nat) (l : Link) : (s.setPort p l).attest = s.attest := rfl
@[simp] theorem State.setPort_firmware (s : State) (p : Nat) (l : Link) : (s.setPort p l).firmware = s.firmware := rfl
@[simp] theorem State.setPort_stepLimit (s : State) (p : Nat) (l : Link) : (s.setPort p l).stepLimit = s.stepLimit := rfl
@[simp] theorem State.setPort_cur (s : State) (p : Nat) (l : Link) : (s.setPort p l).cur = s.cur := rfl
@[simp] theorem State.setPort_issuing (s : State) (p : Nat) (l : Link) : (s.setPort p l).issuing = s.issuing := rfl
@[simp] theorem State.setPort_cycleOf (s : State) (p : Nat) (l : Link) : (s.setPort p l).cycleOf = s.cycleOf := rfl
@[simp] theorem State.setPort_agenda (s : State) (p : Nat) (l : Link) : (s.setPort p l).agenda = s.agenda := rfl
@[simp] theorem State.setPort_predictions (s : State) (p : Nat) (l : Link) : (s.setPort p l).predictions = s.predictions := rfl
@[simp] theorem State.setPort_fresh (s : State) (p : Nat) (l : Link) : (s.setPort p l).fresh = s.fresh := rfl
@[simp] theorem State.setPort_nextId (s : State) (p : Nat) (l : Link) : (s.setPort p l).nextId = s.nextId := rfl
@[simp] theorem State.setPort_core (s : State) (p : Nat) (l : Link) (d : Nat) : (s.setPort p l).core d = s.core d := rfl
@[simp] theorem State.setPort_slot (s : State) (p : Nat) (l : Link) (d t : Nat) : (s.setPort p l).slot d t = s.slot d t := rfl

/-! ## A record of the health log -/

@[simp] theorem State.log_mem (s : State) (unit counter action : Nat) : (s.log unit counter action).mem = s.mem := rfl
@[simp] theorem State.log_poison (s : State) (unit counter action : Nat) : (s.log unit counter action).poison = s.poison := rfl
@[simp] theorem State.log_wkey (s : State) (unit counter action : Nat) : (s.log unit counter action).wkey = s.wkey := rfl
@[simp] theorem State.log_rtime (s : State) (unit counter action : Nat) : (s.log unit counter action).rtime = s.rtime := rfl
@[simp] theorem State.log_cores (s : State) (unit counter action : Nat) : (s.log unit counter action).cores = s.cores := rfl
@[simp] theorem State.log_gates (s : State) (unit counter action : Nat) : (s.log unit counter action).gates = s.gates := rfl
@[simp] theorem State.log_remapix (s : State) (unit counter action : Nat) : (s.log unit counter action).remapix = s.remapix := rfl
@[simp] theorem State.log_remap (s : State) (unit counter action : Nat) : (s.log unit counter action).remap = s.remap := rfl
@[simp] theorem State.log_service (s : State) (unit counter action : Nat) : (s.log unit counter action).service = s.service := rfl
@[simp] theorem State.log_banks (s : State) (unit counter action : Nat) : (s.log unit counter action).banks = s.banks := rfl
@[simp] theorem State.log_ways (s : State) (unit counter action : Nat) : (s.log unit counter action).ways = s.ways := rfl
@[simp] theorem State.log_hbm (s : State) (unit counter action : Nat) : (s.log unit counter action).hbm = s.hbm := rfl
@[simp] theorem State.log_spared (s : State) (unit counter action : Nat) : (s.log unit counter action).spared = s.spared := rfl
@[simp] theorem State.log_objs (s : State) (unit counter action : Nat) : (s.log unit counter action).objs = s.objs := rfl
@[simp] theorem State.log_classes (s : State) (unit counter action : Nat) : (s.log unit counter action).classes = s.classes := rfl
@[simp] theorem State.log_domCode (s : State) (unit counter action : Nat) : (s.log unit counter action).domCode = s.domCode := rfl
@[simp] theorem State.log_domRange (s : State) (unit counter action : Nat) : (s.log unit counter action).domRange = s.domRange := rfl
@[simp] theorem State.log_keysLoaded (s : State) (unit counter action : Nat) : (s.log unit counter action).keysLoaded = s.keysLoaded := rfl
@[simp] theorem State.log_keyGen (s : State) (unit counter action : Nat) : (s.log unit counter action).keyGen = s.keyGen := rfl
@[simp] theorem State.log_pageTables (s : State) (unit counter action : Nat) : (s.log unit counter action).pageTables = s.pageTables := rfl
@[simp] theorem State.log_ctc (s : State) (unit counter action : Nat) : (s.log unit counter action).ctc = s.ctc := rfl
@[simp] theorem State.log_atsReqs (s : State) (unit counter action : Nat) : (s.log unit counter action).atsReqs = s.atsReqs := rfl
@[simp] theorem State.log_pageReqs (s : State) (unit counter action : Nat) : (s.log unit counter action).pageReqs = s.pageReqs := rfl
@[simp] theorem State.log_answers (s : State) (unit counter action : Nat) : (s.log unit counter action).answers = s.answers := rfl
@[simp] theorem State.log_priEnable (s : State) (unit counter action : Nat) : (s.log unit counter action).priEnable = s.priEnable := rfl
@[simp] theorem State.log_priFailed (s : State) (unit counter action : Nat) : (s.log unit counter action).priFailed = s.priFailed := rfl
@[simp] theorem State.log_priAlloc (s : State) (unit counter action : Nat) : (s.log unit counter action).priAlloc = s.priAlloc := rfl
@[simp] theorem State.log_casts (s : State) (unit counter action : Nat) : (s.log unit counter action).casts = s.casts := rfl
@[simp] theorem State.log_queues (s : State) (unit counter action : Nat) : (s.log unit counter action).queues = s.queues := rfl
@[simp] theorem State.log_heads (s : State) (unit counter action : Nat) : (s.log unit counter action).heads = s.heads := rfl
@[simp] theorem State.log_verdicts (s : State) (unit counter action : Nat) : (s.log unit counter action).verdicts = s.verdicts := rfl
@[simp] theorem State.log_refusals (s : State) (unit counter action : Nat) : (s.log unit counter action).refusals = s.refusals := rfl
@[simp] theorem State.log_jobs (s : State) (unit counter action : Nat) : (s.log unit counter action).jobs = s.jobs := rfl
@[simp] theorem State.log_resident (s : State) (unit counter action : Nat) : (s.log unit counter action).resident = s.resident := rfl
@[simp] theorem State.log_msix (s : State) (unit counter action : Nat) : (s.log unit counter action).msix = s.msix := rfl
@[simp] theorem State.log_msixSent (s : State) (unit counter action : Nat) : (s.log unit counter action).msixSent = s.msixSent := rfl
@[simp] theorem State.log_bar0 (s : State) (unit counter action : Nat) : (s.log unit counter action).bar0 = s.bar0 := rfl
@[simp] theorem State.log_hlcount (s : State) (unit counter action : Nat) : (s.log unit counter action).hlcount = s.hlcount + 1 := rfl
@[simp] theorem State.log_configRetries (s : State) (unit counter action : Nat) : (s.log unit counter action).configRetries = s.configRetries := rfl
@[simp] theorem State.log_stage (s : State) (unit counter action : Nat) : (s.log unit counter action).stage = s.stage := rfl
@[simp] theorem State.log_ready (s : State) (unit counter action : Nat) : (s.log unit counter action).ready = s.ready := rfl
@[simp] theorem State.log_fail (s : State) (unit counter action : Nat) : (s.log unit counter action).fail = s.fail := rfl
@[simp] theorem State.log_failCode (s : State) (unit counter action : Nat) : (s.log unit counter action).failCode = s.failCode := rfl
@[simp] theorem State.log_failStage (s : State) (unit counter action : Nat) : (s.log unit counter action).failStage = s.failStage := rfl
@[simp] theorem State.log_bringUpFail (s : State) (unit counter action : Nat) : (s.log unit counter action).bringUpFail = s.bringUpFail := rfl
@[simp] theorem State.log_arrivals (s : State) (unit counter action : Nat) : (s.log unit counter action).arrivals = s.arrivals := rfl
@[simp] theorem State.log_exchanges (s : State) (unit counter action : Nat) : (s.log unit counter action).exchanges = s.exchanges := rfl
@[simp] theorem State.log_portWrites (s : State) (unit counter action : Nat) : (s.log unit counter action).portWrites = s.portWrites := rfl
@[simp] theorem State.log_messages (s : State) (unit counter action : Nat) : (s.log unit counter action).messages = s.messages := rfl
@[simp] theorem State.log_trace (s : State) (unit counter action : Nat) : (s.log unit counter action).trace = s.trace := rfl
@[simp] theorem State.log_faults (s : State) (unit counter action : Nat) : (s.log unit counter action).faults = s.faults := rfl
@[simp] theorem State.log_saves (s : State) (unit counter action : Nat) : (s.log unit counter action).saves = s.saves := rfl
@[simp] theorem State.log_safe (s : State) (unit counter action : Nat) : (s.log unit counter action).safe = s.safe := rfl
@[simp] theorem State.log_gone (s : State) (unit counter action : Nat) : (s.log unit counter action).gone = s.gone := rfl
@[simp] theorem State.log_reads (s : State) (unit counter action : Nat) : (s.log unit counter action).reads = s.reads := rfl
@[simp] theorem State.log_hostWaits (s : State) (unit counter action : Nat) : (s.log unit counter action).hostWaits = s.hostWaits := rfl
@[simp] theorem State.log_devReads (s : State) (unit counter action : Nat) : (s.log unit counter action).devReads = s.devReads := rfl
@[simp] theorem State.log_idle (s : State) (unit counter action : Nat) : (s.log unit counter action).idle = s.idle := rfl
@[simp] theorem State.log_windowsEnded (s : State) (unit counter action : Nat) : (s.log unit counter action).windowsEnded = s.windowsEnded := rfl
@[simp] theorem State.log_windowAt (s : State) (unit counter action : Nat) : (s.log unit counter action).windowAt = s.windowAt := rfl
@[simp] theorem State.log_hot (s : State) (unit counter action : Nat) : (s.log unit counter action).hot = s.hot := rfl
@[simp] theorem State.log_seam (s : State) (unit counter action : Nat) : (s.log unit counter action).seam = s.seam := rfl
@[simp] theorem State.log_fabric (s : State) (unit counter action : Nat) : (s.log unit counter action).fabric = s.fabric := rfl
@[simp] theorem State.log_errCounts (s : State) (unit counter action : Nat) : (s.log unit counter action).errCounts = s.errCounts := rfl
@[simp] theorem State.log_retired (s : State) (unit counter action : Nat) : (s.log unit counter action).retired = s.retired := rfl
@[simp] theorem State.log_calibrated (s : State) (unit counter action : Nat) : (s.log unit counter action).calibrated = s.calibrated := rfl
@[simp] theorem State.log_attest (s : State) (unit counter action : Nat) : (s.log unit counter action).attest = s.attest := rfl
@[simp] theorem State.log_firmware (s : State) (unit counter action : Nat) : (s.log unit counter action).firmware = s.firmware := rfl
@[simp] theorem State.log_stepLimit (s : State) (unit counter action : Nat) : (s.log unit counter action).stepLimit = s.stepLimit := rfl
@[simp] theorem State.log_cur (s : State) (unit counter action : Nat) : (s.log unit counter action).cur = s.cur := rfl
@[simp] theorem State.log_issuing (s : State) (unit counter action : Nat) : (s.log unit counter action).issuing = s.issuing := rfl
@[simp] theorem State.log_cycleOf (s : State) (unit counter action : Nat) : (s.log unit counter action).cycleOf = s.cycleOf := rfl
@[simp] theorem State.log_agenda (s : State) (unit counter action : Nat) : (s.log unit counter action).agenda = s.agenda := rfl
@[simp] theorem State.log_predictions (s : State) (unit counter action : Nat) : (s.log unit counter action).predictions = s.predictions := rfl
@[simp] theorem State.log_fresh (s : State) (unit counter action : Nat) : (s.log unit counter action).fresh = s.fresh := rfl
@[simp] theorem State.log_nextId (s : State) (unit counter action : Nat) : (s.log unit counter action).nextId = s.nextId := rfl
@[simp] theorem State.log_core (s : State) (unit counter action : Nat) (d : Nat) : (s.log unit counter action).core d = s.core d := rfl
@[simp] theorem State.log_slot (s : State) (unit counter action : Nat) (d t : Nat) : (s.log unit counter action).slot d t = s.slot d t := rfl

/-! ## A measurement -/

@[simp] theorem State.measure_mem (s : State) (image : Nat) (ok : Bool) : (s.measure image ok).mem = s.mem := rfl
@[simp] theorem State.measure_poison (s : State) (image : Nat) (ok : Bool) : (s.measure image ok).poison = s.poison := rfl
@[simp] theorem State.measure_wkey (s : State) (image : Nat) (ok : Bool) : (s.measure image ok).wkey = s.wkey := rfl
@[simp] theorem State.measure_rtime (s : State) (image : Nat) (ok : Bool) : (s.measure image ok).rtime = s.rtime := rfl
@[simp] theorem State.measure_cores (s : State) (image : Nat) (ok : Bool) : (s.measure image ok).cores = s.cores := rfl
@[simp] theorem State.measure_gates (s : State) (image : Nat) (ok : Bool) : (s.measure image ok).gates = s.gates := rfl
@[simp] theorem State.measure_remapix (s : State) (image : Nat) (ok : Bool) : (s.measure image ok).remapix = s.remapix := rfl
@[simp] theorem State.measure_remap (s : State) (image : Nat) (ok : Bool) : (s.measure image ok).remap = s.remap := rfl
@[simp] theorem State.measure_service (s : State) (image : Nat) (ok : Bool) : (s.measure image ok).service = s.service := rfl
@[simp] theorem State.measure_banks (s : State) (image : Nat) (ok : Bool) : (s.measure image ok).banks = s.banks := rfl
@[simp] theorem State.measure_ways (s : State) (image : Nat) (ok : Bool) : (s.measure image ok).ways = s.ways := rfl
@[simp] theorem State.measure_hbm (s : State) (image : Nat) (ok : Bool) : (s.measure image ok).hbm = s.hbm := rfl
@[simp] theorem State.measure_spared (s : State) (image : Nat) (ok : Bool) : (s.measure image ok).spared = s.spared := rfl
@[simp] theorem State.measure_objs (s : State) (image : Nat) (ok : Bool) : (s.measure image ok).objs = s.objs := rfl
@[simp] theorem State.measure_classes (s : State) (image : Nat) (ok : Bool) : (s.measure image ok).classes = s.classes := rfl
@[simp] theorem State.measure_domCode (s : State) (image : Nat) (ok : Bool) : (s.measure image ok).domCode = s.domCode := rfl
@[simp] theorem State.measure_domRange (s : State) (image : Nat) (ok : Bool) : (s.measure image ok).domRange = s.domRange := rfl
@[simp] theorem State.measure_keysLoaded (s : State) (image : Nat) (ok : Bool) : (s.measure image ok).keysLoaded = s.keysLoaded := rfl
@[simp] theorem State.measure_keyGen (s : State) (image : Nat) (ok : Bool) : (s.measure image ok).keyGen = s.keyGen := rfl
@[simp] theorem State.measure_pageTables (s : State) (image : Nat) (ok : Bool) : (s.measure image ok).pageTables = s.pageTables := rfl
@[simp] theorem State.measure_ctc (s : State) (image : Nat) (ok : Bool) : (s.measure image ok).ctc = s.ctc := rfl
@[simp] theorem State.measure_atsReqs (s : State) (image : Nat) (ok : Bool) : (s.measure image ok).atsReqs = s.atsReqs := rfl
@[simp] theorem State.measure_pageReqs (s : State) (image : Nat) (ok : Bool) : (s.measure image ok).pageReqs = s.pageReqs := rfl
@[simp] theorem State.measure_answers (s : State) (image : Nat) (ok : Bool) : (s.measure image ok).answers = s.answers := rfl
@[simp] theorem State.measure_priEnable (s : State) (image : Nat) (ok : Bool) : (s.measure image ok).priEnable = s.priEnable := rfl
@[simp] theorem State.measure_priFailed (s : State) (image : Nat) (ok : Bool) : (s.measure image ok).priFailed = s.priFailed := rfl
@[simp] theorem State.measure_priAlloc (s : State) (image : Nat) (ok : Bool) : (s.measure image ok).priAlloc = s.priAlloc := rfl
@[simp] theorem State.measure_casts (s : State) (image : Nat) (ok : Bool) : (s.measure image ok).casts = s.casts := rfl
@[simp] theorem State.measure_queues (s : State) (image : Nat) (ok : Bool) : (s.measure image ok).queues = s.queues := rfl
@[simp] theorem State.measure_heads (s : State) (image : Nat) (ok : Bool) : (s.measure image ok).heads = s.heads := rfl
@[simp] theorem State.measure_verdicts (s : State) (image : Nat) (ok : Bool) : (s.measure image ok).verdicts = s.verdicts := rfl
@[simp] theorem State.measure_refusals (s : State) (image : Nat) (ok : Bool) : (s.measure image ok).refusals = s.refusals := rfl
@[simp] theorem State.measure_jobs (s : State) (image : Nat) (ok : Bool) : (s.measure image ok).jobs = s.jobs := rfl
@[simp] theorem State.measure_resident (s : State) (image : Nat) (ok : Bool) : (s.measure image ok).resident = s.resident := rfl
@[simp] theorem State.measure_msix (s : State) (image : Nat) (ok : Bool) : (s.measure image ok).msix = s.msix := rfl
@[simp] theorem State.measure_msixSent (s : State) (image : Nat) (ok : Bool) : (s.measure image ok).msixSent = s.msixSent := rfl
@[simp] theorem State.measure_bar0 (s : State) (image : Nat) (ok : Bool) : (s.measure image ok).bar0 = s.bar0 := rfl
@[simp] theorem State.measure_health (s : State) (image : Nat) (ok : Bool) : (s.measure image ok).health = s.health := rfl
@[simp] theorem State.measure_hlcount (s : State) (image : Nat) (ok : Bool) : (s.measure image ok).hlcount = s.hlcount := rfl
@[simp] theorem State.measure_configRetries (s : State) (image : Nat) (ok : Bool) : (s.measure image ok).configRetries = s.configRetries := rfl
@[simp] theorem State.measure_stage (s : State) (image : Nat) (ok : Bool) : (s.measure image ok).stage = s.stage := rfl
@[simp] theorem State.measure_ready (s : State) (image : Nat) (ok : Bool) : (s.measure image ok).ready = s.ready := rfl
@[simp] theorem State.measure_fail (s : State) (image : Nat) (ok : Bool) : (s.measure image ok).fail = s.fail := rfl
@[simp] theorem State.measure_failCode (s : State) (image : Nat) (ok : Bool) : (s.measure image ok).failCode = s.failCode := rfl
@[simp] theorem State.measure_failStage (s : State) (image : Nat) (ok : Bool) : (s.measure image ok).failStage = s.failStage := rfl
@[simp] theorem State.measure_bringUpFail (s : State) (image : Nat) (ok : Bool) : (s.measure image ok).bringUpFail = s.bringUpFail := rfl
@[simp] theorem State.measure_arrivals (s : State) (image : Nat) (ok : Bool) : (s.measure image ok).arrivals = s.arrivals := rfl
@[simp] theorem State.measure_exchanges (s : State) (image : Nat) (ok : Bool) : (s.measure image ok).exchanges = s.exchanges := rfl
@[simp] theorem State.measure_portWrites (s : State) (image : Nat) (ok : Bool) : (s.measure image ok).portWrites = s.portWrites := rfl
@[simp] theorem State.measure_messages (s : State) (image : Nat) (ok : Bool) : (s.measure image ok).messages = s.messages := rfl
@[simp] theorem State.measure_trace (s : State) (image : Nat) (ok : Bool) : (s.measure image ok).trace = s.trace := rfl
@[simp] theorem State.measure_faults (s : State) (image : Nat) (ok : Bool) : (s.measure image ok).faults = s.faults := rfl
@[simp] theorem State.measure_saves (s : State) (image : Nat) (ok : Bool) : (s.measure image ok).saves = s.saves := rfl
@[simp] theorem State.measure_safe (s : State) (image : Nat) (ok : Bool) : (s.measure image ok).safe = s.safe := rfl
@[simp] theorem State.measure_gone (s : State) (image : Nat) (ok : Bool) : (s.measure image ok).gone = s.gone := rfl
@[simp] theorem State.measure_reads (s : State) (image : Nat) (ok : Bool) : (s.measure image ok).reads = s.reads := rfl
@[simp] theorem State.measure_hostWaits (s : State) (image : Nat) (ok : Bool) : (s.measure image ok).hostWaits = s.hostWaits := rfl
@[simp] theorem State.measure_devReads (s : State) (image : Nat) (ok : Bool) : (s.measure image ok).devReads = s.devReads := rfl
@[simp] theorem State.measure_idle (s : State) (image : Nat) (ok : Bool) : (s.measure image ok).idle = s.idle := rfl
@[simp] theorem State.measure_windowsEnded (s : State) (image : Nat) (ok : Bool) : (s.measure image ok).windowsEnded = s.windowsEnded := rfl
@[simp] theorem State.measure_windowAt (s : State) (image : Nat) (ok : Bool) : (s.measure image ok).windowAt = s.windowAt := rfl
@[simp] theorem State.measure_hot (s : State) (image : Nat) (ok : Bool) : (s.measure image ok).hot = s.hot := rfl
@[simp] theorem State.measure_seam (s : State) (image : Nat) (ok : Bool) : (s.measure image ok).seam = s.seam := rfl
@[simp] theorem State.measure_fabric (s : State) (image : Nat) (ok : Bool) : (s.measure image ok).fabric = s.fabric := rfl
@[simp] theorem State.measure_errCounts (s : State) (image : Nat) (ok : Bool) : (s.measure image ok).errCounts = s.errCounts := rfl
@[simp] theorem State.measure_retired (s : State) (image : Nat) (ok : Bool) : (s.measure image ok).retired = s.retired := rfl
@[simp] theorem State.measure_calibrated (s : State) (image : Nat) (ok : Bool) : (s.measure image ok).calibrated = s.calibrated := rfl
@[simp] theorem State.measure_attest (s : State) (image : Nat) (ok : Bool) : (s.measure image ok).attest = s.attest ++ [{ image := image, ok := ok }] := rfl
@[simp] theorem State.measure_firmware (s : State) (image : Nat) (ok : Bool) : (s.measure image ok).firmware = s.firmware := rfl
@[simp] theorem State.measure_stepLimit (s : State) (image : Nat) (ok : Bool) : (s.measure image ok).stepLimit = s.stepLimit := rfl
@[simp] theorem State.measure_cur (s : State) (image : Nat) (ok : Bool) : (s.measure image ok).cur = s.cur := rfl
@[simp] theorem State.measure_issuing (s : State) (image : Nat) (ok : Bool) : (s.measure image ok).issuing = s.issuing := rfl
@[simp] theorem State.measure_cycleOf (s : State) (image : Nat) (ok : Bool) : (s.measure image ok).cycleOf = s.cycleOf := rfl
@[simp] theorem State.measure_agenda (s : State) (image : Nat) (ok : Bool) : (s.measure image ok).agenda = s.agenda := rfl
@[simp] theorem State.measure_predictions (s : State) (image : Nat) (ok : Bool) : (s.measure image ok).predictions = s.predictions := rfl
@[simp] theorem State.measure_fresh (s : State) (image : Nat) (ok : Bool) : (s.measure image ok).fresh = s.fresh := rfl
@[simp] theorem State.measure_nextId (s : State) (image : Nat) (ok : Bool) : (s.measure image ok).nextId = s.nextId := rfl
@[simp] theorem State.measure_core (s : State) (image : Nat) (ok : Bool) (d : Nat) : (s.measure image ok).core d = s.core d := rfl
@[simp] theorem State.measure_slot (s : State) (image : Nat) (ok : Bool) (d t : Nat) : (s.measure image ok).slot d t = s.slot d t := rfl

end Sys2Proof.Machine
end

