-- ==== Sys2Proof/Laws/Memory.lean ====
section
/-! SUPPORT. Tables and memory: read after write, and the canonical form that every memory operation keeps. -/

namespace Sys2Proof.Machine

open Sys2Proof

/-! ## Tables -/

@[simp] theorem tget_tset {α : Type} (t : Tbl α) (k : Nat) (v d : α) : tget (tset t k v) k d = v := by
  induction t with
  | nil => simp [tset, tget]
  | cons p r ih =>
    obtain ⟨k', v'⟩ := p
    simp only [tset]
    split
    · simp [tget]
    · split <;> simp_all [tget]

theorem tget_tset_ne {α : Type} (t : Tbl α) (k j : Nat) (v d : α) (h : j ≠ k) : tget (tset t k v) j d = tget t j d := by
  induction t with
  | nil => simp [tset, tget, h]
  | cons p r ih =>
    obtain ⟨k', v'⟩ := p
    simp only [tset]
    split
    · next e => subst e; simp [tget, h]
    · split
      · simp [tget, h]
      · simp [tget, ih]

@[simp] theorem tset_tset {α : Type} (t : Tbl α) (k : Nat) (v w : α) : tset (tset t k v) k w = tset t k w := by
  induction t with
  | nil => simp [tset]
  | cons p r ih =>
    obtain ⟨k', v'⟩ := p
    simp only [tset]
    split
    · simp [tset]
    · split
      · simp [tset]
      · next h h' => simp [tset, h, h', ih]

/-! ## The core and slot at hand -/

@[simp] theorem State.core_setCore (s : State) (c : Nat) (x : Core) : (s.setCore c x).core c = x := by simp [State.core]
theorem State.core_setCore_ne (s : State) (c d : Nat) (x : Core) (h : d ≠ c) : (s.setCore c x).core d = s.core d := by
  simp [State.core, tget_tset_ne _ _ _ _ _ h]
@[simp] theorem Core.slot_setSlot (k : Core) (t : Nat) (y : Slot) : (k.setSlot t y).slot t = y := by simp [Core.slot]
theorem Core.slot_setSlot_ne (k : Core) (t u : Nat) (y : Slot) (h : u ≠ t) : (k.setSlot t y).slot u = k.slot u := by
  simp [Core.slot, tget_tset_ne _ _ _ _ _ h]
@[simp] theorem State.slot_setSlot (s : State) (c t : Nat) (y : Slot) : (s.setSlot c t y).slot c t = y := by
  simp [State.slot, State.setSlot_def]
@[simp] theorem State.me_setMe (s : State) (y : Slot) : (s.setMe y).me = y := by simp [State.me, State.setMe]
@[simp] theorem State.me_onMe (s : State) (f : Slot → Slot) : (s.onMe f).me = f s.me := by simp [State.onMe]
@[simp] theorem State.setMe_setMe (s : State) (y z : Slot) : (s.setMe y).setMe z = s.setMe z := by
  simp [State.setMe, State.setSlot, State.setCore, State.core, Core.setSlot]
@[simp] theorem State.mine_onMine (s : State) (f : Core → Core) : (s.onMine f).mine = f s.mine := by
  simp [State.mine, State.onMine_def]

/-! ## Registers -/

@[simp] theorem Slot.rd_zero (x : Slot) : x.rd 0 = 0 := rfl
@[simp] theorem Slot.rd_wr_same (x : Slot) (r : Reg) (v : Word) (h : r ≠ 0) : (x.wr r v).rd r = v := by
  unfold Slot.rd Slot.wr; rw [if_neg h, if_neg h]; simp
@[simp] theorem Slot.wr_zero (x : Slot) (v : Word) : x.wr 0 v = x := rfl
theorem Slot.rd_wr_ne (x : Slot) (r q : Reg) (v : Word) (h : q ≠ r) : (x.wr r v).rd q = x.rd q := by
  unfold Slot.rd Slot.wr
  split
  · rfl
  · split
    · rfl
    · have : r.toNat ≠ q.toNat := fun e => h (BitVec.eq_of_toNat_eq e.symm)
      simp [this]

/-! ## Memory -/

theorem Memory.rising_weaken {a b : Nat} {m : List Host.Cell} (h : a ≤ b) (hr : Memory.rising (some b) m = true) :
    Memory.rising (some a) m = true := by
  cases m with
  | nil => rfl
  | cons p r =>
    simp [Memory.rising] at *
    exact ⟨⟨by omega, hr.1.2⟩, hr.2⟩

theorem Memory.rising_none {b : Nat} {m : List Host.Cell} (hr : Memory.rising (some b) m = true) : Memory.rising none m = true := by
  cases m with
  | nil => rfl
  | cons p r => simp [Memory.rising] at *; exact hr.2 |> fun h => ⟨hr.1.2, h⟩

theorem Memory.rising_write (b k : Nat) (v : Byte) (m : List Host.Cell) (hk : b < k) (hr : Memory.rising (some b) m = true) :
    Memory.rising (some b) (Memory.write m k v) = true := by
  induction m generalizing b with
  | nil => simp only [Memory.write]; split <;> simp_all [Memory.rising]
  | cons p r ih =>
    obtain ⟨k', v'⟩ := p
    simp [Memory.rising] at hr
    simp only [Memory.write]
    split
    · split <;> simp_all [Memory.rising]
    · split
      · next h1 h2 =>
        subst h2
        split
        · exact Memory.rising_weaken (by omega) hr.2
        · simp_all [Memory.rising]
      · next h1 h2 =>
        have := ih k' (by omega) hr.2
        simp_all [Memory.rising]

/-- A write keeps the canonical form. -/
theorem Memory.wf_write (m : List Host.Cell) (k : Nat) (v : Byte) (h : Memory.wf m = true) : Memory.wf (Memory.write m k v) = true := by
  unfold Memory.wf at *
  cases m with
  | nil => simp only [Memory.write]; split <;> simp_all [Memory.rising]
  | cons p r =>
    obtain ⟨k', v'⟩ := p
    simp [Memory.rising] at h
    simp only [Memory.write]
    split
    · split <;> simp_all [Memory.rising]
    · split
      · next h1 h2 =>
        subst h2
        split
        · exact Memory.rising_none h.2
        · simp_all [Memory.rising]
      · next h1 h2 =>
        have := Memory.rising_write k' k v r (by omega) h.2
        simp_all [Memory.rising]

theorem Memory.wf_writeBytes (bs : List Byte) (m : List Host.Cell) (k : Nat) (h : Memory.wf m = true) :
    Memory.wf (Memory.writeBytes m k bs) = true := by
  induction bs generalizing m k with
  | nil => exact h
  | cons b r ih => exact ih _ _ (Memory.wf_write m k b h)

theorem Memory.wf_writeN (m : List Host.Cell) (k n v : Nat) (h : Memory.wf m = true) : Memory.wf (Memory.writeN m k n v) = true :=
  Memory.wf_writeBytes _ _ _ h

theorem Memory.rising_filter (p : Host.Cell → Bool) (b : Nat) (m : List Host.Cell) (h : Memory.rising (some b) m = true) :
    Memory.rising (some b) (m.filter p) = true := by
  induction m generalizing b with
  | nil => rfl
  | cons q r ih =>
    simp [Memory.rising] at h
    simp only [List.filter]
    split
    · simp [Memory.rising, h.1.1, h.1.2, ih _ h.2]
    · exact ih b (Memory.rising_weaken (by omega) h.2)

/-- A part of a memory is in canonical form (R61). -/
theorem Memory.wf_filter (p : Host.Cell → Bool) (m : List Host.Cell) (h : Memory.wf m = true) : Memory.wf (m.filter p) = true := by
  unfold Memory.wf at *
  cases m with
  | nil => rfl
  | cons q r =>
    simp [Memory.rising] at h
    simp only [List.filter]
    split
    · simp [Memory.rising, h.1, Memory.rising_filter p _ r h.2]
    · exact Memory.rising_none (Memory.rising_filter p _ r h.2)

theorem Memory.wf_foldl (l : List Host.Cell) (m : List Host.Cell) (h : Memory.wf m = true) :
    Memory.wf (l.foldl (fun m p => Memory.write m p.1 p.2) m) = true := by
  induction l generalizing m with
  | nil => exact h
  | cons p r ih => exact ih _ (Memory.wf_write m p.1 p.2 h)

theorem Memory.rising_not_mem {b k : Nat} {m : List Host.Cell} (h : Memory.rising (some b) m = true) (hk : k ≤ b) :
    Memory.read m k = Memory.unlisted := by
  induction m generalizing b with
  | nil => rfl
  | cons q r ih =>
    obtain ⟨k', v'⟩ := q
    simp [Memory.rising] at h
    have hn : k ≠ k' := by omega
    simp [Memory.read, hn]
    exact ih h.2 (by omega)

theorem Memory.read_write_ne (m : List Host.Cell) (k j : Nat) (v : Byte) (h : j ≠ k) : Memory.read (Memory.write m k v) j = Memory.read m j := by
  induction m with
  | nil => simp only [Memory.write]; split <;> simp [Memory.read, h]
  | cons q r ih =>
    obtain ⟨k', v'⟩ := q
    simp only [Memory.write]
    split
    · split
      · rfl
      · simp [Memory.read, h]
    · split
      · next h2 => subst h2; split <;> simp [Memory.read, h]
      · simp [Memory.read, ih]

theorem Memory.read_write_rising (m : List Host.Cell) (k b : Nat) (v : Byte) (h : Memory.rising (some b) m = true) :
    Memory.read (Memory.write m k v) k = v := by
  induction m generalizing b with
  | nil => simp only [Memory.write]; split <;> simp_all [Memory.read]
  | cons q r ih =>
    obtain ⟨k', v'⟩ := q
    simp [Memory.rising] at h
    simp only [Memory.write]
    split
    · next hk =>
      split
      · next hv =>
        have hn : k ≠ k' := by omega
        simp only [Memory.read, hn, if_false]
        rw [Memory.rising_not_mem h.2 (by omega), hv]
      · simp [Memory.read]
    · split
      · next h2 =>
        subst h2
        split
        · next hv => rw [Memory.rising_not_mem h.2 (Nat.le_refl _), hv]
        · simp [Memory.read]
      · next h2 => simp [Memory.read, h2, ih _ h.2]

/-- A read after a write to the same byte gives the value written. -/
theorem Memory.read_write (m : List Host.Cell) (k : Nat) (v : Byte) (h : Memory.wf m = true) : Memory.read (Memory.write m k v) k = v := by
  cases m with
  | nil => simp only [Memory.write]; split <;> simp_all [Memory.read]
  | cons q r =>
    obtain ⟨k', v'⟩ := q
    have h0 := h
    simp [Memory.wf, Memory.rising] at h
    simp only [Memory.write]
    split
    · next hk =>
      split
      · next hv =>
        have hn : k ≠ k' := by omega
        simp only [Memory.read, hn, if_false]
        rw [Memory.rising_not_mem h.2 (by omega), hv]
      · simp [Memory.read]
    · split
      · next h2 =>
        subst h2
        split
        · next hv => rw [Memory.rising_not_mem h.2 (Nat.le_refl _), hv]
        · simp [Memory.read]
      · next h2 => simp [Memory.read, h2, Memory.read_write_rising r k k' v h.2]

theorem Memory.read_writeBytes_out (bs : List Byte) (m : List Host.Cell) (k j : Nat) (h : j < k ∨ k + bs.length ≤ j) :
    Memory.read (Memory.writeBytes m k bs) j = Memory.read m j := by
  induction bs generalizing m k with
  | nil => rfl
  | cons b r ih =>
    simp only [List.length_cons] at h
    simp only [Memory.writeBytes]
    rw [ih _ _ (by omega), Memory.read_write_ne _ _ _ _ (by omega)]

/-- The memory of the machine right after reset is in canonical form. -/
theorem State.reset_wf : Memory.wf State.reset.mem = true := rfl

/-- Erasing bytes keeps the canonical form. -/
theorem Memory.wf_erase (m : List Host.Cell) (k n : Nat) (h : Memory.wf m = true) : Memory.wf (Memory.erase m k n) = true :=
  Memory.wf_filter _ m h

end Sys2Proof.Machine
end

