-- ==== Sys2Proof/Laws/Issue.lean ====
section
/-! SUPPORT. What the issue of an instruction answers, case by case. -/

namespace Sys2Proof.Machine

open Sys2Proof Sys2Proof.Safety

/-- The issuing slot with its earlier wait cleared, as an instruction's effect sees it. -/
def State.cleared (s : State) : State := s.onMe (fun x => { x with park := none })

@[simp] theorem State.cleared_mem (s : State) : s.cleared.mem = s.mem := rfl
@[simp] theorem State.cleared_cur (s : State) : s.cleared.cur = s.cur := rfl
@[simp] theorem State.cleared_me (s : State) : s.cleared.me = { s.me with park := none } := by simp [State.cleared]

theorem orderFault_none {n : Need} {s : State} (h : mayIssue n s = true) : orderFault s.me n s.cur.mark = none := by
  simp only [mayIssue, Bool.and_eq_true] at h
  obtain ⟨⟨⟨_, h1⟩, h2⟩, _⟩ := h
  have a : n.rs.find? (fun r => s.me.unsync.getLsbD r.toNat) = none := by
    simp only [List.find?_eq_none]
    intro r hr
    have := List.all_eq_true.mp h1 r hr
    simpa using this
  unfold orderFault
  rw [a]
  cases hm : s.cur.mark with
  | true => rfl
  | false =>
    have b : n.ws.find? (fun r => s.me.unsync.getLsbD r.toNat) = none := by
      simp only [List.find?_eq_none]
      intro r hr
      simp only [hm, Bool.false_or] at h2
      have := List.all_eq_true.mp h2 r hr
      simpa using this
    simp [b]

theorem issueFault_none {n : Need} {s : State} (h : mayIssue n s = true) : issueFault n s = none := by
  have ho := orderFault_none h
  simp only [mayIssue, Bool.and_eq_true] at h
  obtain ⟨⟨⟨⟨h1, h2⟩, _⟩, _⟩, _⟩ := h
  unfold issueFault
  rw [h1, ho]
  cases hp : n.priv <;> simp_all

/-- Once it may issue, an instruction's effect decides the outcome. -/
theorem issue_eq {n : Need} {f : State → Act} {s : State} (h : mayIssue n s = true) :
    issue n f s = .next (match f s.cleared with
      | .done s' => s'.retire n s.nextPc
      | .go s' pc => s'.retire n pc
      | .wait k => s.hold k
      | .trap code addr info => s.trapOrHold code addr info
      | .stay s' => s') := by
  have hl : (n.late && !s.me.branches.isEmpty) = false := by
    simp only [mayIssue, Bool.and_eq_true] at h
    have := h.2
    cases hn : n.late <;> simp_all
  unfold issue
  rw [issueFault_none h]
  simp only [hl]
  rfl

theorem issue_done {n : Need} {f : State → Act} {s t : State} (h : mayIssue n s = true) (hf : f s.cleared = .done t) :
    issue n f s = .next (t.retire n s.nextPc) := by rw [issue_eq h, hf]

theorem issue_go {n : Need} {f : State → Act} {s t : State} {pc : Word} (h : mayIssue n s = true) (hf : f s.cleared = .go t pc) :
    issue n f s = .next (t.retire n pc) := by rw [issue_eq h, hf]

theorem issue_stay {n : Need} {f : State → Act} {s t : State} (h : mayIssue n s = true) (hf : f s.cleared = .stay t) :
    issue n f s = .next t := by rw [issue_eq h, hf]

theorem issue_wait {n : Need} {f : State → Act} {s : State} {k : Park} (h : mayIssue n s = true) (hf : f s.cleared = .wait k) :
    issue n f s = .next (s.hold k) := by rw [issue_eq h, hf]

theorem issue_trap {n : Need} {f : State → Act} {s : State} {code : BitVec 8} {addr info : Word} (h : mayIssue n s = true)
    (hf : f s.cleared = .trap code addr info) : issue n f s = .next (s.trapOrHold code addr info) := by rw [issue_eq h, hf]

/-- An instruction that the issue stage refuses, with no branch unresolved, traps whatever it is (R353, R358). -/
theorem issue_fault {n : Need} {f : State → Act} {s : State} {code : BitVec 8} {info : Word} (h : issueFault n s = some (code, info))
    (hb : s.me.branches = []) : issue n f s = .next (s.issueTrap code 0 info) := by
  simp [issue, h, State.trapOrHold, hb]

/-- An issue always answers a next state. -/
theorem issue_next (n : Need) (f : State → Act) (s : State) : ∃ t, issue n f s = .next t := ⟨_, rfl⟩

/-! ## Retirement -/

@[simp] theorem State.retire_me (s : State) (n : Need) (pc : Word) : (s.retire n pc).me = s.me.retired n s.rtime.toNat s.cur.mark pc := by
  simp [State.retire]
@[simp] theorem State.retire_mem (s : State) (n : Need) (pc : Word) : (s.retire n pc).mem = s.mem := rfl

theorem Slot.mark_pc (x : Slot) (n : Nat) : (x.mark n).pc = x.pc := by unfold Slot.mark; split <;> rfl
theorem Slot.mark_g (x : Slot) (n : Nat) : (x.mark n).g = x.g := by unfold Slot.mark; split <;> rfl

theorem foldl_wait_pc (l : List Reg) (x : Slot) : (l.foldl Slot.wait x).pc = x.pc := by
  induction l generalizing x with
  | nil => rfl
  | cons r l ih => simp [ih]

theorem foldl_wait_g (l : List Reg) (x : Slot) : (l.foldl Slot.wait x).g = x.g := by
  induction l generalizing x with
  | nil => rfl
  | cons r l ih => simp [ih]

theorem foldl_wait_park (l : List Reg) (x : Slot) : (l.foldl Slot.wait x).park = x.park := by
  induction l generalizing x with
  | nil => rfl
  | cons r l ih => simp [ih]

/-- The slot goes on at pc. -/
theorem Slot.retired_pc (x : Slot) (n : Need) (now : Nat) (mark : Bool) (pc : Word) : (x.retired n now mark pc).pc = pc := by
  unfold Slot.retired
  simp only
  split
  · rfl
  · split
    · simp [Slot.mark_pc]
    · rfl

/-- Retirement writes no general register. -/
theorem Slot.retired_g (x : Slot) (n : Need) (now : Nat) (mark : Bool) (pc : Word) : (x.retired n now mark pc).g = x.g := by
  have hy : (if n.var then n.ws.foldl Slot.wait x else x).g = x.g := by split <;> simp [foldl_wait_g]
  unfold Slot.retired
  simp only
  split
  · exact hy
  · split
    · rw [Slot.mark_g]; exact hy
    · exact hy

end Sys2Proof.Machine
end

