-- ==== Sys2Proof/Laws/Traps.lean ====
section
/-! SUPPORT. Parks, records, traps, and the ends of accesses and commands write no memory; accesses of the host and of peers keep its form. -/

namespace Sys2Proof.Machine

open Sys2Proof

theorem foldl_mem {α : Type} (l : List α) (f : State → α → State) (h : ∀ s a, (f s a).mem = s.mem) (s : State) :
    (l.foldl f s).mem = s.mem := by
  induction l generalizing s with
  | nil => rfl
  | cons a l ih => simp [ih, h]

@[simp] theorem State.event_mem (s : State) (c k t : Nat) (a : Word) : (s.event c k t a).mem = s.mem := by unfold State.event; rfl
@[simp] theorem State.park_mem (s : State) (c t : Nat) (k : Park) : (s.park c t k).mem = s.mem := rfl
@[simp] theorem State.hold_mem (s : State) (k : Park) : (s.hold k).mem = s.mem := rfl
@[simp] theorem State.record_mem (s : State) (r : FaultRec) : (s.record r).mem = s.mem := rfl
@[simp] theorem State.queueTrap_mem (s : State) (c t : Nat) (tr : Trap) : (s.queueTrap c t tr).mem = s.mem := rfl

@[simp] theorem State.stopJob_mem (s : State) (c st : Nat) : (s.stopJob c st).mem = s.mem := by
  unfold State.stopJob; split <;> simp

@[simp] theorem State.halt_mem (s : State) (d : Nat) (tr : Option Trap) : (s.halt d tr).mem = s.mem := by
  unfold State.halt; split <;> simp

@[simp] theorem State.haltAll_mem (s : State) (c : Nat) (own : List (Nat × Trap)) : (s.haltAll c own).mem = s.mem := by
  unfold State.haltAll; simp only [State.stopJob_mem]; exact foldl_mem _ _ (by simp) _

@[simp] theorem State.undelivered_mem (s : State) (c t : Nat) (tr : Trap) : (s.undelivered c t tr).mem = s.mem := by
  unfold State.undelivered; split <;> simp

@[simp] theorem State.brkStop_mem (s : State) (c t : Nat) : (s.brkStop c t).mem = s.mem := by
  unfold State.brkStop; exact foldl_mem _ _ (by simp) _

@[simp] theorem State.abortAt_mem (s : State) (d t : Nat) (tr : Trap) (own : Bool) : (s.abortAt d t tr own).mem = s.mem := by
  unfold State.abortAt; simp

@[simp] theorem State.beginAbort_mem (s : State) (c t : Nat) (tr : Trap) (own : List (Nat × Trap)) : (s.beginAbort c t tr own).mem = s.mem := by
  unfold State.beginAbort
  refine foldl_mem _ _ (fun s d => ?_) _
  split <;> simp

@[simp] theorem State.unqueue_mem (s : State) (c : Nat) (who : Parker) : (s.unqueue c who).mem = s.mem := rfl
@[simp] theorem State.undo_mem (s : State) (c t : Nat) : (s.undo c t).mem = s.mem := by unfold State.undo; simp
@[simp] theorem State.gangUndone_mem (s : State) (e : Nat) : (s.gangUndone e).mem = s.mem := by unfold State.gangUndone; simp

@[simp] theorem State.freeSlot_mem (s : State) (c t : Nat) : (s.freeSlot c t).mem = s.mem := by
  unfold State.freeSlot; simp only; split <;> simp

@[simp] theorem State.routineFault_mem (s : State) (c : Nat) (tr : Trap) : (s.routineFault c tr).mem = s.mem := by
  unfold State.routineFault; simp

/-- A gang's traps write no memory (R357). -/
@[simp] theorem State.takeGang_mem (s : State) (own : List (Nat × Trap)) : (s.takeGang own).mem = s.mem := by
  unfold State.takeGang
  split
  · rfl
  · have h := fun (l : List Nat) (s : State) => foldl_mem l State.gangUndone (by simp) s
    simp only
    split
    · simp [h]
    · split <;> simp [h]

/-- Taking a trap writes no memory (R355, R357). -/
@[simp] theorem State.takeTrap_mem (s : State) (c t : Nat) (tr : Trap) : (s.takeTrap c t tr).mem = s.mem := by
  unfold State.takeTrap
  split
  · simp
  · simp only
    split
    · simp
    · split <;> split <;> (try split) <;> simp

@[simp] theorem State.issueTrap_mem (s : State) (code : BitVec 8) (a i : Word) : (s.issueTrap code a i).mem = s.mem := by
  unfold State.issueTrap; simp

@[simp] theorem State.trapOrHold_mem (s : State) (code : BitVec 8) (a i : Word) : (s.trapOrHold code a i).mem = s.mem := by
  unfold State.trapOrHold; split <;> simp

@[simp] theorem State.endTlbPark_mem (s : State) (c t id : Nat) : (s.endTlbPark c t id).mem = s.mem := rfl
@[simp] theorem State.finishAcc_mem (s : State) (c t : Nat) (a : Access) (v : Word) : (s.finishAcc c t a v).mem = s.mem := by
  unfold State.finishAcc; simp
@[simp] theorem State.abandonAcc_mem (s : State) (c t : Nat) (a : Access) : (s.abandonAcc c t a).mem = s.mem := by
  unfold State.abandonAcc; simp
@[simp] theorem State.refuseAcc_mem (s : State) (c t : Nat) (a : Access) (d : Deny) : (s.refuseAcc c t a d).mem = s.mem := by
  unfold State.refuseAcc; simp

@[simp] theorem State.leave_mem (s : State) (c e : Nat) (m : Cmd) (n : Nat) : (s.leave c e m n).mem = s.mem := by
  unfold State.leave; simp
@[simp] theorem State.finishCmd_mem (s : State) (c e : Nat) (m : Cmd) : (s.finishCmd c e m).mem = s.mem := by
  unfold State.finishCmd; simp
@[simp] theorem State.dropCmd_mem (s : State) (c e : Nat) (m : Cmd) : (s.dropCmd c e m).mem = s.mem := by
  unfold State.dropCmd; split <;> simp
@[simp] theorem State.refuseCmd_mem (s : State) (c e : Nat) (m : Cmd) (va : Word) (acc : Nat) (d : Deny) :
    (s.refuseCmd c e m va acc d).mem = s.mem := by unfold State.refuseCmd; simp
@[simp] theorem State.beginCmd_mem (s : State) (c e : Nat) (m : Cmd) : (s.beginCmd c e m).mem = s.mem := rfl
@[simp] theorem State.setCmd_mem (s : State) (c e : Nat) (m : Cmd) : (s.setCmd c e m).mem = s.mem := rfl

/-! ## Bytes written -/

theorem State.writeAt_mem (s : State) (p : Place) (bs : List Byte) : (s.writeAt p bs).mem = Memory.writeBytes s.mem p.key bs := by
  unfold State.writeAt; simp only; split <;> rfl

theorem State.countLanding_mem (s : State) (d o n : Nat) : (s.countLanding d o n).mem = s.mem := by
  unfold State.countLanding
  refine foldl_mem _ _ ?_ _
  intro s i
  split <;> simp

theorem State.writeThrough_mem (s : State) (a : Word) (p : Place) (bs : List Byte) :
    (s.writeThrough a p bs).mem = Memory.writeBytes s.mem p.key bs := by
  unfold State.writeThrough
  simp only
  split <;> simp [State.writeAt_mem, State.countLanding_mem]

theorem State.setCoreWord_mem (s : State) (c off : Nat) (v : Word) :
    (s.setCoreWord c off v).mem = Memory.writeN s.mem (coreKey c off) 8 v.toNat := rfl

/-- The data part of an access keeps the canonical form. -/
theorem State.dataPart_wf (s : State) (a : Access) (p : Place) (h : Memory.wf s.mem = true) : Memory.wf (s.dataPart a p).1.mem = true := by
  unfold State.dataPart
  simp only
  split <;> first
    | exact h
    | (simp only [State.writeThrough_mem]; exact Memory.wf_writeBytes _ _ _ h)

/-! ## Accesses of the host, of peers and of the device (R248, R317, R332) -/

@[simp] theorem State.enqueue_mem (s : State) (id : Nat) (q : Parked) : (s.enqueue id q).mem = s.mem := rfl
@[simp] theorem State.readOut_mem (s : State) (p : Option Nat) (k n : Nat) : (s.readOut p k n).mem = s.mem := rfl
@[simp] theorem State.devLatch_mem (s : State) (l k : Nat) : (s.devLatch l k).mem = s.mem := rfl
@[simp] theorem State.parkOther_mem (s : State) (who : Parker) (k : Nat) (w : Bool) : (s.parkOther who k w).mem = s.mem := by
  unfold State.parkOther; split <;> [skip; rfl]; split <;> simp

theorem State.writeAt_wf (s : State) (p : Place) (bs : List Byte) (h : Memory.wf s.mem = true) : Memory.wf (s.writeAt p bs).mem = true := by
  rw [State.writeAt_mem]; exact Memory.wf_writeBytes bs s.mem p.key h

theorem State.hostPerform_wf (s : State) (a : HostAccess) (h : Memory.wf s.mem = true) : Memory.wf (s.hostPerform a).mem = true := by
  unfold State.hostPerform; split <;> [exact s.writeAt_wf _ _ h; simpa using h]

theorem State.hostArrive_wf (s : State) (a : HostAccess) (h : Memory.wf s.mem = true) : Memory.wf (s.hostArrive a).mem = true := by
  simp only [State.hostArrive]
  split <;> [exact h; skip]
  split <;> [exact s.hostPerform_wf a h; skip]
  split <;> [exact h; simpa using h]

/-- Serving waiting host accesses keeps memory canonical, whatever they are. -/
theorem State.hostServe_wf (l : List HostAccess) (s : State) (h : Memory.wf s.mem = true) : Memory.wf (s.hostServe l).mem = true := by
  induction l generalizing s with
  | nil => exact h
  | cons a r ih =>
    simp only [State.hostServe]
    refine ih _ ?_
    split <;> [exact h; exact s.hostArrive_wf a h]

theorem State.peerOp_wf (s : State) (p : Nat) (op : FabricOp) (h : Memory.wf s.mem = true) : Memory.wf (s.peerOp p op).mem = true := by
  unfold State.peerOp
  split
  · split <;> simpa using h
  · split <;> [exact s.writeAt_wf _ _ h; exact h]
  · have keep (b : Bool) (t : State) (ht : Memory.wf t.mem = true) : Memory.wf (if b = true then s else t).mem = true := by cases b <;> simpa
    exact keep _ _ (s.writeAt_wf _ _ h)

/-- Serving a port's operations keeps memory canonical, wherever they stop. -/
theorem State.peerOps_wf (l : List FabricOp) (s : State) (p : Nat) (h : Memory.wf s.mem = true) : Memory.wf (s.peerOps p l).1.mem = true := by
  induction l generalizing s with
  | nil => exact h
  | cons op r ih =>
    simp only [State.peerOps]
    split <;> [exact ih _ (State.peerOp_wf _ p op (by simpa using h)); skip]
    split <;> [exact h; skip]
    split <;> [exact ih s h; skip]
    simp only [State.peerPark]
    split <;> [simpa using h; exact h]

/-! ## Entering a queue -/

/-- A command that no fence holds and whose queue has room enters it (R13). -/
theorem enter_done {e : Nat} {i : Instr} {args : List Word} {s : State} (h1 : s.me.fenced = false) (h3 : (tget s.mine.queue e []).length < Config.queueDepth) :
    enter e i args s = .done (s.putCmd e i args) := by
  unfold enter
  simp [h1, Nat.not_le.mpr h3]

end Sys2Proof.Machine
end

