-- ==== Sys2Proof/Tests/Slice0.lean ====
section
/-! SUPPORT. Tests: refused terms, words written from the encoding tables, small results, and a witness for every statement with hypotheses. -/

namespace Sys2Proof.Tests

open Sys2Proof Sys2Proof.Machine Sys2Proof.Safety

section
set_option Elab.async false

/-! ## Ill-formed terms: each check of WellFormed refuses one -/

def refuses (is : List Instr) : Bool := is.all (fun i => !i.wf)

/-- A page-1 operand with a given offset and order. -/
def mop (off : Word) (order : BitVec 2) : MemOp := ⟨5, 0, off, 0, 0, order⟩

/-- R89, R90, R111: an immediate wider than its prefixes hold. -/
theorem test_ill_immediates : refuses
    [.add 3 3 (.imm (2 ^ 36)), .add 3 4 (.imm (2 ^ 28)), .mov 3 (.imm (2 ^ 36)), .addi 3 (2 ^ 36), .li 3 (2 ^ 36), .bz 3 (2 ^ 36), .bnz 3 (2 ^ 36), .bltz 3 (2 ^ 36),
     .bgez 3 (2 ^ 36), .j (2 ^ 41), .jal (2 ^ 41), .vand 1 1 (.imm (2 ^ 28)), .vor 1 2 (.imm (2 ^ 20)), .vxor 1 1 (.imm (2 ^ 28))] = true := by decide +kernel

/-- R86, R90, R93: page-1 offsets, and the reserved order 3. -/
theorem test_ill_memory : refuses
    [.ld64 4 (mop 0 3), .st8 4 (mop (2 ^ 23) 0), .ld8s 4 ⟨5, 6, 2 ^ 15 - 1 + 1, 1, 0, 0⟩, .ld8s 4 { mop (2 ^ 15) 1 with idx := 1 },
     .aadd 4 (mop (2 ^ 15) 0) true, .afadd 4 (mop 0 3), .fence 0 0, .fence 3 0, .pref 5 0 (2 ^ 23), .pref 5 6 (2 ^ 15), .vamo 3 (mop 0 0) 7, .vamo 3 (mop (2 ^ 15) 0) 1,
     .vld 2 5 0 (2 ^ 23), .vst 2 5 6 (2 ^ 15), .vlds .i8 2 5 6 (2 ^ 15), .vsts .i32 2 5 6 (2 ^ 7)] = true := by decide +kernel

/-- R63, R64, R172 to R187: what a vector instruction's type, flags, lane, part and function may be. -/
theorem test_ill_vector : refuses
    [.vext .i64 7 3 (.imm 8), .vins .n32 7 3 (.imm 16), .vadd .sf32 true 1 1 (.reg 3), .vadd .hf16 false 1 1 (.imm 3), .vmul .i32 true true 1 1 (.reg 3),
     .vmul .bf16 false true 1 1 (.reg 3), .vsub .i32 false 1 1 (.imm (2 ^ 20)), .vabs .n8 true 1 3, .vneg .n32 true 1 3, .vshl .sf32 false 1 1 (.reg 3), .vshr .sf32 1 1 (.reg 3),
     .vsar .bf16 1 1 (.reg 3), .vcmp .i32 5 0 1 2, .vcvt .n8 .n32 4 1 2, .vcvt .sf32 .i64 0 1 2, .vcvt .i32 .n32 1 1 2, .vcvt .sf32 .i32 4 1 2, .vwadd .sf32 false 0 1 1 2,
     .vwadd .i16 false 2 1 1 2, .vwadd .hf16 true 0 1 1 2, .vscan .i32 false 3 1 2 none, .vred .i32 true 1 1 2 none, .vscan .sf32 true 0 1 2 none, .vmath .i32 0 1 2,
     .vmath .sf32 5 1 2] = true := by decide +kernel

/-- R192, R204, R217, R250: the other pages. -/
theorem test_ill_others : refuses
    [.mld 3 8 (2 ^ 23), .mldt 3 8 (2 ^ 23), .mst 3 8 (2 ^ 23) false, .mst 3 8 (2 ^ 15) true, .mrow true 3 4 0, .cpy2 4 5 false 1, .rxopen 1 false false 4 5, .bred 4 3 5,
     .stx 0 4 5 none] = true := by decide +kernel

/-! ## Words written from the spec's encoding tables (R85 to R104) -/

/-- The words, followed by a zero word, decode to the instruction, and no more words than those belong to it; the encoder gives the same words. -/
def reads (p : List Half × Instr) : Bool :=
  match decode (p.1 ++ [0]) with
  | .ok d => d.instr == p.2 && d.words == p.1.length && encode d.mark p.2 == p.1
  | .error _ => false

/-- The words are refused with this reason (R358, R359). -/
def refused (p : List Half × DecErr) : Bool :=
  match decode (p.1 ++ [0]) with
  | .ok _ => false
  | .error e => e == p.2


theorem test_decode_page0_misc : ([
  ([0x0000], .nop),
  ([0x0020], .yield),
  ([0x0040], .stop),
  ([0x0060], .brk),
  ([0x0086], .pause 6),
  ([0x00A5], .trap 5),
  ([0x00C0], .eret),
  ([0x00E0], .fret),
  ([0x7CFF, 0x047F], .mov 3 (.imm (BitVec.ofInt 64 (-1)))),
  ([0x7D40, 0x08E9], .add 7 8 (.reg 9)),
  ([0x0CE9], .sub 7 7 (.reg 9)),
  ([0x7D40, 0x7C7F, 0x10FF], .and 7 8 (.imm 4095)),
  ([0x14E9], .or 7 7 (.reg 9)),
  ([0x18E9], .xor 7 7 (.reg 9)),
  ([0x7C01, 0x1CB8], .shl 5 5 (.imm 56)),
  ([0x7C00, 0x20A3], .shr 5 5 (.imm 3)),
  ([0x24A3], .sar 5 5 (.reg 3))] : List (List Half × Instr)).all reads = true := by decide +kernel

theorem test_decode_page0_arith : ([
  ([0x7D10, 0x2823], .mul 1 2 (.reg 3)),
  ([0x7D10, 0x2C23], .mulhs 1 2 (.reg 3)),
  ([0x7D10, 0x3023], .mulhn 1 2 (.reg 3)),
  ([0x3464], .divs 3 3 (.reg 4)),
  ([0x3864], .divn 3 3 (.reg 4)),
  ([0x3C64], .rems 3 3 (.reg 4)),
  ([0x4064], .remn 3 3 (.reg 4)),
  ([0x7D40, 0x7CFF, 0x44FF], .slt 7 8 (.imm (BitVec.ofInt 64 (-1)))),
  ([0x4864], .sltn 3 3 (.reg 4)),
  ([0x7CFE, 0x4C98], .addi 4 (BitVec.ofInt 64 (-40))),
  ([0x7C09, 0x7C1A, 0x7C2B, 0x5087], .li 4 0x01234567),
  ([0x5485], .mix32 4 5),
  ([0x5885], .clz 4 5),
  ([0x5C85], .popc 4 5)] : List (List Half × Instr)).all reads = true := by decide +kernel

theorem test_decode_page0_flow : ([
  ([0x609F], .bz 4 (BitVec.ofInt 64 (-1))),
  ([0x6482], .bnz 4 2),
  ([0x7C01, 0x6880], .bltz 4 32),
  ([0x6C8F], .bgez 4 15),
  ([0x7CFF, 0x71A8], .j (BitVec.ofInt 64 (-600))),
  ([0x7407], .jal 7),
  ([0x7BE0], .jr 31),
  ([0x78C1], .jalr 6)] : List (List Half × Instr)).all reads = true := by decide +kernel

theorem test_decode_page1_mem : ([
  ([0x7CF8, 0x7E01, 0x0085], .ld8s 4 ⟨5, 0, (BitVec.ofInt 64 (-8)), 0, 0, 0⟩),
  ([0x7CF8, 0x7E01, 0x0485], .ld8n 4 ⟨5, 0, (BitVec.ofInt 64 (-8)), 0, 0, 0⟩),
  ([0x7CF8, 0x7E01, 0x0885], .ld16s 4 ⟨5, 0, (BitVec.ofInt 64 (-8)), 0, 0, 0⟩),
  ([0x7CF8, 0x7E01, 0x0C85], .ld16n 4 ⟨5, 0, (BitVec.ofInt 64 (-8)), 0, 0, 0⟩),
  ([0x7CF8, 0x7E01, 0x1085], .ld32s 4 ⟨5, 0, (BitVec.ofInt 64 (-8)), 0, 0, 0⟩),
  ([0x7CF8, 0x7E01, 0x1485], .ld32n 4 ⟨5, 0, (BitVec.ofInt 64 (-8)), 0, 0, 0⟩),
  ([0x7CF8, 0x7E01, 0x1885], .ld64 4 ⟨5, 0, (BitVec.ofInt 64 (-8)), 0, 0, 0⟩),
  ([0x7CF8, 0x7E01, 0x1C85], .st8 4 ⟨5, 0, (BitVec.ofInt 64 (-8)), 0, 0, 0⟩),
  ([0x7CF8, 0x7E01, 0x2085], .st16 4 ⟨5, 0, (BitVec.ofInt 64 (-8)), 0, 0, 0⟩),
  ([0x7CF8, 0x7E01, 0x2485], .st32 4 ⟨5, 0, (BitVec.ofInt 64 (-8)), 0, 0, 0⟩),
  ([0x7CF8, 0x7E01, 0x2885], .st64 4 ⟨5, 0, (BitVec.ofInt 64 (-8)), 0, 0, 0⟩),
  ([0x7D30, 0x7C04, 0x7E01, 0x14E5], .ld32n 7 ⟨5, 6, 4, 0, 0, 0⟩),
  ([0x7F09, 0x7C08, 0x7E01, 0x28C5], .st64 6 ⟨5, 0, 8, 0, 2, 1⟩),
  ([0x7FD0, 0x7E01, 0x1885], .ld64 4 ⟨5, 0, 0, 13, 0, 0⟩)] : List (List Half × Instr)).all reads = true := by decide +kernel

theorem test_decode_page1_atomics : ([
  ([0x7D30, 0x7F0C, 0x7E01, 0x2C85], .aadd 4 ⟨5, 6, 0, 0, 3, 0⟩ false),
  ([0x7D30, 0x7F0C, 0x7E01, 0x3085], .aand 4 ⟨5, 6, 0, 0, 3, 0⟩ false),
  ([0x7D30, 0x7F0C, 0x7E01, 0x3485], .aor 4 ⟨5, 6, 0, 0, 3, 0⟩ false),
  ([0x7D30, 0x7F0C, 0x7E01, 0x3885], .axor 4 ⟨5, 6, 0, 0, 3, 0⟩ false),
  ([0x7D30, 0x7F0C, 0x7E01, 0x3C85], .amins 4 ⟨5, 6, 0, 0, 3, 0⟩ false),
  ([0x7D30, 0x7F0C, 0x7E01, 0x4085], .amaxs 4 ⟨5, 6, 0, 0, 3, 0⟩ false),
  ([0x7D30, 0x7F0C, 0x7E01, 0x4485], .aminn 4 ⟨5, 6, 0, 0, 3, 0⟩ false),
  ([0x7D30, 0x7F0C, 0x7E01, 0x4885], .amaxn 4 ⟨5, 6, 0, 0, 3, 0⟩ false),
  ([0x7D30, 0x7F0C, 0x7E01, 0x4C85], .aswp 4 ⟨5, 6, 0, 0, 3, 0⟩ false),
  ([0x7D30, 0x7F0C, 0x7E01, 0x5085], .acas 4 ⟨5, 6, 0, 0, 3, 0⟩ false),
  ([0x7D01, 0x7F09, 0x7E01, 0x2C85], .aadd 4 ⟨5, 0, 0, 0, 2, 1⟩ true),
  ([0x7D30, 0x7F0A, 0x7E01, 0x5085], .acas 4 ⟨5, 6, 0, 0, 2, 2⟩ false),
  ([0x7E01, 0x5485], .afadd 4 ⟨5, 0, 0, 0, 0, 0⟩),
  ([0x7E01, 0x5885], .afmaxa 4 ⟨5, 0, 0, 0, 0, 0⟩)] : List (List Half × Instr)).all reads = true := by decide +kernel

theorem test_decode_page1_order : ([
  ([0x7F0E, 0x7E01, 0x5C00], .fence 2 3),
  ([0x7E01, 0x6122], .tlget 9 2),
  ([0x7E01, 0x6448], .tlwait 2 8),
  ([0x7E01, 0x6908], .ewait 0 2 8),
  ([0x7D30, 0x7C40, 0x7E01, 0x6C05], .pref 5 6 64),
  ([0x7D02, 0x7F08, 0x7E01, 0x7065], .vamo 3 ⟨5, 0, 0, 0, 2, 0⟩ 2)] : List (List Half × Instr)).all reads = true := by decide +kernel

theorem test_decode_page2_move : ([
  ([0x7C40, 0x7E02, 0x0045], .vld 2 5 0 64),
  ([0x7D30, 0x7E02, 0x0445], .vst 2 5 6 0),
  ([0x7D30, 0x7F40, 0x7E02, 0x0845], .vlds .i32 2 5 6 0),
  ([0x7D30, 0x7F20, 0x7C02, 0x7E02, 0x0C45], .vsts .i16 2 5 6 2),
  ([0x7D30, 0x7F40, 0x7E02, 0x1043], .vgatl .i32 2 3 6),
  ([0x7D30, 0x7F40, 0x7E02, 0x1443], .vsctl .i32 2 3 6),
  ([0x7F10, 0x7E02, 0x1806], .vbcst .n8 0 6),
  ([0x7F50, 0x7C05, 0x7E02, 0x1CE3], .vext .n32 7 3 (.imm 5)),
  ([0x7D48, 0x7F50, 0x7E02, 0x20E3], .vins .n32 7 3 (.reg 9)),
  ([0x7E02, 0x24E3], .vmov 7 3)] : List (List Half × Instr)).all reads = true := by decide +kernel

theorem test_decode_page2_lanes : ([
  ([0x7D10, 0x7F41, 0x7E02, 0x2823], .vadd .i32 true 1 2 (.reg 3)),
  ([0x7D10, 0x7F41, 0x7E02, 0x2C23], .vsub .i32 true 1 2 (.reg 3)),
  ([0x7F32, 0x7E02, 0x3023], .vmul .n16 false true 1 1 (.reg 3)),
  ([0x7F90, 0x7E02, 0x3423], .vfma .sf32 false 1 1 (.reg 3)),
  ([0x7F10, 0x7C07, 0x7E02, 0x383F], .vmin .n8 false 1 1 (.imm 255)),
  ([0x7F80, 0x7E02, 0x3C23], .vmax .hf16 false 1 1 (.reg 3)),
  ([0x7F61, 0x7E02, 0x4023], .vabs .i64 true 1 3),
  ([0x7E02, 0x4423], .vneg .i8 false 1 3),
  ([0x7D10, 0x7E02, 0x4823], .vand 1 2 (.reg 3)),
  ([0x7D10, 0x7E02, 0x4C23], .vor 1 2 (.reg 3)),
  ([0x7D10, 0x7E02, 0x5023], .vxor 1 2 (.reg 3)),
  ([0x7F41, 0x7C00, 0x7E02, 0x5423], .vshl .i32 true 1 1 (.imm 3)),
  ([0x7F40, 0x7E02, 0x5823], .vshr .i32 1 1 (.reg 3)),
  ([0x7F40, 0x7E02, 0x5C23], .vsar .i32 1 1 (.reg 3))] : List (List Half × Instr)).all reads = true := by decide +kernel

theorem test_decode_page2_shape : ([
  ([0x7D14, 0x7F40, 0x7E02, 0x6001], .vcmp .i32 4 0 1 2),
  ([0x7D18, 0x7E02, 0x6422], .vsel .i8 1 2 3),
  ([0x7D02, 0x7F15, 0x7E02, 0x6881], .vcvt .n8 .n32 2 4 1),
  ([0x7D11, 0x7F21, 0x7E02, 0x6C23], .vwadd .i16 true 1 1 2 3),
  ([0x7D1C, 0x7F50, 0x7E02, 0x7062], .vscan .n32 false 0 3 2 (some 3)),
  ([0x7D02, 0x7F50, 0x7E02, 0x7443], .vred .n32 false 2 2 3 none),
  ([0x7D20, 0x7F40, 0x7E02, 0x7843], .vperm .i32 2 3 4),
  ([0x7D03, 0x7F90, 0x7E02, 0x7CA6], .vmath .sf32 3 5 6)] : List (List Half × Instr)).all reads = true := by decide +kernel

theorem test_decode_page3_all : ([
  ([0x7D38, 0x7E03, 0x0066], .mma 3 6 7),
  ([0x7D38, 0x7E03, 0x0466], .mmaj 3 6 7),
  ([0x7C40, 0x7E03, 0x0868], .mld 3 8 64),
  ([0x7E03, 0x0C68], .mldt 3 8 0),
  ([0x7E03, 0x1068], .mst 3 8 0 false),
  ([0x7D01, 0x7E03, 0x1068], .mst 3 8 0 true),
  ([0x7E03, 0x1460], .mzero 3),
  ([0x7D01, 0x7C05, 0x7E03, 0x1843], .mrow true 2 3 5),
  ([0x7E03, 0x1C80], .mprog 4),
  ([0x7E03, 0x2060], .talloc 3 false),
  ([0x7E03, 0x2460], .tfree 3),
  ([0x7E03, 0x2881], .mstat 4 true)] : List (List Half × Instr)).all reads = true := by decide +kernel

theorem test_decode_page4_copy : ([
  ([0x7D30, 0x7E04, 0x0085], .cpy 4 5 6),
  ([0x7D05, 0x7E04, 0x0485], .cpy2 4 5 true 2),
  ([0x7D30, 0x7E04, 0x0885], .cpym 4 5 6),
  ([0x7D30, 0x7E04, 0x0C85], .cfill 4 5 6),
  ([0x7E04, 0x1085], .cprog 4 5),
  ([0x7D0B, 0x7E04, 0x1485], .rxopen 1 true true 4 5),
  ([0x7E04, 0x1820], .rxclose 1),
  ([0x7E04, 0x1C81], .rxcnt 4 1)] : List (List Half × Instr)).all reads = true := by decide +kernel

theorem test_decode_page4_ports : ([
  ([0x7C07, 0x7E04, 0x2085], .rput 4 5 7),
  ([0x7C07, 0x7E04, 0x24C0], .rtake 6 7),
  ([0x7E04, 0x2880], .rpeek 4),
  ([0x7D30, 0x7E04, 0x2C85], .msend 4 5 6),
  ([0x7E04, 0x3085], .mrecv 4 5 0),
  ([0x7E04, 0x3480], .mpoll 4),
  ([0x7D31, 0x7E04, 0x3885], .loopb 4 5 6 true),
  ([0x7D30, 0x7E04, 0x3C45], .xput 2 5 6 0),
  ([0x7C03, 0x7E04, 0x4085], .xputr 4 5 3 0),
  ([0x7E04, 0x4481], .xcnt 4 0)] : List (List Half × Instr)).all reads = true := by decide +kernel

theorem test_decode_page5_all : ([
  ([0x7E05, 0x0066], .arv 3 6),
  ([0x7E05, 0x0467], .waitp 3 7),
  ([0x7E05, 0x0820], .sync 0),
  ([0x7E05, 0x0C83], .bphase 4 3),
  ([0x7D02, 0x7E05, 0x1083], .bred 4 3 2),
  ([0x7E05, 0x1405], .gang 5),
  ([0x7E05, 0x1800], .split),
  ([0x7E05, 0x1CC5], .start 6 5),
  ([0x7E05, 0x2007], .hjoin 7),
  ([0x7E05, 0x2480], .hstat 4),
  ([0x7E05, 0x2885], .freq 4 5),
  ([0x7E05, 0x2C85], .boost 4 5)] : List (List Half × Instr)).all reads = true := by decide +kernel

theorem test_decode_page6_all : ([
  ([0x7E06, 0x0085], .stbind 4 5),
  ([0x7E06, 0x0480], .stdrop 4),
  ([0x7D30, 0x7F10, 0x7E06, 0x0885], .stx 1 4 5 (some 6)),
  ([0x7D01, 0x7E06, 0x0CC4], .stget 6 4 true),
  ([0x7E06, 0x1085], .stload 4 5),
  ([0x7C03, 0x7E06, 0x1404], .gate 100),
  ([0x7E06, 0x1800], .gret),
  ([0x7E06, 0x1C85], .flddef 4 5),
  ([0x7E06, 0x2086], .fldrun 4 6),
  ([0x7E06, 0x2486], .fldhold 4 6),
  ([0x7D38, 0x7E06, 0x2886], .fldsnap 4 6 (some 7)),
  ([0x7E06, 0x2D04], .fldstat 8 4),
  ([0x7E06, 0x3080], .flddrop 4)] : List (List Half × Instr)).all reads = true := by decide +kernel

theorem test_decode_page7_all : ([
  ([0x7C02, 0x7E07, 0x0092], .csrr 4 0x052),
  ([0x7C01, 0x7E07, 0x0480], .csrw 0x020 4 0),
  ([0x7D30, 0x7C01, 0x7E07, 0x0880], .csrs 0x020 4 6),
  ([0x7C01, 0x7E07, 0x0C80], .csrc 0x020 4 0),
  ([0x7E07, 0x1085], .tlbfill 4 5),
  ([0x7E07, 0x1485], .tlbinv 4 5),
  ([0x7E07, 0x1885], .replay 4 5),
  ([0x7E07, 0x1C85], .gtwrite 4 5),
  ([0x7E07, 0x2005], .domsw 5),
  ([0x7C01, 0x7E07, 0x2509], .spill 40 9),
  ([0x7C01, 0x7E07, 0x2928], .fill 9 40)] : List (List Half × Instr)).all reads = true := by decide +kernel

/-- R86 to R88, R105, R358: reserved encodings, one for each reason. -/
theorem test_refused_words : ([
  ([0xFC00], .chain 0 1), ([0x7C00, 0x7C00, 0x7C00, 0x7C00, 0x7C00], .chain 1 5), ([0x7D08, 0x7D08, 0x0864], .chain 2 2), ([0x7E00, 0x7E01, 0], .chain 3 2), ([0x7E01, 0x7E01], .illegal 0 1 31),
  ([0x7F00, 0x7F00, 0x0864], .chain 4 2), ([0x7E08, 0x0864], .chain 5 1), ([0x0100], .illegal 0 0 0), ([0x7D08, 0x0000], .illegal 1 0 0), ([0x0001], .illegal 3 0 0),
  ([0x7D09, 0x0864], .illegal 2 0 2), ([0x7F03, 0x7E01, 0x1885], .illegal 3 1 6), ([0x7F40, 0x7E02, 0x2A23], .illegal 4 2 10), ([0x7E03, 0x1660], .illegal 4 3 5)] :
    List (List Half × DecErr)).all refused = true := by decide +kernel


/-! ## Small states -/

/-- General registers from a list. -/
def rg (l : List (Nat × Word)) : Vector Word 32 := Vector.ofFn (fun i => (l.lookup i.val).getD 0)

/-- A thread of a job whose code region is the whole self window. -/
def live : Slot :=
  { Slot.reset with mode := .live, dom := 0, pc := 0x0F00000000000000, codebase := 0x0F00000000000000, codelim := 0x0F00000000080000
                    g := rg [(4, 64), (5, 0x0F00000000001000), (6, 3), (7, BitVec.allOnes 64), (8, 1)] }

/-- A running core of a job of two cores. -/
def one : Core := { Core.reset with phase := .running, job := some 1, jobgrid := 0x01020000, slots := [(0, live)], det := true }

/-- Its job. -/
def aJob : Job :=
  { id := 1, queue := 0, num := 1, prio := 0, pkt := [], hdr := [], memb := [0, 0], scheds := [], args := [], dom := 1, asid := 1, key := 0, phase := .running
    tstart := 0, waits := [], save := none, energy := 0, since := 0, worked := 0, preempt := false, draining := false }

/-- The device with those two cores, about to execute an instruction of slot 0 of core 0. -/
def w : State :=
  { State.reset with cores := [(0, one), (1, one)], jobs := [aJob], stage := 7, ready := true
                     cur := { core := 0, slot := 0, pc := 0x0F00000000000000, len := 2, page := 0, op := 0, mark := false, held := false } }

/-- The same with the issuing slot, or the issuing core, changed; or with slot n as the issuing one. -/
def ws (f : Slot → Slot) : State := w.onMe f
def wc (f : Core → Core) : State := w.onMine f
def atSlot (n : Nat) (f : Slot → Slot) : State :=
  (({ w with cur := { w.cur with slot := n } } : State).setSlot 0 n live).onMe f

/-- Whether an outcome is a next state. -/
def goesOn (o : Out State) : Bool := match o with | .next _ => true | _ => false

/-! ## Witnesses: for every statement with hypotheses, states and operands that meet those of each of its clauses together -/

/-- HBM whose row 0 is retired while its stack has no repair and no spare channel left. -/
def spentHbm : State :=
  { State.reset with stage := 1, retired := [rowUnit]
                     hbm := [((hbmPart 0).1, { rows := List.replicate (Config.repairRows (hbmPart 0).1) 1, spare := some ((hbmPart 0).2 + 1) })] }

theorem spentHbm_is_short : spentHbm.hbmShort = true := by
  have hr : spentHbm.badRows = [0] := rfl
  have hh : spentHbm.hbm = [((hbmPart 0).1, { rows := List.replicate (Config.repairRows (hbmPart 0).1) 1, spare := some ((hbmPart 0).2 + 1) })] := rfl
  have h1 : spentHbm.repaired 0 = false := by simp [State.repaired, hh, tget]
  have h2 : spentHbm.repairRow 0 = spentHbm := by simp [State.repairRow, h1, hh, tget]
  simp [State.hbmShort, State.repairHbm, hr, h1, h2]

theorem witness_ResetIsUnready :
    (State.reset.ready = false ∧ State.reset.fail = false ∧ State.reset.stage < 7 ∧ State.reset.bringUpFail = none ∧ State.reset.stage ≠ 6) ∧
    (let s : State := { State.reset with stage := 1 }; s.bringUpFail = none ∧ s.hbmShort = false ∧ ∀ q ∈ ({ State.reset with stage := 2 } : State).seam, q.2.lost = false) ∧
    (let s : State := { State.reset with stage := 6, remap := [(2047, homeEntry 2047)] };
      s.ready = false ∧ s.fail = false ∧ s.stage < 7 ∧ s.bringUpFail = none ∧ s.banksShort = false ∧ ∀ q ∈ s.rebind.remap, q.2.getLsbD 24 = true) ∧
    ([((0, 1, 3) : Nat × Nat × Nat), (1, 2, 4), (5, 6, 7), (6, 7, 5)].all fun x =>
      let s : State := { State.reset with stage := x.1, bringUpFail := some (BitVec.ofNat 4 x.2.1, BitVec.ofNat 4 x.2.2) };
      decide (s.stage < 7 ∧ (BitVec.ofNat 4 x.2.1).toNat = s.stage + 1 ∧ ((BitVec.ofNat 4 x.2.1).toNat, (BitVec.ofNat 4 x.2.2).toNat) ∈
        [(1, 1), (1, 2), (1, 3), (2, 4), (3, 6), (6, 7), (7, 5)])) = true ∧
    (let s : State := { State.reset with stage := 2, seam := [(127, { Link.reset with lost := true })] }; s.bringUpFail = none ∧ ∃ q ∈ s.seam, q.2.lost = true) ∧
    (let s : State := { State.reset with stage := 6, retired := List.range' bankUnit 300 }; s.bringUpFail = none ∧ s.banksShort = true) ∧
    (let s : State := { State.reset with stage := 6, retired := coreUnit :: List.range' (coreUnit + 1024) 64, remap := [(0, 0)] };
      s.bringUpFail = none ∧ s.banksShort = false ∧ ∃ q ∈ s.rebind.remap, q.2.getLsbD 24 = false) ∧
    (spentHbm.stage = 1 ∧ spentHbm.bringUpFail = none ∧ spentHbm.hbmShort = true) :=
  ⟨by decide +kernel, by decide +kernel, by decide +kernel, by decide +kernel, by decide +kernel, by decide +kernel, by decide +kernel, rfl, rfl, spentHbm_is_short⟩

/-- The core whose slot an issuing state fetches from, and the words there. -/
def fetchCore (s : State) : Nat := if s.inGang then (s.gangOf s.cur.core).headD s.cur.core else s.cur.core
def fetchWords (s : State) : List Half :=
  let x := s.slot (fetchCore s) s.cur.slot;
  (((List.range 5).map (fun i => x.pc + BitVec.ofNat 64 (2 * i))).takeWhile (fun a => decide (a.toNat < x.codelim.toNat))).map (fun a => s.coreHalf (fetchCore s) (codeOff a))

/-- Whether an issuing state stands at a legal address whose words are in the code region and not poisoned. -/
def fetches (s : State) : Bool :=
  let c := fetchCore s;
  let x := s.slot c s.cur.slot;
  decide (s.issuing = true ∧ bufferFresh s c x.pc ∧ x.codebase.toNat ≤ x.pc.toNat ∧ x.pc.toNat < x.codelim.toNat ∧ x.pc.toNat % 2 = 0 ∧
    s.poisoned (coreKey c (codeOff x.pc)) (2 * wordsRead (fetchWords s)) = none)

/-- The machine with a gang of cores 0 and 1, its leader about to issue. -/
def ganged : State := { ((w.onCore 0 (fun k => { k with gang := 3 })).onCore 1 (fun k => { k with gang := 3 })) with issuing := true }

/-- What a member keeps of the instruction that it has issued. -/
def aStep : GangStep := { next := 0x0F00000000000004, instr := .split, len := 4, page := 5, op := 6, mark := false }

/-- At the start of the code region, at its last word, and in a gang, whose first member fetches and whose other members follow. -/
theorem witness_StepRunsTheFetchedInstruction :
    ([0x0F00000000000000, 0x0F0000000007FFFE] : List Word).all (fun pc =>
      let s : State := { ws (fun x => { x with pc := pc }) with issuing := true };
      fetches s && !s.inGang && s.gangStep.isNone && (match decode (fetchWords s) with | .ok _ => true | .error _ => false)) = true ∧
    fetches { wc (fun k => { k with ibuf := [(0, w.coreHalf 0 0), (2, w.coreHalf 0 2)] }) with issuing := true } = true ∧
    fetches ganged = true ∧ ganged.inGang = true ∧ ganged.gangStep = none ∧
    (let s := ganged.onCore 1 (fun k => { k with gangDone := some aStep });
      s.issuing = true ∧ s.inGang = true ∧ s.gangStep = some aStep) ∧
    (match decode (fetchWords ganged) with
      | .ok d => (ownTraps d.instr { ganged with issuing := false } ((ganged.gangOf 0).filter (fun e => (ganged.core e).gangDone.isNone))).isEmpty &&
          goesOn (exec d.instr { ganged with issuing := false, cur := { ganged.cur with len := 2 * d.words, page := d.page, op := d.op, mark := d.mark } })
      | .error _ => false) = true := by decide +kernel

theorem witness_EncodeThenDecodeGivesBack :
    (Instr.gate 1023).isStep = false ∧ (Instr.gate 1023).wf = true ∧ (Instr.li 31 (2 ^ 36 - 1)).isStep = false ∧ (Instr.li 31 (2 ^ 36 - 1)).wf = true := by decide

theorem witness_DecodedInstructionIsWellFormed : ∃ d, decode [0x7C00, 0x7C00, 0x7C00, 0x7C00, 0x5087] = .ok d := ⟨_, rfl⟩

theorem witness_MemoryStaysCanonical : memInv State.reset ∧ ∃ t, step State.reset = .next t := ⟨rfl, _, rfl⟩

theorem witness_StoredByteReadsBack :
    Memory.wf [(3, 7), (5, 1)] = true ∧ (4 : Nat) ≠ 3 ∧ ((2 < 3) ∨ 3 + [(0 : Byte), 0].length ≤ 2) ∧ ((5 < 3) ∨ 3 + [(0 : Byte), 0].length ≤ 5) := by decide

theorem witness_OnlyDomainZeroChangesSystemTables :
    let s := ws (fun x => { x with dom := 63 });
    (Instr.domsw 4).isStep = false ∧ s.me.dom ≠ 0 ∧ goesOn (exec (.domsw 4) s) = true := by decide +kernel

theorem witness_HighestLevelIssues :
    ([0] : List Nat).Pairwise (· < ·) ∧ (0 : Nat) < 13 ∧ w.choose 0 [0] = some 0 ∧ ([0] : List Nat) ≠ [] ∧ w.choose 0 [] = none ∧
    0 ∈ w.candidates 0 [0] ∧ (w.core 0).rr[(w.slot 0 0).eff % 4]? = some 0 ∧ (0 : Nat) ≤ 12 ∧
    (let s := wc (fun k => { k with rr := Vector.replicate 4 12 });
      s.choose 0 [0] = some 0 ∧ (s.core 0).rr[(s.slot 0 0).eff % 4]? = some 12) ∧
    (let s := atSlot 12 (fun x => { x with yielded := true });
      ([0, 12] : List Nat).Pairwise (· < ·) ∧ s.choose 0 [0, 12] = some 0 ∧ ∃ u ∈ ([0, 12] : List Nat), (s.slot 0 u).yielded = false) ∧
    (let s : State := { w with cycleOf := some 0 };
      s.issuing = false ∧ s.cycleOf = some 0 ∧ 0 ∈ (List.range 13).filter (s.canTry 0) ∧ (s.slot 0 0).eff ≤ 3) := by decide +kernel

theorem witness_CycleChoosesAndCounts :
    w.cycles 0 = true ∧ w.choose 0 [0, 12] = some 0 ∧ (w.slot 0 0).pauseLeft = 0 ∧ (w.slot 0 12).pauseLeft = 0 ∧
    ((ws (fun x => { x with age := 256 })).slot 0 0).age = 256 ∧
    ((ws (fun x => { x with pauseOver := true })).slot 0 0).pauseOver = true := by decide +kernel

theorem witness_TrapIsDelivered :
    let s := ws (fun x => { x with tvec := 1 });
    (0 : Nat) ≠ 11 ∧ (s.slot 0 0).calls = [] ∧ (s.slot 0 0).tvec.getLsbD 0 = true ∧ (s.slot 0 0).hnd = false ∧ ((0 : Nat) ≠ 0 ∨ (s.core 0).gang = 0) ∧
    (s.slot 0 0).pend = 0 ∧ ((ws (fun x => { x with tvec := 1, pend := 2 })).slot 0 0).pend ≠ 0 := by decide +kernel

/-- A trap of cause 1. -/
def aTrap : Trap := { code := 1, defer := false, page := 0, op := 31, addr := 0, info := 0, fpc := 0, map := none }

theorem witness_UndeliveredTrapStopsTheJob :
    (w.slot 0 0).calls = [] ∧ aTrap.code ≠ 0x17 ∧ (0 : Nat) ≠ 11 ∧ aTrap.map = none ∧ (w.slot 0 0).tvec.getLsbD 0 = false ∧ (w.core 0).gang = 0 ∧
    ((ws (fun x => { x with tvec := 1, hnd := true })).slot 0 0).hnd = true ∧ (w.core 0).job = some 1 ∧ aJob ∈ w.jobs ∧ aJob.id = 1 ∧ aJob.phase = .running := by
  decide +kernel

theorem witness_HandlerReturns :
    (let s := ws (fun x => { x with hnd := true }); mayIssue {} s = true ∧ s.inGang = false ∧ s.me.hnd = true) ∧ mayIssue {} w = true ∧ w.me.hnd = false := by
  decide +kernel

theorem witness_TrapAndBreakInstructions : mayIssue { who := .any } w = true ∧ mayIssue { who := .any } (atSlot 12 id) = true := by decide +kernel

theorem witness_UnsynchronisedRegisterTraps :
    ([Instr.mov 4 (.reg 31), .bz 31 8, .jalr 31, .ld64 4 ⟨31, 5, 0, 0, 0, 0⟩, .st64 31 ⟨4, 5, 0, 0, 0, 0⟩, .acas 4 ⟨5, 31, 0, 0, 0, 0⟩ true, .csrw 0x010 31 4,
      .mma 1 4 31, .cpy 4 5 31, .vbcst .n32 1 31, .tlbinv 4 31].all fun i =>
      let s := ws (fun x => { x with unsync := 0x80000000 });
      decide (i.isStep = false ∧ slotMay i s.cur.slot = true ∧ s.me.dom = 0 ∧ s.me.branches = [] ∧ ∃ r ∈ (regsOf i).1, s.me.unsync.getLsbD r.toNat = true)) = true ∧
    ([Instr.mov 4 (.reg 31), .ld64 4 ⟨31, 5, 0, 0, 0, 0⟩, .csrr 4 0, .mstat 4 false, .mrecv 5 6 4, .jal 8].zipIdx.all fun q =>
      let i := q.1;
      let s := ws (fun x => { x with unsync := if q.2 = 5 then 0x80000000 else 0x10 });
      decide (i.isStep = false ∧ slotMay i s.cur.slot = true ∧ s.me.dom = 0 ∧ s.me.branches = [] ∧ (∀ r ∈ (regsOf i).1, s.me.unsync.getLsbD r.toNat = false) ∧
        s.cur.mark = false ∧ (∃ d ∈ (regsOf i).2, s.me.unsync.getLsbD d.toNat = true))) = true := by decide +kernel

theorem witness_PrivilegeIsChecked :
    let s := ws (fun x => { x with dom := 1 });
    (Instr.domsw 5 ∈ [Instr.tlbfill 4 5, .tlbinv 4 5, .replay 4 5, .gtwrite 4 5, .domsw 5] ∧ s.cur.slot ≠ 11 ∧ s.me.dom ≠ 0 ∧ s.me.branches = []) ∧
    (mayIssue { ws := [4], late := false, who := .any } s = true ∧ s.me.branches = [] ∧ 0x0C0 ≤ (0x0C0 : BitVec 12).toNat ∧ s.me.dom ≠ 0) ∧
    (Instr.csrc 0xFFF 4 5 ∈ [Instr.csrw 0xFFF 4 5, .csrs 0xFFF 4 5, .csrc 0xFFF 4 5] ∧ mayIssue { rs := [4], ws := [5] } s = true ∧
      0x0C0 ≤ (0xFFF : BitVec 12).toNat) := by decide +kernel

theorem witness_WrongSlotTraps :
    (threadsOnly .stop = true ∧ 11 ≤ (atSlot 11 id).cur.slot ∧ (atSlot 11 id).me.branches = []) ∧
    (Instr.sync 3 ∈ [Instr.sync 3, .gang 4] ∧ (atSlot 1 id).cur.slot ≠ 0 ∧ (atSlot 1 id).me.branches = []) ∧
    (w.cur.slot ≠ 11 ∧ w.cur.slot ≠ 12 ∧ w.me.branches = []) ∧ ((atSlot 11 id).cur.slot = 11 ∧ (atSlot 11 id).me.branches = []) ∧
    ([Instr.aadd 4 ⟨8, 0, 0, 0, 0, 0⟩ true, .csrw 0x010 4 5, .msend 4 5 6, .mma 1 4 5, .cpy 4 5 6, .stop].all fun i => !i.isStep && !inRoutine i) = true := by decide +kernel

theorem witness_MisalignedAccessTraps :
    (let m : MemOp := ⟨5, 0, 7, 0, 0, 0⟩;
      loadForm (.ld64 4 m) = some (false, 8, 4, m) ∧ mayIssue { rs := [m.base, m.idx], ws := [4], who := .any } w = true ∧ (memAddr m w.me 8).toNat % 8 ≠ 0 ∧
      storeForm (.st64 4 m) = some (8, 4, m) ∧ mayIssue { rs := [4, m.base, m.idx], who := .any } w = true) ∧
    (let m : MemOp := ⟨5, 6, 4, 0, 0, 0⟩;
      atomicForm (.acas 4 m true) = some (20, 8, 4, m) ∧ mayIssue { rs := [4, m.base, m.idx], ws := [4] } w = true ∧ (atomicAddr 20 m w.me 8).toNat % 8 ≠ 0) := by
  decide +kernel

theorem witness_BadFetchTraps :
    (let s : State := { ws (fun x => { x with pc := 0x0F00000000080000 }) with issuing := true };
      s.issuing = true ∧ s.inGang = false ∧ s.me.branches = [] ∧ s.me.codelim.toNat ≤ s.me.pc.toNat) ∧
    (let s : State := ganged.onCore 0 (fun k => k.setSlot 0 { live with pc := 0x0F00000000080000 });
      s.issuing = true ∧ s.inGang = true ∧ s.gangStep = none ∧ s.me.branches = [] ∧ (s.slot (fetchCore s) 0).codelim.toNat ≤ (s.slot (fetchCore s) 0).pc.toNat) ∧
    (let s : State := { ws (fun x => { x with pc := 0x0F0000000007FFFE }) with issuing := true, mem := Memory.writeN [] (coreKey 0 0x7FFFE) 2 0x7C00 };
      fetches s = true ∧ s.inGang = false ∧ (match decode (fetchWords s) with | .error .short => true | _ => false) = true) ∧
    (let s : State := { ws (fun x => { x with pc := 0x0EFFFFFFFFFFFFFF }) with issuing := true };
      s.me.pc.toNat < s.me.codebase.toNat ∧ s.me.pc.toNat % 2 = 1) ∧
    (let s : State := { w with issuing := true, mem := Memory.writeN [] (coreKey 0 0) 2 0x0001 };
      s.me.branches = [] ∧ s.inGang = false ∧ fetches s = true ∧ (match decode (fetchWords s) with | .error (.illegal 3 0 0) => true | _ => false) = true) ∧
    (let s : State := { ganged with mem := Memory.writeN [] (coreKey 0 0) 2 0x0001 };
      s.me.branches = [] ∧ s.inGang = true ∧ s.gangStep = none ∧ fetches s = true ∧ (match decode (fetchWords s) with | .error (.illegal 3 0 0) => true | _ => false) = true ∧
      (s.core (fetchCore s)).gang = s.mine.gang ∧ s.gangOf (fetchCore s) = s.gangOf s.cur.core) ∧
    ([w, ganged].all fun t =>
      let s : State := { t with issuing := true, mem := Memory.writeN [] (coreKey 0 0) 2 0xFC00 };
      s.me.branches.isEmpty && s.gangStep.isNone && fetches s && (match decode (fetchWords s) with | .error (.chain 0 1) => true | _ => false) &&
      decide ((s.core (fetchCore s)).gang = s.mine.gang ∧ s.gangOf (fetchCore s) = s.gangOf s.cur.core)) = true := by decide +kernel

theorem witness_RegisterResults :
    (regForm (.divs 0 7 (.imm 0))).map (fun p => (p.1, p.2.1, p.2.2 w.me)) = some (0, [7], BitVec.allOnes 64) ∧
    mayIssue { rs := [7], ws := [0], late := false, who := .any } w = true := by decide +kernel

theorem witness_PlainIssue :
    mayIssue { late := false, who := .any } w = true ∧ mayIssue { rs := [5, 6], who := .any } w = true ∧ mayIssue { rs := [4], who := .any } (atSlot 12 id) = true := by
  decide +kernel

theorem witness_ConditionalBranches :
    (branchForm (.bgez 7 2)).map (fun p => (p.1, p.2.1, p.2.2 0)) = some (7, 2, true) ∧ mayIssue { rs := [7], late := false, who := .any } w = true ∧
    resolvesNow w = true := by decide +kernel

theorem witness_JumpsAndLinks :
    mayIssue { late := false, who := .any } w = true ∧ mayIssue { ws := [31], late := false, who := .any } w = true ∧
    mayIssue { rs := [31], late := false, who := .any } w = true ∧ resolvesNow w = true ∧ mayIssue { rs := [31], ws := [31], late := false, who := .any } w = true := by
  decide +kernel

/-- A checkpoint that guesses g and whose branch goes on at a. -/
def aBranch (a g : Word) : Checkpoint :=
  { actual := a, guess := g, g := live.g, pend := 0, more := [], unsync := 0, issued := live.issued, bpc := live.pc, icount := 0, charged := [] }

theorem witness_MispredictionIsUndone :
    (let s : State := { w with predictions := [1] };
      (branchForm (.bz 4 8)).map (fun p => (p.1, p.2.1, p.2.2 0)) = some (4, 8, true) ∧ mayIssue { rs := [4], late := false, who := .any } s = true ∧
      s.predictions = 1 :: [] ∧ s.inGang = false ∧ s.cur.mark = false ∧ mayIssue { rs := [31], late := false, who := .any } s = true) ∧
    (let s := ws (fun x => { x with branches := [aBranch 2 4] });
      (s.slot 0 0).branches = aBranch 2 4 :: [] ∧ (aBranch 2 4).guess ≠ (aBranch 2 4).actual) ∧
    ((ws (fun x => { x with branches := [aBranch 4 4] })).slot 0 0).branches = aBranch 4 4 :: [] ∧ (aBranch 4 4).guess = (aBranch 4 4).actual := by decide +kernel

theorem witness_StopAndHelperEnd :
    (mayIssue { who := .threads } w = true ∧ w.cur.slot = 0 ∧ w.lastOfGang = true ∧ w.mine.gang = 0) ∧
    (mayIssue { who := .threads } ganged = true ∧ ganged.lastOfGang = false ∧ (ganged.onCore 1 (fun k => { k with gangDone := some aStep })).lastOfGang = true) ∧
    ([1, 10] : List Nat).all (fun t =>
      let s := atSlot t (fun x => { x with mode := .draining });
      decide (1 ≤ t ∧ t ≤ 10 ∧ (s.slot 0 t).mode = .draining ∧ (s.slot 0 t).pend = 0) &&
        (List.range 4).all (fun e => ((s.core 0).cmds e).all (fun m => m.slot != t))) = true := by decide +kernel

theorem witness_ControlRegisterReads :
    (csrValue w 0x005 = some 0 ∧ (0x005 < 0x0C0 ∨ w.me.dom = 0) ∧ csrValue w 0x0D7 = some 0 ∧ w.me.dom = 0 ∧ mayIssue { ws := [4], late := false, who := .any } w = true) ∧
    csrValue w 0xFFF = none ∧ csrValue w 0x00B = none ∧ w.me.branches = [] := by decide +kernel

theorem witness_ControlRegisterWrites :
    ((csrForm (.csrs 0x080 6 8)).map (fun p => (p.1, p.2.1, p.2.2.1)) = some (0x080, 6, 8) ∧ ((0x080 : BitVec 12).toNat, (0x1F : Word)) ∈ csrWritable ∧
      mayIssue { rs := [6], ws := [8] } w = true ∧ csrValue w 0x080 = some 0) ∧
    ((csrForm (.csrc 0x0BF 6 8)).map (fun p => (p.1, p.2.1, p.2.2.1)) = some (0x0BF, 6, 8) ∧ csrValue w 0x0BF = none ∧ csrValue w 0xFFF = none) ∧
    (csrForm (.csrw 0x051 6 8)).map (fun p => (p.1, p.2.1, p.2.2.1)) = some (0x051, 6, 8) ∧ csrValue w 0x051 = some 0x20 ∧ csrValue w 0x000 = some 0 ∧
    (let v : Word := 0x0000002000000000;
      v.toNat / 2 ^ 32 % 2 ^ 20 % 64 ≠ 0) ∧
    (let v : Word := 0x000000400007FFC0;
      v.toNat / 2 ^ 32 % 2 ^ 20 % 64 = 0 ∧ v.toNat / 2 ^ 6 % 2 ^ 13 * 64 + v.toNat / 2 ^ 32 % 2 ^ 20 ≤ 0x80000) ∧
    (let v : Word := 0x000000800007FFC0;
      v.toNat / 2 ^ 32 % 2 ^ 20 % 64 = 0 ∧ 0x80000 < v.toNat / 2 ^ 6 % 2 ^ 13 * 64 + v.toNat / 2 ^ 32 % 2 ^ 20) ∧
    (csrForm (.csrw 0x052 7 8)).map (fun p => (p.1, p.2.1, p.2.2.1, p.2.2.2 0 0x000000400007FFC0)) = some (0x052, 7, 8, 0x000000400007FFC0) ∧
    w.me.dom = 0 ∧ csrValue w 0x0D0 = some 0 ∧ csrValue w 0x0D1 = some 0 := by decide +kernel


/-- The descriptor of a field of two sites on core 0: channel 5, patch, halo and coupling buffer apart, its couplings in the commons. -/
def aDesc : List Word :=
  [0x0000000100010002, 0x0000000501010000, 0x0000300000002000, 7, 0x0F00000000000100, 0x0D00000000000000, 0x0D00000000001000, 0x0000000800004000,
   0, 0, 0, 0, 0, 0, 0, 0]

/-- A field with it, at a stage. -/
def aField (st : FStage) : Field :=
  { desc := aDesc, slot := 0, dom := 0, asid := 0, key := 0, codebase := 0x0F00000000000000, codelim := 0x0F00000000080000, next := 1, colour := 0, todo := [], e := 0,
    run := true, stage := st, asked := false, live1 := false, cts := [commonsKey 0, commonsKey 0x1000], walk := Walk.none, fault := none, failed := false }

/-- A marked call of a service. -/
def aCall : Call := { entry := { w0 := 0, w1 := 0, w2 := 0, w3 := 0 }, gate := 0, issued := live.issued, gpc := live.pc }

theorem witness_SpillAndFill :
    (mayIssue { rs := [5], who := .any } w = true ∧ w.me.calls = [] ∧ memInv w) ∧
    (let s : State := ws (fun x => { x with dom := 1, spill := [(31, { val := 0, place := .memory, dom := 1 })] });
      mayIssue { rs := [5], who := .any } s = true ∧ s.me.calls = [] ∧ s.mem = [] ∧ (s.me.spill.find? (fun q => q.1 == 31)).map (fun q => q.2.place) = some .memory ∧
      s.fieldGuard s.cur.core (s.spillOff s.cur.core s.cur.slot 31) 8 = false ∧
      s.foreign s.cur.core s.me.dom (s.spillOff s.cur.core s.cur.slot 31) 8 = false ∧
      ({ s with domRange := [(2, (0, 0x80000))] } : State).foreign s.cur.core s.me.dom (s.spillOff s.cur.core s.cur.slot 31) 8 = true ∧
      (s.onMine (fun k => { k with fields := [(0, { aField .sites with desc := aDesc.set 2 0x0007980000002000 })] })).fieldGuard s.cur.core (s.spillOff s.cur.core s.cur.slot 31) 8 = true) ∧
    (let s := ws (fun x => { x with calls := [aCall] });
      mayIssue { rs := [5], who := .any } s = true ∧ s.me.calls = aCall :: [] ∧ s.mem = [] ∧ (31 : BitVec 8).toNat < 32 ∧ 32 ≤ (32 : BitVec 8).toNat ∧
      mayIssue { ws := [4], var := true, late := false, who := .any } s = true ∧ ((31 : BitVec 8).toNat < 32 ∨ s.me.calls = [])) ∧
    (mayIssue { ws := [4], var := true, late := false, who := .any } w = true ∧ ((255 : BitVec 8).toNat < 32 ∨ w.me.calls = [])) := by
  refine ⟨⟨by decide +kernel, by decide +kernel, rfl⟩, by decide +kernel, by decide +kernel, by decide +kernel⟩

/-- Operands whose address lies in a reserved space. -/
def nowhere : MemOp := ⟨8, 0, 0x0C000000000000FF, 0, 0, 0⟩

theorem witness_LoadsIssue :
    let m : MemOp := ⟨5, 8, 56, 0, 0, 0⟩;
    loadForm (.ld64 4 m) = some (false, 8, 4, m) ∧ mayIssue { rs := [m.base, m.idx], ws := [4], var := true, who := .any } w = true ∧
    (memAddr m w.me 8).toNat % 8 = 0 ∧ spaceOf (memAddr m w.me 8) ≠ .reserved ∧ w.memHeld w.me = false ∧
    w.tlbPlace 0 w.me.asid (memAddr m w.me 8) = some (.plain (coreKey 0 0x1040)) ∧ (Place.plain (coreKey 0 0x1040)).lacks 0 = false ∧
    (loadForm (.ld64 4 nowhere) = some (false, 8, 4, nowhere) ∧ mayIssue { rs := [nowhere.base, nowhere.idx], ws := [4], var := true, who := .any } w = true ∧
      (memAddr nowhere w.me 8).toNat % 8 = 0 ∧ spaceOf (memAddr nowhere w.me 8) = .reserved) := by decide +kernel

theorem witness_StoresIssue :
    (let m : MemOp := ⟨5, 0, 0x7EFFF, 0, 0, 0⟩;
      storeForm (.st8 4 m) = some (1, 4, m) ∧ mayIssue { rs := [4, m.base, m.idx], who := .any } w = true ∧ (memAddr m w.me 1).toNat % 1 = 0 ∧
      spaceOf (memAddr m w.me 1) = .self 0x7FFFF ∧ spaceOf (memAddr m w.me 1) ≠ .reserved ∧ w.memHeld w.me = false ∧ w.cur.slot ≠ 11) ∧
    (storeForm (.st8 4 nowhere) = some (1, 4, nowhere) ∧ mayIssue { rs := [4, nowhere.base, nowhere.idx], who := .any } w = true ∧
      spaceOf (memAddr nowhere w.me 1) = .reserved ∧ w.cur.slot ≠ 11) ∧
    (let m : MemOp := ⟨5, 0, 0, 0, 0, 0⟩;
      let s := (atSlot 11 id).onMine (fun k => { k with fields := [(0, { aField .sites with desc := aDesc.set 2 0x0000300000001000 })] });
      mayIssue { rs := [4, m.base, m.idx], who := .any } s = true ∧ s.cur.slot = 11 ∧ spaceOf (memAddr m s.me 8) = .self 0x1000 ∧
      (∃ p ∈ s.mine.fields, ∃ q ∈ fRanges p.2.desc, meets 0x1000 8 q.1 q.2 = true)) ∧
    (let m : MemOp := ⟨5, 0, 0, 0, 0, 0⟩;
      let s := atSlot 11 id;
      mayIssue { rs := [4, m.base, m.idx], who := .any } s = true ∧ s.cur.slot = 11 ∧ spaceOf (memAddr m s.me 8) = .self 0x1000 ∧
      (∀ p ∈ s.mine.fields, ∀ q ∈ fRanges p.2.desc, meets 0x1000 8 q.1 q.2 = false)) := by decide +kernel

theorem witness_AtomicsIssue :
    let m : MemOp := ⟨5, 6, 0, 0, 0, 0⟩;
    (atomicForm (.acas 4 m true) = some (20, 8, 4, m) ∧ mayIssue { rs := [4, m.base, m.idx], ws := [4], var := true } w = true ∧
      (atomicAddr 20 m w.me 8).toNat % 8 = 0 ∧ spaceOf (atomicAddr 20 m w.me 8) ≠ .reserved ∧ w.memHeld w.me = false) ∧
    (mayIssue { rs := [m.base, m.idx] } w = true ∧ (memAddr m w.me 64).toNat % 64 = 0 ∧ spaceOf (memAddr m w.me 64) ≠ .reserved ∧
      w.mine.vecBusy w.cur.slot 15 = false) ∧
    (atomicForm (.aadd 4 nowhere true) = some (11, 8, 4, nowhere) ∧ mayIssue { rs := [4, nowhere.base, nowhere.idx], ws := [4], var := true } w = true ∧
      (atomicAddr 11 nowhere w.me 8).toNat % 8 = 0 ∧ spaceOf (atomicAddr 11 nowhere w.me 8) = .reserved ∧
      (memAddr nowhere w.me 64).toNat % 64 = 0 ∧ spaceOf (memAddr nowhere w.me 64) = .reserved) := by decide +kernel

theorem witness_StagedInstructionsIssue :
    mayIssue { rs := [5, 4] } w = true ∧ w.memHeld w.me = false ∧ w.me.fenced = false ∧ w.startHeld w.me = false ∧ mayIssue { rs := [5] } w = true ∧
    mayIssue { rs := [5, 4] ++ (some 8 : Option Reg).toList } w = true ∧ mayIssue { rs := [5], ws := [4], var := true } w = true := by decide +kernel

/-- An access of 8 bytes at a of slot 0 of core 0, in domain 0, with number 7. -/
def acc (k : AccKind) (a : Word) (p : Place) : Access :=
  { id := 7, kind := k, va := a, size := 8, x := 0, scope := 0, order := 0, data := 5, exp := 0, dest := 4, dom := 0, asid := 0, key := 0, fpc := live.pc, page := 1, op := 10,
    place := some p, phase := .ready, reqs := 0, mid := none, det := false }

/-- A place in core 0's memory, one in core 1's, and the state that holds an access. -/
def here : Place := .plain (coreKey 0 0x1000)
def there : Place := .plain (coreKey 1 0x7FFF8)
def wa (a : Access) : State := ws (fun x => { x with acc := [a] })

theorem self_is_no_window (d o : Nat) : spaceOf 0x0F00000000001000 ≠ .window d o := by
  rw [show spaceOf 0x0F00000000001000 = .self 0x1000 by decide]; nofun

/-- A landing in core 1's last eight bytes, with window 3 open over the last 64. -/
def landing (k : AccKind) : State :=
  (wa (acc k 0x0E0000000017FFF8 there)).onCore 1 (fun x =>
    { x with windows := [(3, { isOpen := true, w := true, r := true, base := 0x7FFC0, len := 64, cnt := 0, known := true })] })

theorem witness_StoresPerform :
    (let a := acc .store 0x0F00000000001000 here;
      let s := wa a;
      (s.slot 0 0).splitAcc 7 = ([], some a) ∧ a.kind = .store ∧ a.place = some here ∧ a.x = 0 ∧ s.objOf here = none ∧ s.mayPerform [] a = true ∧
      s.deny (a.agent 0 0) a.va a.size here 1 .plain = none ∧ s.capDeny 0 a.va here 1 = none ∧ Memory.wf s.mem = true) ∧
    (let a := acc .store 0x0E0000000017FFF8 there;
      let s := landing .store;
      (0 : Nat) ≠ 15 ∧ (0 : Nat) < 128 ∧ (s.slot 0 0).splitAcc 7 = ([], some a) ∧ a.place = some there ∧ a.x = 0 ∧ s.objOf there = none ∧ spaceOf a.va = .window 1 0x7FFF8 ∧
      (1 : Nat) ≠ 0 ∧ s.mayPerform [] a = true ∧ (s.core 1).vf.moving = none ∧ s.deny (a.agent 0 0) a.va a.size there 1 .plain = none ∧ Memory.wf s.mem = true ∧
      (∀ i, i < a.size → (s.core 1).windowAt true (0x7FFF8 + i) = some 3)) ∧
    (∀ d o, spaceOf 0x0F00000000001000 ≠ .window d o) :=
  ⟨by decide +kernel, by decide +kernel, self_is_no_window⟩

/-- A value on its way to g4. -/
def aResult : Result := { reg := 4, val := 9, depth := 0, acq := false }

theorem witness_LoadedValuesReturn :
    (let s := ws (fun x => { x with results := [{ aResult with reg := 3 }, aResult] });
      (4 : Reg) ≠ 0 ∧ (4 : Reg) ∉ (s.slot 0 0).more ∧ (4 : Reg) ∈ ({ s.slot 0 0 with more := [4] } : Slot).more ∧
      (s.slot 0 0).results = [{ aResult with reg := 3 }] ++ aResult :: [] ∧ aResult.reg = 4 ∧ (∀ x ∈ [{ aResult with reg := 3 }], x.reg ≠ 4)) ∧
    (let a := acc (.load true) 0x0F00000000001000 here;
      let s := wa a;
      (∀ x ∈ (s.slot 0 0).results, x.reg ≠ 4) ∧ s.readyLoad (s.slot 0 0) 4 = some (a, here) ∧ a.kind = .load true ∧
      s.deny (a.agent 0 0) a.va a.size here 0 .plain = none) ∧
    (let a := acc (.load false) 0x0E0000000017FFF8 there;
      let s := landing (.load false);
      (s.slot 0 0).splitAcc 7 = ([], some a) ∧ a.kind = .load false ∧ a.dest ≠ 0 ∧ a.place = some there ∧ a.x = 0 ∧ s.objOf there = none ∧
      spaceOf a.va = .window 1 0x7FFF8 ∧ s.mayPerform [] a = true ∧ s.targetPaused 0 a.va = false ∧ s.deny (a.agent 0 0) a.va a.size there 0 .plain = none) := by
  decide +kernel

/-- The commons object that DET asks for is not needed in core memory; VAMO acts on the commons of a core without DET. -/
def inCommons : Place := .plain (commonsKey 0)

theorem commons_is_no_window (d o : Nat) : spaceOf 0x0D00000000000000 ≠ .window d o := by
  rw [show spaceOf 0x0D00000000000000 = .commons 0 by decide]; nofun

theorem witness_AtomicsExecute :
    (let a := acc (.atomic 20) 0x0F00000000001000 here;
      let s := wa a;
      (s.slot 0 0).splitAcc 7 = ([], some a) ∧ a.kind = .atomic 20 ∧ a.place = some here ∧ a.x = 0 ∧ s.objOf here = none ∧ s.mayPerform [] a = true ∧ a.dest ≠ 0 ∧
      s.inClusterUnit a here = false ∧ s.deny (a.agent 0 0) a.va a.size here 2 (a.kind.shape a.span) = none ∧ s.capDeny 0 a.va here 2 = none ∧ Memory.wf s.mem = true) ∧
    ([none, some 0].all fun mid =>
      let a : Access := { acc (.atomic 11) 0x0D00000000000000 inCommons with mid := mid };
      let s := (wa a).onCore 0 (fun k => { k with det := false });
      decide ((s.slot 0 0).splitAcc 7 = ([], some a) ∧ a.kind = .atomic 11 ∧ a.place = some inCommons ∧ a.x = 0 ∧ s.mayPerform [] a = true ∧ a.dest ≠ 0 ∧
        s.inClusterUnit a inCommons = true ∧ s.deny (a.agent 0 0) a.va a.size inCommons 2 (a.kind.shape a.span) = none ∧ s.capDeny 0 a.va inCommons 2 = none ∧
        Memory.wf s.mem = true ∧ s.unitBusy 0 a inCommons = false ∧ 0 < 2 ^ (8 * a.size))) = true ∧
    (let a : Access := { acc (.vamo 0) 0x0D00000000000000 inCommons with size := 64 };
      let s := (wa a).onCore 0 (fun k => { k with det := false });
      (s.slot 0 0).splitAcc 7 = ([], some a) ∧ a.kind = .vamo 0 ∧ a.place = some inCommons ∧ a.size = 64 ∧ a.x = 0 ∧ s.objOf inCommons = none ∧ s.mayPerform [] a = true ∧
      s.deny (a.agent 0 0) a.va 64 inCommons 3 .vamo = none ∧ s.capDeny 0 a.va inCommons 3 = none ∧ Memory.wf s.mem = true) ∧
    (∀ d o, spaceOf 0x0F00000000001000 ≠ .window d o) ∧ (∀ d o, spaceOf 0x0D00000000000000 ≠ .window d o) :=
  ⟨by decide +kernel, by decide +kernel, by decide +kernel, self_is_no_window, commons_is_no_window⟩

/-- A command of slot 0 with its arguments. -/
def cmd (i : Instr) (args : List Word) : Cmd :=
  { id := 9, num := 1, slot := 0, instr := i, args := args, ec := EngCsr.reset, dom := 0, asid := 0, key := 0, fpc := live.pc, page := 2, op := 0, depth := 0, dead := false,
    joint := 0, srcs := [], shown := 0, brows := [], walk := Walk.none }

theorem witness_FencesAndTimelines :
    ((¬((1 : BitVec 2) = 2 ∧ (3 : BitVec 2) = 0)) ∧ w.me.acc = [] ∧ (wa (acc .store 0x0F00000000001000 here)).me.acc ≠ [] ∧
      mayIssue { who := .any } (wa (acc .store 0x0F00000000001000 here)) = true ∧ mayIssue { who := .any } w = true ∧ mayIssue { ws := [4], var := true, who := .any } w = true ∧ mayIssue { rs := [0], who := .any } w = true ∧
      (w.me.rd 0).toNat ≤ (ectx w.me.counter 3).toNat ∧ (ectx w.me.counter 3).toNat < (w.me.rd 8).toNat) ∧
    (mayIssue { rs := [0], late := false } w = true ∧ (tget w.mine.queue (1 : BitVec 2).toNat []).length < 2 ∧ (w.me.rd 0).toNat ≤ (ectx w.me.issued (1 : BitVec 2).toNat).toNat) ∧
    (mayIssue { rs := [8], late := false } w = true ∧ w.me.branches = [] ∧ (ectx w.me.issued (1 : BitVec 2).toNat).toNat < (w.me.rd 8).toNat) ∧
    (let m := cmd (.ewait 1 2 0) [0];
      let s := wc (fun k => { k with exec := [(1, [m])] });
      tget (s.core 0).exec 1 [] = [] ++ m :: [] ∧ m.instr = .ewait 1 2 0 ∧ ((1 : Nat) < 2 ∨ (1 : Nat) = 3) ∧ (m.args.getD 0 0).toNat ≤ (ectx (s.slot 0 m.slot).counter (2 : BitVec 2).toNat).toNat) ∧
    (let p : Wait := { kind := .marker, since := 0, limit := 0, mark := false };
      let s := ws (fun x => { x with park := some p });
      (s.slot 0 0).park = some p ∧ p.kind = .marker ∧ (s.slot 0 0).pend = 0) := by decide +kernel

/-- A page of the firmware's table and of a host translation. -/
def aPage (host : Bool) : TlbEntry := { asid := 1, va := 0x2000, size := 0, pa := 0x4000, ty := 0, r := true, w := true, st := false, host := host, key := 0 }

/-- An access to it that misses, with its slot in ASID 1. -/
def missing (ph : AccPhase) : Access := { acc .store 0x2FF8 here with asid := 1, place := none, phase := ph }

theorem witness_TranslationMisses :
    (let s : State := { wa (missing .miss) with pageTables := [aPage false] };
      (0 : Nat) < 13 ∧ (s.core 0).vf.moving = none ∧ (s.slot 0 0).acc.find? (fun a => a.id == 7) = some (missing .miss) ∧ (missing .miss).phase = .miss ∧ spaceOf (missing .miss).va = .virt 0x2FF8 ∧
      s.serviceLookup 0 (missing .miss).asid 0x2FF8 = some (aPage false) ∧ lookup (s.core 0).tlb (missing .miss).asid 0x2FF8 = none ∧
      (Misser.access 0 (missing .miss)).refusedBy (aPage false) = false) ∧
    (let s := wa (missing .miss);
      lookup (s.core 0).tlb (missing .miss).asid (missing .miss).va.toNat = none ∧ s.serviceLookup 0 (missing .miss).asid (missing .miss).va.toNat = none ∧
      s.pv 0 = false ∧ (s.slot 0 0).mode ≠ .free) ∧
    (let s : State := { wa (missing .miss) with jobs := [{ aJob with pkt := List.replicate 32 0x100000 }] };
      s.serviceLookup 0 (missing .miss).asid (missing .miss).va.toNat = none ∧ s.pv 0 = true) ∧
    (let r : AtsReq := { id := 3, core := 0, slot := 0, acc := 7, pasid := 0, va := 0x2000, write := true, stale := [] };
      let s : State := { wa (missing (.ats 3)) with atsReqs := [r] };
      s.atsReqs.find? (fun x => x.id == 3) = some r ∧ r.core ≠ 2048 ∧ r.slot < 13 ∧ (s.slot r.core r.slot).acc.find? (fun a => a.id == r.acc) = some (missing (.ats 3)) ∧
      (missing (.ats 3)).phase = .ats 3 ∧ r.stale = [] ∧ s.priEnable = true ∧ s.priFailed = false ∧ s.pageReqs = [] ∧ 0 < s.priAlloc ∧
      (s.core r.core).vf.moving = none ∧
      (let q : AtsReq := { r with stale := [(0, 1)] };
        ({ s with atsReqs := [q] } : State).atsReqs.find? (fun x => x.id == 3) = some q ∧
        (∃ x ∈ q.stale, meets x.1 (pageBytes x.2) q.va 4096 = true) ∧
        (∃ x ∈ q.stale, meets x.1 (pageBytes x.2) (q.va / pageBytes 2 * pageBytes 2) (pageBytes 2) = true))) ∧
    (let r : PageReq := { id := 4, pasid := 0, asid := 1, va := 0x2000, r := true, w := true, idx := 0 };
      ({ w with pageReqs := [r] } : State).pageReqs.find? (fun x => x.id == 4) = some r ∧ (2 : BitVec 2) ≠ 3) := by decide +kernel

theorem witness_BroadcastsAreAcknowledged :
    w.fail = false ∧ ({ w with fail := true } : State).fail = true ∧
    (let r : CastRec := { id := 5, what := .inv 1 false false 0x2000 0, left := [0, 2047] };
      let s : State := { w with casts := [r] };
      s.casts.find? (fun r => r.left.contains 2047 && (match r.what with | .replay _ _ => false | _ => true)) = some r ∧
      (∀ p ∈ (s.core 2047).slots, ∀ a ∈ p.2.acc, a.phase = .ready → r.what.covers a = false)) ∧
    (let r : CastRec := { id := 5, what := .inv 1 false false 0x2000 0, left := [0] };
      let s : State := { wa { missing .ready with place := some { here with virt := true, page := 0x2000 } } with casts := [r] };
      s.casts.find? (fun r => r.left.contains 0 && (match r.what with | .replay _ _ => false | _ => true)) = some r ∧
      (∃ p ∈ (s.core 0).slots, ∃ a ∈ p.2.acc, a.phase = .ready ∧ r.what.covers a = true)) ∧
    (let r : CastRec := { id := 5, what := .replay 0x2000 1, left := [0] };
      let s : State := { wa (missing (.pageReq 4 0)) with casts := [r] };
      s.casts.find? (fun r => r.left.contains 0 && (match r.what with | .replay _ _ => true | _ => false)) = some r ∧ r.what = .replay 0x2000 1 ∧
      (s.core 0).vf.moving = none ∧ (1 : Word).toNat / 2 ^ 21 % 4 = 0 ∧ (0, s.slot 0 0) ∈ (s.core 0).slots ∧ missing (.pageReq 4 0) ∈ (s.slot 0 0).acc ∧
      (missing (.pageReq 4 0)).phase = .pageReq 4 0 ∧ replayHits 0x2000 1 (.access 0 (missing (.pageReq 4 0))) = true) ∧
    ((wc (fun k => { k with vf := { k.vf with moving := some 10 } })).core 0).vf.moving.isSome = true := by decide +kernel

theorem witness_VectorCommandsEnter :
    (vecForm (.vins .i64 15 5 (.reg 6)) = some [5, 6] ∧ mayIssue { rs := [5, 6], late := false, who := .any } w = true ∧ queueOpen w 1 = true) ∧
    mayIssue { rs := laneRegs (.reg 6), ws := [4], var := true, late := false, who := .any } w = true ∧
    (Instr.vst 2 5 8 0xFC0 ∈ [Instr.vld 2 5 8 0xFC0, .vst 2 5 8 0xFC0] ∧ mayIssue { rs := [5, 8], late := false, who := .any } w = true ∧
      (w.me.rd 5 + 0xFC0 + w.me.rd 8 * 64).toNat % 64 = 0) ∧
    (Instr.vsts .i32 2 5 4 0 ∈ [Instr.vlds .i32 2 5 4 0, .vsts .i32 2 5 4 0] ∧ mayIssue { rs := [5, 4], late := false, who := .any } w = true ∧
      (∀ k, k < VType.i32.lanes → (w.me.rd 5 + 0 + BitVec.ofNat 64 k * w.me.rd 4).toNat % VType.i32.width = 0)) ∧
    (Instr.vsctl .i64 2 3 5 ∈ [Instr.vgatl .i64 2 3 5, .vsctl .i64 2 3 5] ∧ mayIssue { rs := [5], late := false, who := .any } w = true ∧
      (w.me.rd 5).toNat % VType.i64.width = 0) := by decide +kernel

theorem witness_EnginesStartAndComplete :
    (let m := cmd (.vmov 1 2) [];
      let s := wc (fun k => { k with queue := [(1, [m])] });
      (1 : Nat) < 3 ∧ tget (s.core 0).queue 1 [] = m :: [] ∧ m.depth = 0 ∧ s.clockOn 0 = true ∧ s.runs 0 = true ∧ tget (s.core 0).exec 1 [] = []) ∧
    (let m := cmd (.cpy 4 5 6) [];
      let s := wc (fun k => { k with queue := [(2, [m])], exec := [(2, [m, m, m])] });
      tget (s.core 0).queue 2 [] = m :: [] ∧ (tget (s.core 0).exec 2 []).length < 4) ∧
    (let m := cmd (.vmov 1 2) [];
      let s := wc (fun k => { k with exec := [(1, [m])] });
      (tget (s.core 0).exec 1 [])[0]? = some m ∧ vecForm m.instr = some [] ∧ vdestOf m.instr = some 1 ∧ m.dead = false) ∧
    ([Instr.vld 1 5 0 0, .vst 1 5 0 0].all fun i =>
      let m := cmd i [0x0F00000000001000];
      let s := wc (fun k => { k with exec := [(1, [m])] });
      decide ((tget (s.core 0).exec 1 [])[0]? = some m ∧ m.dead = false ∧ m.walk.reads = [] ∧ m.walk.wrote = [] ∧ Memory.wf s.mem = true) &&
      ([(4, 1), (5, 2)].all fun q => match s.engPlace (s.cmdAgent 0 1 m) (m.arg 0) 64 q.1 q.2 with | .ok _ => true | _ => false)) = true ∧
    (let m : Cmd := { cmd (.vmov 1 2) [] with dead := true };
      let s := wc (fun k => { k with exec := [(1, [m])] });
      (tget (s.core 0).exec 1 [])[0]? = some m ∧ m.isMarker = false ∧ m.dead = true) := by decide +kernel

theorem witness_IntegerLanes : 63 < VType.i8.lanes ∧ VType.i8.isFloat = false ∧ 7 < VType.i64.lanes ∧ 15 < VType.sf32.lanes := by decide

/-- Tile 15 of core 0 allocated, as an integer tile or not. -/
def wt (int : Bool) (f : EngCsr → EngCsr) : State :=
  (wc (fun k => { k with tiles := [(15, { alloc := true, int := int, elems := [] })] })).onMe (fun x => { x with ec := f x.ec })

theorem witness_MatrixCommandsEnter :
    (let s := wt true (fun e => { e with fmta := 7, fmtb := 7, klen := 0xFFFFF });
      mayIssue { rs := [5, 5], late := false } s = true ∧ queueOpen s 0 = true ∧ (s.tile s.cur.core 15).alloc = true ∧
      formatFault s.me.ec.fmta s.me.ec.fmtb s.me.ec.klen = none ∧ (s.tile s.cur.core 15).int = pairInt (fmtCode s.me.ec.fmta) (fmtCode s.me.ec.fmtb) ∧
      sideFault s.me.ec.fmta s.me.ec.astr s.me.ec.scla s.me.ec.plna (s.me.rd 5) = none ∧
      sideFault s.me.ec.fmtb s.me.ec.bstr s.me.ec.sclb s.me.ec.plnb (s.me.rd 5) = none ∧ s.cur.core % 2 ^ (s.me.ec.mjoin.toNat % 4) = 0) ∧
    (let s : State := { (wt true (fun e => { e with mjoin := 3, fmta := 7 })).setCore 1 ((wt true (fun e => { e with mjoin := 3, fmta := 7 })).core 0) with cur := { w.cur with core := 1 } };
      mayIssue { rs := [5, 5], late := false } s = true ∧ queueOpen s 0 = true ∧ (s.tile s.cur.core 15).alloc = true ∧
      s.cur.core % 2 ^ (s.me.ec.mjoin.toNat % 4) ≠ 0 ∧ fmtCode s.me.ec.fmta < 10 ∧ ¬(10 ≤ fmtCode s.me.ec.fmta) ∧
      (s.tile s.cur.core 15).int = true ∧ pairInt (fmtCode s.me.ec.fmta) (fmtCode s.me.ec.fmta) = true ∧
      sideFault s.me.ec.fmta s.me.ec.astr s.me.ec.scla s.me.ec.plna (s.me.rd 5) = none) ∧
    (let s := wt true (fun e => { e with cstr := 0xFFFFFFC0 });
      Instr.mldt 15 5 64 ∈ [Instr.mld 15 5 64, .mldt 15 5 64] ∧ mayIssue { rs := [5], late := false } s = true ∧ s.me.ec.cstr.toNat % 2 ^ 32 % 64 = 0 ∧
      (s.me.rd 5 + 64).toNat % 64 = 0) ∧
    (let s := wt true (fun e => { e with dfmt := 9 });
      (s.tile s.cur.core 15).alloc = true ∧ (s.tile s.cur.core 15).int = true ∧ s.me.ec.dfmt.toNat % 16 ∈ [2, 7, 8, 9] ∧ s.me.ec.dfmt.toNat / 16 % 2 = 0 ∧
      s.me.ec.dfmt.toNat % 16 ∉ [5, 6] ∧ s.me.ec.cstr.toNat % 2 ^ 32 % 64 = 0) ∧
    (let s := wt false (fun e => { e with dfmt := 0x16, plna := 64, amaxp := 4, cstr := 128 });
      (s.tile s.cur.core 15).int = false ∧ s.me.ec.dfmt.toNat % 16 ≤ 6 ∧ s.me.ec.dfmt.toNat / 16 % 2 = 1 ∧ s.me.ec.amaxp.toNat % 4 = 0 ∧
      s.me.ec.dfmt.toNat % 16 ∈ [5, 6] ∧ s.me.ec.cstr.toNat % 2 ^ 32 % 128 = 0 ∧ s.me.ec.plna.toNat % 64 = 0) ∧
    (Instr.mrow true 2 15 31 ∈ [Instr.mzero 15, .mrow true 2 15 31] ∧ mayIssue { late := false } w = true) ∧
    ((Instr.mma 15 4 5, [4, 5]) ∈ ([(.mma 15 4 5, [4, 5]), (.mmaj 15 4 5, [4, 5])] : List (Instr × List Reg)) ∧ mayIssue { rs := [4, 5], late := false } w = true ∧
      w.me.branches = [] ∧ (w.tile w.cur.core 15).alloc = false) ∧
    (let s := wt true (fun e => { e with fmta := 1, fmtb := 1, klen := 0xFFFFF, mjoin := 3 });
      Instr.mmaj 15 5 5 ∈ [Instr.mma 15 5 5, .mmaj 15 5 5] ∧ mayIssue { rs := [5, 5], late := false } s = true ∧ s.me.branches = [] ∧
      (s.tile s.cur.core 15).alloc = true ∧ s.cur.core % 2 ^ (s.me.ec.mjoin.toNat % 4) = 0 ∧
      formatFault s.me.ec.fmta s.me.ec.fmtb s.me.ec.klen = none ∧ (s.tile s.cur.core 15).int ≠ pairInt (fmtCode s.me.ec.fmta) (fmtCode s.me.ec.fmtb)) := by decide +kernel

theorem witness_MatrixCommandsAct :
    ([Instr.mzero 15, .mma 15 5 5, .mrow true 14 15 31, .mrow false 14 15 31].all fun i =>
      let m := cmd i [];
      let s := wc (fun k => { k with exec := [(0, [m])] });
      decide ((tget (s.core 0).exec 0 [])[0]? = some m ∧ m.dead = false ∧ m.ec.klen.toNat % 2 ^ 20 = 0 ∧ (14 : VReg).toNat % 2 = 0)) = true ∧
    (let m : Cmd := { cmd (.mmaj 15 5 5) [0x0F00000000001000, 0x0F00000000001000] with joint := 1, ec := { EngCsr.reset with mjoin := 1 } };
      let f (k : Core) : Core := { k with queue := [(0, [m])], mmajIn := 1 };
      let s : State := ((wc f).onCore 1 f);
      s.jointHead 0 = some m ∧ segment 0 (m.ec.mjoin.toNat % 4) = [0, 1] ∧ s.jointBad 0 m = false ∧
      (∀ d ∈ segment 0 (m.ec.mjoin.toNat % 4), (s.jointHead d).map (·.joint) = some m.joint) ∧ s.jointHead ((segment 0 (m.ec.mjoin.toNat % 4)).headD 0) = some m) ∧
    (let m : Cmd := { cmd (.mmaj 15 5 5) [0x0F00000000001000, 0x0F00000000001000] with joint := 1, ec := { EngCsr.reset with mjoin := 1, klen := 1 } };
      let s : State := (wc (fun k => { k with exec := [(0, [m])] })).onCore 1 (fun k => { k with exec := [(0, [{ m with args := m.args.take 1 }])] });
      (tget (s.core 0).exec 0 [])[0]? = some m ∧ m.readsB = true ∧ m.dead = false ∧ (match s.jointB 0 m with | .ok _ => true | _ => false) = true ∧
      ∃ q ∈ s.jointMates 0 m, q.1 ≠ 0) := by decide +kernel

/-- Spill value n in a column of tile 15. -/
def inTile (n : Nat) (v : Word) : Nat × SpillEntry := (n, { val := v, place := .tile 15 31 15, dom := 1 })

theorem witness_TilesAndStatus :
    (mayIssue {} w = true ∧ Memory.wf w.mem = true ∧ (w.tile w.cur.core 15).alloc = false ∧ (w.mine.slot 0).calls = []) ∧
    (let s := wc (fun k => { k with slots := [(0, { live with spill := [inTile 0 1, inTile 255 2] }), (12, { live with spill := [inTile 255 3] })] });
      mayIssue {} s = true ∧ Memory.wf s.mem = true ∧ (s.tile s.cur.core 15).alloc = false ∧ inTile 255 3 ∈ (s.mine.slot 12).spill ∧
      s.foreign s.cur.core 1 (s.spillOff s.cur.core 12 255) 8 = false ∧ s.fieldGuard s.cur.core (s.spillOff s.cur.core 12 255) 8 = false ∧
      ((List.range 13).all fun r => (s.mine.slot r).spill.all fun f => decide (r = 12 ∧ f = inTile 255 3 ∨
        s.spillOff s.cur.core r f.1 + 8 ≤ s.spillOff s.cur.core 12 255 ∨ s.spillOff s.cur.core 12 255 + 8 ≤ s.spillOff s.cur.core r f.1)) = true) ∧
    (let s := wt true id;
      mayIssue {} s = true ∧ (s.tile s.cur.core 15).alloc = true ∧ (∀ m ∈ s.mine.cmds 0, tileNamed m.instr ≠ some 15)) ∧
    (mayIssue { ws := [4], var := true } w = true ∧ (∀ m ∈ tget w.mine.exec 0 [], m.slot ≠ w.cur.slot)) ∧
    (let m := cmd (.mzero 15) [];
      (tget (wc (fun k => { k with exec := [(0, [m])] })).mine.exec 0 []).find? (fun m => m.slot == 0) = some m) ∧
    mayIssue { ws := [4] } w = true := by decide +kernel

/-! What an engine sees through its own place of each byte, and that this is what it reads unit by unit. -/

def seen (s : State) (g : Agent) (a : Word) : Byte := (g.place a).elim 0 (fun p => s.readByte p 0)

def readable (s : State) (g : Agent) (a : Word) (n : Nat) : Bool :=
  (unitsOf a n).all (fun q => match s.engPlace g q.1 q.2 4 1 with
    | .ok p => (List.range q.2).all (fun j => seen s g (q.1 + BitVec.ofNat 64 j) == s.readByte p j)
    | _ => false)

theorem engineReads_of_readable {s : State} {g : Agent} {a : Word} {n : Nat} (h : readable s g a n = true) : engineReads s g a n (seen s g) := by
  intro q hq
  have h := List.all_eq_true.mp h q hq
  split at h
  · rename_i p hp
    exact ⟨p, hp, fun j hj => by simpa using List.all_eq_true.mp h j (List.mem_range.mpr hj)⟩
  · cases h

def sourceReadable (s : State) (c : Nat) (m : Cmd) : Bool :=
  (copyReads m).all (fun r => match s.partsRead (s.cmdAgent c 2 m) r with
    | .ok bs => (List.range r.hull.2).all (fun j => seen s (s.cmdAgent c 2 m) (r.hull.1 + BitVec.ofNat 64 j) == bs.getD j 0)
    | _ => false)

theorem sourceReads_of_readable {s : State} {c : Nat} {m : Cmd} (h : sourceReadable s c m = true) : sourceReads s c m (seen s (s.cmdAgent c 2 m)) := by
  intro r hr
  have h := List.all_eq_true.mp h r hr
  split at h
  · rename_i bs hb
    exact ⟨bs, hb, fun j hj => by simpa using List.all_eq_true.mp h j (List.mem_range.mpr hj)⟩
  · cases h

/-- A matrix command that executes in slot 0 of core 0. -/
def wmat (m : Cmd) : State := wc (fun k => { k with exec := [(0, [m])], tiles := [(15, { alloc := true, int := fmtCode m.ec.fmta == 7, elems := [] })] })

/-- The first eight bytes of each operand row at 0x1000, stride 64. -/
def aMld (tr : Bool) : Cmd := cmd (if tr then .mldt 15 5 0 else .mld 15 5 0) [0x0F00000000001000]

theorem aMld_reads (tr : Bool) (r : Nat) (_ : r < 32) :
    engineReads (wmat (aMld tr)) ((wmat (aMld tr)).cmdAgent 0 0 (aMld tr)) ((aMld tr).args.getD 0 0 + BitVec.ofNat 64 (r * ((aMld tr).ec.cstr.toNat % 2 ^ 32))) 128
      (seen (wmat (aMld tr)) ((wmat (aMld tr)).cmdAgent 0 0 (aMld tr))) := by
  have h : (aMld tr).ec.cstr.toNat = 0 := by cases tr <;> rfl
  rw [h]
  apply engineReads_of_readable
  simp only [Nat.zero_mod, Nat.mul_zero]
  cases tr <;> decide +kernel

/-- A product of depth 4 in two formats. -/
def aMma (fa fb : Word) : Cmd :=
  { cmd (.mma 15 5 6) [0x0F00000000001000, 0x0F00000000001020] with ec := { EngCsr.reset with fmta := fa, fmtb := fb, klen := 4, plna := 0x0F00000000002000, plnb := 0x0F00000000002000 } }

/-- A drain in a format. -/
def aMst (dfmt : Word) : Cmd :=
  { cmd (.mst 15 5 0 true) [0x0F00000000001000] with ec := { EngCsr.reset with dfmt := dfmt, plna := 0x0F00000000001040, amaxp := 0x0F0000000007FFFC } }

theorem witness_MatrixCommandsAct_data :
    ([true, false].all fun tr => decide (untouched (wmat (aMld tr)) 0 0 0 (aMld tr) ∧ (aMld tr).instr = (if tr then .mldt 15 5 0 else .mld 15 5 0))) = true ∧
    ([(2, 2), (7, 7), (5, 6)].all fun q =>
      let m := aMma q.1 q.2;
      let s := wmat m;
      let n := m.ec.klen.toNat % 2 ^ 20;
      decide (untouched s 0 0 0 m ∧ m.instr = .mma 15 5 6 ∧ 0 < n) &&
      (match s.unitsOk (s.cmdAgent 0 0 m) (operandUnits n (opGroup m) [opA m, opB m]), s.readRows (s.cmdAgent 0 0 m) (opA m) n (opGroup m) (List.range 32),
          s.readRows (s.cmdAgent 0 0 m) (opB m) n (opGroup m) (List.range 32) with
        | .ok _, .ok a, .ok b => a.length == 32 && b.length == 32
        | _, _, _ => false)) = true ∧
    ([(5 : Word), 0x13].all fun f =>
      let m := aMst f;
      let s := wmat m;
      let g := s.cmdAgent 0 0 m;
      let l := (List.range 32).flatMap (drainRuns m (s.tile 0 15));
      decide (untouched s 0 0 0 m ∧ m.instr = .mst 15 5 0 true ∧ Memory.wf s.mem = true ∧ m.ec.amaxp.toNat % 2 ^ 19 + 4 ≤ 0x80000 ∧ spaceOf m.ec.amaxp = .self 0x7FFFC ∧
        s.mergeFault g m.ec.amaxp = none ∧ ∀ i, i < 4 → runByte l (m.ec.amaxp + BitVec.ofNat 64 i) = none) &&
      (match s.engPlace g m.ec.amaxp 4 5 3 with | .ok p => p == .plain (coreKey 0 (m.ec.amaxp.toNat % 2 ^ 19)) | _ => false) &&
      (drainAll m (s.tile 0 15)).all (fun u => u.parts.all (fun r => match spaceOf r.1, s.engPlace g r.1 r.2.length 5 2 with
        | .self o, .ok p => decide (o + r.2.length ≤ 0x80000) && p == .plain (coreKey 0 o)
        | _, _ => false))) = true := by decide +kernel

/-- Rows that the second clause of MatrixCommandsAct reads: 8-bit, 4-bit and 6-bit elements in the own memory. -/
theorem aRow_reads (f : Word) (hf : f ∈ [(3 : Word), 5, 9]) :
    let g := w.slotAgent 0 0;
    let o : Operand := { fmt := f, p := 0x0F0000000007FFC0, str := 0, pln := 0x0F00000000000000, scl := 0, zp := 0 };
    g.walk.reads = [] ∧ ∀ q ∈ o.runs 8 0 31, engineReads w g q.1 q.2 (seen w g) := by
  intro g o
  refine ⟨rfl, fun q hq => engineReads_of_readable ?_⟩
  have h : (o.runs 8 0 31).all (fun q => readable w g q.1 q.2) = true := by
    rcases List.mem_cons.mp hf with rfl | hf
    · decide +kernel
    rcases List.mem_cons.mp hf with rfl | hf
    · decide +kernel
    rcases List.mem_cons.mp hf with rfl | hf
    · decide +kernel
    · cases hf
  exact List.all_eq_true.mp h q hq

theorem witness_CopiesAndWindows :
    (let s := ws (fun x => { x with g := rg [(4, 0x7FFFF), (5, 0x0F00000000001000), (6, 2 ^ 40 - 1), (7, 2 ^ 40)] });
      Instr.cfill 4 5 6 ∈ [Instr.cpy 4 5 6, .cfill 4 5 6] ∧ mayIssue { rs := [4, 5, 6], late := false } s = true ∧ queueOpen s 2 = true ∧ (s.me.rd 6).toNat < 2 ^ 40 ∧
      (s.me.rd 4).toNat < 0x80000 ∧ 2 ^ 40 ≤ (s.me.rd 7).toNat ∧ s.me.branches = []) ∧
    (let s := ws (fun x => { x with ec := { x.ec with cpymask := 0x01020000 } });
      mayIssue { rs := [4, 5, 6], late := false } s = true ∧ rectInside s.me.ec.cpymask s.mine.jobgrid = true ∧ (s.me.rd 6).toNat < 2 ^ 40 ∧ (s.me.rd 4).toNat < 0x80000) ∧
    (let s := ws (fun x => { x with ec := { x.ec with cpyw := 8 } });
      mayIssue { rs := [5, 5], late := false } s = true ∧ queueOpen s 2 = true ∧ (s.me.rd 5).toNat % 2 ^ (3 : BitVec 2).toNat = 0 ∧
      s.me.ec.cpyw.toNat % 2 ^ 40 % 2 ^ (3 : BitVec 2).toNat = 0) ∧
    (let m : Cmd := { cmd (.cpy 4 5 6) [] with num := 3 };
      let s := wc (fun k => { k with exec := [(2, [m])] });
      m.isMarker = false ∧ (tget s.mine.exec 2 []).find? (fun m => m.slot == s.cur.slot && m.num == (s.me.rd 6).toNat) = some m) ∧
    (mayIssue { rs := [6], ws := [4] } w = true ∧ (∀ m ∈ tget w.mine.exec 2 [], m.slot = w.cur.slot → m.num ≠ (w.me.rd 6).toNat)) ∧
    (let s := ws (fun x => { x with g := rg [(4, 0x0F0000000007FFC0), (5, 64), (6, 128)] });
      mayIssue { rs := [4, 5] } s = true ∧ spaceOf (s.me.rd 4) = .self 0x7FFC0 ∧ 0x7FFC0 % 64 = 0 ∧ 0 < (s.me.rd 5).toNat ∧ (s.me.rd 5).toNat % 64 = 0 ∧
      0x7FFC0 + (s.me.rd 5).toNat ≤ 0x80000 ∧ mayIssue { rs := [4, 6] } s = true ∧ 0x80000 < (s.me.rd 4).toNat % 2 ^ 19 + (s.me.rd 6).toNat) ∧
    mayIssue {} w = true ∧ mayIssue { ws := [4] } w = true := by decide +kernel

/-- A copy command that executes in slot 0 of core 0, and its state: window 3 of core 1 is open over the last 64 bytes. -/
def aCopy (i : Instr) : Cmd :=
  { cmd i [(match i with | .cpym _ _ _ => 0x7FFC0 | _ => 0x0F00000000002001), 0x0F0000000000103F, 2] with
      ec := { EngCsr.reset with cpyw := 2, cpyh := 2, cpyss := 64, cpyds := 3, cpymask := 0x01010001 } }
def wcopy (m : Cmd) : State :=
  (wc (fun k => { k with exec := [(2, [m])] })).onCore 1 (fun x =>
    { x with windows := [(3, { isOpen := true, w := true, r := true, base := 0x7FFC0, len := 64, cnt := 0, known := true })] })

/-- Whether every byte of a copy may be written, at a place of its own off the copy's source. -/
def landsApart (m : Cmd) (n : Nat) (l : List Nat) (dst : Nat → Nat → Word) (key : Nat → Nat → Nat) : Bool :=
  let s := wcopy m;
  l.all (fun d => (List.range n).all (fun i =>
    (match s.engPlace (s.cmdAgent 0 2 m) (dst d i) 1 5 2 with | .ok p => p == .plain (key d i) | _ => false) &&
    (s.copyKeys 0 m).all (fun r => !meets r.1 r.2 (key d i) 1) &&
    l.all (fun e => (List.range n).all (fun j => key d i != key e j || (d == e && i == j)))))

theorem witness_CopiesAndWindows_data :
    ([Instr.cpy 4 5 6, .cpym 4 5 6, .cpy2 4 5 true 0, .cpy2 4 5 false 1, .cfill 4 5 6].all fun i =>
      decide (untouched (wcopy (aCopy i)) 0 2 0 (aCopy i) ∧ Memory.wf (wcopy (aCopy i)).mem = true ∧ (aCopy i).instr = i) && sourceReadable (wcopy (aCopy i)) 0 (aCopy i)) = true ∧
    ([Instr.cpy 4 5 6, .cfill 4 5 6].all fun i => landsApart (aCopy i) 2 [0] (fun _ i => 0x0F00000000002001 + BitVec.ofNat 64 i) (fun _ i => coreKey 0 (0x2001 + i))) = true ∧
    gridCores (aCopy (.cpym 4 5 6)).ec.cpymask = [1] ∧ landsApart (aCopy (.cpym 4 5 6)) 2 [1] (fun d i => windowAddr d (0x7FFC0 + i)) (fun d i => coreKey d (0x7FFC0 + i)) = true ∧
    landsApart (aCopy (.cpy2 4 5 true 0)) 4 [0] (fun _ i => 0x0F00000000002001 + BitVec.ofNat 64 (i % 2 / 1) * 3 + BitVec.ofNat 64 (i / 2 * 1 + i % 2 % 1))
      (fun _ i => coreKey 0 (0x2001 + i % 2 * 3 + i / 2)) = true ∧
    landsApart (aCopy (.cpy2 4 5 false 1)) 4 [0] (fun _ i => 0x0F00000000002001 + BitVec.ofNat 64 (i / 2) * 3 + BitVec.ofNat 64 (i % 2))
      (fun _ i => coreKey 0 (0x2001 + i / 2 * 3 + i % 2)) = true := by decide +kernel


theorem witness_PortRegisters :
    (mayIssue { rs := [8, 4] } w = true ∧ (w.me.rd 8).toNat < 2048 ∧ w.inJob w.cur.core (w.me.rd 8).toNat = true ∧ w.returnedTo (w.me.rd 8).toNat = false ∧
      w.sendHeld = false ∧ w.startHeld w.me = false) ∧
    (let s := ws (fun x => { x with g := rg [(4, 2047), (5, 2048)] });
      mayIssue { rs := [4, 8] } s = true ∧ (s.me.rd 4).toNat < 2048 ∧ s.inJob s.cur.core (s.me.rd 4).toNat = false ∧ mayIssue { rs := [5, 8] } s = true ∧
      2048 ≤ (s.me.rd 5).toNat) ∧
    (let p : PortWrite := { id := 0, slot := 0, src := 0, dst := 1, idx := 31, val := 5, returned := false };
      let s : State := { w with portWrites := [p] };
      s.portWrites[0]? = some p ∧ (∀ v ∈ s.portWrites.take 0, ¬(v.src = p.src ∧ v.dst = p.dst)) ∧ (s.core p.dst).vf.moving = none ∧
      s.seamHolds 3 p.src p.dst = false ∧ (s.core p.dst).phase = .running ∧ (s.core p.dst).job = (s.core p.src).job ∧
      (tget (s.core p.dst).ports p.idx Port.reset).present = false ∧
      (let k : State := s.onCore 1 (fun k => { k with ports := [(31, { present := true, val := 1 })] });
        (tget (k.core p.dst).ports p.idx Port.reset).present = true ∧ (k.core p.dst).held.length < 64) ∧
      64 ≤ ((s.onCore 1 (fun k => { k with held := List.replicate 64 p })).core p.dst).held.length) ∧
    (let p : PortWrite := { id := 0, slot := 0, src := 1, dst := 0, idx := 31, val := 5, returned := false };
      let s := wc (fun k => { k with ports := [(31, { present := true, val := 9 })], held := [p] });
      mayIssue { ws := [4] } s = true ∧ tget s.mine.ports (31 : BitVec 5).toNat Port.reset = { present := true, val := 9 } ∧
      s.mine.rtakeBefore s.cur.slot 31 (s.me.waitsSince (.rtake 31) s.rtime.toNat) = false ∧ s.mine.held = [] ++ p :: [] ∧ p.idx = (31 : BitVec 5).toNat ∧
      (∀ v ∈ w.mine.held, v.idx ≠ 31)) ∧
    ((tget w.mine.ports (31 : BitVec 5).toNat Port.reset).present = false ∧ mayIssue { ws := [4] } w = true ∧ mayIssue { ws := [4], late := false } w = true) := by
  decide +kernel

/-- A message from core 0 to core 1. -/
def aMsg : Msg := { id := 0, slot := 0, src := 0, dst := 1, w0 := 5, w1 := 6 }

theorem witness_Messages :
    (mayIssue { rs := [8, 4, 5] } w = true ∧ (w.me.rd 8).toNat < 2048 ∧ w.inJob w.cur.core (w.me.rd 8).toNat = true ∧ w.returnedTo (w.me.rd 8).toNat = false ∧
      w.sendHeld = false ∧ w.startHeld w.me = false) ∧
    (let s := ws (fun x => { x with g := rg [(4, 2047), (5, 2048)] });
      mayIssue { rs := [4, 8, 8] } s = true ∧ (s.me.rd 4).toNat < 2048 ∧ s.inJob s.cur.core (s.me.rd 4).toNat = false ∧ mayIssue { rs := [5, 8, 8] } s = true ∧
      2048 ≤ (s.me.rd 5).toNat) ∧
    (mayIssue { rs := [4, 5, 7], who := .retriever } (atSlot 12 id) = true ∧ (atSlot 12 id).inJob 0 (((atSlot 12 id).me.rd 7).toNat % 2048) = false) ∧
    (let s : State := { w with messages := [aMsg] };
      s.messages[0]? = some aMsg ∧ (∀ v ∈ s.messages.take 0, ¬(v.src = aMsg.src ∧ v.dst = aMsg.dst)) ∧ (s.core 1).vf.moving = none ∧ s.seamHolds 3 0 1 = false ∧
      (s.core 1).phase = .running ∧ (s.core 1).job = (s.core 0).job ∧ (s.core 1).backlog = false ∧ (s.core 1).inbox.length < 32 ∧
      32 ≤ ((s.onCore 1 (fun k => { k with inbox := List.replicate 32 aMsg })).core 1).inbox.length ∧ (s.core 1).staging.length < 4 ∧
      4 ≤ ((s.onCore 1 (fun k => { k with staging := List.replicate 4 aMsg })).core 1).staging.length ∧ (s.slot 1 12).mode = .free) ∧
    (let s := wc (fun k => { k with inbox := [aMsg] });
      mayIssue { ws := [4, 5, 6] } s = true ∧ s.cur.slot ≠ 12 ∧ s.mine.inbox = aMsg :: []) ∧
    (let s := (atSlot 12 id).onMine (fun k => { k with staging := [aMsg] });
      mayIssue { ws := [4, 5, 6] } s = true ∧ s.cur.slot = 12 ∧ s.mine.staging = aMsg :: [] ∧ s.mine.heap < s.mine.hcap) ∧
    (mayIssue { ws := [4, 5, 6] } w = true ∧ w.mine.inbox = [] ∧ mayIssue { ws := [4], late := false } w = true) ∧
    (let s := atSlot 12 id;
      mayIssue { rs := [4, 5, 8], who := .retriever } s = true ∧ s.inJob s.cur.core ((s.me.rd 8).toNat % 2048) = true ∧ s.mine.inbox.length < 32 ∧
      s.mine.staging = [] ∧ (s.onMine (fun k => { k with staging := [aMsg] })).mine.staging ≠ []) := by decide +kernel

/-- A refused post of slot 0 at level l, carried by the core's arrival or not. -/
def anOverrun (l : Nat) (carried : Bool) : Overrun := { lvl := l, carried := carried, fslot := 65535, count := 1, by_ := 0, fpc := live.pc, page := 4, op := 15 }

theorem witness_ExchangePosts :
    (let s := wc (fun k => { k with xslot := [{ tag := 4, slot := 65535, recv := 1 }] });
      let s := s.onMe (fun x => { x with g := rg [(4, 65535), (5, 64), (6, 63)] });
      mayIssue { rs := [4, 5] } s = true ∧ (s.me.rd 5).toNat % 64 = 0 ∧ (∃ p ∈ s.mine.xslot, p.tag = (3 : BitVec 2).toNat + 1 ∧ p.slot = (s.me.rd 4).toNat % 65536) ∧
      s.mine.vecBusy s.cur.slot 2 = false ∧ mayIssue { rs := [4, 6] } s = true ∧ (s.me.rd 6).toNat % 64 ≠ 0) ∧
    (mayIssue { rs := [4, 5] } w = true ∧ (w.me.rd 5).toNat % 64 = 0 ∧ (∀ p ∈ w.mine.xslot, ¬(p.tag = (0 : BitVec 2).toNat + 1 ∧ p.slot = (w.me.rd 4).toNat % 65536)) ∧
      (∀ o ∈ w.mine.overrun, ¬(o.lvl = (0 : BitVec 2).toNat + 1 ∧ o.by_ = w.cur.slot ∧ o.carried = false)) ∧
      (∃ o ∈ (wc (fun k => { k with overrun := [anOverrun 1 false] })).mine.overrun, o.lvl = (0 : BitVec 2).toNat + 1 ∧ o.by_ = w.cur.slot ∧ o.carried = false) ∧
      mayIssue { ws := [4], late := false } w = true) := by decide +kernel

/-- The state with core 0 a member of every channel, and a change of it. -/
def wm (f : Core → Core) : State := wc (fun k => f { k with smask := 0xFFFFFFFF })

theorem witness_BarrierInstructions :
    (let s := wm (fun k => { k with chans := [(31, { ac := 0x7FFE, p := 0, last := Record.zero })] });
      mayIssue { rs := [4], who := .threads } s = true ∧ s.mine.member (31 : BitVec 5).toNat = true ∧ s.mine.chanLevel (31 : BitVec 5).toNat = none ∧
      s.mine.fieldChan (31 : BitVec 5).toNat = false ∧ (s.mine.chan (31 : BitVec 5).toNat).ac - (s.mine.chan (31 : BitVec 5).toNat).p ≠ 32767) ∧
    (let s := wm (fun k => { k with domch := 0x3F, fields := [(3, aField .stopped)], chans := [(30, { ac := 0x7FFE, p := 0xFFFF, last := Record.zero })] });
      mayIssue { rs := [4], who := .threads } s = true ∧ s.mine.member 31 = true ∧ (s.mine.chanLevel 31).isSome = true ∧ s.mine.member 5 = true ∧ s.mine.fieldChan 5 = true ∧
      s.mine.member 30 = true ∧ s.mine.chanLevel 30 = none ∧ s.mine.fieldChan 30 = false ∧ (s.mine.chan 30).ac - (s.mine.chan 30).p = 32767) ∧
    (let s := wm id;
      mayIssue { rs := [0], who := .threads } s = true ∧ 0 ≤ ((s.mine.chan 31).p - (s.me.rd 0).setWidth 16).toInt ∧ ((s.mine.chan 31).p - (s.me.rd 8).setWidth 16).toInt < 0 ∧
      mayIssue { rs := [8], who := .threads } s = true ∧ mayIssue { ws := [4], who := .threads } s = true ∧ s.mine.member 31 = true) ∧
    (mayIssue { rs := [4], who := .threads } w = true ∧ mayIssue { ws := [4], who := .threads } w = true ∧ w.mine.member (31 : BitVec 5).toNat = false) ∧
    (let p : PendArv := { ch := 3, value := 7, slot := 0, after := [7] };
      let s := wm (fun k => { k with arvs := [{ p with ch := 2 }, p] });
      (s.core 0).arvs = [{ p with ch := 2 }] ++ p :: [] ∧ p.ch = 3 ∧ (∀ x ∈ [{ p with ch := 2 }], x.ch ≠ 3) ∧ (∀ i ∈ p.after, i ∉ s.outstanding 0 p.slot)) := by
  decide +kernel

/-- An arrival of core c on channel 0, the first of its phase. -/
def arr (c : Nat) (v : BitVec 32) : Arrival := { core := c, ch := 0, k := 1, value := v, time := 5, ovr := false, digest := none }

/-- Both cores members of channel 0 alone, the first level's, or no level's, with both arrivals in the tree. -/
def wr (domch : Word) : State :=
  let f (k : Core) : Core := { k with smask := 1, domch := domch };
  { (w.onCore 0 f).onCore 1 f with arrivals := [arr 0 4, arr 1 9], rtime := 33 }

theorem witness_SyncAndPhases :
    (let s := wr 0x20;
      mayIssue { who := .control } s = true ∧ s.mine.levelChan ((0 : BitVec 2).toNat + 1) = some 0 ∧ s.mine.member 0 = true ∧ s.mine.sync = .none ∧
      s.me.syncStands ≠ some 1 ∧ (s.onMe (fun x => { x with syncStands := some 1 })).me.syncStands = some ((0 : BitVec 2).toNat + 1)) ∧
    (let s := (wr 0x20).onCore 0 (fun k => { k with sync := .drain 1 0x40 });
      (s.core 0).sync = .drain 1 0x40 ∧ (s.core 0).levelChan 1 = some 0 ∧ s.drained 0 = true) ∧
    (let l := [arr 0 4, arr 1 9];
      (wr 0).phaseArrivals 0 0 = some l ∧ l ≠ [] ∧ (l.map (·.core)).Nodup ∧ ((wr 0).core 0).chanLevel 0 = none ∧ ((wr 0).core 0).fieldOn 0 = none ∧
      (wr 0x20).phaseArrivals 0 0 = some l ∧ ((wr 0x20).core 0).chanLevel 0 = some 1 ∧ (wr 0x20).holdsRelease (l.map (·.core)) = false ∧ (∀ a ∈ l, a.ovr = false) ∧
      phaseTime l ≤ (wr 0).rtime.toNat ∧ phaseTime l ≤ (wr 0x20).rtime.toNat ∧ ({ wr 0 with rtime := 32 } : State).rtime.toNat < phaseTime l ∧
      ({ wr 0 with rtime := 32 } : State).phaseArrivals 0 0 = some l) ∧
    (let l := [arr 0 4, { arr 1 9 with ovr := true }];
      let s : State := { wr 0x20 with arrivals := l };
      s.phaseArrivals 0 0 = some l ∧ (s.core 0).chanLevel 0 = some 1 ∧ s.holdsRelease (l.map (·.core)) = false ∧ (∃ a ∈ l, a.ovr = true) ∧ phaseTime l ≤ s.rtime.toNat) ∧
    ([(0 : BitVec 32), 1].all fun q =>
      let l := [{ arr 0 4 with digest := some 0 }, { arr 1 9 with digest := some q }];
      let f (k : Core) : Core := { k with fields := [(3, { aField .wait with desc := aDesc.set 1 0x0000000001010000 })] };
      let s : State := { ((wr 0).onCore 0 f).onCore 1 f with arrivals := l };
      decide (s.phaseArrivals 0 0 = some l ∧ (s.core 0).chanLevel 0 = none ∧ (∀ a ∈ l, ((s.core a.core).fieldOn 0).isSome = true) ∧ s.holdsRelease (l.map (·.core)) = false ∧
        phaseTime l ≤ s.rtime.toNat ∧ (s.slot 1 (s.fieldSlot 1 (aField .wait))).mode ≠ .free) &&
      (if q = 0 then decide (∀ a ∈ l, ∀ b ∈ l, a.digest = b.digest) else decide (∃ a ∈ l, ∃ b ∈ l, a.digest ≠ b.digest))) = true ∧
    ({ wr 0 with arrivals := [arr 1 9] } : State).phaseArrivals 0 0 = none := by decide +kernel

/-- A flit to core 1 and an exchange of the two cores. -/
def fl (port : Option Nat) (off : Word) : Flit :=
  { slot := 0, src := 0, dst := 1, port := port, off := off, data := 5, bytes := 64, by_ := 0, fpc := 0, page := 4, op := 15, asid := 0, dom := 0 }
def ex (tag : Nat) (todo air : List Flit) (c : Option Nat) (rel : List Nat) : Exch :=
  { xid := 6, job := 1, tag := tag, ch := 0, members := [0, 1], e := 100, slots := 1, hops := 1, todo := todo, air := air, cancelled := false, released := rel, c := c, late := [] }
def wx (e : Exch) : State := { w.onCore 1 (fun k => { k with xareaNow := 0x000000400007FFC0 }) with exchanges := [e], rtime := 200 }

theorem witness_ExchangePhases :
    (let e := ex 1 [fl none 0x7FFC0] [] none [];
      (wx e).exch? 6 = some e ∧ e.todo = fl none 0x7FFC0 :: [] ∧ (wx e).flitTime e (fl none 0x7FFC0) ≤ (wx e).rtime.toNat) ∧
    (let e := ex 4 [] [fl none 0x7FFC0] none [];
      let f := fl none 0x7FFC0;
      (wx e).exch? 6 = some e ∧ e.air[0]? = some f ∧ (∀ g ∈ e.air.take 0, g.dst ≠ f.dst) ∧ (wx e).seamHolds 2 f.src f.dst = false ∧ e.tag < 8 ∧ (wx e).flitTime e f + 2 + hops f.src f.dst + 2 ≤ (wx e).rtime.toNat ∧
      Memory.wf (wx e).mem = true ∧ f.port = none ∧ inXarea ((wx e).core f.dst).xareaNow f.off = true ∧ (wx e).fieldGuard f.dst f.off.toNat 64 = false ∧
      (wx e).foreign f.dst f.dom f.off.toNat 64 = false ∧ (fl (some 31) 0).port = some 31) ∧
    (let f := fl none 0x7FF80;
      let e := ex 4 [] [f] none [];
      (wx e).exch? 6 = some e ∧ e.air[0]? = some f ∧ (wx e).deliveryFault f = some 2 ∧ ((wx e).slot f.src f.by_).mode ≠ .free ∧
      inXarea ((wx e).core f.dst).xareaNow f.off = false ∧ (wx e).foreign f.dst f.dom f.off.toNat 64 = false) ∧
    (let f (e : Exch) : State := (wx e).onCore 1 (fun k => { k with fields := [(0, { aField .sites with desc := (aDesc.set 1 0x0000000501010000) }), (1, { aField .sites with desc := (aDesc.set 1 0x0000000601010000) })] });
      let e := { ex 8 [] [fl none 0] none [] with ch := 5 };
      (wx e).haloGuard 1 5 0 64 = false ∧ (f e).haloGuard 1 5 (fl none 0x3000).off.toNat 64 = true) ∧
    (let e := ex 8 [] [fl none 0] none [];
      (wx e).exch? 6 = some e ∧ e.air[0]? = some (fl none 0) ∧ 8 ≤ e.tag ∧ (wx e).flitTime e (fl none 0) + 2 + hops 0 1 + 2 ≤ (wx e).rtime.toNat ∧ Memory.wf (wx e).mem = true) ∧
    (let e := ex 1 [] [] none [];
      (wx e).exch? 6 = some e ∧ e.todo = [] ∧ e.air = [] ∧ e.c = none ∧ (wx e).withheld e = false ∧ (wx e).releaseTime e + 95 ≤ (wx e).rtime.toNat ∧ e.slots ≠ 0 ∧ ({ e with slots := 0 } : Exch).slots = 0) ∧
    (let e := ex 1 [] [] (some 200) [0, 1];
      let p : Wait := { kind := .sync 1, since := 0, limit := 0, mark := false };
      let s := (wx e).onSlot 0 0 (fun x => { x with park := some p });
      s.releasing 0 = some e ∧ e.tag < 8 ∧ (s.slot 0 0).park = some p ∧ p.kind = .sync e.tag ∧ (s.core 0).gangDone = none ∧ s.staggered e 0 (e.c.getD 0) ≤ s.rtime.toNat ∧
      (∃ q ∈ ({ e with late := [(0, 0, aTrap)] } : Exch).late, q.1 = 0 ∧ (s.slot 0 q.2.1).mode ≠ .free) ∧
      ∃ o ∈ ((s.onCore 0 (fun k => { k with overrun := [anOverrun 1 true] })).core 0).overrun, o.lvl = e.tag ∧ o.carried = true ∧ (s.slot 0 o.by_).mode ≠ .free) := by
  decide +kernel

/-- Slots 1 to 10 live. -/
def full : State := wc (fun k => { k with slots := (List.range 11).map (fun t => (t, live)) })

theorem witness_HelpersAndGangs :
    (mayIssue { rs := [4, 5], ws := [4], var := true, who := .threads } w = true ∧ w.me.mode ≠ .free ∧ (w.mine.slot 1).mode = .free ∧
      (let s := full.onCore 0 (fun k => { k with slots := k.slots.take 10 });
        s.me.mode ≠ .free ∧ (s.mine.slot 10).mode = .free ∧ (List.range' 1 9).all (fun q => (s.mine.slot q).mode != .free) = true)) ∧
    (let s := wa (acc (.atomic 20) 0x0F00000000001000 here);
      mayIssue { rs := [4, 5], ws := [4], var := true, who := .threads } s = true ∧ s.me.mode ≠ .free ∧ (s.mine.slot 1).mode = .free ∧
      s.me.acc = [acc (.atomic 20) 0x0F00000000001000 here]) ∧
    (mayIssue { rs := [4, 5], ws := [4], var := true, who := .threads } full = true ∧ (List.range' 1 10).all (fun q => (full.mine.slot q).mode != .free) = true) ∧
    (mayIssue { rs := [4], who := .threads } w = true ∧
      (List.range' 1 10).all (fun q => !(w.me.rd 4).getLsbD q || w.mine.hdone.getLsbD (q - 1)) = true ∧
      (let s := (ws (fun x => { x with g := rg [(4, 0x400)] })).onMine (fun k => { k with hdone := 0x200 });
        mayIssue { rs := [4], who := .threads } s = true ∧ s.mine.hdone.getLsbD (10 - 1) = true ∧ (s.mine.slot (departed 10)).acc = [] ∧
        let s := s.onMine (fun k => { k with slots := k.slots ++ [(departed 10, { Slot.reset with acc := [acc .store 0x0F00000000001000 here] })] });
        (s.mine.slot (departed 10)).acc ≠ []) ∧
      (let s := (ws (fun x => { x with g := rg [(4, 0x400)] })).onMine (fun k => { k with hdone := 0x1FF });
        mayIssue { rs := [4], who := .threads } s = true ∧ 1 ≤ 10 ∧ 10 ≤ 10 ∧ (s.me.rd 4).getLsbD 10 = true ∧ s.mine.hdone.getLsbD (10 - 1) = false)) ∧
    mayIssue { ws := [4], who := .threads } w = true ∧
    (let s := ws (fun x => { x with g := rg [(4, 3), (5, 0xC0), (6, 5)] });
      mayIssue { rs := [4], who := .control } s = true ∧ s.inGang = false ∧ (s.me.rd 4) ∈ ([0x03, 0x0C, 0x30, 0xC0, 0x0F, 0xF0, 0xFF] : List Word) ∧
      (s.me.rd 4).getLsbD (s.cur.core % 8) = true ∧ mayIssue { rs := [5], who := .control } s = true ∧ (s.me.rd 5).getLsbD (s.cur.core % 8) = false ∧
      mayIssue { rs := [5], who := .control } ganged = true ∧ ganged.inGang = true ∧
      mayIssue { rs := [6], who := .control } s = true ∧ ¬((s.me.rd 6) ∈ ([0x03, 0x0C, 0x30, 0xC0, 0x0F, 0xF0, 0xFF] : List Word))) ∧
    (let p : Wait := { kind := .gang, since := 0, limit := 0, mark := false };
      let f (s : State) (c : Nat) := (s.onCore c (fun k => { k with gangReq := 3 })).onSlot c 0 (fun x => { x with park := some p });
      let s : State := { f (f w 0) 1 with rtime := 4 };
      (s.core 0).gangReq ≠ 0 ∧ (∀ d ∈ gangCores 0 (s.core 0).gangReq, s.asksGang d (s.core 0).gangReq = true ∧ (s.slot d 0).park = some p ∧ p.since + 4 ≤ s.rtime.toNat)) ∧
    (let s := ganged.onCore 1 (fun k => { k with gangDone := some aStep });
      mayIssue { who := .threads } s = true ∧ s.cur.slot = 0 ∧ s.gangOf s.cur.core = [0, 1] ∧ s.lastOfGang = true ∧ ganged.lastOfGang = false) ∧
    (mayIssue { who := .threads } w = true ∧ w.cur.slot = 0 ∧ mayIssue { who := .threads } (atSlot 10 id) = true ∧ (atSlot 10 id).cur.slot ≠ 0) := by decide +kernel

theorem witness_PowerSteps :
    (mayIssue { rs := [7], ws := [4], who := .threads } w = true ∧ (w.me.rd 0).toNat % 65536 = 0 ∧ (w.me.rd 7).toNat % 65536 ≠ 0 ∧
      mayIssue { rs := [0], ws := [4], who := .threads } w = true ∧ 0 < (wc (fun k => { k with vf := { k.vf with lease := 1024 } })).mine.vf.lease) ∧
    (let s := wc (fun k => { k with vf := { k.vf with mail := some 15 } });
      (s.core 0).vf.mail = some 15 ∧ (s.core 0).vf.moving = none ∧ s.exchanging 0 = false) ∧
    ((wc (fun k => { k with vf := { k.vf with moving := some 0 } })).core 0).vf.moving = some 0 ∧
    ((wc (fun k => { k with vf := { k.vf with cap := 14 } })).core 0).vf.cap < 15 ∧
    (let s : State := { w with jobs := [{ aJob with phase := .placed }] };
      (∀ j ∈ s.jobs, s.timeInWindow j = 0) ∧ s.gone = []) ∧
    w.jobs[0]? = some aJob ∧ w.timeInWindow aJob = 0 ∧
    (let s : State := { w.onCore 1 (fun k => { k with slice := true }) with remap := [(0, 0x1003000)] };
      let s : State := s.onCore 0 (fun k => { k with cycle := 20000 });
      (0 : Nat) ≠ 1 ∧ s.partner 0 = some 1 ∧ (s.core 0).slice = false ∧ (s.core 1).slice = true ∧ (s.core 1).phase = .running ∧ (s.core 1).atSync = false ∧ 20000 ≤ ((s.core 0).cycle - (s.core 0).sliceAt).toNat ∧
      s.drained 0 = true ∧ s.drains 0 = false ∧
      (s.onCore 0 (fun k => { k with exec := [(1, [cmd (.ewait 1 2 0) [0]])] })).drains 0 = true) := by decide +kernel

/-- Gates on, and gate 1023 open to domain 0; slot 10 issues. -/
def gated : State :=
  { (atSlot 10 id).onMine (fun k => { k with gatesOn := true }) with gates := [(1023, { w0 := 0x1DFF, w1 := 0x0F00000000000100, w2 := 1, w3 := 0 })] }

theorem witness_GateCalls :
    (let s := gated;
      mayIssue { who := .threads } s = true ∧ (∀ d ∈ s.waiting, s.gateFault d s.cur.slot 1023 = none) ∧ s.gateFault s.cur.core s.cur.slot 1023 = none ∧
      (∀ d ∈ s.waiting, s.busy d s.cur.slot = false) ∧ s.me.pend = 0 ∧ Memory.wf s.mem = true ∧ s.cur.slot ≤ 10) ∧
    (match exec (.gate 1023) gated with
      | .next u => decide (u.cur.core = gated.cur.core ∧ u.cur.slot = gated.cur.slot ∧ mayIssue {} u = true ∧ ∀ d ∈ u.waiting, u.busy d gated.cur.slot = false)
      | _ => false) = true ∧
    (let s := gated.onMe (fun x => { x with calls := [aCall] });
      mayIssue {} s = true ∧ s.me.calls = aCall :: [] ∧ ∀ d ∈ s.waiting, s.busy d s.cur.slot = false) ∧
    (mayIssue {} (atSlot 12 id) = true ∧ (atSlot 12 id).me.calls = []) := by decide +kernel

/-- An object over the first page of the commons whose class has e in state 0, and the state with an access to it. -/
def anObj (owned : Bool) : Obj :=
  { id := 1, exts := [(commonsKey 0, 4096)], addr := 0x0D00000000000000, binder := 0, log2 := 12, cls := 0, scope := 0, state := 0, owner := 0, owned := owned, tag := 0,
    queue := [], m := none, adopted := none }
def wo (e : Half) (k : AccKind) : State := { wa (acc k 0x0D00000000000000 inCommons) with objs := [anObj true], classes := [(0, [e])] }

theorem no_parks_is_not_full (s : State) (o : Obj) (h : ∀ x ∈ s.objs, x.queue = []) : s.parksFull o = false := by
  have : ((s.objs.filter (fun x => homeOf x.base == homeOf o.base)).map (fun x => x.queue.length)).sum = 0 :=
    List.sum_eq_zero fun n hn => by
      obtain ⟨x, hx, rfl⟩ := List.mem_map.1 hn
      simp [h x (List.mem_of_mem_filter hx)]
  simp [State.parksFull, this, Config.parksPerSlice]

theorem witness_DirectoryChecks :
    (wo 0x0830 .store).dirCheck (anObj true) 0 2 0 false = .legal 0x0830 ∧
    ([(0x0810, AccKind.load true, 0), (0x0820, .store, 0), (0x0C10, .store, 1), (0x0820, .load false, 2)] : List (Half × AccKind × Nat)).all (fun q =>
      let s := wo q.1 q.2.1;
      let a := acc q.2.1 0x0D00000000000000 inCommons;
      decide ((s.slot 0 0).splitAcc 7 = ([], some a) ∧ a.place = some inCommons ∧ a.x = 0 ∧ s.objOf inCommons = some (anObj true) ∧ s.mayPerform [] a = true ∧
        s.targetPaused 0 a.va = false ∧ s.deny (a.agent 0 0) a.va a.size inCommons a.kind.acc (a.kind.shape a.span) = none ∧ (s.slot 0 0).mode ≠ .free ∧ a.dest ≠ 0 ∧ Memory.wf s.mem = true) &&
      (match s.dirCheck (anObj true) 0 a.kind.need 0 false, q.2.2 with | .legal _, 0 => true | .fault _, 1 => true | .park, 2 => true | _, _ => false)) = true ∧
    (wo 0x0820 (.load false)).parksFull (anObj true) = false ∧
    ([AccKind.stget true, .stget false, .stdrop].all (fun k =>
      let s := wo 0x0800 k;
      let a := acc k 0x0D00000000000000 inCommons;
      decide ((s.slot 0 0).splitAcc 7 = ([], some a) ∧ a.place = some inCommons ∧ a.x = 0 ∧ a.dest ≠ 0 ∧ s.mayPerform [] a = true ∧ s.targetPaused 0 a.va = false ∧
        s.objOf inCommons = some (anObj true) ∧ (anObj true).base = inCommons.key ∧ (anObj true).owner = 0 ∧ (anObj true).queue = []))) = true ∧
    (mayIssue { rs := [6, 5] } w = true ∧ (w.me.rd 5).toNat % 64 = 0 ∧ spaceOf (w.me.rd 5) ≠ .reserved ∧ w.blockHeld (w.me.rd 5) 512 = false ∧ (∀ o ∈ w.objs, ¬(o.binder = w.me.dom ∧ o.cls = (w.me.rd 6).toNat % 64)) ∧
      (match (w.onMe (fun x => { x with park := none })).blockRead (w.me.rd 5) 512 with
        | .ok l => tableOk ((List.range 256).map (fun i => BitVec.ofNat 16 (ofBytes ((l.drop (2 * i)).take 2))))
        | _ => false) = true) ∧
    (let s := ws (fun x => { x with g := rg [(5, 0x0C00000000000040)] });
      mayIssue { rs := [6, 5] } s = true ∧ (s.me.rd 5).toNat % 64 = 0 ∧ spaceOf (s.me.rd 5) = .reserved) ∧
    (∀ d q, spaceOf 0x0D00000000000000 ≠ .window d q) :=
  ⟨by decide +kernel, by decide +kernel, no_parks_is_not_full _ _ (by decide), by decide +kernel, by decide +kernel, by decide +kernel, commons_is_no_window⟩

theorem witness_FirmwareInstructions :
    (let s : State := { ws (fun x => { x with g := rg [(4, 2047), (5, 0x0F00000000001000), (6, 1023), (7, 1024), (8, 0x0F00000000001008), (9, 0x800FFFFF), (10, 0x100000000), (11, 0x5FFFFF), (12, 0x800000), (13, 0x600000), (14, 0x0C00000000000020)] }) with mem := Memory.writeN [] (coreKey 0 0x1000) 8 0x2004 };
      mayIssue { rs := [4, 5], priv := true } s = true ∧ spaceOf (s.me.rd 5) = .self 0x1000 ∧ 0x1000 % 32 = 0 ∧ (s.me.rd 4).toNat < 2048 ∧ s.blockHeld (s.me.rd 5) 32 = false ∧ (s.core 2047).vf.moving = none ∧
      ((s.onCore 2047 (fun k => { k with vf := { k.vf with moving := some 9 } })).core 2047).vf.moving ≠ none ∧ s.poisoned (coreKey s.cur.core 0x1000) 32 = none ∧
      (fillEntry (s.coreWord s.cur.core 0x1000) (s.coreWord s.cur.core 0x1008) (s.coreWord s.cur.core 0x1010) (s.coreWord s.cur.core 0x1018)).map (·.2) = some true ∧
      (mayIssue { rs := [4, 9], priv := true } s = true ∧ (s.me.rd 9).toNat < 2 ^ 32 ∧ (s.me.rd 9).getLsbD 31 = true ∧ 2 ^ 32 ≤ (s.me.rd 10).toNat) ∧
      (mayIssue { rs := [4, 11], priv := true } s = true ∧ (s.me.rd 11).toNat < 2 ^ 23 ∧ (s.me.rd 11).toNat / 2 ^ 21 % 4 ≠ 3 ∧ 2 ^ 23 ≤ (s.me.rd 12).toNat ∧
        (s.me.rd 13).toNat / 2 ^ 21 % 4 = 3) ∧
      (mayIssue { rs := [6, 5], priv := true } s = true ∧ (s.me.rd 5).toNat % 32 = 0 ∧ (s.me.rd 6).toNat < 1024 ∧ spaceOf (s.me.rd 5) ≠ .reserved ∧
        (match (s.onMe (fun x => { x with park := none })).blockRead (s.me.rd 5) 32 with | .ok l => l.length == 32 | _ => false) = true ∧ ({ w0 := 0x2004, w1 := 0, w2 := 0, w3 := 0 } : GateEntry).ok = true) ∧
      ((s.me.rd 8).toNat % 32 ≠ 0 ∧ mayIssue { rs := [4, 8], priv := true } s = true ∧ 1024 ≤ (s.me.rd 7).toNat ∧ mayIssue { rs := [7, 5], priv := true } s = true) ∧
      (mayIssue { rs := [6, 14], priv := true } s = true ∧ (s.me.rd 14).toNat % 32 = 0 ∧ spaceOf (s.me.rd 14) = .reserved) ∧
      mayIssue { rs := [5], priv := true } s = true) := by decide +kernel


/-- Field 3 defined with it, and a command of its engine. -/
def wf (f : Field) (q : List Cmd) : State := wc (fun k => { k with smask := 0x20, fields := [(3, f)], exec := [(3, q)] })

/-- Coupling tables: the first live, the second free, of one class. -/
def ct (n st : Nat) : Obj :=
  { anObj true with id := n, exts := [(commonsKey (n * 0x1000), 4096)], addr := 0x0D00000000000000 + BitVec.ofNat 64 (n * 0x1000), state := st }
def wd : State :=
  { (wc (fun k => { k with smask := 0x20 })).onMe (fun x => { x with g := rg [(5, 0x0F0000000007FF80)] }) with
      objs := [ct 0 3, ct 1 0], classes := [(0, (List.range 80).map (fun j => BitVec.ofNat 16 (coupleEntry j)))]
      mem := Memory.writeBytes [] (coreKey 0 0x7FF80) (aDesc.flatMap (fun x => bytesOf 8 x.toNat)) }

theorem witness_FieldsAndTheHerder_threads :
    (let s := wf (aField .stopped) [];
      let s := s.onMe (fun x => { x with g := rg [(4, 3), (5, 0x7FFFFFFFF), (6, 0x0D00000000002000), (7, 4)] });
      mayIssue { rs := [4], who := .threads } s = true ∧ mayIssue { rs := [4, 5], who := .threads } s = true ∧ mayIssue { rs := [4, 5, 6], who := .threads } s = true ∧
      (tget s.mine.queue 3 []).length < 2 ∧ s.mine.field? (s.me.rd 4).toNat = some (aField .stopped) ∧ (s.me.rd 6).toNat % 64 = 0 ∧
      mayIssue { rs := [7, 5], who := .threads } s = true ∧ s.mine.field? (s.me.rd 7).toNat = none ∧
      mayIssue { rs := [4], ws := [8], late := false, who := .threads } s = true) ∧
    (let s := wd;
      mayIssue { rs := [5], ws := [4], who := .threads } s = true ∧ s.me.acc = [] ∧ s.startHeld s.me = false ∧ (0 : Nat) ∉ tkeys s.mine.fields ∧
      spaceOf (s.me.rd 5) = .self 0x7FF80 ∧ 0x7FF80 % 64 = 0 ∧ 0x7FF80 + 128 ≤ 0x80000 ∧ s.fieldReach s.cur.core s.me.dom 0x7FF80 aDesc = true ∧
      aDesc = (List.range 16).map (fun i => s.coreWord s.cur.core (0x7FF80 + 8 * i)) ∧ descReserved aDesc = true ∧ descShape aDesc = true ∧ descColours aDesc = true ∧
      descRanges s.mine aDesc = true ∧ s.descPlace s.cur.core aDesc = true ∧ s.me.codebase.toNat ≤ (fENTRY aDesc).toNat ∧ (fENTRY aDesc).toNat < s.me.codelim.toNat ∧
      clash aDesc = none ∧
      (let t : State := s.onMe (fun x => { x with park := none });
       match t.couple s.cur.core (t.slotAgent s.cur.core s.cur.slot) aDesc with | .ok _ => true | _ => false) = true) := by decide +kernel

theorem witness_FieldsAndTheHerder_sweep :
    (let s := (atSlot 11 id).onMine (fun k => { k with fields := [(3, aField (.routine 1))] });
      mayIssue { who := .sweep } s = true ∧ s.me.pend = 0 ∧ s.me.acc = [] ∧ (∀ m ∈ s.mine.cmds 1, m.slot ≠ 11) ∧ Memory.wf s.mem = true ∧
      s.mine.fields.findSome? (fun p => match p.2.stage with | .routine l => some (p.1, p.2, l) | _ => none) = some (3, aField (.routine 1), 1)) ∧
    (let f : Field := { aField .sites with todo := [1] };
      let s := wf f [];
      (s.core 0).field? 3 = some f ∧ f.todo = 1 :: [] ∧ f.stage = .sites ∧ f.failed = false ∧ (s.slot 0 11).mode = .free ∧ s.herds 0 = true) ∧
    (let s : State := { wf (aField .sweep) [] with objs := [ct 0 3, ct 1 2] };
      let f := aField .sweep;
      (s.core 0).field? 3 = some f ∧ f.asked = false ∧ (s.core 0).snapping 3 f = false ∧ s.herds 0 = true ∧
      s.objWithBase (f.cts.getD (ofBool (!f.live1)) 0) = some (ct 1 2) ∧ s.objWithBase (f.cts.getD (ofBool f.live1) 0) = some (ct 0 3)) ∧
    (let f : Field := { aField .sweep with asked := true };
      let s := wf f [];
      (s.core 0).field? 3 = some f ∧ f.stage = .sweep ∧ f.asked = true ∧ s.herds 0 = true ∧ s.adoptedAt f = false) ∧
    (let f : Field := { aField .sweep with asked := true };
      let s : State := { wf f [] with objs := [ct 0 0, { ct 1 3 with adopted := some 1 }], classes := wd.classes };
      (s.core 0).field? 3 = some f ∧ f.stage = .sweep ∧ s.herds 0 = true ∧ s.adoptedAt f = true ∧
      (match s.coupleCopy 0 (s.fieldAgent 0 3 f) f.desc (!f.live1) with | .ok _ => true | _ => false) = true) ∧
    (let s := wf (aField .sites) [];
      (s.core 0).field? 3 = some (aField .sites) ∧ (aField .sites).todo = [] ∧ s.herds 0 = true) ∧
    (let m := cmd (.fldsnap 4 5 (some 6)) [3, 0, 0x0F00000000008000];
      let s := wf (aField .sweep) [m];
      (tget (s.core 0).exec 3 []).find? (fun m => match m.instr with | .fldsnap _ _ _ => true | _ => false) = some m ∧
      (s.core 0).field? (m.args.getD 0 0).toNat = some (aField .sweep) ∧ (aField .sweep).atEnd (m.args.getD 1 0).toNat = true ∧
      s.poisoned (coreKey 0 (fPATCH aDesc)) (fSites aDesc * fW aDesc) = none ∧
      (match s.engWrites (s.cmdAgent 0 3 m) 0 ((s.snapUnits 0 aDesc (m.args.getD 2 0)).map .run) with | .ok _ => true | _ => false) = true) := by decide +kernel

/-- A queue with one entry posted, and its packet: a rectangle of one core, level 1 on channel 0, image and tables in host memory. -/
def aQueue : WQueue := { WQueue.reset with ring := 0x4000, ctlw := 0x08002004, widx := 1 }
def aPkt : List Word :=
  [0x10000, 0x77, 0x01010000, 0x20, 0, 0x8000, 0, 0, 0, 0, 0, 0, 0, 0, 0, 0, 0, 0, 0x9000, 0, 0, 0, 0, 0, 0, 0, 0, 0, 0, 0, 0, 0]
def aHdr : List Word := [0x100, 0, 0, 0x80000, 0x4000000000, 0, 0, 0]
def wq (p : List Word) : State :=
  { State.reset with
      stage := 7, ready := true, queues := [(0, aQueue)], remap := [(0, 0x1000000)]
      mem := Memory.writeBytes (Memory.writeBytes (Memory.writeBytes [] (hostKey 0x4000) (p.flatMap (fun x => bytesOf 8 x.toNat))) (hostKey 0x8000) [1])
        (hostKey 0x10000) (aHdr.flatMap (fun x => bytesOf 8 x.toNat)) }
def aHead : Head := { num := 1, pkt := aPkt, hdr := aHdr, memb := [1], scheds := [], args := [] }

/-- A job of that packet that holds core 0. -/
def aJob1 (ph : JobPhase) : Job := { aJob with pkt := aPkt, hdr := aHdr, memb := [1], phase := ph }
def wj (j : Job) (f : Core → Core) : State := { wq aPkt with jobs := [j], cores := [(0, f { one with jobgrid := 0x01010000 })] }

theorem anObj_is_not_full (s : State) (h : s.objs = [anObj true]) : s.parksFull (anObj true) = false := by
  simp [State.parksFull, h, anObj, Config.parksPerSlice]

theorem witness_HostSideAndJobs_queues :
    (State.reset.ready = false ∧ w.ready = true ∧ (65535 : Nat) < 65536 ∧ (3 : BitVec 2).toNat ≥ 2 ∧ (0x2000 : Word).getLsbD 13 = true ∧ (w.queue 65535).en = false) ∧
    (let s := wq aPkt;
      let x := s.queue 0;
      s.ready = true ∧ x.en = true ∧ x.ridx < 2 ^ 32 ∧ x.widx < 2 ^ 32 ∧ x.ien = true ∧ (s.msixVec x.vec).masked = false ∧
      ((16 + 2 ^ 32 - x.widx) % 2 ^ 32 < 2 ^ 31 ∧ (16 + 2 ^ 32 - x.ridx) % 2 ^ 32 ≤ 2 ^ x.log2) ∧ 2 ^ 31 ≤ (0 + 2 ^ 32 - x.widx) % 2 ^ 32 ∧
      2 ^ x.log2 < (17 + 2 ^ 32 - x.ridx) % 2 ^ 32) ∧
    ((2047 : Nat) < 2048 ∧ Memory.wf State.reset.mem = true ∧ (Config.commonsBytes - 8) % 8 = 0 ∧ Config.commonsBytes - 8 < Config.commonsBytes ∧
      [true, false].all (fun wr => State.reset.admits (commonsKey (Config.commonsBytes - 8)) wr) = true ∧ (some true : Option Bool) ≠ some false ∧ State.reset.priEnable = true ∧
      ({ State.reset with priEnable := false } : State).priEnable = false ∧
      ({ State.reset with fail := true } : State).fail = true ∧ State.reset.hostWaits = []) ∧
    ([((0x0820 : Half), false), (0x0810, false), (0x0C20, true), (0x0C10, true)].zipIdx.all fun x =>
      let s : State := { State.reset with objs := [anObj true], classes := [(0, [x.1.1])] };
      decide (s.admits (commonsKey 0) (x.2 % 2 == 1) = false ∧ s.faultsFor (commonsKey 0) (x.2 % 2 == 1) = x.1.2) &&
      (s.objAt (commonsKey 0) == some (anObj true)) && (anObj true).queue.isEmpty) = true ∧
    ([aPkt, aPkt.set 20 1, (aPkt.set 20 1).set 19 0x100000].zipIdx.all fun q =>
      let s := wq q.1;
      decide (s.ready = true ∧ (s.queue 0).en = true ∧ (s.queue 0).ridx ≠ (s.queue 0).widx ∧ (∀ x ∈ s.heads, x.1 ≠ 0) ∧ (∀ x ∈ s.verdicts, x.1 ≠ 0) ∧ s.keepsHead 0 = false ∧
        s.objs = [] ∧ s.devReads = []) &&
      (match s.readEntry 0 (jobId 0 ((s.queue 0).num + 1)) with | .ok p => p == q.1 | _ => false) &&
      (match s.checkHead 0 ((s.queue 0).num + 1) q.1, q.2 with
        | .accept _, 0 => true
        | .reject st, 1 => (match s.devWrite (pkAgent (jobId 0 ((s.queue 0).num + 1)) q.1) (pkW q.1 18)
            ((rejectRecord st ((s.queue 0).num + 1) s.rtime).flatMap (fun w => bytesOf 8 w.toNat)) with | DevRes.ok _ => true | _ => false)
        | .reject st, 2 => (match s.devWrite (pkAgent (jobId 0 ((s.queue 0).num + 1)) q.1) (pkW q.1 18)
            ((rejectRecord st ((s.queue 0).num + 1) s.rtime).flatMap (fun w => bytesOf 8 w.toNat)) with | DevRes.need _ => true | _ => false)
        | _, _ => false)) = true ∧
    (let v : Verdict := { num := 1, pkt := aPkt, status := 4 };
      let s : State := { wq aPkt with verdicts := [(0, v)] };
      s.ready = true ∧ s.verdicts.find? (fun x => x.1 == 0) = some (0, v) ∧
      (match s.devWrite (pkAgent (jobId 0 v.num) v.pkt) (pkW v.pkt 18) ((rejectRecord v.status v.num s.rtime).flatMap (fun w => bytesOf 8 w.toNat)) with
        | DevRes.ok _ => true | _ => false) = true) := by decide +kernel

theorem witness_HostSideAndJobs_launch :
    (let s : State := { wq aPkt with heads := [(0, aHead)] };
      s.ready = true ∧ (s.markPreempt.pickQueue.map (fun p => (p.1, p.2.1))) = some (0, aHead) ∧ pkResume aHead.pkt = false ∧
      s.markPreempt.eligible 0 aHead = true) ∧
    (let j := aJob1 .claimed;
      let s := wj j id;
      s.job? 1 = some j ∧ j.phase = .claimed ∧ s.movingIn (pkGrid j.pkt) = false ∧ (match s.readImage j with | .ok _ => true | _ => false) = true ∧ j.cores.Nodup) ∧
    ((wj (aJob1 .placed) id).job? 1 = some (aJob1 .placed)) ∧
    ((wj (aJob1 .running) (fun k => k.setSlot 0 { live with park := some { kind := .ended, since := 0, limit := 0, mark := false } })).coreDone 0 = true) ∧
    (let j := aJob1 .running;
      let s := wj j (fun k => { k with phase := .ended });
      Memory.wf s.mem = true ∧ s.job? 1 = some j ∧ s.cancelledAt j = false ∧ s.finalStatus j = some 0 ∧ s.inFlight j = false ∧ s.behind j = false ∧ 0 ≠ 7 ∧ pkPv j.pkt = false ∧ (j.pw 18).toNat % 64 = 0 ∧ oneSpace (j.pw 18) 64 = true ∧
      (let j := { j with pkt := aPkt.set 18 0x0D00000000000000 };
        (j.pw 18).toNat / 2 ^ 56 = 0x0D ∧ (List.range 64).all (fun i => s.admits (commonsKey ((j.pw 18).toNat % 2 ^ 28 + i)) true) = true) ∧
      (List.range 64).all (fun i => s.admits (hostKey (j.pw 18).toNat + i) true) = true) ∧
    (let s := wj (aJob1 .stopped7) id;
      s.job? 1 = some (aJob1 .stopped7) ∧ (wj { aJob1 .stopped7 with save := some 4 } id).jobs.find?
        (fun j => j.save == some 4 && (match j.phase with | .stopped7 => true | _ => false)) = some { aJob1 .stopped7 with save := some 4 }) := by decide +kernel

theorem witness_HostSideAndJobs_kill : (∀ st, (aJob1 .running).phase ≠ .stopping st) ∧ (aJob1 .running).phase ≠ .stopped7 ∧ (wj (aJob1 .running) id).job? 1 = some (aJob1 .running) :=
  ⟨nofun, nofun, by decide +kernel⟩

/-- A save of the job with its core. -/
def aSave (j : Job) : Save := { id := 4, job := j, cores := [(0, one)], mem := [], arrivals := [], exchanges := [], writes := [], messages := [], time := 0 }

theorem witness_HostSideAndJobs_saves :
    (let j := { aJob1 .running with preempt := true };
      let e : Exch := { ex 1 [] [] none [] with members := [0] };
      let s : State := { wj j (fun k => { k with bkptHit := true }) with exchanges := [e] };
      s.job? 1 = some j ∧ j.phase = .running ∧ s.safePoint j = true ∧ (∃ c ∈ s.held j, (s.core c).bkptHit = true) ∧ j.preempt = true) ∧
    (let j := { aJob1 .running with preempt := true, draining := true, pkt := aPkt.set 2 0x01010000 };
      let s : State := { wj j id with stepLimit := some (0, 0, 0) };
      s.job? 1 = some j ∧ pkDet j.pkt = false ∧ j.draining = true ∧ s.quiet j false = true ∧ s.stepLimit = some (0, 0, 0) ∧ 0 ≤ (s.slot 0 0).icount ∧
      (s.core 0).job = some 1 ∧ s.quiet j true = true ∧ ({ j with draining := false } : Job).draining = false) ∧
    (let j := aJob1 (.saved true);
      let s : State := { wj j (fun k => { k with job := none }) with saves := [aSave j] };
      s.job? 1 = some j ∧ j.phase = .saved true ∧ s.resumeFrom j (none : Option (Nat × Nat × Nat)).isSome = some (aSave j) ∧
      s.resumeFrom j (some ((0, 0, 9) : Nat × Nat × Nat)).isSome = some (aSave j) ∧ s.movingIn (pkGrid j.pkt) = false ∧ (∀ o ∈ s.objs, o.queue = []) ∧ s.answers = [] ∧ s.ready = true ∧ s.busyGrid (pkGrid j.pkt) = false ∧
      s.remapped (pkGrid j.pkt) = true ∧ s.blocked j.prio (pkGrid j.pkt) = false ∧ s.outranked j.prio (pkGrid j.pkt) = false ∧ ((aSave j).cores.map (·.1)).Nodup) := by decide +kernel

theorem witness_HostSideAndJobs_traps :
    ([Park.gang, .rtake 31, .tlb 7].all fun k =>
      let p : Wait := { kind := k, since := 0, limit := 5, mark := false };
      let s : State := { ws (fun x => { x with tvec := 1, park := some p, acc := [missing (.pageReq 4 0)] }) with rtime := 5 };
      decide ((s.slot 0 0).park = some p ∧ s.expired 0 0 p = true ∧ (s.waitWord 0 0 p).isSome = true ∧ (0 : Nat) ≠ 11 ∧ (s.slot 0 0).calls = [] ∧
        (s.slot 0 0).tvec.getLsbD 0 = true ∧ (s.slot 0 0).hnd = false ∧ (s.core 0).gang = 0)) = true ∧
    (let s := ws (fun x => { x with tvec := 1, traps := [{ aTrap with code := 0x07, defer := true }] });
      (s.core 0).vf.moving = none ∧ (s.slot 0 0).abort = none ∧ s.boundary 0 0 = true ∧ s.nextTrap 0 0 = some { aTrap with code := 0x07, defer := true } ∧ (s.slot 0 0).calls = [] ∧
      (s.slot 0 0).tvec.getLsbD 0 = true ∧ (s.slot 0 0).hnd = false ∧ (s.core 0).gang = 0) := by decide +kernel

/-- Lane 63 of fabric port 15 with more errors than one in 10⁵ of the bits that the port has sent. -/
def wornLane : State := { State.reset with errCounts := [(2 * (fabricUnit + 64 * 15 + 63), List.replicate (Config.laneBits 15 + 1) 0)] }

theorem wornLane_is_worn : 0 < wornLane.count (fabricUnit + 64 * 15 + 63) false ∧ Config.laneBits 15 < 10 ^ 5 * wornLane.count (fabricUnit + 64 * 15 + 63) false := by
  have h : wornLane.count (fabricUnit + 64 * 15 + 63) false = Config.laneBits 15 + 1 := by
    have hw : State.reset.rtime.toNat < errWindow (fabricUnit + 960 + 63) := by decide
    simp [wornLane, State.count, tget, ofBool, hw]
  omega

theorem witness_ErrorsWearAndLinks :
    (Config.hostBase - 1 < Config.hostBase ∧ (∀ p ∈ State.reset.cores, p.2.job = none) ∧ State.reset.fail = false ∧ ({ State.reset with fail := true } : State).fail = true ∧ (2047 : Nat) < 2048) ∧
    (let s : State := { State.reset with errCounts := [(11, [0]), (12, List.replicate 16 0), (2 * wayUnit, List.replicate 4 0)] };
      s.fail = false ∧ 1 ≤ s.count 5 true ∧ 16 ≤ s.count 6 false ∧ 4 ≤ s.count wayUnit false ∧ wayUnit < laneUnit ∧ wayUnit < coreUnit) ∧
    (wornLane.fail = false ∧ 15 < 16 ∧ 63 < 64 ∧ 0 < wornLane.count (fabricUnit + 64 * 15 + 63) false ∧ Config.laneBits 15 < 10 ^ 5 * wornLane.count (fabricUnit + 64 * 15 + 63) false) ∧
    (aJob ∈ w.jobs ∧ w.job? aJob.id = some aJob ∧ 0 ∈ (wj (aJob1 .running) id).held (aJob1 .running)) ∧
    (let s : State := { State.reset with hot := true, stage := 7 };
      s.hot = true ∧ s.stage = 7 ∧ s.fail = false) ∧
    (let s := wj (aJob1 .running) id;
      (s.core 0).job.bind s.job? = some (aJob1 .running) ∧ (aJob1 .running).phase = .running ∧ 0 ∈ (aJob1 .running).cores ∧ 0 ∈ s.sharing 0) ∧
    (let s : State := { State.reset with seam := [(127, { Link.reset with spares := 0 })], errCounts := [(2 * seamLane 127 63, List.replicate 1000 0)] };
      (tget s.seam 127 Link.reset).spares = 0 ∧ 1000 ≤ s.count (seamLane 127 63) false ∧ State.reset.count (seamLane 0 0) false < 1000 ∧
      (tget State.reset.seam 0 Link.reset).lost = false ∧ (tget [(0, { Link.reset with lost := true })] 0 Link.reset).lost = true) ∧
    (let s := (wj (aJob1 .running) id).onCore 32 (fun _ => one);
      let s : State := { s with jobs := [{ aJob1 .running with pkt := aPkt.set 2 0x01210000 }] };
      let j : Job := { aJob1 .running with pkt := aPkt.set 2 0x01210000 };
      s.job? j.id = some j ∧ j.phase = .running ∧ 0 ∈ s.held j ∧ 32 ∈ s.held j ∧ coreY 0 = 3 / 4 ∧ coreY 32 = 3 / 4 ∧ dieOf 0 = 0 ∧ dieOf 32 = 1) ∧
    (let s : State := { State.reset with fabric := [(15, { Link.reset with up := false, waiting := [.write 0 [1]] })] };
      (15 : Nat) < 16 ∧ s.fail = false ∧ (s.port 15).lost = false ∧ (s.port 15).up = false ∧
      (s.retiredIn (fabricUnit + 64 * 15) (fabricUnit + 64 * 15 + 64)).length ≤ 1 ∧
      2 ≤ (({ s with retired := [fabricUnit + 64 * 15, fabricUnit + 64 * 15 + 63] } : State).retiredIn (fabricUnit + 64 * 15) (fabricUnit + 64 * 15 + 64)).length ∧ (s.port 15).half = false ∧ (s.port 15).waiting = [.write 0 [1]] ∧ (State.reset.port 15).up = true ∧ (State.reset.port 15).waiting = [] ∧
      ([.write 0 [1], .read (Config.hbmBytes - 8) 8, .atomic (Config.hbmBytes - 8) 11 true 1 0] : List FabricOp).all State.reset.peerAdmits = true ∧ s.peerAdmits (.write 0 [1]) = true ∧
      Memory.wf s.mem = true ∧
      peerReach 0 [(1 : Byte)].length = true ∧ peerReach (Config.hbmBytes - 8) 8 = true ∧ (Config.hbmBytes - 8) % 8 = 0 ∧
      s.poisoned (Config.hbmBytes - 8) 8 = none) ∧
    (let q : Place := { here with peer := some 15 };
      let s := wj (aJob1 .running) (fun k => k.setSlot 0 { live with acc := [acc .store 0x2000 q] });
      s.job? 1 = some (aJob1 .running) ∧ (aJob1 .running).id = 1 ∧ 0 ∈ s.held (aJob1 .running) ∧ (0, s.slot 0 0) ∈ (s.core 0).slots ∧
      acc .store 0x2000 q ∈ (s.slot 0 0).acc ∧ q.peer = some 15 ∧ (15 : BitVec 4).toNat = 15) ∧
    (∀ st, aJob.phase ≠ .stopping st) ∧ aJob.phase ≠ .stopped7 :=
  ⟨by decide +kernel, by decide +kernel, ⟨rfl, by decide, by decide, wornLane_is_worn⟩, by decide +kernel, by decide +kernel, by decide +kernel, by decide +kernel, by decide +kernel, by decide +kernel, by decide +kernel,
    nofun, nofun⟩


/-! ## Results that the manual prints -/

/-- What general register d of slot 0 of core 0 holds after an instruction. -/
def leaves (i : Instr) (s : State) (d : Reg) (v : Word) : Bool := match exec i s with | .next t => (t.slot 0 0).rd d == v | _ => false

/-- R114: the examples of division. -/
theorem test_division :
    (let s := ws (fun x => { x with g := rg [(4, BitVec.ofInt 64 (-7)), (5, 7), (6, 0x8000000000000000)] })
     leaves (.divs 8 4 (.imm 2)) s 8 0xFFFFFFFFFFFFFFFD && leaves (.rems 8 4 (.imm 2)) s 8 (BitVec.allOnes 64) && leaves (.divn 8 5 (.reg 0)) s 8 (BitVec.allOnes 64) &&
     leaves (.remn 8 5 (.reg 0)) s 8 7 && leaves (.divs 8 6 (.imm (BitVec.allOnes 64))) s 8 0x8000000000000000 && leaves (.rems 8 6 (.imm (BitVec.allOnes 64))) s 8 0) = true := by
  decide +kernel

/-- R15 and the example of R22. -/
theorem test_grid : hops (coreAt 2 1) (coreAt 6 4) = 7 ∧ coreAt 5 2 = 133 ∧ spaceOf 0x0E00000008501000 = .window 133 0x1000 := by decide

/-- R119: the example BNZ, three words back. -/
theorem test_branch_back :
    reads ([0x649D], .bnz 4 (BitVec.ofInt 64 (-3))) = true ∧
    (match exec (.bnz 8 (BitVec.ofInt 64 (-3))) (ws (fun x => { x with pc := 0x0F00000000000010 }) |> fun s => { s with cur := { s.cur with pc := 0x0F00000000000010 } }) with
      | .next t => t.me.pc == 0x0F0000000000000C | _ => false) = true := by decide +kernel

/-- R257: DOMSW takes domain, key and ASID from its operand, and g0 discards a write (R106). -/
theorem test_domsw_and_g0 :
    (match exec (.domsw 4) (ws (fun x => { x with g := rg [(4, 0x0000001200000305)] })) with
      | .next t => decide (t.me.dom = 5 ∧ t.me.key = 3 ∧ t.me.asid = 0x12) | _ => false) = true ∧
    leaves (.addi 0 5) w 0 0 = true := by decide +kernel


end

end Sys2Proof.Tests
end

section
/-! PROOFS. Bytes and numbers: what memory holds after a run of bytes is written, and the two readings of an n-bit number. -/

namespace Sys2Proof.Machine

open Sys2Proof

/-! ## Little-endian bytes -/

@[simp] theorem bytesOf_length (n v : Nat) : (bytesOf n v).length = n := by
  induction n generalizing v with
  | zero => rfl
  | succ n ih => simp [bytesOf, ih]

/-- The bytes of a number make its low part again (R3). -/
theorem ofBytes_bytesOf (n v : Nat) : ofBytes (bytesOf n v) = v % 2 ^ (8 * n) := by
  induction n generalizing v with
  | zero => simp [bytesOf, ofBytes, Nat.mod_one]
  | succ n ih =>
    have power : (2 : Nat) ^ (8 * (n + 1)) = 256 * 2 ^ (8 * n) := by rw [Nat.mul_succ, Nat.pow_add]; omega
    simp only [bytesOf, ofBytes, ih, BitVec.toNat_ofNat]
    rw [power, Nat.mod_mul]

@[simp] theorem vecBytes_length (v : Vec) : (vecBytes v).length = 64 := bytesOf_length 64 _

/-! ## A run of bytes written -/

theorem Memory.readBytes_writeBytes (bs : List Byte) (m : List Host.Cell) (k : Nat) (h : Memory.wf m = true) :
    Memory.readBytes (Memory.writeBytes m k bs) k bs.length = bs := by
  induction bs generalizing m k with
  | nil => rfl
  | cons b r ih =>
    have hw := Memory.wf_write m k b h
    have first : Memory.read (Memory.writeBytes (Memory.write m k b) (k + 1) r) k = b := by
      rw [Memory.read_writeBytes_out r _ _ _ (by omega), Memory.read_write m k b h]
    simp only [Memory.writeBytes, List.length_cons, Memory.readBytes, first, ih _ _ hw]

theorem Memory.readN_writeBytes_bytesOf (m : List Host.Cell) (k n v : Nat) (h : Memory.wf m = true) :
    Memory.readN (Memory.writeBytes m k (bytesOf n v)) k n = v % 2 ^ (8 * n) := by
  have back := Memory.readBytes_writeBytes (bytesOf n v) m k h
  rw [bytesOf_length] at back
  rw [Memory.readN, back, ofBytes_bytesOf]

/-! ## Signed numbers -/

/-- The model's signed reading of the low n bits is that of an n-bit word. -/
theorem signed_eq_toInt (n v : Nat) : signed n v = (BitVec.ofNat n v).toInt := by
  unfold signed
  rw [BitVec.toInt_eq_toNat_cond, BitVec.toNat_ofNat]
  cases n with
  | zero => simp [Nat.mod_one]
  | succ n =>
    have half : (2 : Nat) ^ (n + 1) = 2 * 2 ^ n := by rw [Nat.pow_succ]; omega
    have same : v % 2 ^ (n + 1) < 2 ^ n ↔ 2 * (v % 2 ^ (n + 1)) < 2 ^ (n + 1) := by omega
    simp only [Nat.add_sub_cancel, same]

theorem signed_toNat {n : Nat} (x : BitVec n) : signed n x.toNat = x.toInt := by
  rw [signed_eq_toInt, BitVec.ofNat_toNat, BitVec.setWidth_eq]

/-- The extension of a loaded value, as the extension of a word of its width (R150). -/
theorem extend_eq (sg : Bool) (n v : Nat) :
    extend sg n v = if sg then (BitVec.ofNat (8 * n) v).signExtend 64 else BitVec.ofNat 64 v := by
  unfold extend
  rw [signed_eq_toInt]
  rfl

end Sys2Proof.Machine

namespace Sys2Proof.Proofs

open Sys2Proof Sys2Proof.Machine

/-- Settles O8: each clause is a law of canonical memory; a run reads back byte by byte, since what follows a byte is written beyond it. -/
theorem storedByteReadsBack : Obligations.StoredByteReadsBack := by
  unfold Obligations.StoredByteReadsBack
  intro m k v bs h
  exact ⟨Memory.read_write m k v h, fun j hj => Memory.read_write_ne m k j v hj, fun j hj => Memory.read_writeBytes_out bs m k j hj,
    Memory.readBytes_writeBytes bs m k h, Memory.wf_writeBytes bs m k h⟩

end Sys2Proof.Proofs
end

section
/-! PROOFS. Accesses performed: what the end of an access leaves of its slot, which step performs it, and what its data part does
(R150, R154, R157, R161, R212). -/

namespace Sys2Proof.Machine

open Sys2Proof Sys2Proof.Safety

/-! ## The slot and core at hand -/

@[simp] theorem State.slot_onSlot (s : State) (c t : Nat) (f : Slot → Slot) : (s.onSlot c t f).slot c t = f (s.slot c t) := by
  simp [State.onSlot_def]

theorem State.core_onSlot_ne (s : State) (c t d : Nat) (f : Slot → Slot) (h : d ≠ c) : (s.onSlot c t f).core d = s.core d := by
  rw [State.onSlot_def, State.setSlot_def, State.core_setCore_ne _ _ _ _ h]

@[simp] theorem State.core_onCore (s : State) (c : Nat) (f : Core → Core) : (s.onCore c f).core c = f (s.core c) := by
  simp [State.onCore_def]

theorem State.core_onCore_ne (s : State) (c d : Nat) (f : Core → Core) (h : d ≠ c) : (s.onCore c f).core d = s.core d := by
  rw [State.onCore_def, State.core_setCore_ne _ _ _ _ h]

/-! ## The end of an access -/

/-- The end of a park changes the park and the unsynchronised set alone (R37). -/
theorem Slot.unpark_eq (x : Slot) (now : Nat) : ∃ p u, x.unpark now = { x with park := p, unsync := u } := by
  unfold Slot.unpark
  split
  · split
    · unfold Slot.mark
      split
      · exact ⟨_, _, rfl⟩
      · exact ⟨_, _, rfl⟩
    · exact ⟨_, _, rfl⟩
  · exact ⟨_, _, rfl⟩

theorem State.endTlbPark_slot (s : State) (c t id : Nat) :
    ∃ p u, (s.endTlbPark c t id).slot c t = { s.slot c t with park := p, unsync := u } := by
  rw [State.endTlbPark, State.slot_onSlot]
  split
  · split
    · exact Slot.unpark_eq _ _
    · exact ⟨_, _, rfl⟩
  · exact ⟨_, _, rfl⟩

/-- The value v of an access as it travels to its register (R36). -/
def Access.result (a : Access) (v : Word) : Result := { reg := a.dest, val := v, depth := 0, acq := decide (1 ≤ a.ord) }

/-- What a performed access sends on its way (R36). -/
def Access.sent (a : Access) (v : Word) : List Result := if a.kind.returns && a.dest != 0 then [a.result v] else []

theorem Access.sent_of_not_returns {a : Access} (v : Word) (h : a.kind.returns = false) : a.sent v = [] := by
  simp [Access.sent, h]

theorem Access.sent_of_returns {a : Access} (v : Word) (h : a.kind.returns = true) (hd : a.dest ≠ 0) :
    a.sent v = [a.result v] := by
  rw [Access.sent, h, Bool.true_and, if_pos (bne_iff_ne.mpr hd)]

theorem Slot.passAcc_eq (x : Slot) (a : Access) :
    ∃ n, x.passAcc a = { x with acc := x.acc.filter (fun b => b.id != a.id), ahead := n } := by
  unfold Slot.passAcc
  simp only
  split
  · exact ⟨_, rfl⟩
  · exact ⟨_, rfl⟩

/-- A performed access is gone from its slot and its value is on its way; beside them a park on its translation may end. -/
theorem State.finishAcc_slot (s : State) (c t : Nat) (a : Access) (v : Word) :
    ∃ n p u, (s.finishAcc c t a v).slot c t =
      { s.slot c t with acc := (s.slot c t).acc.filter (fun b => b.id != a.id), ahead := n, results := (s.slot c t).results ++ a.sent v,
                        park := p, unsync := u } := by
  obtain ⟨n, hn⟩ := Slot.passAcc_eq (s.slot c t) a
  unfold State.finishAcc
  generalize hw : s.onSlot c t _ = w
  obtain ⟨p, u, hp⟩ := w.endTlbPark_slot c t a.id
  refine ⟨n, p, u, ?_⟩
  rw [hp, ← hw, State.slot_onSlot]
  simp only [hn, Access.sent, Access.result]
  split
  · rfl
  · simp

@[simp] theorem State.finishAcc_acc (s : State) (c t : Nat) (a : Access) (v : Word) :
    ((s.finishAcc c t a v).slot c t).acc = (s.slot c t).acc.filter (fun b => b.id != a.id) := by
  obtain ⟨n, p, u, h⟩ := s.finishAcc_slot c t a v
  rw [h]

@[simp] theorem State.finishAcc_results (s : State) (c t : Nat) (a : Access) (v : Word) :
    ((s.finishAcc c t a v).slot c t).results = (s.slot c t).results ++ a.sent v := by
  obtain ⟨n, p, u, h⟩ := s.finishAcc_slot c t a v
  rw [h]

@[simp] theorem State.finishAcc_g (s : State) (c t : Nat) (a : Access) (v : Word) :
    ((s.finishAcc c t a v).slot c t).g = (s.slot c t).g := by
  obtain ⟨n, p, u, h⟩ := s.finishAcc_slot c t a v
  rw [h]

theorem State.finishAcc_core_ne (s : State) (c t d : Nat) (a : Access) (v : Word) (h : d ≠ c) :
    (s.finishAcc c t a v).core d = s.core d := by
  rw [State.finishAcc, State.endTlbPark, State.core_onSlot_ne _ _ _ _ _ h, State.core_onSlot_ne _ _ _ _ _ h]

/-! ## Which step performs an access -/

theorem Slot.splitAcc_id {x : Slot} {id : Nat} {before : List Access} {a : Access} (h : x.splitAcc id = (before, some a)) : a.id = id := by
  have found := List.find?_some (congrArg Prod.snd h)
  simpa using found

theorem State.via_store {s : State} {a : Access} {p : Place} (hk : a.kind = .store) (hx : a.x = 0) (hp : a.place = some p)
    (ho : s.objOf p = none) (hw : ∀ d o, spaceOf a.va ≠ .window d o) : s.via a = .store := by
  simp only [State.via, hk, hx, hp, ho, bne_self_eq_false, Option.isSome_none, Bool.or_self, Bool.false_eq_true, if_false]

theorem State.via_remote {s : State} {a : Access} {p : Place} {d o : Nat} (hk : a.kind = .store) (hx : a.x = 0) (hp : a.place = some p)
    (ho : s.objOf p = none) (hw : spaceOf a.va = .window d o) : s.via a = .remote := by
  simp [State.via, hk, hx, hp, ho, hw]

theorem State.via_window {s : State} {a : Access} {p : Place} {sg : Bool} {d o : Nat} (hk : a.kind = .load sg) (hx : a.x = 0)
    (hp : a.place = some p) (ho : s.objOf p = none) (hw : spaceOf a.va = .window d o) : s.via a = .window := by
  simp [State.via, hk, hx, hp, ho, hw]

theorem State.via_atomic {s : State} {a : Access} {p : Place} {op : Nat} (hk : a.kind = .atomic op) (hx : a.x = 0)
    (hp : a.place = some p) (ho : s.objOf p = none) : s.via a = .atomic := by
  simp [State.via, hk, hx, hp, ho]

theorem State.via_vamo {s : State} {a : Access} {p : Place} {op : BitVec 3} (hk : a.kind = .vamo op) (hx : a.x = 0)
    (hp : a.place = some p) (ho : s.objOf p = none) : s.via a = .vamo := by
  simp [State.via, hk, hx, hp, ho]

/-- Only an access through the core window can be held by its target (R338, R421). -/
theorem State.targetPaused_of_not_window {s : State} {c : Nat} {a : Word} (hw : ∀ d o, spaceOf a ≠ .window d o) :
    s.targetPaused c a = false := by
  unfold State.targetPaused
  split
  · next d o e => exact absurd e (hw d o)
  · rfl

/-- DET refuses no write through the core window (R153, R390). -/
theorem State.capDeny_window {s : State} {c d o acc : Nat} {a : Word} (p : Place) (hw : spaceOf a = .window d o) :
    s.capDeny c a p acc = none := by
  simp [State.capDeny, hw]

/-- DET refuses no access that writes nothing (R153, R390). -/
theorem State.capDeny_of_not_writes {s : State} {c acc : Nat} {a : Word} (p : Place) (h : accWrites acc = false) :
    s.capDeny c a p acc = none := by
  simp [State.capDeny, h]

/-- An access that no object governs and nothing refuses performs its data part. -/
theorem State.perform_data {s : State} {c t : Nat} {a : Access} {p : Place} (hv : s.via a ≠ .staged)
    (hd : s.deny (a.agent c t) a.va a.size p a.kind.acc (a.kind.shape a.span) = none) (hc : s.capDeny c a.va p a.kind.acc = none) :
    s.perform c t a p = s.performData c t a p := by
  simp only [State.perform, hd, ite_self, hc]

/-- The step that an access goes by performs it when its turn has come. -/
theorem performStep_data {s : State} {v : Via} {c t id : Nat} {before : List Access} {a : Access} {p : Place}
    (hs : (s.slot c t).splitAcc id = (before, some a)) (hp : a.place = some p) (hm : s.mayPerform before a = true) (hv : s.via a = v)
    (hn : v ≠ .staged) (ht : s.targetPaused c a.va = false)
    (hd : s.deny (a.agent c t) a.va a.size p a.kind.acc (a.kind.shape a.span) = none) (hc : s.capDeny c a.va p a.kind.acc = none) :
    performStep v c t id s = s.performData c t a p := by
  simp only [performStep, hs, hp, hm, hv, ht, beq_self_eq_true, Bool.not_false, Bool.and_self, if_true]
  exact State.perform_data (hv ▸ hn) hd hc

/-! ## The data of an access -/

/-- Only a scalar atomic is executed in a cluster unit (R157). -/
theorem State.inClusterUnit_of_not_atomic {s : State} {a : Access} (p : Place) (h : ∀ op, a.kind ≠ .atomic op) : s.inClusterUnit a p = false := by
  unfold State.inClusterUnit
  split
  · next op e => exact absurd e (h op)
  · rfl

theorem State.performData_direct {s : State} {a : Access} {p : Place} (c t : Nat) (h : s.inClusterUnit a p = false) :
    s.performData c t a p = (s.dataPart a p).1.finishAcc c t a (s.dataPart a p).2 := by
  simp [State.performData, h]

/-- An access that writes nothing leaves the state and returns its value. -/
theorem State.dataPart_read {s : State} {a : Access} {p : Place} (h : a.newBytes (s.readAt p a.size) = none) :
    s.dataPart a p = (s, a.value (s.readAt p a.size)) := by
  simp [State.dataPart, h]

theorem State.dataPart_write {s : State} {a : Access} {p : Place} {bs : List Byte} (h : a.newBytes (s.readAt p a.size) = some bs) :
    s.dataPart a p = (s.writeThrough a.va p bs, a.value (s.readAt p a.size)) := by
  simp [State.dataPart, h]

@[simp] theorem State.writeAt_core (s : State) (p : Place) (bs : List Byte) (d : Nat) : (s.writeAt p bs).core d = s.core d := by
  unfold State.writeAt
  simp only
  split
  · rfl
  · rfl

theorem State.writeAt_slot (s : State) (p : Place) (bs : List Byte) (d t : Nat) : (s.writeAt p bs).slot d t = s.slot d t := by
  simp [State.slot]

theorem State.writeThrough_of_not_window {s : State} {a : Word} (p : Place) (bs : List Byte) (hw : ∀ d o, spaceOf a ≠ .window d o) :
    s.writeThrough a p bs = s.writeAt p bs := by
  simp only [State.writeThrough]

theorem State.writeThrough_window {s : State} {a : Word} {d o : Nat} (p : Place) (bs : List Byte) (hw : spaceOf a = .window d o) :
    s.writeThrough a p bs = (s.writeAt p bs).countLanding d o bs.length := by
  simp [State.writeThrough, hw]

/-! ## Arrived bytes (R211, R212) -/

/-- A core with one byte more in the count of window w. -/
def Core.countByte (k : Core) (w : Nat) : Core :=
  { k with windows := tset k.windows w (let x := tget k.windows w Window.reset; { x with cnt := x.cnt + 1 }) }

/-- The state after one byte has landed at offset o of core d. -/
def State.landByte (s : State) (d o : Nat) : State :=
  match (s.core d).windowAt true o with
  | some w => s.onCore d (fun k => k.countByte w)
  | none => s

theorem State.countLanding_succ (s : State) (d o n : Nat) : s.countLanding d o (n + 1) = (s.countLanding d o n).landByte d (o + n) := by
  simp only [State.countLanding, List.range_succ, List.foldl_append]
  rfl

/-- A count does not move a window. -/
theorem Core.windowAt_countByte (k : Core) (w : Nat) (b : Bool) (o : Nat) : (k.countByte w).windowAt b o = k.windowAt b o := by
  unfold Core.windowAt
  congr 1
  funext i
  by_cases h : i = w
  · subst h
    simp [Core.countByte, Window.holds]
  · simp [Core.countByte, tget_tset_ne _ _ _ _ _ h]

theorem State.landByte_windowAt (s : State) (d o : Nat) (b : Bool) (q : Nat) :
    ((s.landByte d o).core d).windowAt b q = (s.core d).windowAt b q := by
  unfold State.landByte
  split
  · simp [Core.windowAt_countByte]
  · rfl

theorem State.landByte_cnt {s : State} {d o w : Nat} (h : (s.core d).windowAt true o = some w) :
    (tget ((s.landByte d o).core d).windows w Window.reset).cnt = (tget (s.core d).windows w Window.reset).cnt + 1 := by
  simp [State.landByte, h, Core.countByte]

theorem State.landByte_core_ne (s : State) (c d o : Nat) (h : c ≠ d) : (s.landByte d o).core c = s.core c := by
  unfold State.landByte
  split
  · exact State.core_onCore_ne _ _ _ _ h
  · rfl

theorem State.countLanding_windowAt (s : State) (d o n : Nat) (b : Bool) (q : Nat) :
    ((s.countLanding d o n).core d).windowAt b q = (s.core d).windowAt b q := by
  induction n with
  | zero => rfl
  | succ n ih => rw [State.countLanding_succ, State.landByte_windowAt, ih]

theorem State.countLanding_core_ne (s : State) (c d o n : Nat) (h : c ≠ d) : (s.countLanding d o n).core c = s.core c := by
  induction n with
  | zero => rfl
  | succ n ih => rw [State.countLanding_succ, State.landByte_core_ne _ _ _ _ h, ih]

/-- Bytes that all land in window w add their number to its count. -/
theorem State.countLanding_cnt (s : State) (d o n w : Nat) (h : ∀ i, i < n → (s.core d).windowAt true (o + i) = some w) :
    (tget ((s.countLanding d o n).core d).windows w Window.reset).cnt = (tget (s.core d).windows w Window.reset).cnt + BitVec.ofNat 64 n := by
  induction n with
  | zero => simp [State.countLanding]
  | succ n ih =>
    have last : ((s.countLanding d o n).core d).windowAt true (o + n) = some w := by
      rw [State.countLanding_windowAt]; exact h n (by omega)
    rw [State.countLanding_succ, State.landByte_cnt last, ih (fun i hi => h i (by omega)), BitVec.ofNat_add, BitVec.add_assoc]
    rfl

end Sys2Proof.Machine
end

section
/-! PROOFS. STORE_PERFORM and REMOTE_WRITE_LAND (R150, R212). -/

namespace Sys2Proof.Proofs

open Sys2Proof Sys2Proof.Machine Sys2Proof.Safety

/-- A store whose bytes are written without a change of its slot has been performed once its access has ended. -/
theorem performedStore_of_written {s w : State} {c t : Nat} {a : Access} {p : Place} (v : Word) (hk : a.kind = .store) (hi : memInv s)
    (hm : w.mem = Memory.writeBytes s.mem p.key (bytesOf a.size a.data)) (hs : w.slot c t = s.slot c t) :
    performedStore s (w.finishAcc c t a v) c t a p := by
  have back := Memory.readBytes_writeBytes (bytesOf a.size a.data) s.mem p.key hi
  rw [bytesOf_length] at back
  obtain ⟨n, q, u, hf⟩ := State.finishAcc_slot w c t a v
  have none_sent : a.sent v = [] := Access.sent_of_not_returns v (by rw [hk]; rfl)
  rw [none_sent, hs] at hf
  unfold performedStore
  rw [State.finishAcc_mem, hm, hf]
  refine ⟨back, fun k hk => ?_, rfl, rfl, rfl, rfl, rfl, by simp⟩
  exact Memory.read_writeBytes_out _ _ _ _ (by rwa [bytesOf_length])

/-- The data part of a store, and the end of its access. -/
theorem performData_store {s : State} {a : Access} {p : Place} (c t : Nat) (hk : a.kind = .store) :
    s.performData c t a p = (s.writeThrough a.va p (bytesOf a.size a.data)).finishAcc c t a (a.value (s.readAt p a.size)) := by
  have direct : s.inClusterUnit a p = false := State.inClusterUnit_of_not_atomic p (by simp [hk])
  rw [State.performData_direct c t direct, State.dataPart_write (bs := bytesOf a.size a.data) (by simp [Access.newBytes, hk])]

theorem storePerform_performs {s : State} {c t id : Nat} {before : List Access} {a : Access} {p : Place}
    (hs : (s.slot c t).splitAcc id = (before, some a)) (hk : a.kind = .store) (hp : a.place = some p) (hx : a.x = 0) (ho : s.objOf p = none)
    (hw : ∀ d o, spaceOf a.va ≠ .window d o) (hm : s.mayPerform before a = true) (hd : s.deny (a.agent c t) a.va a.size p 1 .plain = none)
    (hc : s.capDeny c a.va p 1 = none) (hi : memInv s) :
    ∃ u, exec (.storePerform c t id) s = .next u ∧ performedStore s u c t a p := by
  have step : performStep .store c t id s = s.performData c t a p :=
    performStep_data hs hp hm (State.via_store hk hx hp ho hw) (by simp) (State.targetPaused_of_not_window hw) (by rwa [hk]) (by rwa [hk])
  refine ⟨_, congrArg Host.Outcome.next (step.trans (performData_store c t hk)), ?_⟩
  refine performedStore_of_written _ hk hi (State.writeThrough_mem _ _ _ _) ?_
  rw [State.writeThrough_of_not_window _ _ hw, State.writeAt_slot]

theorem remoteWriteLand_performs {s : State} {c t id d o : Nat} {before : List Access} {a : Access} {p : Place} (h15 : t ≠ 15) (h128 : t < 128)
    (hs : (s.slot c t).splitAcc id = (before, some a)) (hk : a.kind = .store) (hp : a.place = some p) (hx : a.x = 0) (ho : s.objOf p = none)
    (hw : spaceOf a.va = .window d o) (hcd : d ≠ c) (hm : s.mayPerform before a = true) (ht : s.targetPaused c a.va = false)
    (hd : s.deny (a.agent c t) a.va a.size p 1 .plain = none) (hi : memInv s) :
    ∃ u, exec (.remoteWriteLand c t id) s = .next u ∧ performedStore s u c t a p ∧
      (∀ w, w < 4 → (∀ i, i < a.size → (s.core d).windowAt true (o + i) = some w) →
        (tget (u.core d).windows w Window.reset).cnt = (tget (s.core d).windows w Window.reset).cnt + BitVec.ofNat 64 a.size) := by
  have named : exec (.remoteWriteLand c t id) s = .next (performStep .remote c t id s) := by
    change execRemoteWriteLand c t id s = _
    rw [execRemoteWriteLand, if_neg h15, if_neg (Nat.not_le.mpr h128)]
  have step : performStep .remote c t id s = s.performData c t a p :=
    performStep_data hs hp hm (State.via_remote hk hx hp ho hw) (by simp) ht (by rwa [hk]) (by rw [hk]; exact State.capDeny_window p hw)
  have landed := State.writeThrough_window (s := s) p (bytesOf a.size a.data) hw
  rw [bytesOf_length] at landed
  refine ⟨_, named.trans (congrArg Host.Outcome.next (step.trans (performData_store c t hk))), ?_, fun w _ hall => ?_⟩
  · refine performedStore_of_written _ hk hi (State.writeThrough_mem _ _ _ _) ?_
    rw [landed, State.slot, State.countLanding_core_ne _ _ _ _ _ hcd.symm, State.writeAt_core, State.slot]
  · rw [State.finishAcc_core_ne _ _ _ _ _ _ hcd, landed, State.countLanding_cnt _ _ _ _ w (by simpa using hall), State.writeAt_core]

/-- Settles O34: either step performs the data part of the store, which writes its bytes; through the window each byte is counted as it lands. -/
theorem storesPerform : Obligations.StoresPerform := by
  unfold Obligations.StoresPerform
  exact ⟨fun _ _ _ _ _ _ _ hs hk hp hx ho hw hm hd hc hi => storePerform_performs hs hk hp hx ho hw hm hd hc hi,
    fun _ _ _ _ _ _ _ _ _ h15 h128 hs hk hp hx ho hw hcd hm ht hd hi => remoteWriteLand_performs h15 h128 hs hk hp hx ho hw hcd hm ht hd hi⟩

end Sys2Proof.Proofs
end

section
/-! PROOFS. VARIABLE_LATENCY_RESULT and CORE_WINDOW_READ (R36, R37, R150). -/

namespace Sys2Proof.Machine

open Sys2Proof Sys2Proof.Safety

/-! ## A value that returns -/

/-- The first value on its way to r is the one that is taken. -/
theorem takeResult_append {r : Reg} {l1 l2 : List Result} {q : Result} (hq : q.reg = r) (h1 : ∀ x ∈ l1, x.reg ≠ r) :
    takeResult r (l1 ++ q :: l2) = some (q, l1 ++ l2) := by
  induction l1 with
  | nil => simp [takeResult, hq]
  | cons x l ih =>
    have hx : x.reg ≠ r := h1 x (by simp)
    simp [takeResult, hx, ih (fun y hy => h1 y (by simp [hy]))]

theorem takeResult_none {r : Reg} {l : List Result} (h : ∀ x ∈ l, x.reg ≠ r) : takeResult r l = none := by
  induction l with
  | nil => rfl
  | cons x l ih =>
    have hx : x.reg ≠ r := h x (by simp)
    simp [takeResult, hx, ih (fun y hy => h y (by simp [hy]))]

theorem State.deliverResult_taken {s : State} {c t : Nat} {r : Reg} {q : Result} {rest : List Result}
    (h : takeResult r (s.slot c t).results = some (q, rest)) :
    s.deliverResult c t r = s.setSlot c t (({ s.slot c t with results := rest } : Slot).giveBack q.reg q.val q.depth) := by
  simp [State.deliverResult, h, State.onSlot_def]

theorem Slot.rd_congr {x y : Slot} (h : x.g = y.g) (r : Reg) : x.rd r = y.rd r := by
  simp only [Slot.rd, h]

/-- A returned value is written as any other one. -/
theorem Slot.giveBack_g (x : Slot) (r : Reg) (v : Word) (d : Nat) : (x.giveBack r v d).g = (x.wr r v).g := by
  unfold Slot.giveBack Slot.wr
  split
  · rfl
  · rfl

/-- What a value v that returns to register r does to its slot (R36, R37). -/
theorem Slot.giveBack_returns (x : Slot) {r : Reg} (v : Word) (d : Nat) (h : r ≠ 0) :
    (x.giveBack r v d).rd r = v ∧ (∀ q, q ≠ r → (x.giveBack r v d).rd q = x.rd q) ∧
      (r ∉ x.more → (x.giveBack r v d).pend = clearBit x.pend r) ∧ (r ∈ x.more → (x.giveBack r v d).pend = x.pend) ∧
      (x.giveBack r v d).more = x.more.erase r := by
  refine ⟨?_, fun q hq => ?_, fun hm => ?_, fun hm => ?_, rfl⟩
  · rw [Slot.rd_congr (x.giveBack_g r v d), Slot.rd_wr_same x r v h]
  · rw [Slot.rd_congr (x.giveBack_g r v d), Slot.rd_wr_ne x r q v hq]
  · simp [Slot.giveBack, pendAfter, hm]
  · simp [Slot.giveBack, pendAfter, hm]

/-! ## A load performed -/

/-- The value of a load: its bytes, extended to a register (R150). -/
theorem Access.value_load {a : Access} {sg : Bool} (old : List Byte) (hk : a.kind = .load sg) :
    a.value old = if sg then (BitVec.ofNat (8 * a.size) (ofBytes old)).signExtend 64 else BitVec.ofNat 64 (ofBytes old) := by
  rw [← extend_eq]
  simp only [Access.value, hk]

/-- The data part of a load reads alone. -/
theorem State.performData_load {s : State} {a : Access} {p : Place} {sg : Bool} (c t : Nat) (hk : a.kind = .load sg) :
    s.performData c t a p = s.finishAcc c t a (a.value (s.readAt p a.size)) := by
  have direct : s.inClusterUnit a p = false := State.inClusterUnit_of_not_atomic p (by simp [hk])
  rw [State.performData_direct c t direct, State.dataPart_read (by simp [Access.newBytes, hk])]

/-- What makes a load the one that is ready to be performed for r. -/
theorem State.readyLoad_some {s : State} {x : Slot} {r : Reg} {a : Access} {p : Place} (h : s.readyLoad x r = some (a, p)) :
    a.place = some p ∧ s.via a = .load ∧ a.dest = r := by
  obtain ⟨b, -, hb⟩ := List.exists_of_findSome?_eq_some h
  split at hb
  · next q hq =>
    split at hb
    · next hc =>
      obtain ⟨rfl, rfl⟩ : b = a ∧ q = p := by simpa using hb
      exact ⟨hq, hc.1, hc.2.1⟩
    · contradiction
  · contradiction

end Sys2Proof.Machine

namespace Sys2Proof.Proofs

open Sys2Proof Sys2Proof.Machine Sys2Proof.Safety

/-- A value on its way to r is written to it (R36, R37). -/
theorem variableLatencyResult_returns {s : State} {c t : Nat} {r : Reg} {l1 l2 : List Result} {q : Result}
    (hl : (s.slot c t).results = l1 ++ q :: l2) (hq : q.reg = r) (h1 : ∀ x ∈ l1, x.reg ≠ r) :
    exec (.variableLatencyResult c t r) s = .next (s.setSlot c t (({ s.slot c t with results := l1 ++ l2 } : Slot).giveBack r q.val q.depth)) := by
  have taken : takeResult r (s.slot c t).results = some (q, l1 ++ l2) := by rw [hl, takeResult_append hq h1]
  change execVariableLatencyResult c t r s = _
  simp only [execVariableLatencyResult, taken, State.deliverResult_taken taken, hq]

/-- With no value on its way to r, the load that is ready for r is performed and its value returns at once (R36, R150). -/
theorem variableLatencyResult_loads {s : State} {c t : Nat} {r : Reg} {sg : Bool} {a : Access} {p : Place} (hr : r ≠ 0)
    (hn : ∀ x ∈ (s.slot c t).results, x.reg ≠ r) (hl : s.readyLoad (s.slot c t) r = some (a, p)) (hk : a.kind = .load sg)
    (hd : s.deny (a.agent c t) a.va a.size p 0 .plain = none) :
    ∃ n q f, exec (.variableLatencyResult c t r) s = .next ((s.finishAcc c t a (a.value (s.readAt p a.size))).setSlot c t
      (({ s.slot c t with acc := (s.slot c t).acc.filter (fun b => b.id != a.id), ahead := n, park := q, unsync := f } : Slot).giveBack r
        (a.value (s.readAt p a.size)) 0)) := by
  obtain ⟨-, hv, hdest⟩ := State.readyLoad_some hl
  have performed : s.perform c t a p = s.finishAcc c t a (a.value (s.readAt p a.size)) := by
    rw [State.perform_data (by simp [hv]) (by rwa [hk]) (State.capDeny_of_not_writes p (by rw [hk]; rfl)), State.performData_load c t hk]
  obtain ⟨n, q, f, hf⟩ := State.finishAcc_slot s c t a (a.value (s.readAt p a.size))
  rw [Access.sent_of_returns _ (by rw [hk]; rfl) (hdest ▸ hr)] at hf
  have taken := takeResult_append (l2 := []) (q := a.result (a.value (s.readAt p a.size))) hdest hn
  refine ⟨n, q, f, ?_⟩
  change execVariableLatencyResult c t r s = _
  simp only [execVariableLatencyResult, takeResult_none hn, hl, performed]
  rw [State.deliverResult_taken (by rw [hf]; exact taken), hf]
  simp [Access.result, hdest]

theorem coreWindowRead_loads {s : State} {c t id d o : Nat} {sg : Bool} {before : List Access} {a : Access} {p : Place}
    (hs : (s.slot c t).splitAcc id = (before, some a)) (hk : a.kind = .load sg) (hp : a.place = some p) (hx : a.x = 0)
    (ho : s.objOf p = none) (hw : spaceOf a.va = .window d o) (hm : s.mayPerform before a = true) (ht : s.targetPaused c a.va = false)
    (hd : s.deny (a.agent c t) a.va a.size p 0 .plain = none) :
    exec (.coreWindowRead c t id) s = .next (s.finishAcc c t a (a.value (s.readAt p a.size))) := by
  have step : performStep .window c t id s = s.performData c t a p :=
    performStep_data hs hp hm (State.via_window hk hx hp ho hw) (by simp) ht (by rwa [hk]) (by rw [hk]; exact State.capDeny_window p hw)
  exact congrArg Host.Outcome.next (step.trans (State.performData_load c t hk))

/-- Settles O35: a value that returns is given back to its slot, and a performed load ends with its value on its way. -/
theorem loadedValuesReturn : Obligations.LoadedValuesReturn := by
  unfold Obligations.LoadedValuesReturn
  refine ⟨fun s c t r l1 l2 q hr hl hq h1 => ?_, fun s c t r sg a p hr hn hl hk hd => ?_,
    fun s c t id d o sg before a p hs hk hdest hp hx ho hw hm ht hd => ?_⟩
  · obtain ⟨same, others, clears, stays, more⟩ :=
      Slot.giveBack_returns { s.slot c t with results := l1 ++ l2 } q.val q.depth hr
    refine ⟨_, variableLatencyResult_returns hl hq h1, ?_⟩
    rw [State.slot_setSlot]
    exact ⟨same, others, clears, stays, more, rfl, rfl, rfl⟩
  · obtain ⟨n, w, f, step⟩ := variableLatencyResult_loads hr hn hl hk hd
    obtain ⟨same, others, clears, stays, more⟩ := Slot.giveBack_returns
      { s.slot c t with acc := (s.slot c t).acc.filter (fun b => b.id != a.id), ahead := n, park := w, unsync := f }
      (a.value (s.readAt p a.size)) 0 hr
    refine ⟨_, step, ?_⟩
    rw [State.slot_setSlot, State.setSlot_mem, State.finishAcc_mem, ← Access.value_load _ hk]
    exact ⟨same, others, clears, stays, more, rfl, rfl⟩
  · refine ⟨_, a.result (a.value (s.readAt p a.size)), coreWindowRead_loads hs hk hp hx ho hw hm ht hd, ?_⟩
    rw [State.finishAcc_results, Access.sent_of_returns _ (by rw [hk]; rfl) hdest, State.finishAcc_acc, State.finishAcc_mem,
      ← Access.value_load _ hk]
    exact ⟨rfl, rfl, rfl, rfl, rfl⟩

end Sys2Proof.Proofs
end

section
/-! PROOFS. ATOMIC_EXECUTE and VAMO_EXECUTE (R154, R155, R157, R161). -/

namespace Sys2Proof.Machine

open Sys2Proof Sys2Proof.Safety

/-! ## The cluster unit (R157) -/

/-- An access in a cluster unit is an atomic, lies in no staged object and goes through no core window. -/
theorem State.inClusterUnit_facts {s : State} {a : Access} {p : Place} (h : s.inClusterUnit a p = true) :
    s.objOf p = none ∧ ∀ d o, spaceOf a.va ≠ .window d o := by
  simp only [State.inClusterUnit, Bool.and_eq_true] at h
  obtain ⟨⟨-, ho⟩, hsp⟩ := h
  refine ⟨by simpa using ho, fun d o e => ?_⟩
  rw [e] at hsp
  contradiction

/-- The state in which a cluster unit has read v for access a of slot (c, t). -/
def State.clusterRead (s : State) (c t : Nat) (a : Access) (v : Nat) : State :=
  s.onSlot c t (fun x => { x with acc := x.acc.map (fun b => if b.id = a.id then { b with mid := some v } else b) })

theorem State.performData_clusterRead {s : State} {c t : Nat} {a : Access} {p : Place} (h : s.inClusterUnit a p = true) (hm : a.mid = none)
    (hb : s.unitBusy c a p = false) : s.performData c t a p = s.clusterRead c t a (ofBytes (s.readAt p a.size)) := by
  simp [State.performData, h, hm, hb, State.clusterRead]

/-- The write of a cluster unit, from the old value it has read (R157). -/
theorem State.performData_clusterWrite {s : State} {c t op old : Nat} {a : Access} {p : Place} (h : s.inClusterUnit a p = true)
    (hm : a.mid = some old) (hk : a.kind = .atomic op) (hold : old < 2 ^ (8 * a.size)) :
    s.performData c t a p =
      (s.writeAt p (bytesOf a.size (atomicFn op (8 * a.size) old a.data a.exp.toNat))).finishAcc c t a (BitVec.ofNat 64 old) := by
  have back : ofBytes (bytesOf a.size old) = old := by rw [ofBytes_bytesOf, Nat.mod_eq_of_lt hold]
  simp [State.performData, h, hm, Access.newBytes, Access.value, hk, back]

/-- Once the unit has read for the access named id, that access is found in its place with what was read. -/
theorem splitAcc_mid {l before : List Access} {id : Nat} {a : Access} {v : Nat} (hid : a.id = id)
    (h : (l.takeWhile (fun b => b.id != id), l.find? (fun b => b.id == id)) = (before, some a)) :
    let l' := l.map (fun b => if b.id = a.id then { b with mid := some v } else b)
    (l'.takeWhile (fun b => b.id != id), l'.find? (fun b => b.id == id)) = (before, some { a with mid := some v }) := by
  induction l generalizing before with
  | nil => simp at h
  | cons b l ih =>
    by_cases hb : b.id = id
    · obtain ⟨rfl, rfl⟩ : before = [] ∧ b = a := by simpa [hb, eq_comm] using h
      simp [hb]
    · obtain ⟨rfl, found⟩ : b :: l.takeWhile (fun b => b.id != id) = before ∧ l.find? (fun b => b.id == id) = some a := by
        simpa [hb] using h
      have rest := ih (before := l.takeWhile (fun b => b.id != id)) (by rw [found])
      obtain ⟨hl, hf⟩ := Prod.mk.inj rest
      have hba : b.id ≠ a.id := hid ▸ hb
      simp [hba, hb, hl, hf]

theorem State.clusterRead_splitAcc {s : State} {c t id : Nat} {before : List Access} {a : Access} (v : Nat)
    (h : (s.slot c t).splitAcc id = (before, some a)) :
    ((s.clusterRead c t a v).slot c t).splitAcc id = (before, some { a with mid := some v }) := by
  rw [State.clusterRead, State.slot_onSlot]
  exact splitAcc_mid (Slot.splitAcc_id h) h

end Sys2Proof.Machine

namespace Sys2Proof.Proofs

open Sys2Proof Sys2Proof.Machine Sys2Proof.Safety

/-- The n low bytes of a number written at a place: the number reads back, and every other byte is as before. -/
theorem writeAt_number {s : State} (p : Place) (n v : Nat) (hi : memInv s) :
    Memory.readN (s.writeAt p (bytesOf n v)).mem p.key n = v % 2 ^ (8 * n) ∧
      ∀ k, (k < p.key ∨ p.key + n ≤ k) → Memory.read (s.writeAt p (bytesOf n v)).mem k = Memory.read s.mem k := by
  rw [State.writeAt_mem]
  exact ⟨Memory.readN_writeBytes_bytesOf s.mem p.key n v hi, fun k hk => Memory.read_writeBytes_out _ _ _ _ (by rwa [bytesOf_length])⟩

/-- An atomic goes by ATOMIC_EXECUTE, which performs its data part (R154). -/
theorem atomicExecute_data {s : State} {c t id op : Nat} {before : List Access} {a : Access} {p : Place}
    (hs : (s.slot c t).splitAcc id = (before, some a)) (hk : a.kind = .atomic op) (hp : a.place = some p) (hx : a.x = 0) (ho : s.objOf p = none)
    (hm : s.mayPerform before a = true) (hw : ∀ d o, spaceOf a.va ≠ .window d o)
    (hd : s.deny (a.agent c t) a.va a.size p 2 (a.kind.shape a.span) = none) (hc : s.capDeny c a.va p 2 = none) :
    exec (.atomicExecute c t id) s = .next (s.performData c t a p) :=
  congrArg Host.Outcome.next (performStep_data hs hp hm (State.via_atomic hk hx hp ho) (by simp) (State.targetPaused_of_not_window hw)
    (by rw [hk] at hd ⊢; exact hd) (by rwa [hk]))

/-- The data part of an atomic outside the cluster units: one read-modify-write (R154, R157). -/
theorem performData_atomic {s : State} {op : Nat} {a : Access} {p : Place} (c t : Nat) (hk : a.kind = .atomic op)
    (hw : ∀ d o, spaceOf a.va ≠ .window d o) (hu : s.inClusterUnit a p = false) :
    s.performData c t a p =
      (s.writeAt p (bytesOf a.size (atomicFn op (8 * a.size) (ofBytes (s.readAt p a.size)) a.data a.exp.toNat))).finishAcc c t a
        (BitVec.ofNat 64 (ofBytes (s.readAt p a.size))) := by
  rw [State.performData_direct c t hu, State.dataPart_write (by simp only [Access.newBytes, hk]; rfl), State.writeThrough_of_not_window _ _ hw]
  simp only [Access.value, hk]

/-- An atomic that has written v from its old value, and ended: the location, every other byte, the old value on its way, and its slot. -/
theorem atomic_finished {s u : State} {op c t v old : Nat} {a : Access} {p : Place} (hk : a.kind = .atomic op) (hdest : a.dest ≠ 0) (hi : memInv s)
    (hu : u = (s.writeAt p (bytesOf a.size v)).finishAcc c t a (BitVec.ofNat 64 old)) :
    Memory.readN u.mem p.key a.size = v % 2 ^ (8 * a.size) ∧
      (∀ k, (k < p.key ∨ p.key + a.size ≤ k) → Memory.read u.mem k = Memory.read s.mem k) ∧
      (u.slot c t).results = (s.slot c t).results ++ [a.result (BitVec.ofNat 64 old)] ∧
      (u.slot c t).acc = (s.slot c t).acc.filter (fun b => b.id != a.id) ∧ (u.slot c t).g = (s.slot c t).g := by
  obtain ⟨location, others⟩ := writeAt_number (s := s) p a.size v hi
  rw [hu, State.finishAcc_mem, State.finishAcc_results, State.finishAcc_acc, State.finishAcc_g, State.writeAt_slot,
    Access.sent_of_returns _ (by rw [hk]; rfl) hdest]
  exact ⟨location, others, rfl, rfl, rfl⟩

/-- The function of R155 for the integer operations that read no sign. -/
theorem atomicFn_unsigned (w old x e : Nat) : atomicFn 11 w old x e = (old + x) % 2 ^ w ∧ atomicFn 12 w old x e = old &&& x ∧
    atomicFn 13 w old x e = old ||| x ∧ atomicFn 14 w old x e = old ^^^ x ∧ atomicFn 17 w old x e = min old x ∧
    atomicFn 18 w old x e = max old x ∧ atomicFn 19 w old x e = x ∧ atomicFn 20 w old x e = (if old = e then x else old) :=
  ⟨rfl, rfl, rfl, rfl, rfl, rfl, rfl, rfl⟩

/-- AMINS and AMAXS compare the two values as words of their width (R155). -/
theorem atomicFn_signed {n : Nat} (old x : BitVec n) :
    (atomicFn 15 n old.toNat x.toNat 0 = if old.toInt ≤ x.toInt then old.toNat else x.toNat) ∧
      (atomicFn 16 n old.toNat x.toNat 0 = if old.toInt ≤ x.toInt then x.toNat else old.toNat) := by
  simp only [atomicFn, signed_toNat, and_self]

/-- VAMO combines 64 bytes and returns nothing (R161). -/
theorem vamoExecute_combines {s : State} {c t id : Nat} {op : BitVec 3} {before : List Access} {a : Access} {p : Place}
    (hs : (s.slot c t).splitAcc id = (before, some a)) (hk : a.kind = .vamo op) (hp : a.place = some p) (hn : a.size = 64) (hx : a.x = 0)
    (ho : s.objOf p = none) (hm : s.mayPerform before a = true) (hw : ∀ d o, spaceOf a.va ≠ .window d o)
    (hd : s.deny (a.agent c t) a.va 64 p 3 .vamo = none) (hc : s.capDeny c a.va p 3 = none) :
    exec (.vamoExecute c t id) s =
      .next ((s.writeAt p (vecBytes (vamoFn op.toNat (bytesVec (s.readAt p 64)) (BitVec.ofNat 512 a.data)))).finishAcc c t a 0) := by
  have step : performStep .vamo c t id s = s.performData c t a p :=
    performStep_data hs hp hm (State.via_vamo hk hx hp ho) (by simp) (State.targetPaused_of_not_window hw) (by rw [hn, hk]; exact hd) (by rwa [hk])
  have direct : s.inClusterUnit a p = false := State.inClusterUnit_of_not_atomic p (by simp [hk])
  refine congrArg Host.Outcome.next (step.trans ?_)
  rw [State.performData_direct c t direct, State.dataPart_write (by simp only [Access.newBytes, hk]; rfl), State.writeThrough_of_not_window _ _ hw]
  simp only [Access.value, hk, hn]

/-- Settles O36: each of the three ways ends in one write at the place, whose bytes are the function of the old value, and the end of the access. -/
theorem atomicsExecute : Obligations.AtomicsExecute := by
  unfold Obligations.AtomicsExecute
  refine ⟨fun s c t id op before a p hs hk hp hx ho hm hdest hu hw hd hc hi => ?_,
    fun s c t id op before a p hs hk hp hx hm hdest hu hd hc hi => ?_, atomicFn_unsigned, atomicFn_signed, atomicFn_signed,
    fun s c t id op before a p hs hk hp hn hx ho hm hw hd hc hi => ?_⟩
  · have step := atomicExecute_data hs hk hp hx ho hm hw hd hc
    obtain ⟨location, others, results, acc, regs⟩ := atomic_finished hk hdest hi (performData_atomic c t hk hw hu)
    exact ⟨_, a.result _, step, location, others, results, rfl, rfl, acc, regs⟩
  · obtain ⟨ho, hw⟩ := State.inClusterUnit_facts hu
    have step := atomicExecute_data hs hk hp hx ho hm hw hd hc
    refine ⟨fun hmid hb => ?_, fun old hmid hold => ?_⟩
    · rw [State.performData_clusterRead hu hmid hb] at step
      refine ⟨_, step, rfl, ?_, ?_, _, State.clusterRead_splitAcc _ hs, rfl⟩
      · rw [State.clusterRead, State.slot_onSlot]
      · rw [State.clusterRead, State.slot_onSlot]
    · obtain ⟨location, others, results, acc, regs⟩ := atomic_finished hk hdest hi (State.performData_clusterWrite hu hmid hk hold)
      exact ⟨_, a.result _, step, location, others, results, rfl, rfl, acc, regs⟩
  · refine ⟨_, vamoExecute_combines hs hk hp hn hx ho hm hw hd hc, ?_⟩
    have nothing : a.sent 0 = [] := Access.sent_of_not_returns 0 (by rw [hk]; rfl)
    have back := Memory.readBytes_writeBytes (vecBytes (vamoFn op.toNat (bytesVec (s.readAt p 64)) (BitVec.ofNat 512 a.data))) s.mem p.key hi
    rw [vecBytes_length] at back
    rw [State.finishAcc_mem, State.finishAcc_g, State.finishAcc_results, State.writeAt_slot, State.writeAt_mem, nothing, List.append_nil]
    exact ⟨back, fun k hk => Memory.read_writeBytes_out _ _ _ _ (by rwa [vecBytes_length]), rfl, rfl⟩

end Sys2Proof.Proofs
end

section
/-! PROOFS. Retirement: what an instruction that has issued leaves of its slot and of the machine (R36, R37, R86). -/

namespace Sys2Proof.Machine

open Sys2Proof Sys2Proof.Safety

/-! ## The slot at hand -/

theorem State.mine_setMe (s : State) (y : Slot) : (s.setMe y).mine = s.mine.setSlot s.cur.slot y := by
  simp [State.mine, State.setMe_def, State.setSlot_def]

theorem State.setMe_me (s : State) : s.me = s.mine.slot s.cur.slot := rfl

theorem State.setCore_setCore (s : State) (c : Nat) (x y : Core) : (s.setCore c x).setCore c y = s.setCore c y := by
  simp [State.setCore]

/-! ## Registers that wait -/

/-- The slot once the destinations of a variable-latency instruction wait (R36). -/
def Slot.pended (x : Slot) (n : Need) : Slot := if n.var then n.ws.foldl Slot.wait x else x

theorem foldl_wait_eq (l : List Reg) (x : Slot) : ∃ p u m, l.foldl Slot.wait x = { x with pend := p, unsync := u, more := m } := by
  induction l generalizing x with
  | nil => exact ⟨_, _, _, rfl⟩
  | cons r l ih =>
    obtain ⟨p, u, m, h⟩ := ih (x.wait r)
    exact ⟨p, u, m, h⟩

theorem Slot.pended_eq (x : Slot) (n : Need) : ∃ p u m, x.pended n = { x with pend := p, unsync := u, more := m } := by
  unfold Slot.pended
  split
  · exact foldl_wait_eq _ _
  · exact ⟨_, _, _, rfl⟩

theorem Slot.pended_of_fixed {x : Slot} {n : Need} (h : n.var = false) : x.pended n = x := by simp [Slot.pended, h]

theorem Slot.pended_one {x : Slot} {n : Need} {d : Reg} (hv : n.var = true) (hw : n.ws = [d]) : x.pended n = x.wait d := by
  simp [Slot.pended, hv, hw]

/-- The slot past an instruction, before its switch marker (R36, R86). -/
def Slot.advanced (x : Slot) (n : Need) (pc : Word) : Slot := { x.pended n with pc := pc, icount := x.icount + 1, walk := Walk.none }

/-! ## The slot after retirement -/

theorem Slot.mark_eq (x : Slot) (now : Nat) : ∃ k u, x.mark now = { x with park := k, unsync := u } := by
  unfold Slot.mark
  split
  · exact ⟨_, _, rfl⟩
  · exact ⟨_, _, rfl⟩

theorem Slot.mark_synced {x : Slot} (now : Nat) (h : x.pend = 0) : x.mark now = { x with park := none, unsync := 0 } := if_pos h
theorem Slot.mark_pending {x : Slot} (now : Nat) (h : x.pend ≠ 0) : x.mark now = x.waitFor now .marker false := if_neg h

/-- What retirement can change of a slot. -/
theorem Slot.retired_eq (x : Slot) (n : Need) (now : Nat) (mark : Bool) (pc : Word) : ∃ p u m k, x.retired n now mark pc =
    { x with pend := p, unsync := u, more := m, park := k, pc := pc, icount := x.icount + 1, walk := Walk.none } := by
  obtain ⟨p, u, m, h⟩ := x.pended_eq n
  rw [Slot.pended] at h
  unfold Slot.retired
  simp only [h]
  split
  · exact ⟨_, _, _, _, rfl⟩
  · split
    · obtain ⟨k, u', hk⟩ := Slot.mark_eq { x with pend := p, unsync := u, more := m, pc := pc, icount := x.icount + 1, walk := Walk.none } now
      exact ⟨_, _, _, _, hk⟩
    · exact ⟨_, _, _, _, rfl⟩

/-- What retirement can change of a slot that waits for no new value. -/
theorem Slot.retired_fixed {n : Need} (x : Slot) (now : Nat) (mark : Bool) (pc : Word) (hn : n.var = false) : ∃ u k,
    x.retired n now mark pc = { x with unsync := u, park := k, pc := pc, icount := x.icount + 1, walk := Walk.none } := by
  unfold Slot.retired
  simp only [hn, Bool.false_eq_true, if_false]
  split
  · exact ⟨_, _, rfl⟩
  · split
    · obtain ⟨k, u, hk⟩ := Slot.mark_eq { x with pc := pc, icount := x.icount + 1, walk := Walk.none } now
      exact ⟨_, _, hk⟩
    · exact ⟨_, _, rfl⟩

section
variable (x : Slot) (n : Need) (now : Nat) (mark : Bool) (pc : Word)

@[simp] theorem Slot.retired_icount : (x.retired n now mark pc).icount = x.icount + 1 := by
  obtain ⟨p, u, m, k, h⟩ := x.retired_eq n now mark pc; rw [h]
@[simp] theorem Slot.retired_v : (x.retired n now mark pc).v = x.v := by
  obtain ⟨p, u, m, k, h⟩ := x.retired_eq n now mark pc; rw [h]
@[simp] theorem Slot.retired_acc : (x.retired n now mark pc).acc = x.acc := by
  obtain ⟨p, u, m, k, h⟩ := x.retired_eq n now mark pc; rw [h]
@[simp] theorem Slot.retired_fence : (x.retired n now mark pc).fence = x.fence := by
  obtain ⟨p, u, m, k, h⟩ := x.retired_eq n now mark pc; rw [h]
@[simp] theorem Slot.retired_results : (x.retired n now mark pc).results = x.results := by
  obtain ⟨p, u, m, k, h⟩ := x.retired_eq n now mark pc; rw [h]
@[simp] theorem Slot.retired_issued : (x.retired n now mark pc).issued = x.issued := by
  obtain ⟨p, u, m, k, h⟩ := x.retired_eq n now mark pc; rw [h]
@[simp] theorem Slot.retired_branches : (x.retired n now mark pc).branches = x.branches := by
  obtain ⟨p, u, m, k, h⟩ := x.retired_eq n now mark pc; rw [h]
@[simp] theorem Slot.retired_spill : (x.retired n now mark pc).spill = x.spill := by
  obtain ⟨p, u, m, k, h⟩ := x.retired_eq n now mark pc; rw [h]
@[simp] theorem Slot.retired_calls : (x.retired n now mark pc).calls = x.calls := by
  obtain ⟨p, u, m, k, h⟩ := x.retired_eq n now mark pc; rw [h]
@[simp] theorem Slot.retired_mode : (x.retired n now mark pc).mode = x.mode := by
  obtain ⟨p, u, m, k, h⟩ := x.retired_eq n now mark pc; rw [h]
@[simp] theorem Slot.retired_syncStands : (x.retired n now mark pc).syncStands = x.syncStands := by
  obtain ⟨p, u, m, k, h⟩ := x.retired_eq n now mark pc; rw [h]

end

/-- Only the destinations of a variable-latency instruction begin to wait. -/
theorem Slot.retired_pend (x : Slot) (n : Need) (now : Nat) (mark : Bool) (pc : Word) :
    (x.retired n now mark pc).pend = (x.pended n).pend := by
  have marked (y : Slot) : (y.mark now).pend = y.pend := by obtain ⟨k, u, h⟩ := y.mark_eq now; rw [h]
  unfold Slot.retired Slot.pended
  simp only
  split
  · rfl
  · split
    · rw [marked]
    · rfl

/-- A park that the instruction began stands, with its kind. -/
theorem Slot.retired_parked {x : Slot} {w : Wait} (n : Need) (now : Nat) (mark : Bool) (pc : Word) (h : x.park = some w) :
    (x.retired n now mark pc).park = some { w with mark := mark } := by
  obtain ⟨p, u, m, hp⟩ := x.pended_eq n
  rw [Slot.pended] at hp
  simp only [Slot.retired, hp, h]

/-- Without a park of its own, an unmarked instruction leaves none. -/
theorem Slot.retired_unmarked {x : Slot} (n : Need) (now : Nat) (pc : Word) (h : x.park = none) :
    x.retired n now false pc = x.advanced n pc := by
  obtain ⟨p, u, m, hp⟩ := x.pended_eq n
  simp only [Slot.advanced, hp]
  rw [Slot.pended] at hp
  simp only [Slot.retired, hp, h, Bool.false_eq_true, if_false]

/-- Without a park of its own, a marked instruction leaves its marker's. -/
theorem Slot.retired_marked {x : Slot} (n : Need) (now : Nat) (pc : Word) (h : x.park = none) :
    x.retired n now true pc = (x.advanced n pc).mark now := by
  obtain ⟨p, u, m, hp⟩ := x.pended_eq n
  simp only [Slot.advanced, hp]
  rw [Slot.pended] at hp
  simp only [Slot.retired, hp, h, if_true]

/-! ## The machine after retirement -/

@[simp] theorem State.retire_cur (s : State) (n : Need) (pc : Word) : (s.retire n pc).cur = s.cur := rfl

theorem State.retire_setMe (s : State) (n : Need) (pc : Word) : s.retire n pc = s.setMe (s.retire n pc).me := by
  simp [State.retire, State.onMe_def]

/-- An instruction that began no park of its own leaves its slot as R36, R37 and R86 say. -/
theorem left_retire {s v : State} (n : Need) (pc : Word) (hc : v.cur = s.cur) (hk : v.me.park = none) (hi : v.me.icount = s.me.icount) :
    left s (v.retire n pc) pc (v.me.pended n).pend (v.me.pended n).unsync := by
  simp only [left, State.retire_me, hc, Slot.retired_pc, Slot.retired_icount, hi, Slot.retired_pend, true_and]
  obtain ⟨p, u, m, hp⟩ := v.me.pended_eq n
  refine ⟨fun hm => ?_, fun hm h0 => ?_, fun hm h1 => ?_⟩
  · rw [hm, Slot.retired_unmarked n _ pc hk]
    exact ⟨by simp [Slot.advanced, hp, hk], rfl⟩
  · rw [hm, Slot.retired_marked n _ pc hk, Slot.mark_synced (x := v.me.advanced n pc) _ h0]
    exact ⟨rfl, rfl⟩
  · rw [hm, Slot.retired_marked n _ pc hk, Slot.mark_pending (x := v.me.advanced n pc) _ h1]
    exact ⟨rfl, rfl⟩

/-- An instruction of fixed latency leaves nothing new pending. -/
theorem leftAs_retire {s v : State} {n : Need} (pc : Word) (hn : n.var = false) (hc : v.cur = s.cur) (hk : v.me.park = none)
    (hi : v.me.icount = s.me.icount) (hp : v.me.pend = s.me.pend) (hu : v.me.unsync = s.me.unsync) : leftAs s (v.retire n pc) pc := by
  have h := left_retire n pc hc hk hi
  rw [Slot.pended_of_fixed hn, hp, hu] at h
  exact h

/-- An instruction of variable latency leaves its destination pending. -/
theorem leftPending_retire {s v : State} {n : Need} {d : Reg} (pc : Word) (hn : n.var = true) (hw : n.ws = [d]) (hc : v.cur = s.cur)
    (hk : v.me.park = none) (hi : v.me.icount = s.me.icount) (hp : v.me.pend = s.me.pend) (hu : v.me.unsync = s.me.unsync) :
    leftPending s (v.retire n pc) pc d := by
  have h := left_retire n pc hc hk hi
  rw [Slot.pended_one hn hw] at h
  simpa only [leftPending, Slot.wait, hp, hu] using h

theorem regsKeep_retire {s v : State} (n : Need) (pc : Word) (hg : v.me.g = s.me.g) (hv : v.me.v = s.me.v) : regsKeep s (v.retire n pc) := by
  simp [regsKeep, Slot.retired_g, hg, hv]

/-- What changed only the issuing slot and retires has changed only the issuing slot. -/
theorem onlyMe_retire {s v : State} (n : Need) (pc : Word) (h : onlyMe s v) : onlyMe s (v.retire n pc) := by
  have hr := v.retire_setMe n pc
  generalize (v.retire n pc).me = y at hr
  rw [onlyMe] at h
  rw [onlyMe, hr, h]
  simp

theorem onlyMine_setMe {s v : State} (y : Slot) (h : onlyMine s v) : onlyMine s (v.setMe y) := by
  rw [onlyMine] at h
  rw [onlyMine, State.mine_setMe, h]
  simp [State.setMe_def, State.setSlot_def, State.setCore_setCore, State.mine]

theorem onlyMine_retire {s v : State} (n : Need) (pc : Word) (h : onlyMine s v) : onlyMine s (v.retire n pc) := by
  rw [State.retire_setMe]
  exact onlyMine_setMe _ h

/-- An instruction of fixed latency that changed general registers alone has done no more once it retires. -/
theorem onlyRegs_retire {s v : State} {n : Need} (pc : Word) (hn : n.var = false) (hg : ∃ g k, v.me = { s.me with g := g, park := k }) :
    onlyRegs s (v.retire n pc) := by
  obtain ⟨g, k, hg⟩ := hg
  obtain ⟨u, k', h⟩ := v.me.retired_fixed v.rtime.toNat v.cur.mark pc hn
  rw [onlyRegs, State.retire_me, h, hg]

@[simp] theorem onlyMe_cleared (s : State) : onlyMe s s.cleared := by simp [onlyMe, State.cleared, State.onMe_def]

end Sys2Proof.Machine
end

section
/-! PROOFS. Accesses and commands at issue: what a load leaves, and what a command that enters its queue leaves (R13, R41, R44, R144, R147, R150). -/

namespace Sys2Proof.Machine

open Sys2Proof Sys2Proof.Safety

/-! ## The state an effect sees -/

theorem State.cleared_rd (s : State) : s.cleared.me.rd = s.me.rd := by
  funext r
  exact Slot.rd_congr (by rw [State.cleared_me]) r

theorem State.cleared_mine (s : State) : s.cleared.mine = s.mine.setSlot s.cur.slot { s.me with park := none } := State.mine_setMe _ _

@[simp] theorem State.cleared_setMe (s : State) (y : Slot) : s.cleared.setMe y = s.setMe y := by
  simp [State.cleared, State.onMe_def]

theorem any_of_tget {α : Type} (P : α → Bool) (t : Tbl α) (k : Nat) (d : α) (hd : P d = false) (h : P (tget t k d) = true) :
    t.any (fun y => P y.2) = true := by
  induction t with
  | nil => simp [tget, hd] at h
  | cons q r ih =>
    simp only [tget] at h
    split at h
    · simp [h]
    · simp [ih h]

/-- What holds of some entry of a table holds of some entry after one is set to a like one. -/
theorem any_tset {α : Type} (P : α → Bool) (t : Tbl α) (k : Nat) (v d : α) (h : P v = P (tget t k d)) (hd : P d = false) :
    (tset t k v).any (fun y => P y.2) = t.any (fun y => P y.2) := by
  induction t with
  | nil => simpa [tset, tget, hd] using h
  | cons q r ih =>
    simp only [tset]
    split
    · next e => simp [tget, e] at h; simp [h]
    · next e =>
      split
      · cases hv : P v with
        | false => simp [hv]
        | true => rw [any_of_tget P _ k d hd (h.symm.trans hv), List.any_cons, hv, Bool.true_or]
      · simp only [tget, e, if_false] at h
        simp [ih h]

/-- The wait that an instruction ends holds back none of its thread's accesses (R152). -/
theorem State.cleared_memHeld (s : State) : s.cleared.memHeld s.cleared.me = s.memHeld s.me := by
  have started : s.cleared.startHeld s.cleared.me = s.startHeld s.me := by
    simp only [State.startHeld, State.cleared_me, State.cleared_mine, Core.setSlot_slots]
    congr 1
    funext q
    exact any_tset (fun y : Slot => y.acc.any (fun a => a.id == q.2)) _ _ _ Slot.reset rfl rfl
  simp only [State.memHeld, started]
  simp only [State.cleared_me]
  rfl

/-! ## An access enters its slot's list -/

theorem State.putAccess_setMe (s : State) (a : Access) :
    ∃ k, s.putAccess a = ({ s with nextId := s.nextId + 1 } : State).setMe { s.me with acc := s.me.acc ++ [a], fence := false, park := k } ∧
      (a.phase = .miss → k.map (·.kind) = some (.tlb a.id)) ∧ (a.phase ≠ .miss → k = s.me.park) := by
  by_cases h : a.phase = .miss
  · refine ⟨some { kind := .tlb a.id, since := s.rtime.toNat, limit := fld s.me.waitlim 0 32, mark := false }, ?_, fun _ => rfl, fun h' => absurd h h'⟩
    simp only [State.putAccess, State.onMe_def, h, if_true]
    rfl
  · refine ⟨s.me.park, ?_, fun h' => absurd h' h, fun _ => rfl⟩
    simp only [State.putAccess, State.onMe_def, h, if_false]
    rfl

/-- The access that a request makes, as one that has entered (R144, R147). -/
theorem State.mkAccess_miss (s : State) (r : Req) (hsp : spaceOf r.va ≠ .reserved) (hp : s.tlbPlace s.cur.core s.me.asid r.va = none) :
    (s.mkAccess r).phase = .miss ∧ (s.mkAccess r).place = none := by
  have hv : ∃ va, spaceOf r.va = .virt va := by
    unfold State.tlbPlace at hp
    split at hp
    · next va e => exact ⟨va, e⟩
    · next hn => cases e : spaceOf r.va <;> simp_all [plainPlace]
  obtain ⟨va, hv⟩ := hv
  simp [State.mkAccess, hp, hv]

theorem State.mkAccess_lacks (s : State) (r : Req) (hsp : spaceOf r.va ≠ .reserved) {p : Place}
    (hp : s.tlbPlace s.cur.core s.me.asid r.va = some p) (hl : p.lacks r.kind.acc = true) :
    (s.mkAccess r).phase = .miss ∧ (s.mkAccess r).place = none := by
  simp [State.mkAccess, hsp, hp, hl]

theorem State.mkAccess_ready (s : State) (r : Req) (hsp : spaceOf r.va ≠ .reserved) {p : Place}
    (hp : s.tlbPlace s.cur.core s.me.asid r.va = some p) (hl : p.lacks r.kind.acc = false) :
    (s.mkAccess r).phase = .ready ∧ (s.mkAccess r).place = some p := by
  simp [State.mkAccess, hsp, hp, hl]

theorem State.mkAccess_reserved (s : State) (r : Req) (h : spaceOf r.va = .reserved) :
    (s.mkAccess r).phase = .ready ∧ (s.mkAccess r).place = some Place.nowhere := by
  have hl : Place.nowhere.lacks r.kind.acc = false := by simp [Place.lacks, Place.nowhere, Place.plain]
  simp [State.mkAccess, h, hl]

theorem State.tlbPlace_reserved (s : State) {c : Nat} {asid : BitVec 16} {a : Word} (h : spaceOf a = .reserved) : s.tlbPlace c asid a = none := by
  simp [State.tlbPlace, h, plainPlace]

theorem State.cleared_core_tlb (s : State) : (s.cleared.core s.cur.core).tlb = (s.core s.cur.core).tlb := by
  have h : s.cleared.core s.cur.core = s.cleared.mine := rfl
  rw [h, State.cleared_mine]
  rfl

theorem State.cleared_mkAccess (s : State) (q : Req) : s.cleared.mkAccess q = s.mkAccess q := by
  have ht (as : BitVec 16) (a : Word) : s.cleared.tlbPlace s.cleared.cur.core as a = s.tlbPlace s.cur.core as a := by
    simp only [State.tlbPlace, State.cleared_cur, State.cleared_core_tlb]
  simp only [State.mkAccess, ht]
  simp only [State.cleared_me, State.cleared_mine]
  rfl

/-- An access at issue: it enters its slot's list, and on a miss the thread parks at it (R144, R147). -/
theorem beganAccess_retire (s : State) (need : Need) (q : Req) :
    beganAccess s ((s.cleared.putAccess (s.mkAccess q)).retire need s.nextPc) (s.mkAccess q) q.kind q.va q.size q.x q.scope q.order := by
  obtain ⟨k, hput, hmiss, _⟩ := s.cleared.putAccess_setMe (s.mkAccess q)
  have parked (h : (s.mkAccess q).phase = .miss) :
      ((s.cleared.putAccess (s.mkAccess q)).retire need s.nextPc).me.park.map (·.kind) = some (.tlb (s.mkAccess q).id) := by
    obtain ⟨w, hw, hkind⟩ := Option.map_eq_some_iff.mp (hmiss h)
    rw [State.retire_me, hput, Slot.retired_parked (w := w) _ _ _ _ (by simp [hw])]
    exact congrArg some hkind
  refine ⟨?_, rfl, rfl, rfl, rfl, rfl, rfl, rfl, rfl, rfl, rfl, rfl, fun hs hp => ?_, fun p hp hl => ?_, fun p hp hl => ?_, fun hs => ?_,
    ?_, ?_, ?_, ?_, ?_⟩
  · simp [hput]
  · obtain ⟨h1, h2⟩ := s.mkAccess_miss q hs hp
    exact ⟨h1, h2, parked h1⟩
  · have hs : spaceOf q.va ≠ .reserved := fun e => by simp [s.tlbPlace_reserved e] at hp
    obtain ⟨h1, h2⟩ := s.mkAccess_lacks q hs hp hl
    exact ⟨h1, h2, parked h1⟩
  · have hs : spaceOf q.va ≠ .reserved := fun e => by simp [s.tlbPlace_reserved e] at hp
    exact s.mkAccess_ready q hs hp hl
  · exact s.mkAccess_reserved q hs
  · rw [State.retire_me, Slot.retired_pc]
  · simp [hput]
  · exact regsKeep_retire _ _ (by simp [hput]) (by simp [hput])
  · rw [State.retire_mem, hput]
    rfl
  · have h : onlyMe ({ s with nextId := s.nextId + 1 } : State) (s.cleared.putAccess (s.mkAccess q)) := by
      rw [hput, onlyMe, State.me_setMe]
      exact State.cleared_setMe ({ s with nextId := s.nextId + 1 } : State) _
    exact onlyMe_retire need s.nextPc h

end Sys2Proof.Machine
end

section
/-! PROOFS. The issue of loads (R144, R147, R150). -/

namespace Sys2Proof.Machine

open Sys2Proof Sys2Proof.Safety

/-- With no branch unresolved, an instruction that its own rule refuses traps (R40, R353). -/
theorem issue_traps {n : Need} {f : State → Act} {s : State} {code : BitVec 8} {addr info : Word} (h : mayIssue n s = true)
    (hb : s.me.branches = []) (hf : f s.cleared = .trap code addr info) : issue n f s = .next (s.issueTrap code addr info) := by
  rw [issue_trap h hf, State.trapOrHold, if_pos (by simp [hb])]

/-- An aligned access that nothing holds enters its slot's list and retires (R144, R152). -/
theorem access_begins {need : Need} {f : Slot → Req} {s : State} {q : Req} (h : mayIssue need s = true) (hq : f s.cleared.me = q)
    (ha : q.va.toNat % q.size = 0) (hb : s.sweepStoreBad q = false) (hs : spaceOf q.va ≠ .reserved) (hm : s.memHeld s.me = false) :
    access need f s = .next ((s.cleared.putAccess (s.mkAccess q)).retire need s.nextPc) := by
  refine issue_done h ?_
  have hb' : s.cleared.sweepStoreBad q = false := by
    rw [← hb, State.sweepStoreBad, State.cleared_mine]
    rfl
  simp only [hq, aligned, ha, beq_self_eq_true, Bool.not_true, Bool.false_eq_true, if_false, hb', hs, State.cleared_memHeld, hm,
    State.cleared_mkAccess]

/-- At an address of a reserved space an access takes WINDOW at issue (R367, R369). -/
theorem access_reserved {need : Need} {f : Slot → Req} {s : State} {q : Req} (h : mayIssue need s = true) (hq : f s.cleared.me = q)
    (ha : q.va.toNat % q.size = 0) (hb : s.sweepStoreBad q = false) (hs : spaceOf q.va = .reserved) (hbr : s.me.branches = []) :
    access need f s = .next (s.issueTrap 0x07 q.va (memInfo 6 q.kind.acc 5 s.me.asid 0 false)) := by
  have hb' : s.cleared.sweepStoreBad q = false := by
    rw [← hb, State.sweepStoreBad, State.cleared_mine]
    rfl
  refine issue_traps h hbr ?_
  simp only [hq, aligned, ha, beq_self_eq_true, Bool.not_true, Bool.false_eq_true, if_false, hb', hs, if_true]
  simp only [State.cleared_me]

/-- An instruction that waits for older branches issues with none unresolved (R39). -/
theorem mayIssue_branches {n : Need} {s : State} (h : mayIssue n s = true) (hl : n.late = true) : s.me.branches = [] := by
  simp only [mayIssue, hl, Bool.and_eq_true] at h
  simpa using h.2

/-- An access whose translation stands begins no park (R147). -/
theorem State.putAccess_translated (s : State) {a : Access} (h : a.phase ≠ .miss) :
    (s.putAccess a).me = { s.me with acc := s.me.acc ++ [a], fence := false } := by
  obtain ⟨k, hput, _, hk⟩ := s.putAccess_setMe a
  rw [hput, State.me_setMe, hk h]

theorem State.putAccess_pend (s : State) (a : Access) : (s.putAccess a).me.pend = s.me.pend := by
  obtain ⟨k, hput, _, _⟩ := s.putAccess_setMe a
  rw [hput, State.me_setMe]

@[simp] theorem State.putAccess_cur (s : State) (a : Access) : (s.putAccess a).cur = s.cur := by
  obtain ⟨k, hput, _, _⟩ := s.putAccess_setMe a
  simp [hput]

/-- The request of a load (R150). -/
def loadReq (sg : Bool) (n : Nat) (d : Reg) (m : MemOp) (x : Slot) : Req :=
  { kind := .load sg, va := memAddr m x n, size := n, x := m.x, scope := m.scope, order := m.order, dest := d }

/-- What a load asks of the issue stage. -/
def loadNeed (d : Reg) (m : MemOp) : Need := { rs := [m.base, m.idx], ws := [d], var := true, who := .any }

theorem exec_load {i : Instr} {sg : Bool} {n : Nat} {d : Reg} {m : MemOp} (h : loadForm i = some (sg, n, d, m)) (s : State) :
    exec i s = access (loadNeed d m) (loadReq sg n d m) s := by
  unfold loadForm at h
  split at h <;> cases h <;> rfl

/-- A load is no store of the sweep thread (R289). -/
theorem State.sweepStoreBad_load (s : State) (sg : Bool) (n : Nat) (d : Reg) (m : MemOp) (x : Slot) : s.sweepStoreBad (loadReq sg n d m x) = false := by
  have hk : ((loadReq sg n d m x).kind == .store) = false := rfl
  rw [State.sweepStoreBad, hk, Bool.and_false, Bool.false_and]

theorem memAddr_cleared (m : MemOp) (s : State) (n : Nat) : memAddr m s.cleared.me n = memAddr m s.me n := by
  simp only [memAddr, State.cleared_rd]

end Sys2Proof.Machine

namespace Sys2Proof.Proofs

open Sys2Proof Sys2Proof.Machine Sys2Proof.Safety

/-- Settles O30: a load is one access at issue; it leaves its destination pending, and parks only where its translation misses. -/
theorem loadsIssue : Obligations.LoadsIssue := by
  unfold Obligations.LoadsIssue
  intro i sg n d m s hi h ha
  have hq : loadReq sg n d m s.cleared.me = loadReq sg n d m s.me := by simp only [loadReq, memAddr_cleared]
  rw [traps, exec_load hi]
  refine ⟨fun hs hm => ⟨_, s.mkAccess (loadReq sg n d m s.me), access_begins (q := loadReq sg n d m s.me) h hq ha (s.sweepStoreBad_load ..) hs hm,
    beganAccess_retire s _ (loadReq sg n d m s.me), rfl, ?_, fun p hp hl => ?_⟩, fun hs => ?_⟩
  · rw [State.retire_me, Slot.retired_pend, Slot.pended_one rfl rfl]
    simp only [Slot.wait, State.putAccess_pend, State.cleared_me]
  · have hready := (s.mkAccess_ready (loadReq sg n d m s.me) hs hp hl).1
    have hme := s.cleared.putAccess_translated (a := s.mkAccess (loadReq sg n d m s.me)) (by simp [hready])
    rw [State.cleared_me] at hme
    exact leftPending_retire _ rfl rfl (by simp) (by rw [hme]) (by rw [hme]) (by rw [hme]) (by rw [hme])
  · exact access_reserved (q := loadReq sg n d m s.me) h hq ha (s.sweepStoreBad_load ..) hs (mayIssue_branches h rfl)

end Sys2Proof.Proofs
end

section
/-! PROOFS. Commands at issue: what a vector or matrix command that enters its queue leaves (R13, R41, R44, R167, R193). -/

namespace Sys2Proof.Machine

open Sys2Proof Sys2Proof.Safety

/-! ## A command in its queue -/

/-- A change of the issuing core that keeps its slots keeps the issuing slot. -/
theorem State.me_onMine {s : State} {f : Core → Core} (h : (f s.mine).slots = s.mine.slots) : (s.onMine f).me = s.me := by
  have hm : (s.onMine f).me = (f s.mine).slot s.cur.slot := by simp [State.me, State.slot, State.onMine_def]
  rw [hm, Core.slot, h]
  rfl

/-- What is left to say of a command in its queue: its place among the MMAJs of its core (R198). -/
theorem State.putCmd_eq (s : State) (e : Nat) (i : Instr) (args : List Word) : ∃ j n, s.putCmd e i args =
    (({ s with nextId := s.nextId + 1 } : State).setMe { s.me with issued := ectxSet s.me.issued e (ectx s.me.issued e + 1) }).onMine
      (fun k => { k with queue := tset k.queue e (tget k.queue e [] ++ [s.mkCmd e i args j]), mmajIn := n }) :=
  ⟨_, _, rfl⟩

@[simp] theorem State.putCmd_cur (s : State) (e : Nat) (i : Instr) (args : List Word) : (s.putCmd e i args).cur = s.cur := rfl
@[simp] theorem State.putCmd_mem (s : State) (e : Nat) (i : Instr) (args : List Word) : (s.putCmd e i args).mem = s.mem := rfl

theorem State.putCmd_me (s : State) (e : Nat) (i : Instr) (args : List Word) :
    (s.putCmd e i args).me = { s.me with issued := ectxSet s.me.issued e (ectx s.me.issued e + 1) } := by
  obtain ⟨j, n, h⟩ := s.putCmd_eq e i args
  rw [h, State.me_onMine rfl, State.me_setMe]

theorem State.putCmd_mine (s : State) (e : Nat) (i : Instr) (args : List Word) : ∃ j,
    tget (s.putCmd e i args).mine.queue e [] = tget s.mine.queue e [] ++ [s.mkCmd e i args j] ∧
    (s.putCmd e i args).mine.exec = s.mine.exec ∧ (s.putCmd e i args).mine.tiles = s.mine.tiles := by
  obtain ⟨j, n, h⟩ := s.putCmd_eq e i args
  have hm : (({ s with nextId := s.nextId + 1 } : State).setMe { s.me with issued := ectxSet s.me.issued e (ectx s.me.issued e + 1) }).mine =
      s.mine.setSlot s.cur.slot { s.me with issued := ectxSet s.me.issued e (ectx s.me.issued e + 1) } := State.mine_setMe _ _
  refine ⟨j, ?_, ?_, ?_⟩
  · rw [h, State.mine_onMine, tget_tset, hm]
    rfl
  · rw [h, State.mine_onMine, hm]
    rfl
  · rw [h, State.mine_onMine, hm]
    rfl

theorem State.putCmd_onlyMineId (s : State) (e : Nat) (i : Instr) (args : List Word) : onlyMineId s (s.putCmd e i args) := by
  obtain ⟨j, n, h⟩ := s.putCmd_eq e i args
  rw [onlyMineId, h, State.mine_onMine, State.onMine_def, State.setMe_def, State.setSlot_def, State.setCore_cur, State.setCore_setCore]

/-! ## The issue of a command -/

theorem onlyMine_cleared {s t : State} (h : onlyMine s.cleared t) : onlyMine s t := by
  rw [onlyMine] at h ⊢
  rw [h, State.cleared, State.onMe_def, State.setMe_def, State.setSlot_def, State.setCore_cur, State.setCore_setCore]
  simp [State.mine]

theorem onlyMineId_cleared {s t : State} (h : onlyMineId s.cleared t) : onlyMineId s t :=
  onlyMine_cleared (s := { s with nextId := s.nextId + 1 }) h

theorem onlyMineId_retire {s v : State} (n : Need) (pc : Word) (h : onlyMineId s v) : onlyMineId s (v.retire n pc) := onlyMine_retire n pc h

/-- A command that has entered, once its instruction has retired (R41, R44). -/
theorem entered_retire (s : State) (need : Need) (e : Nat) (i : Instr) (args : List Word) :
    entered s ((s.cleared.putCmd e i args).retire need s.nextPc) e i args := by
  obtain ⟨j, hq, hx, ht⟩ := s.cleared.putCmd_mine e i args
  have hme := s.cleared.putCmd_me e i args
  rw [State.cleared_me] at hme
  have hmine : ((s.cleared.putCmd e i args).retire need s.nextPc).mine =
      (s.cleared.putCmd e i args).mine.setSlot s.cur.slot ((s.cleared.putCmd e i args).retire need s.nextPc).me := by
    rw [State.retire_setMe, State.mine_setMe, State.me_setMe]
    rfl
  rw [State.cleared_mine] at hq hx ht
  have same := s.cleared_me
  refine ⟨s.cleared.mkCmd e i args j, ?_, rfl, rfl, rfl, congrArg (·.nextNum e) same, congrArg (·.ec) same, congrArg (·.dom) same,
    congrArg (·.asid) same, congrArg (·.key) same, rfl, ?_, ?_, ?_, ?_, ?_, ?_⟩
  · rw [hmine, Core.setSlot_queue, hq]
    rfl
  · rw [State.retire_me, hme, Slot.retired_issued]
  · rw [State.retire_me, hme, Slot.retired_acc]
  · rw [hmine, Core.setSlot_exec, hx]
    rfl
  · rw [hmine, Core.setSlot_tiles, ht]
    rfl
  · exact regsKeep_retire _ _ (by rw [hme]) (by rw [hme])
  · exact onlyMineId_retire _ _ (onlyMineId_cleared (s.cleared.putCmd_onlyMineId e i args))

theorem queueOpen_enter {s : State} {e : Nat} (h : queueOpen s e = true) (i : Instr) (args : List Word) :
    enter e i args s.cleared = .done (s.cleared.putCmd e i args) := by
  simp only [queueOpen, Bool.and_eq_true, Bool.not_eq_true', decide_eq_true_eq] at h
  refine enter_done ?_ ?_
  · rw [State.cleared_me]
    exact h.1
  · rw [State.cleared_mine, Core.setSlot_queue]
    exact h.2

/-- An instruction that puts a command in its queue and retires (R41). -/
theorem issue_puts {n : Need} {f : State → Act} {s : State} {e : Nat} {i : Instr} {args : List Word} (h : mayIssue n s = true)
    (hf : f s.cleared = .done (s.cleared.putCmd e i args)) (hv : n.var = false) :
    ∃ t, issue n f s = .next t ∧ entered s t e i args ∧ leftAs s t s.nextPc := by
  have hme := s.cleared.putCmd_me e i args
  rw [State.cleared_me] at hme
  exact ⟨_, issue_done h hf, entered_retire s n e i args, leftAs_retire _ hv rfl (by rw [hme]) (by rw [hme]) (by rw [hme]) (by rw [hme])⟩

/-- An instruction whose checks pass and whose queue is open enters it (R13, R41). -/
theorem issue_enters {n : Need} {f : State → Act} {s : State} {e : Nat} {i : Instr} {args : List Word} (h : mayIssue n s = true)
    (ho : queueOpen s e = true) (hf : f s.cleared = enter e i args s.cleared) (hv : n.var = false) :
    ∃ t, issue n f s = .next t ∧ entered s t e i args ∧ leftAs s t s.nextPc := issue_puts h (hf.trans (queueOpen_enter ho i args)) hv

/-- The same of an instruction with a result of variable latency (R36). -/
theorem issue_enters_pending {n : Need} {f : State → Act} {s : State} {e : Nat} {i : Instr} {args : List Word} {d : Reg} (h : mayIssue n s = true)
    (ho : queueOpen s e = true) (hf : f s.cleared = enter e i args s.cleared) (hv : n.var = true) (hw : n.ws = [d]) :
    ∃ t, issue n f s = .next t ∧ entered s t e i args ∧ leftPending s t s.nextPc d := by
  have hme := s.cleared.putCmd_me e i args
  rw [State.cleared_me] at hme
  exact ⟨_, issue_done h (hf.trans (queueOpen_enter ho i args)), entered_retire s n e i args,
    leftPending_retire _ hv hw rfl (by rw [hme]) (by rw [hme]) (by rw [hme]) (by rw [hme])⟩

/-! ## Vector commands (R167, R172 to R178) -/

theorem exec_vecForm {i : Instr} {rs : List Reg} (h : vecForm i = some rs) (s : State) : exec i s = vecCmd i rs s := by
  unfold vecForm at h
  split at h <;> cases h <;> rfl

end Sys2Proof.Machine

namespace Sys2Proof.Proofs

open Sys2Proof Sys2Proof.Machine Sys2Proof.Safety

/-- Settles O40: past its checks a vector command enters queue 1 with what it samples, and its instruction retires. -/
theorem vectorCommandsEnter : Obligations.VectorCommandsEnter := by
  unfold Obligations.VectorCommandsEnter
  refine ⟨fun i rs s hi h ho => ?_, fun s ty d b l h ho => ?_, fun i s d b x off hi h ho ha => ?_, fun i s ty d b x off hi h ho ha => ?_,
    fun i s ty d x b hi h ho ha => ?_⟩
  · rw [exec_vecForm hi]
    exact issue_enters h ho (by simp only [State.cleared_rd]) rfl
  · have hi : exec (.vext ty d b l) s = execVext ty d b l s := rfl
    rw [hi]
    refine issue_enters_pending h ho ?_ rfl rfl
    simp only [State.cleared_rd]
  · have hi' : exec i s = vecLine i b x off s := by
      rcases List.mem_pair.mp hi with rfl | rfl <;> rfl
    rw [hi']
    refine issue_enters h ho ?_ rfl
    simp only [lineAddr, State.cleared_rd, aligned, ha, beq_self_eq_true, Bool.not_true, Bool.false_eq_true, if_false]
  · have hi' : exec i s = vecStride i ty b x off s := by
      rcases List.mem_pair.mp hi with rfl | rfl <;> rfl
    rw [hi']
    refine issue_enters h ho ?_ rfl
    have aligns : (List.range ty.lanes).find? (fun k => !aligned (s.me.rd b + off + BitVec.ofNat 64 k * s.me.rd x) ty.width) = none := by
      simpa [aligned] using ha
    simp only [State.cleared_rd, aligns]
  · have hi' : exec i s = vecIndexed i ty b s := by
      rcases List.mem_pair.mp hi with rfl | rfl <;> rfl
    rw [hi']
    refine issue_enters h ho ?_ rfl
    simp only [State.cleared_rd, aligned, ha, beq_self_eq_true, Bool.not_true, Bool.false_eq_true, if_false]

end Sys2Proof.Proofs
end

section
/-! PROOFS. The issue of matrix commands (R193, R197 to R201, R362, R363). -/

namespace Sys2Proof.Machine

open Sys2Proof Sys2Proof.Safety

theorem State.cleared_ec (s : State) : s.cleared.me.ec = s.me.ec := congrArg (·.ec) s.cleared_me

theorem State.cleared_tile (s : State) (t : TileNo) : s.cleared.tile s.cur.core t = s.tile s.cur.core t := by
  have h : s.cleared.core s.cur.core = s.cleared.mine := rfl
  rw [State.tile, h, State.cleared_mine]
  rfl

theorem fld_low (w : Word) (n : Nat) : fld w 0 n = w.toNat % 2 ^ n := by simp [fld]

/-- What the checks of MMA and of a lowest member's MMAJ ask: an allocated tile of the pair's kind, legal formats, strides and addresses (R362, R363). -/
structure MmaLegal (s : State) (t : TileNo) (a b : Reg) : Prop where
  alloc : (s.tile s.cur.core t).alloc = true
  format : formatFault s.me.ec.fmta s.me.ec.fmtb s.me.ec.klen = none
  kind : (s.tile s.cur.core t).int = pairInt (fmtCode s.me.ec.fmta) (fmtCode s.me.ec.fmtb)
  sideA : sideFault s.me.ec.fmta s.me.ec.astr s.me.ec.scla s.me.ec.plna (s.me.rd a) = none
  sideB : sideFault s.me.ec.fmtb s.me.ec.bstr s.me.ec.sclb s.me.ec.plnb (s.me.rd b) = none

theorem execMma_enters {s : State} {t : TileNo} {a b : Reg} (h : mayIssue { rs := [a, b], late := false } s = true) (ho : queueOpen s 0 = true)
    (hl : MmaLegal s t a b) : ∃ u, execMma t a b s = .next u ∧ entered s u 0 (.mma t a b) [s.me.rd a, s.me.rd b] ∧ leftAs s u s.nextPc := by
  refine issue_enters h ho ?_ rfl
  simp only [State.cleared_cur, State.cleared_tile, State.cleared_ec, State.cleared_rd, hl.alloc, hl.format, hl.kind, hl.sideA, hl.sideB, bne_self_eq_false, Bool.not_true,
    Bool.false_eq_true, if_false]

/-- Only a core whose number is a multiple of the segment's width is its lowest member (R198). -/
theorem lowest_iff (s : State) : (s.cur.core % 2 ^ fld s.me.ec.mjoin 0 2 == 0) = decide (s.cur.core % 2 ^ (s.me.ec.mjoin.toNat % 4) = 0) := by
  rw [fld_low]
  rfl

theorem execMmaj_lowest_enters {s : State} {t : TileNo} {a b : Reg} (h : mayIssue { rs := [a, b], late := false } s = true)
    (ho : queueOpen s 0 = true) (hl : MmaLegal s t a b) (hc : s.cur.core % 2 ^ (s.me.ec.mjoin.toNat % 4) = 0) :
    ∃ u, execMmaj t a b s = .next u ∧ entered s u 0 (.mmaj t a b) [s.me.rd a, s.me.rd b] ∧ leftAs s u s.nextPc := by
  refine issue_enters h ho ?_ rfl
  simp only [State.cleared_cur, State.cleared_tile, State.cleared_ec, State.cleared_rd, lowest_iff, hc, decide_true, if_true, hl.alloc, hl.format, hl.kind,
    hl.sideA, hl.sideB, bne_self_eq_false, Bool.not_true, Bool.false_eq_true, if_false]

/-- A member above the lowest answers for its own side alone (R198). -/
theorem execMmaj_member_enters {s : State} {t : TileNo} {a b : Reg} (h : mayIssue { rs := [a, b], late := false } s = true)
    (ho : queueOpen s 0 = true) (hal : (s.tile s.cur.core t).alloc = true) (hc : s.cur.core % 2 ^ (s.me.ec.mjoin.toNat % 4) ≠ 0)
    (hf : fmtCode s.me.ec.fmta < 12) (hg : 10 ≤ fmtCode s.me.ec.fmta → groupCode s.me.ec.fmta ≠ 3)
    (hi : (s.tile s.cur.core t).int = true → pairInt (fmtCode s.me.ec.fmta) (fmtCode s.me.ec.fmta) = true)
    (ha : sideFault s.me.ec.fmta s.me.ec.astr s.me.ec.scla s.me.ec.plna (s.me.rd a) = none) :
    ∃ u, execMmaj t a b s = .next u ∧ entered s u 0 (.mmaj t a b) [s.me.rd a, s.me.rd b] ∧ leftAs s u s.nextPc := by
  refine issue_enters h ho ?_ rfl
  have group : ¬(isQ (fmtCode s.me.ec.fmta) = true ∧ groupCode s.me.ec.fmta = 3) := by
    rintro ⟨hq, h3⟩
    refine hg ?_ h3
    simp only [isQ, Bool.or_eq_true, beq_iff_eq] at hq
    omega
  have kind : ((s.tile s.cur.core t).int && !pairInt (fmtCode s.me.ec.fmta) (fmtCode s.me.ec.fmta)) = false := by
    cases hint : (s.tile s.cur.core t).int with
    | false => rfl
    | true => simp [hi hint]
  simp only [State.cleared_cur, State.cleared_tile, State.cleared_ec, State.cleared_rd, lowest_iff, hc, decide_false, hal, ha, kind,
    Nat.not_le.mpr hf, group, Bool.not_true, Bool.false_eq_true, if_false]

theorem strideOk_eq (w : Word) (f : Nat) : strideOk w f = decide (w.toNat % 2 ^ 32 % (if isF6 f then 128 else 64) = 0) := by
  rw [strideOk, fld_low]
  rfl

theorem loadTile_enters {i : Instr} {s : State} {t : TileNo} {b : Reg} {off : Word} (h : mayIssue { rs := [b], late := false } s = true)
    (ho : queueOpen s 0 = true) (hal : (s.tile s.cur.core t).alloc = true) (hs : s.me.ec.cstr.toNat % 2 ^ 32 % 64 = 0)
    (ha : (s.me.rd b + off).toNat % 64 = 0) :
    ∃ u, loadTile i t b off s = .next u ∧ entered s u 0 i [s.me.rd b + off] ∧ leftAs s u s.nextPc := by
  refine issue_enters h ho ?_ rfl
  have stride : strideOk s.me.ec.cstr 0 = true := by rw [strideOk_eq, isF6]; exact decide_eq_true hs
  simp only [State.cleared_cur, State.cleared_tile, State.cleared_ec, State.cleared_rd, baseAddr, hal, stride, aligned, ha, beq_self_eq_true, Bool.not_true,
    Bool.false_eq_true, if_false]

theorem bit_eq (w : Word) (i : Nat) : bit w i = decide (w.toNat / 2 ^ i % 2 = 1) := by
  simp only [bit, fld, Nat.shiftRight_eq_div_pow, Nat.pow_one]
  rfl

/-- The drain codes of R76, as MST's checks ask for them. -/
theorem drain_permitted {w : Word} {int : Bool}
    (h : if int = true then w.toNat % 16 ∈ [2, 7, 8, 9] ∧ w.toNat / 16 % 2 = 0 else w.toNat % 16 ≤ 6) :
    ¬12 ≤ fld w 0 4 ∧ drainForbidden (fld w 0 4) int = false ∧ (bit w 4 && int) = false := by
  rw [fld_low, bit_eq]
  cases int with
  | false =>
    simp only [Bool.false_eq_true, if_false] at h
    exact ⟨by omega, by simp [drainForbidden, h], by simp⟩
  | true =>
    simp only [if_true, List.mem_cons, List.not_mem_nil, or_false] at h
    obtain ⟨hc, hz⟩ := h
    exact ⟨by omega, by rcases hc with e | e | e | e <;> simp [drainForbidden, e], by simp [hz]⟩

/-- The stride and plane of a drain (R191, R200). -/
theorem drain_strides {w c p : Word}
    (h : if w.toNat % 16 ∈ [5, 6] then c.toNat % 2 ^ 32 % 128 = 0 ∧ p.toNat % 64 = 0 else c.toNat % 2 ^ 32 % 64 = 0) :
    strideOk c (fld w 0 4) = true ∧ (isF6 (fld w 0 4) && !aligned p 64) = false := by
  have code : isF6 (fld w 0 4) = decide (w.toNat % 16 ∈ [5, 6]) := by
    rw [fld_low, isF6, Bool.eq_iff_iff]
    simp
  rw [strideOk_eq, code]
  split at h
  · next hf =>
    refine ⟨?_, by simp [h.2, aligned]⟩
    rw [decide_eq_true hf]
    exact decide_eq_true h.1
  · next hf =>
    rw [decide_eq_false hf]
    exact ⟨decide_eq_true h, rfl⟩

theorem execMst_enters {s : State} {t : TileNo} {b : Reg} {off : Word} {z : Bool} (h : mayIssue { rs := [b], late := false } s = true)
    (ho : queueOpen s 0 = true) (hal : (s.tile s.cur.core t).alloc = true)
    (hd : if (s.tile s.cur.core t).int = true then s.me.ec.dfmt.toNat % 16 ∈ [2, 7, 8, 9] ∧ s.me.ec.dfmt.toNat / 16 % 2 = 0
      else s.me.ec.dfmt.toNat % 16 ≤ 6)
    (hx : s.me.ec.dfmt.toNat / 16 % 2 = 1 → s.me.ec.amaxp.toNat % 4 = 0) (ha : (s.me.rd b + off).toNat % 64 = 0)
    (hs : if s.me.ec.dfmt.toNat % 16 ∈ [5, 6] then s.me.ec.cstr.toNat % 2 ^ 32 % 128 = 0 ∧ s.me.ec.plna.toNat % 64 = 0
      else s.me.ec.cstr.toNat % 2 ^ 32 % 64 = 0) :
    ∃ u, execMst t b off z s = .next u ∧ entered s u 0 (.mst t b off z) [s.me.rd b + off] ∧ leftAs s u s.nextPc := by
  refine issue_enters h ho ?_ rfl
  obtain ⟨small, permitted, scaled⟩ := drain_permitted hd
  obtain ⟨stride, plane⟩ := drain_strides hs
  have amax : (bit s.me.ec.dfmt 4 && !aligned s.me.ec.amaxp 4) = false := by
    rw [bit_eq, Bool.and_eq_false_imp]
    intro h1
    simp [aligned, hx (of_decide_eq_true h1)]
  have line : aligned (s.me.rd b + off) 64 = true := beq_iff_eq.mpr ha
  simp only [State.cleared_cur, State.cleared_tile, State.cleared_ec, State.cleared_rd, baseAddr, hal, small, permitted, scaled, stride, plane, amax,
    line, Bool.not_true, Bool.or_self, Bool.false_eq_true, if_false]

theorem Act.tile_zero (t : TileNo) : Act.tile t 0 = .trap 0x12 0 (BitVec.ofNat 64 t.toNat) := by simp [Act.tile]

/-- MZERO and MROW ask for an allocated tile alone (R201). -/
theorem tileOnly_enters {i : Instr} {s : State} {t : TileNo} (h : mayIssue { late := false } s = true) (ho : queueOpen s 0 = true)
    (hal : (s.tile s.cur.core t).alloc = true) :
    ∃ u, issue { late := false } (fun s => if !(s.tile s.cur.core t).alloc then .tile t 0 else enter 0 i [] s) s = .next u ∧
      entered s u 0 i [] ∧ leftAs s u s.nextPc := by
  refine issue_enters h ho ?_ rfl
  simp only [State.cleared_cur, State.cleared_tile, hal, Bool.not_true, Bool.false_eq_true, if_false]

/-- Every matrix command takes TILE for a tile that is not allocated (R362). -/
theorem unallocated_traps {f : State → Act} {s : State} {t : TileNo} {n : Need} (h : mayIssue n s = true) (hb : s.me.branches = [])
    (hal : (s.tile s.cur.core t).alloc = false) (hf : ∀ u : State, (u.tile u.cur.core t).alloc = false → f u = .tile t 0) :
    issue n f s = .next (s.issueTrap 0x12 0 (BitVec.ofNat 64 t.toNat)) := by
  refine issue_traps h hb ?_
  rw [hf s.cleared (by rw [State.cleared_cur, State.cleared_tile, hal]), Act.tile_zero]

/-- A tile of another kind than the pair's (R362). -/
theorem execMma_kind {s : State} {t : TileNo} {a b : Reg} (h : mayIssue { rs := [a, b], late := false } s = true) (hb : s.me.branches = [])
    (hal : (s.tile s.cur.core t).alloc = true) (hf : formatFault s.me.ec.fmta s.me.ec.fmtb s.me.ec.klen = none)
    (hk : ((s.tile s.cur.core t).int != pairInt (fmtCode s.me.ec.fmta) (fmtCode s.me.ec.fmtb)) = true) :
    execMma t a b s = .next (s.issueTrap 0x12 0 (BitVec.ofNat 64 (t.toNat + 48))) := by
  refine issue_traps h hb ?_
  simp only [State.cleared_cur, State.cleared_tile, State.cleared_ec, hal, hf, hk, Bool.not_true, Bool.false_eq_true, if_false, if_true]
  rfl

theorem execMmaj_kind {s : State} {t : TileNo} {a b : Reg} (h : mayIssue { rs := [a, b], late := false } s = true) (hb : s.me.branches = [])
    (hal : (s.tile s.cur.core t).alloc = true) (hc : s.cur.core % 2 ^ (s.me.ec.mjoin.toNat % 4) = 0)
    (hf : formatFault s.me.ec.fmta s.me.ec.fmtb s.me.ec.klen = none)
    (hk : ((s.tile s.cur.core t).int != pairInt (fmtCode s.me.ec.fmta) (fmtCode s.me.ec.fmtb)) = true) :
    execMmaj t a b s = .next (s.issueTrap 0x12 0 (BitVec.ofNat 64 (t.toNat + 48))) := by
  refine issue_traps h hb ?_
  simp only [State.cleared_cur, State.cleared_tile, State.cleared_ec, lowest_iff, hc, decide_true, hal, hf, hk, Bool.not_true, Bool.false_eq_true,
    if_false, if_true]
  rfl

end Sys2Proof.Machine

namespace Sys2Proof.Proofs

open Sys2Proof Sys2Proof.Machine Sys2Proof.Safety

/-- Settles O43: past the checks of its kind a matrix command enters queue 0; TILE is the first of those checks. -/
theorem matrixCommandsEnter : Obligations.MatrixCommandsEnter := by
  unfold Obligations.MatrixCommandsEnter
  refine ⟨fun s t a b h ho hal hf hk hA hB => ?_, fun s t a b h ho hal hc hf hg hi hA => execMmaj_member_enters h ho hal hc hf hg hi hA,
    fun i s t b off hi h ho hal hs ha => ?_, fun s t b off z h ho hal hd hx ha hs => execMst_enters h ho hal hd hx ha hs,
    fun i s t put v row hi h ho hal => ?_, fun i s t a b off z put v row rs hi h hb hal => ?_, fun i s t a b hi h hb hal hlow hf hk => ?_⟩
  · have hl : MmaLegal s t a b := ⟨hal, hf, hk, hA, hB⟩
    exact ⟨execMma_enters h ho hl, execMmaj_lowest_enters h ho hl⟩
  · have hi' : exec i s = loadTile i t b off s := by
      rcases List.mem_pair.mp hi with rfl | rfl <;> rfl
    rw [hi']
    exact loadTile_enters h ho hal hs ha
  · rcases List.mem_pair.mp hi with rfl | rfl
    · exact tileOnly_enters h ho hal
    · exact tileOnly_enters h ho hal
  · rw [traps]
    simp only [List.mem_cons, Prod.mk.injEq, List.not_mem_nil, or_false] at hi
    rcases hi with ⟨rfl, rfl⟩ | ⟨rfl, rfl⟩ | ⟨rfl, rfl⟩ | ⟨rfl, rfl⟩ | ⟨rfl, rfl⟩ | ⟨rfl, rfl⟩ | ⟨rfl, rfl⟩
    · change execMma t a b s = _
      exact unallocated_traps h hb hal (fun u hu => by simp only [hu, Bool.not_false, if_true])
    · change execMmaj t a b s = _
      exact unallocated_traps h hb hal (fun u hu => by simp only [hu, Bool.not_false, if_true])
    · change loadTile _ t a off s = _
      exact unallocated_traps h hb hal (fun u hu => by simp only [hu, Bool.not_false, if_true])
    · change loadTile _ t a off s = _
      exact unallocated_traps h hb hal (fun u hu => by simp only [hu, Bool.not_false, if_true])
    · change execMst t a off z s = _
      exact unallocated_traps h hb hal (fun u hu => by simp only [hu, Bool.not_false, if_true])
    · change execMzero t s = _
      exact unallocated_traps h hb hal (fun u hu => by simp only [hu, Bool.not_false, if_true])
    · change execMrow put v t row s = _
      exact unallocated_traps h hb hal (fun u hu => by simp only [hu, Bool.not_false, if_true])
  · have kind : ((s.tile s.cur.core t).int != pairInt (fmtCode s.me.ec.fmta) (fmtCode s.me.ec.fmtb)) = true := bne_iff_ne.mpr hk
    rw [traps]
    rcases List.mem_pair.mp hi with rfl | rfl
    · exact execMma_kind h hb hal hf kind
    · exact execMmaj_kind h hb hal (hlow rfl) hf kind

end Sys2Proof.Proofs
end

section
/-! PROOFS. Waits at issue, fences and timelines (R26, R37, R149, R162 to R166). -/

namespace Sys2Proof.Machine

open Sys2Proof Sys2Proof.Safety

/-! ## An instruction that waits -/

/-- A wait that begins changes the park of its slot alone (R26, R400). -/
theorem Slot.parkAt_eq (x : Slot) (now : Nat) (k : Park) : ∃ w, x.parkAt now k = { x with park := some w } ∧ w.kind = k := by
  unfold Slot.parkAt
  split
  · next w hw =>
    split
    · next hk => exact ⟨w, by rw [← hw], hk⟩
    · exact ⟨_, rfl, rfl⟩
  · exact ⟨_, rfl, rfl⟩

theorem State.hold_eq (s : State) (k : Park) : s.hold k =
    ({ s with cur := { s.cur with held := true } } : State).setMe (s.me.parkAt s.rtime.toNat k) := rfl

/-- An instruction that cannot go on is held: its wait is all that changes (R26). -/
theorem issue_waits {n : Need} {f : State → Act} {s : State} {k : Park} (h : mayIssue n s = true) (hf : f s.cleared = .wait k) :
    ∃ t, issue n f s = .next t ∧ t.me.park.map (·.kind) = some k ∧ t.me = { s.me with park := t.me.park } ∧ onlyHeld s t := by
  obtain ⟨w, hw, hk⟩ := s.me.parkAt_eq s.rtime.toNat k
  have hme : (s.hold k).me = { s.me with park := some w } := by rw [State.hold_eq, State.me_setMe, hw]
  refine ⟨_, issue_wait h hf, ?_, ?_, ?_⟩
  · rw [hme]
    exact congrArg some hk
  · rw [hme]
  · rw [onlyHeld, hme, State.hold_eq, hw]

/-! ## Instructions that write their own slot alone -/

/-- Slot y is slot x with no wait, and with x's registers, their waits and x's count. -/
structure Slot.Calm (x y : Slot) : Prop where
  park : y.park = none
  icount : y.icount = x.icount
  pend : y.pend = x.pend
  unsync : y.unsync = x.unsync
  g : y.g = x.g
  v : y.v = x.v

theorem State.cleared_onMe (s : State) (f : Slot → Slot) : s.cleared.onMe f = s.setMe (f { s.me with park := none }) := by
  rw [State.onMe_def, State.cleared_setMe, State.cleared_me]

theorem onlyMe_setMe (s : State) (y : Slot) : onlyMe s (s.setMe y) := by rw [onlyMe, State.me_setMe]

/-- An instruction that changes its own slot alone, and no register of it, and goes on with the next one (R86). -/
theorem issue_setMe {n : Need} {f : State → Act} {s : State} {y : Slot} (h : mayIssue n s = true) (hf : f s.cleared = .done (s.setMe y))
    (hy : s.me.Calm y) : ∃ t, issue n f s = .next t ∧ t.me = y.retired n s.rtime.toNat s.cur.mark s.nextPc ∧
      (n.var = false → leftAs s t s.nextPc) ∧ (∀ d, n.var = true → n.ws = [d] → leftPending s t s.nextPc d) ∧ regsKeep s t ∧ onlyMe s t := by
  have hme : (s.setMe y).me = y := State.me_setMe _ _
  refine ⟨_, issue_done h hf, ?_, fun hn => ?_, fun d hn hw => ?_, ?_, onlyMe_retire _ _ (onlyMe_setMe s y)⟩
  · rw [State.retire_me, hme]
    rfl
  · exact leftAs_retire _ hn rfl (by rw [hme, hy.park]) (by rw [hme, hy.icount]) (by rw [hme, hy.pend]) (by rw [hme, hy.unsync])
  · exact leftPending_retire _ hn hw rfl (by rw [hme, hy.park]) (by rw [hme, hy.icount]) (by rw [hme, hy.pend]) (by rw [hme, hy.unsync])
  · exact regsKeep_retire _ _ (by rw [hme, hy.g]) (by rw [hme, hy.v])

/-- An instruction that has no effect but to go on. -/
theorem issue_plain {n : Need} {f : State → Act} {s : State} (h : mayIssue n s = true) (hn : n.var = false) (hf : f s.cleared = .done s.cleared) :
    ∃ t, issue n f s = .next t ∧ leftAs s t s.nextPc ∧ regsKeep s t ∧ onlyMe s t ∧ onlyRegs s t := by
  have hme := s.cleared_me
  exact ⟨_, issue_done h hf, leftAs_retire _ hn rfl (by rw [hme]) (by rw [hme]) (by rw [hme]) (by rw [hme]),
    regsKeep_retire _ _ (by rw [hme]) (by rw [hme]), onlyMe_retire _ _ (onlyMe_cleared s), onlyRegs_retire _ hn ⟨_, _, hme⟩⟩

/-! ## A command leaves its engine -/

@[simp] theorem State.core_unqueue (s : State) (c : Nat) (who : Parker) (d : Nat) : (s.unqueue c who).core d = s.core d := rfl

/-- The core that a command has left (R41). -/
theorem State.leave_core (s : State) (c e : Nat) (m : Cmd) (work : Nat) : (s.leave c e m work).core c =
    ({ s.core c with exec := tset (s.core c).exec e ((tget (s.core c).exec e []).filter (fun q => q.id != m.id)) } : Core).setSlot m.slot
      (((s.slot c m.slot).countDone e m.num).copied e m.num work) := by
  simp [State.leave, State.onSlot_def, State.setSlot_def, State.slot, Core.slot]

theorem State.leave_core_ne (s : State) (c e : Nat) (m : Cmd) (work d : Nat) (h : d ≠ c) : (s.leave c e m work).core d = s.core d := by
  rw [State.leave, State.core_onSlot_ne _ _ _ _ _ h, State.core_onCore_ne _ _ _ _ h, State.core_unqueue]

theorem State.leave_exec (s : State) (c e : Nat) (m : Cmd) (work : Nat) :
    tget ((s.leave c e m work).core c).exec e [] = (tget (s.core c).exec e []).filter (fun q => q.id != m.id) := by
  rw [State.leave_core, Core.setSlot_exec, tget_tset]

theorem State.leave_slot (s : State) (c e : Nat) (m : Cmd) (work : Nat) :
    (s.leave c e m work).slot c m.slot = ((s.slot c m.slot).countDone e m.num).copied e m.num work := by
  rw [State.slot, State.leave_core, Core.slot_setSlot]

theorem State.leave_slot_ne (s : State) (c e : Nat) (m : Cmd) (work t : Nat) (h : t ≠ m.slot) : (s.leave c e m work).slot c t = s.slot c t := by
  rw [State.slot, State.leave_core, Core.slot_setSlot_ne _ _ _ _ h]
  rfl

/-- A command that leaves changes counters of its slot alone (R41, R42, R210). -/
theorem Slot.counted_eq (x : Slot) (e num n : Nat) : ∃ k l b, (x.countDone e num).copied e num n = { x with counter := k, early := l, copyBytes := b } := by
  unfold Slot.copied Slot.countDone
  split
  · split
    · exact ⟨_, _, _, rfl⟩
    · exact ⟨_, _, _, rfl⟩
  · split
    · exact ⟨_, _, _, rfl⟩
    · exact ⟨_, _, _, rfl⟩

theorem Slot.copied_counter (x : Slot) (e num n : Nat) : (x.copied e num n).counter = x.counter := by
  unfold Slot.copied
  split
  · rfl
  · rfl

@[simp] theorem ectx_ectxSet (v : Vector Word 4) (e : Nat) (w : Word) : ectx (ectxSet v e w) e = w := by
  simp [ectx, ectxSet]

/-- Commands of every engine but the copy engine complete in order (R42). -/
theorem State.leave_counter (s : State) (c e : Nat) (m : Cmd) (work : Nat) (he : e ≠ 2) :
    ectx ((s.leave c e m work).slot c m.slot).counter e = BitVec.ofNat 64 m.num := by
  rw [State.leave_slot, Slot.copied_counter, Slot.countDone, if_neg he, ectx_ectxSet]

theorem State.leave_g (s : State) (c e : Nat) (m : Cmd) (work : Nat) : ((s.leave c e m work).slot c m.slot).g = (s.slot c m.slot).g := by
  obtain ⟨k, l, b, h⟩ := (s.slot c m.slot).counted_eq e m.num work
  rw [State.leave_slot, h]

theorem State.leave_v (s : State) (c e : Nat) (m : Cmd) (work : Nat) : ((s.leave c e m work).slot c m.slot).v = (s.slot c m.slot).v := by
  obtain ⟨k, l, b, h⟩ := (s.slot c m.slot).counted_eq e m.num work
  rw [State.leave_slot, h]

/-! ## Timelines (R164, R166) -/

/-- TLGET's selector: a context's counter below 4, its last number from 4 on (R164). -/
theorem selected_context (issued counter : Vector Word 4) (sel : BitVec 3) :
    (if sel.getLsbD 2 then ectx issued (sel.toNat % 4) else ectx counter (sel.toNat % 4)) =
      if sel.toNat < 4 then ectx counter sel.toNat else ectx issued (sel.toNat - 4) := by
  have hlt := sel.isLt
  have hb : sel.getLsbD 2 = decide (4 ≤ sel.toNat) := by
    rw [BitVec.getLsbD, Nat.testBit_eq_decide_div_mod_eq, decide_eq_decide]
    omega
  rw [hb]
  by_cases h : sel.toNat < 4
  · simp [h, Nat.mod_eq_of_lt h, Nat.not_le.mpr h]
  · have hm : sel.toNat % 4 = sel.toNat - 4 := by omega
    simp [h, hm, Nat.not_lt.mp h]

theorem Cmd.isMarker_iff (m : Cmd) : m.isMarker = true ↔ ∃ e f b, m.instr = .ewait e f b := by
  unfold Cmd.isMarker isEwait
  split
  · next e f b h => exact ⟨fun _ => ⟨e, f, b, h⟩, fun _ => rfl⟩
  · next h => exact ⟨fun hf => absurd hf Bool.false_ne_true, fun ⟨e, f, b, he⟩ => absurd he (h e f b)⟩

/-- The first marker of an engine leaves once the count it waits for is reached (R166). -/
theorem ewaitMarkerComplete_leaves {s : State} {c e : Nat} {e' f : BitVec 2} {b : Reg} {m : Cmd} {l1 l2 : List Cmd}
    (hx : tget (s.core c).exec e [] = l1 ++ m :: l2) (hm : m.instr = .ewait e' f b) (hl : ∀ q ∈ l1, ∀ x y z, q.instr ≠ .ewait x y z)
    (hr : (m.args.getD 0 0).toNat ≤ (ectx (s.slot c m.slot).counter f.toNat).toNat) :
    exec (.ewaitMarkerComplete c e) s = .next (s.leave c e m (copyTotal m)) := by
  have first : (tget (s.core c).exec e []).find? Cmd.isMarker = some m := by
    have none1 : l1.find? Cmd.isMarker = none := by
      rw [List.find?_eq_none]
      intro q hq hmk
      obtain ⟨x, y, z, h⟩ := q.isMarker_iff.mp hmk
      exact hl q hq x y z h
    rw [hx, List.find?_append, none1, Option.none_or, List.find?_cons_of_pos (m.isMarker_iff.mpr ⟨e', f, b, hm⟩)]
  have reached : s.markerReached c m = true := by
    simp only [State.markerReached, hm]
    exact decide_eq_true hr
  change execEwaitMarkerComplete c e s = _
  rw [execEwaitMarkerComplete, first]
  simp only [reached, if_true, State.finishCmd]

/-- An instruction that changes its own core, not its slots, and goes on with the next one (R86). -/
theorem issue_onMine {n : Need} {f : State → Act} {s : State} {g : Core → Core} (h : mayIssue n s = true) (hn : n.var = false)
    (hf : f s.cleared = .done (s.cleared.onMine g)) (hg : ∀ k, (g k).slots = k.slots) :
    ∃ t, issue n f s = .next t ∧ t.mine = (g s.cleared.mine).setSlot s.cur.slot t.me ∧ t.mem = s.mem ∧
      t.me = ({ s.me with park := none } : Slot).retired n s.rtime.toNat s.cur.mark s.nextPc ∧ leftAs s t s.nextPc ∧ regsKeep s t ∧ onlyMine s t := by
  have hv : (s.cleared.onMine g).me = { s.me with park := none } := (State.me_onMine (hg _)).trans s.cleared_me
  refine ⟨_, issue_done h hf, ?_, rfl, ?_, leftAs_retire _ hn rfl (by rw [hv]) (by rw [hv]) (by rw [hv]) (by rw [hv]),
    regsKeep_retire _ _ (by rw [hv]) (by rw [hv]), onlyMine_retire _ _ (onlyMine_cleared ?_)⟩
  · rw [State.retire_setMe, State.mine_setMe, State.me_setMe, State.mine_onMine]
    rfl
  · rw [State.retire_me, hv]
    rfl
  · rw [onlyMine, State.mine_onMine]
    rfl

end Sys2Proof.Machine

namespace Sys2Proof.Proofs

open Sys2Proof Sys2Proof.Machine Sys2Proof.Safety

/-- FENCE (R149, R162). -/
theorem fence_effects (s : State) (o c : BitVec 2) (h : mayIssue { who := .any } s = true) :
    (¬(o = 2 ∧ c = 0) → ∃ t, exec (.fence o c) s = .next t ∧ leftAs s t s.nextPc ∧ regsKeep s t ∧ t.me.fence = !s.me.acc.isEmpty ∧
      t.me.acc = s.me.acc ∧ onlyMe s t) ∧
    (o = 2 → c = 0 → s.me.acc = [] → ∃ t, exec (.fence o c) s = .next t ∧ leftAs s t s.nextPc ∧ regsKeep s t ∧ t.me.acc = [] ∧ t.mem = s.mem ∧
      t.mine.ibuf = [] ∧ onlyMine s t) ∧
    (o = 2 → c = 0 → s.me.acc ≠ [] → waits (.fence o c) s .order) := by
  have hx : exec (.fence o c) s = execFence o c s := rfl
  have hme := s.cleared_me
  simp only [waits, hx]
  refine ⟨fun hoc => ?_, fun ho hc ha => ?_, fun ho hc ha => ?_⟩
  · refine (issue_setMe (y := { s.me with park := none, fence := !s.me.acc.isEmpty }) h ?_ ⟨rfl, rfl, rfl, rfl, rfl, rfl⟩).imp
      (fun t ⟨ht, hslot, hl, _, hr, hom⟩ => ⟨ht, hl rfl, hr, ?_, ?_, hom⟩)
    · rw [if_neg hoc, State.cleared_onMe]
    · rw [hslot, Slot.retired_fence]
    · rw [hslot, Slot.retired_acc]
  · refine (issue_onMine (g := fun k => { k with ibuf := [] }) h rfl ?_ (fun _ => rfl)).imp
      (fun t ⟨ht, hm, hmem, hslot, hl, hr, hom⟩ => ⟨ht, hl, hr, ?_, hmem, ?_, hom⟩)
    · simp only [ho, hc, and_self, if_true, hme, ha, List.isEmpty_nil]
    · rw [hslot, Slot.retired_acc, ha]
    · rw [hm]
      rfl
  · refine issue_waits h ?_
    rw [if_pos ⟨ho, hc⟩, hme, if_neg (by simpa using ha)]

/-- TLGET sends the counter or the last number of a context (R164). -/
theorem tlget_effects (s : State) (d : Reg) (sel : BitVec 3) (h : mayIssue { ws := [d], var := true, who := .any } s = true) :
    ∃ t, exec (.tlget d sel) s = .next t ∧ onlyMe s t ∧
      sentResult s t d (if sel.toNat < 4 then ectx s.me.counter sel.toNat else ectx s.me.issued (sel.toNat - 4)) := by
  have hx : exec (.tlget d sel) s = execTlget d sel s := rfl
  have value : (if sel.getLsbD 2 then ectx s.me.issued (sel.toNat % 4) else ectx s.me.counter (sel.toNat % 4)) =
      if sel.toNat < 4 then ectx s.me.counter sel.toNat else ectx s.me.issued (sel.toNat - 4) := selected_context _ _ sel
  rw [hx]
  by_cases hd : d = 0
  · refine (issue_setMe (y := { s.me with park := none }) h ?_ ⟨rfl, rfl, rfl, rfl, rfl, rfl⟩).imp
      (fun t ⟨ht, hslot, _, hl, hr, hom⟩ => ⟨ht, hom, ?_, hl d rfl rfl, hr⟩)
    · simp only [hd, if_true, State.cleared_onMe]
    · rw [if_pos hd, hslot, Slot.retired_results]
  · refine (issue_setMe (y := { s.me with park := none, results := s.me.results ++ [{
      reg := d, val := if sel.toNat < 4 then ectx s.me.counter sel.toNat else ectx s.me.issued (sel.toNat - 4), depth := 0, acq := false }] }) h ?_
      ⟨rfl, rfl, rfl, rfl, rfl, rfl⟩).imp (fun t ⟨ht, hslot, _, hl, hr, hom⟩ => ⟨ht, hom, ?_, hl d rfl rfl, hr⟩)
    · simp only [hd, if_false, State.cleared_onMe, value]
    · rw [if_neg hd, hslot, Slot.retired_results]
      exact ⟨_, rfl, rfl, rfl⟩

/-- TLWAIT (R165). -/
theorem tlwait_effects (s : State) (e : BitVec 2) (b : Reg) (h : mayIssue { rs := [b], who := .any } s = true) :
    ((s.me.rd b).toNat ≤ (ectx s.me.counter e.toNat).toNat →
      ∃ t, exec (.tlwait e b) s = .next t ∧ leftAs s t s.nextPc ∧ regsKeep s t ∧ onlyMe s t ∧ onlyRegs s t) ∧
    ((ectx s.me.counter e.toNat).toNat < (s.me.rd b).toNat → waits (.tlwait e b) s (.tl e.toNat (s.me.rd b))) := by
  have hx : exec (.tlwait e b) s = execTlwait e b s := rfl
  have hcounter : s.cleared.me.counter = s.me.counter := congrArg (·.counter) s.cleared_me
  simp only [waits, hx]
  refine ⟨fun hle => issue_plain h rfl ?_, fun hlt => issue_waits h ?_⟩
  · rw [State.cleared_rd, hcounter, if_pos hle]
  · rw [State.cleared_rd, hcounter, if_neg (Nat.not_le.mpr hlt)]

/-- EWAIT's marker enters its queue whatever fence stands (R166). -/
theorem ewait_enters (s : State) (e f : BitVec 2) (b : Reg) (h : mayIssue { rs := [b], late := false } s = true)
    (hq : (tget s.mine.queue e.toNat []).length < 2) (hef : e = f → (s.me.rd b).toNat ≤ (ectx s.me.issued e.toNat).toNat) :
    ∃ t, exec (.ewait e f b) s = .next t ∧ entered s t e.toNat (.ewait e f b) [s.me.rd b] ∧ leftAs s t s.nextPc := by
  have hx : exec (.ewait e f b) s = execEwait e f b s := rfl
  have hissued : s.cleared.me.issued = s.me.issued := congrArg (·.issued) s.cleared_me
  rw [hx]
  refine issue_puts h ?_ rfl
  have possible : ¬(e = f ∧ s.cleared.me.nextNum e.toNat ≤ (s.me.rd b).toNat) := by
    rintro ⟨he, hn⟩
    have := hef he
    rw [Slot.nextNum, hissued] at hn
    omega
  have room : ¬Config.queueDepth ≤ (tget s.cleared.mine.queue e.toNat []).length := by
    rw [State.cleared_mine, Core.setSlot_queue]
    exact Nat.not_le.mpr hq
  rw [State.cleared_rd, if_neg possible, enter, if_neg (by simp [isEwait]), if_neg room]

/-- An EWAIT on its own queue for a number that nothing will reach (R166, R363). -/
theorem ewait_impossible (s : State) (e : BitVec 2) (b : Reg) (h : mayIssue { rs := [b], late := false } s = true) (hb : s.me.branches = [])
    (hn : (ectx s.me.issued e.toNat).toNat < (s.me.rd b).toNat) :
    traps (.ewait e e b) s 0x15 0 (BitVec.ofNat 64 (e.toNat + 16 + ((ectx s.me.issued e.toNat).toNat + 1) % 2 ^ 32 * 2 ^ 32)) := by
  have hx : exec (.ewait e e b) s = execEwait e e b s := rfl
  have hnext : s.cleared.me.nextNum e.toNat = (ectx s.me.issued e.toNat).toNat + 1 := by rw [Slot.nextNum, State.cleared_me]
  have hinfo : engInfo e.toNat 1 ((ectx s.me.issued e.toNat).toNat + 1) =
      BitVec.ofNat 64 (e.toNat + 16 + ((ectx s.me.issued e.toNat).toNat + 1) % 2 ^ 32 * 2 ^ 32) := by
    rw [engInfo, Nat.mod_eq_of_lt e.isLt]
    rfl
  rw [traps, hx]
  refine issue_traps h hb ?_
  rw [State.cleared_rd, hnext, if_pos ⟨rfl, hn⟩, engTrap, hnext, hinfo]

/-- Settles O37: each instruction's rule decides whether it goes on, waits or traps; a marker leaves as any command of its engine does. -/
theorem fencesAndTimelines : Obligations.FencesAndTimelines := by
  unfold Obligations.FencesAndTimelines
  refine ⟨fence_effects, tlget_effects, tlwait_effects, ewait_enters, ewait_impossible, fun s c e e' f b m l1 l2 hx hm hl hr => ?_,
    fun s c t w hw hk hp => ?_⟩
  · refine ⟨_, ewaitMarkerComplete_leaves hx hm hl hr, ?_, fun he => State.leave_counter _ _ _ _ _ (by omega), State.leave_g _ _ _ _ _⟩
    rw [State.leave_exec, hx]
  · have hx : exec (.markerParkEnd c t) s = execMarkerParkEnd c t s := rfl
    rw [hx, execMarkerParkEnd]
    simp only [hw, hk, hp, and_self, if_true]
    exact ⟨_, rfl, rfl⟩

end Sys2Proof.Proofs
end

section
/-! PROOFS. STOP, the end of a helper, and the end of a gang (R27, R29, R51, R124, R137). -/

namespace Sys2Proof.Machine

open Sys2Proof Sys2Proof.Safety

/-! ## Many cores changed -/

theorem State.onCore_eq (s : State) (c : Nat) (f : Core → Core) : s.onCore c f = { s with cores := (s.onCore c f).cores } := rfl

/-- A change that is its own repetition, made in every core of a list. -/
theorem foldl_onCore_core (f : Core → Core) (hf : ∀ k, f (f k) = f k) (l : List Nat) (s : State) (d : Nat) :
    (l.foldl (fun s d => s.onCore d f) s).core d = if d ∈ l then f (s.core d) else s.core d := by
  induction l generalizing s with
  | nil => simp
  | cons c l ih =>
    rw [List.foldl_cons, ih]
    by_cases hd : d = c
    · subst hd
      by_cases hl : d ∈ l <;> simp [hl, hf]
    · rw [State.core_onCore_ne _ _ _ _ hd]
      simp [hd]

theorem foldl_onCore_cores (f : Core → Core) (l : List Nat) (s : State) :
    l.foldl (fun s d => s.onCore d f) s = { s with cores := (l.foldl (fun s d => s.onCore d f) s).cores } := by
  induction l generalizing s with
  | nil => rfl
  | cons c l ih => exact ih (s.onCore c f)

/-! ## The end of a gang (R51, R124) -/

/-- A core outside a gang. -/
def Core.alone (k : Core) : Core := { k with gang := 0 }

theorem State.dissolve_last {s : State} (h : s.lastOfGang = true) : s.dissolve = (s.gangOf s.cur.core).foldl (fun s d => s.onCore d Core.alone) s :=
  if_pos h

theorem State.dissolve_not_last {s : State} (h : s.lastOfGang = false) : s.dissolve = s := if_neg (by simp [h])

theorem State.dissolve_core (s : State) (d : Nat) : s.dissolve.core d = if s.lastOfGang = true ∧ d ∈ s.gangOf s.cur.core then (s.core d).alone else s.core d := by
  cases h : s.lastOfGang with
  | false => simp [State.dissolve_not_last h]
  | true =>
    rw [State.dissolve_last h, foldl_onCore_core Core.alone (fun _ => rfl)]
    simp

theorem State.dissolve_cores (s : State) : s.dissolve = { s with cores := s.dissolve.cores } := by
  cases h : s.lastOfGang with
  | false => rw [State.dissolve_not_last h]
  | true =>
    rw [State.dissolve_last h]
    exact foldl_onCore_cores _ _ _

theorem State.dissolve_slot (s : State) (d t : Nat) : s.dissolve.slot d t = s.slot d t := by
  rw [State.slot, State.dissolve_core]
  split
  · rfl
  · rfl

@[simp] theorem State.dissolve_cur (s : State) : s.dissolve.cur = s.cur := by rw [State.dissolve_cores]
@[simp] theorem State.dissolve_mem (s : State) : s.dissolve.mem = s.mem := by rw [State.dissolve_cores]

theorem State.dissolve_me (s : State) : s.dissolve.me = s.me := by
  rw [State.me, State.dissolve_cur, State.dissolve_slot]
  rfl

theorem State.dissolve_mine (s : State) : s.dissolve.mine = s.mine ∨ s.dissolve.mine = s.mine.alone := by
  rw [State.mine, State.dissolve_cur, State.dissolve_core]
  split
  · exact .inr rfl
  · exact .inl rfl

theorem State.cleared_core (s : State) (d : Nat) : s.cleared.core d = if d = s.cur.core then s.mine.setSlot s.cur.slot { s.me with park := none } else s.core d := by
  split
  · next h => rw [h]; exact s.cleared_mine
  · next h => exact State.core_setCore_ne _ _ _ _ h

theorem State.cleared_gang (s : State) (d : Nat) : (s.cleared.core d).gang = (s.core d).gang := by
  rw [State.cleared_core]
  split
  · next h => rw [h]; rfl
  · rfl

theorem State.cleared_gangDone (s : State) (d : Nat) : (s.cleared.core d).gangDone = (s.core d).gangDone := by
  rw [State.cleared_core]
  split
  · next h => rw [h]; rfl
  · rfl

theorem State.cleared_gangOf (s : State) (c : Nat) : s.cleared.gangOf c = s.gangOf c := by simp only [State.gangOf, State.cleared_gang]

theorem State.cleared_lastOfGang (s : State) : s.cleared.lastOfGang = s.lastOfGang := by
  simp only [State.lastOfGang, State.cleared_cur, State.cleared_gangOf, State.cleared_gangDone]

/-- A core in no gang issues alone (R50). -/
theorem State.gangOf_alone {s : State} {c : Nat} (h : (s.core c).gang = 0) : s.gangOf c = [c] := if_pos h

/-- Outside a gang nothing dissolves but the core's own empty gang (R51). -/
theorem State.dissolve_alone {s : State} (h : s.mine.gang = 0) : onlyMine s s.dissolve ∧ s.dissolve.mine.gang = 0 := by
  have hl : s.lastOfGang = true := by simp [State.lastOfGang, State.gangOf_alone h]
  have hd : s.dissolve = s.onMine Core.alone := by
    rw [State.dissolve_last hl, State.gangOf_alone h]
    rfl
  rw [hd, onlyMine, State.mine_onMine]
  exact ⟨rfl, rfl⟩

/-! ## STOP (R124) -/

/-- What STOP leaves of slot 0: it waits for its core's end. -/
def Slot.stopped (x : Slot) (now : Nat) : Slot := { x with icount := x.icount + 1 }.waitFor now .ended false

theorem State.setMe_cores (s : State) (y : Slot) : s.setMe y = { s with cores := (s.setMe y).cores } := rfl

theorem State.core_setMe (s : State) (y : Slot) (d : Nat) : (s.setMe y).core d = if d = s.cur.core then s.mine.setSlot s.cur.slot y else s.core d := by
  split
  · next h => rw [h]; exact s.mine_setMe y
  · next h => exact State.core_setCore_ne _ _ _ _ h

theorem onlyMine_of_onlyMe {s t : State} (h : onlyMe s t) : onlyMine s t := by
  rw [onlyMe] at h
  rw [onlyMine, h, State.mine_setMe]
  rfl

theorem execStop_control {s : State} (h : mayIssue { who := .threads } s = true) (h0 : s.cur.slot = 0) :
    execStop s = .next (s.cleared.dissolve.setMe (({ s.me with park := none } : Slot).stopped s.rtime.toNat)) := by
  refine issue_stay h ?_
  have ht : s.cleared.dissolve.rtime = s.rtime := by rw [State.dissolve_cores]; rfl
  rw [State.cleared_cur, if_pos h0, State.onMe_def, State.dissolve_me, State.cleared_me]
  rfl

theorem execStop_helper {s : State} (h : mayIssue { who := .threads } s = true) (h0 : s.cur.slot ≠ 0) :
    execStop s = .next (s.setMe { s.me with park := none, mode := .draining, icount := s.me.icount + 1 }) := by
  refine issue_stay h ?_
  rw [State.cleared_cur, if_neg h0, State.cleared_onMe]

/-! ## The end of a helper (R29) -/

theorem foldl_core {α : Type} (l : List α) (f : State → α → State) (h : ∀ s a d, (f s a).core d = s.core d) (s : State) (d : Nat) :
    (l.foldl f s).core d = s.core d := by
  induction l generalizing s with
  | nil => rfl
  | cons a l ih => rw [List.foldl_cons, ih, h]

@[simp] theorem State.core_setCoreWord (s : State) (c off : Nat) (v : Word) (d : Nat) : (s.setCoreWord c off v).core d = s.core d := rfl

@[simp] theorem State.core_ownWord (s : State) (c : Nat) (dom : BitVec 6) (off : Nat) (v : Word) (d : Nat) : (s.ownWord c dom off v).core d = s.core d := by
  unfold State.ownWord
  split
  · rfl
  · rfl

/-- Spill values that move to core memory leave every core's registers and tables as they are (R47). -/
@[simp] theorem State.core_spillBytes (s : State) (c t : Nat) (p : SpillPlace → Bool) (d : Nat) : (s.spillBytes c t p).core d = s.core d := by
  refine foldl_core _ _ (fun s a d => ?_) s d
  split
  · exact State.core_ownWord _ _ _ _ _ _
  · rfl

@[simp] theorem State.slot_spillBytes (s : State) (c t : Nat) (p : SpillPlace → Bool) (d u : Nat) : (s.spillBytes c t p).slot d u = s.slot d u := by
  rw [State.slot, State.core_spillBytes]
  rfl

theorem departed_ne (t : Nat) : departed t ≠ t := by unfold departed; omega

/-- Entry x of the slot table once what slot y has left unperformed goes on there (R29). -/
def Slot.takesOver (x y : Slot) : Slot := { x with acc := x.acc ++ y.acc, ahead := x.ahead ++ y.ahead }

/-- The slots of a core in which one slot becomes Free: what it left unperformed goes on outside it (R29). -/
theorem State.freeSlot_core (s : State) (c t : Nat) : (s.freeSlot c t).core c =
    if (s.slot c t).acc.isEmpty then (s.core c).setSlot t (s.slot c t).freed
    else ((s.core c).setSlot t (s.slot c t).freed).setSlot (departed t) ((s.slot c (departed t)).takesOver (s.slot c t)) := by
  have other : ((s.core c).setSlot t (s.slot c t).freed).slot (departed t) = s.slot c (departed t) := Core.slot_setSlot_ne _ _ _ _ (departed_ne t)
  unfold State.freeSlot
  simp only
  split
  · rw [State.onSlot_def, State.setSlot_def, State.core_setCore]
  · have h : ((s.onSlot c t Slot.freed).slot c (departed t)) = s.slot c (departed t) := by
      rw [State.slot, State.onSlot_def, State.setSlot_def, State.core_setCore, other]
    change ((s.onSlot c t Slot.freed).onSlot c (departed t) (fun x => x.takesOver (s.slot c t))).core c = _
    rw [State.onSlot_def, State.setSlot_def, State.core_setCore, h, State.onSlot_def, State.setSlot_def, State.core_setCore]

theorem State.freeSlot_core_ne (s : State) (c t d : Nat) (h : d ≠ c) : (s.freeSlot c t).core d = s.core d := by
  unfold State.freeSlot
  simp only
  split
  · exact State.core_onSlot_ne _ _ _ _ _ h
  · change ((s.onSlot c t Slot.freed).onSlot c (departed t) (fun x => x.takesOver (s.slot c t))).core d = _
    rw [State.core_onSlot_ne _ _ _ _ _ h, State.core_onSlot_ne _ _ _ _ _ h]

theorem State.freeSlot_slot (s : State) (c t : Nat) : (s.freeSlot c t).slot c t = (s.slot c t).freed := by
  rw [State.slot, State.freeSlot_core]
  split
  · exact Core.slot_setSlot _ _ _
  · rw [Core.slot_setSlot_ne _ _ _ _ (departed_ne t).symm, Core.slot_setSlot]

theorem State.freeSlot_departed (s : State) (c t : Nat) :
    ((s.freeSlot c t).slot c (departed t)).acc = (s.slot c (departed t)).acc ++ (s.slot c t).acc := by
  rw [State.slot, State.freeSlot_core]
  split
  · next h =>
    rw [Core.slot_setSlot_ne _ _ _ _ (departed_ne t), List.isEmpty_iff.mp h, List.append_nil]
    rfl
  · rw [Core.slot_setSlot]
    rfl

theorem State.freeSlot_slot_ne (s : State) (c t q : Nat) (hq : q ≠ t) (hd : q ≠ departed t) : (s.freeSlot c t).slot c q = s.slot c q := by
  rw [State.slot, State.freeSlot_core]
  split
  · exact Core.slot_setSlot_ne _ _ _ _ hq
  · rw [Core.slot_setSlot_ne _ _ _ _ hd, Core.slot_setSlot_ne _ _ _ _ hq]
    rfl

theorem State.freeSlot_hdone (s : State) (c t : Nat) : ((s.freeSlot c t).core c).hdone = (s.core c).hdone := by
  rw [State.freeSlot_core]
  split
  · rfl
  · rfl

theorem Slot.freed_rd (x : Slot) (r : Reg) : x.freed.rd r = 0 := by
  simp [Slot.rd, Slot.freed, Slot.reset]

/-- A change of a core that keeps its slots. -/
theorem State.slot_onCore {s : State} {c : Nat} {f : Core → Core} (h : (f (s.core c)).slots = (s.core c).slots) (t : Nat) :
    (s.onCore c f).slot c t = s.slot c t := by
  rw [State.slot, State.core_onCore, Core.slot, h]
  rfl

/-- HELPER_SLOT_FREE of a helper with nothing left to wait for (R29, R137). -/
theorem helperSlotFree_frees {s : State} {c t : Nat} (h1 : 1 ≤ t) (h10 : t ≤ 10) (hm : (s.slot c t).mode = .draining) (hp : (s.slot c t).pend = 0)
    (hc : ∀ e, e < 4 → ∀ m ∈ (s.core c).cmds e, m.slot ≠ t) :
    execHelperSlotFree c t s = .next (((s.spillBytes c t (fun p => p != .memory)).freeSlot c t).onCore c (fun k => k.setDone t true)) := by
  have idle : [0, 1, 2, 3].all (fun e => !((s.core c).cmds e).any (fun m => m.slot == t)) = true := by
    rw [List.all_eq_true]
    intro e he
    have he4 : e < 4 := by simp at he; omega
    simpa using hc e he4
  simp only [execHelperSlotFree, h1, h10, hm, hp, idle, and_self, if_true]

end Sys2Proof.Machine

namespace Sys2Proof.Proofs

open Sys2Proof Sys2Proof.Machine Sys2Proof.Safety

/-- STOP of a helper: its slot drains (R29, R124). -/
theorem stop_helper (s : State) (h : mayIssue { who := .threads } s = true) (h0 : s.cur.slot ≠ 0) :
    ∃ t, exec .stop s = .next t ∧ t.me.mode = .draining ∧ t.me.park.map (·.kind) = none ∧
      t.me.pc = s.me.pc ∧ t.me.icount = s.me.icount + 1 ∧ regsKeep s t ∧ t.me.acc = s.me.acc ∧ t.mine.queue = s.mine.queue ∧
      onlyMine s t ∧ t.mine.gang = s.mine.gang := by
  refine ⟨_, execStop_helper h h0, ?_⟩
  simp only [State.me_setMe, regsKeep, State.mine_setMe, onlyMine, Core.setSlot_queue, Core.setSlot_gang, Option.map_none, and_self, true_and, and_true]
  rfl

/-- STOP of a control context: it waits for its core's end, and its gang ends with its last member (R27, R51, R124). -/
theorem stop_control (s : State) (h : mayIssue { who := .threads } s = true) (h0 : s.cur.slot = 0) :
    ∃ t, exec .stop s = .next t ∧ t.me.mode = s.me.mode ∧ t.me.park.map (·.kind) = some .ended ∧
      t.me.pc = s.me.pc ∧ t.me.icount = s.me.icount + 1 ∧ regsKeep s t ∧ t.me.acc = s.me.acc ∧ t.mine.queue = s.mine.queue ∧
      (s.lastOfGang = true → (∀ d ∈ s.gangOf s.cur.core, (t.core d).gang = 0) ∧ (∀ d ∉ s.gangOf s.cur.core, d ≠ s.cur.core → t.core d = s.core d) ∧
        t = { s with cores := t.cores }) ∧
      (s.mine.gang = 0 ∨ s.lastOfGang = false → onlyMine s t ∧ t.mine.gang = s.mine.gang) := by
  refine ⟨_, execStop_control h h0, ?_⟩
  have hmine : (s.cleared.dissolve.setMe (({ s.me with park := none } : Slot).stopped s.rtime.toNat)).mine =
      s.cleared.dissolve.mine.setSlot s.cur.slot (({ s.me with park := none } : Slot).stopped s.rtime.toNat) := by
    rw [State.mine_setMe, State.dissolve_cur]
    rfl
  have queue : s.cleared.dissolve.mine.queue = s.mine.queue := by
    rcases s.cleared.dissolve_mine with e | e <;> rw [e, State.cleared_mine] <;> rfl
  refine ⟨by rw [State.me_setMe]; rfl, by rw [State.me_setMe]; rfl, by rw [State.me_setMe]; rfl, by rw [State.me_setMe]; rfl,
    ⟨by rw [State.me_setMe]; rfl, by rw [State.me_setMe]; rfl⟩, by rw [State.me_setMe]; rfl, by rw [hmine, Core.setSlot_queue, queue], fun hl => ?_, ?_⟩
  · refine ⟨fun d hd => ?_, fun d hd hc => ?_, ?_⟩
    · have hg : (s.cleared.dissolve.core d).gang = 0 := by
        rw [State.dissolve_core, if_pos ⟨by rwa [State.cleared_lastOfGang], by rwa [State.cleared_gangOf]⟩]
        rfl
      rw [State.core_setMe]
      split
      · next e => rw [Core.setSlot_gang]; rw [e] at hg; exact hg
      · exact hg
    · rw [State.core_setMe, State.dissolve_cur, State.cleared_cur, if_neg hc, State.dissolve_core, if_neg (fun hx => hd (by rw [← State.cleared_gangOf]; exact hx.2)), State.cleared_core, if_neg hc]
    · rw [State.setMe_cores, State.dissolve_cores]
      rfl
  · rintro (hg | hl)
    · obtain ⟨hom, hz⟩ := State.dissolve_alone (s := s.cleared) (by rw [State.cleared_mine, Core.setSlot_gang, hg])
      exact ⟨onlyMine_setMe _ (onlyMine_cleared hom), by rw [hmine, Core.setSlot_gang, hz, hg]⟩
    · rw [State.dissolve_not_last (by rwa [State.cleared_lastOfGang]), State.cleared_setMe, State.mine_setMe]
      exact ⟨onlyMine_of_onlyMe (onlyMe_setMe _ _), rfl⟩

/-- Settles O26: STOP by the slot that issues it, and HELPER_SLOT_FREE by what becomes of a slot freed. -/
theorem stopAndHelperEnd : Obligations.StopAndHelperEnd := by
  unfold Obligations.StopAndHelperEnd
  refine ⟨fun s h => ?_, fun s c t h1 h10 hm hp hc => ?_⟩
  · by_cases h0 : s.cur.slot = 0
    · obtain ⟨t, ht, hmode, hpark, hpc, hi, hr, ha, hq, hlast, hnot⟩ := stop_control s h h0
      exact ⟨t, ht, by rw [if_pos h0, hmode], by rw [if_pos h0, hpark], hpc, hi, hr, ha, hq, fun _ => hlast, fun hx => hnot (hx.resolve_left (fun hn => hn h0))⟩
    · obtain ⟨t, ht, hmode, hpark, hpc, hi, hr, ha, hq, hom, hg⟩ := stop_helper s h h0
      exact ⟨t, ht, by rw [if_neg h0, hmode], by rw [if_neg h0, hpark], hpc, hi, hr, ha, hq, fun hx => absurd hx h0, fun _ => ⟨hom, hg⟩⟩
  · have kept (q : Nat) : (((s.spillBytes c t (fun p => p != .memory)).freeSlot c t).onCore c (fun k => k.setDone t true)).slot c q =
        ((s.spillBytes c t (fun p => p != .memory)).freeSlot c t).slot c q := State.slot_onCore rfl q
    have me := (kept t).trans (State.freeSlot_slot _ c t)
    rw [State.slot_spillBytes] at me
    refine ⟨_, helperSlotFree_frees h1 h10 hm hp hc, by rw [me]; rfl, by rw [me]; rfl, by rw [me]; rfl, by rw [me]; rfl, fun r => by rw [me, Slot.freed_rd],
      ?_, by rw [me]; rfl, ?_, fun q hq hd => ?_, fun d hd => ?_⟩
    · rw [State.core_onCore, Core.setDone, State.freeSlot_hdone, State.core_spillBytes]
      rfl
    · rw [kept, State.freeSlot_departed, State.slot_spillBytes, State.slot_spillBytes]
    · rw [kept, State.freeSlot_slot_ne _ _ _ _ hq hd, State.slot_spillBytes]
    · rw [State.core_onCore_ne _ _ _ _ hd, State.freeSlot_core_ne _ _ _ _ hd, State.core_spillBytes]

end Sys2Proof.Proofs
end

section
/-! PROOFS. The choice of a core cycle (R31, R123). -/

namespace Sys2Proof.Machine

open Sys2Proof Sys2Proof.Safety

/-! ## The highest level of a list -/

theorem foldl_max_ge (l : List Nat) (b : Nat) : b ≤ l.foldl max b := by
  induction l generalizing b with
  | nil => exact Nat.le_refl b
  | cons a l ih => exact le_trans (Nat.le_max_left b a) (ih _)

theorem le_foldl_max {l : List Nat} {n : Nat} (b : Nat) (h : n ∈ l) : n ≤ l.foldl max b := by
  induction l generalizing b with
  | nil => cases h
  | cons a l ih =>
    rcases List.mem_cons.mp h with rfl | h
    · exact le_trans (Nat.le_max_right b n) (foldl_max_ge _ _)
    · exact ih _ h

theorem foldl_max_mem (l : List Nat) (b : Nat) : l.foldl max b = b ∨ l.foldl max b ∈ l := by
  induction l generalizing b with
  | nil => exact .inl rfl
  | cons a l ih =>
    rcases ih (max b a) with h | h
    · rcases Nat.le_total a b with hab | hab
      · exact .inl (by rw [List.foldl_cons, h, Nat.max_eq_left hab])
      · exact .inr (by rw [List.foldl_cons, h, Nat.max_eq_right hab]; exact List.mem_cons_self)
    · exact .inr (List.mem_cons_of_mem _ h)

/-- The greatest number of a list that is not empty is one of it. -/
theorem foldl_max_mem_of_ne_nil {l : List Nat} (h : l ≠ []) : l.foldl max 0 ∈ l := by
  rcases foldl_max_mem l 0 with h0 | hm
  · obtain ⟨a, ha⟩ := List.exists_mem_of_ne_nil l h
    have := le_foldl_max 0 ha
    have : a = l.foldl max 0 := by omega
    exact this ▸ ha
  · exact hm

/-! ## The choice of R31 -/

/-- The highest effective level among slots of core c. -/
def State.topLevel (s : State) (c : Nat) (l : List Nat) : Nat := (l.map (fun t => (s.slot c t).eff)).foldl max 0

/-- The slots of l at its highest level. -/
def State.atTop (s : State) (c : Nat) (l : List Nat) : List Nat := l.filter (fun t => (s.slot c t).eff == s.topLevel c l)

theorem State.eff_le_topLevel {s : State} {c t : Nat} {l : List Nat} (h : t ∈ l) : (s.slot c t).eff ≤ s.topLevel c l :=
  le_foldl_max 0 (List.mem_map_of_mem h)

theorem State.mem_atTop {s : State} {c t : Nat} {l : List Nat} : t ∈ s.atTop c l ↔ t ∈ l ∧ (s.slot c t).eff = s.topLevel c l := by
  simp [State.atTop]

theorem State.atTop_ne_nil {s : State} {c : Nat} {l : List Nat} (h : l ≠ []) : s.atTop c l ≠ [] := by
  have hm : s.topLevel c l ∈ l.map (fun t => (s.slot c t).eff) := foldl_max_mem_of_ne_nil (by simpa using h)
  obtain ⟨t, ht, he⟩ := List.mem_map.mp hm
  exact List.ne_nil_of_mem (State.mem_atTop.mpr ⟨ht, he⟩)

/-- The pointer of a level. -/
def State.pointer (s : State) (c n : Nat) : Nat := (s.core c).rr[n % 4]'(Nat.mod_lt _ (by decide))

theorem State.choose_eq (s : State) (c : Nat) (ready : List Nat) : s.choose c ready =
    ((s.atTop c (s.candidates c ready)).find? (fun t => decide (s.pointer c (s.topLevel c (s.candidates c ready)) ≤ t))).or
      (s.atTop c (s.candidates c ready)).head? := by
  change (match (s.atTop c (s.candidates c ready)).find? (fun t => decide (s.pointer c (s.topLevel c (s.candidates c ready)) ≤ t)) with
    | some t => some t
    | none => (s.atTop c (s.candidates c ready)).head?) = _
  cases (s.atTop c (s.candidates c ready)).find? (fun t => decide (s.pointer c (s.topLevel c (s.candidates c ready)) ≤ t)) <;> rfl

theorem State.choose_mem_atTop {s : State} {c t : Nat} {ready : List Nat} (h : s.choose c ready = some t) :
    t ∈ s.atTop c (s.candidates c ready) := by
  rw [State.choose_eq] at h
  rcases Option.or_eq_some_iff.mp h with h | ⟨_, h⟩
  · exact List.mem_of_find?_eq_some h
  · exact List.mem_of_mem_head? h

theorem State.candidates_subset (s : State) (c : Nat) (ready : List Nat) : ∀ t ∈ s.candidates c ready, t ∈ ready := by
  intro t ht
  unfold State.candidates at ht
  simp only at ht
  split at ht
  · exact ht
  · exact List.mem_of_mem_filter ht

/-- A slot that yielded is a candidate only when every ready slot did (R123). -/
theorem State.candidates_yielded {s : State} {c t u : Nat} {ready : List Nat} (ht : t ∈ s.candidates c ready) (hu : u ∈ ready)
    (hy : (s.slot c u).yielded = false) : (s.slot c t).yielded = false := by
  unfold State.candidates at ht
  simp only at ht
  split at ht
  · next he =>
    have hm : u ∈ ready.filter (fun t => !(s.slot c t).yielded) := List.mem_filter.mpr ⟨hu, by simp [hy]⟩
    rw [List.isEmpty_iff.mp he] at hm
    cases hm
  · simpa using (List.mem_filter.mp ht).2

theorem State.candidates_ne_nil {s : State} {c : Nat} {ready : List Nat} (h : ready ≠ []) : s.candidates c ready ≠ [] := by
  unfold State.candidates
  simp only
  split
  · exact h
  · next he => simpa using he

theorem State.candidates_sorted {s : State} {c : Nat} {ready : List Nat} (h : ready.Pairwise (· < ·)) : (s.candidates c ready).Pairwise (· < ·) := by
  unfold State.candidates
  simp only
  split
  · exact h
  · exact h.filter _

/-- In an ascending list, what the choice of R31 finds is the first at or after p in cyclic order. -/
theorem first_cyclic {l : List Nat} {p t : Nat} (hs : l.Pairwise (· < ·)) (hl : ∀ u ∈ l, u < 13) (hp : p ≤ 12)
    (h : (l.find? (fun t => decide (p ≤ t))).or l.head? = some t) : ∀ u ∈ l, (t + 13 - p) % 13 ≤ (u + 13 - p) % 13 := by
  intro u hu
  have htl : t ∈ l := by
    rcases Option.or_eq_some_iff.mp h with h | ⟨_, h⟩
    · exact List.mem_of_find?_eq_some h
    · exact List.mem_of_mem_head? h
  have h1 := hl t htl
  have h2 := hl u hu
  rcases Option.or_eq_some_iff.mp h with h | ⟨hn, h⟩
  · have hpt : p ≤ t := by simpa using List.find?_some h
    have least : p ≤ u → t ≤ u := by
      intro hpu
      obtain ⟨_, l1, l2, rfl, hbefore⟩ := List.find?_eq_some_iff_append.mp h
      rcases List.mem_append.mp hu with hu | hu
      · have := hbefore u hu
        simp at this
        omega
      · rcases List.mem_cons.mp hu with rfl | hu
        · exact Nat.le_refl _
        · exact Nat.le_of_lt ((List.pairwise_cons.mp (List.pairwise_append.mp hs).2.1).1 u hu)
    omega
  · have below : ∀ x ∈ l, x < p := by
      intro x hx
      have := List.find?_eq_none.mp hn x hx
      simpa using this
    have least : t ≤ u := by
      obtain ⟨r, rfl⟩ : ∃ r, l = t :: r := by
        cases l with
        | nil => cases h
        | cons a r => cases h; exact ⟨r, rfl⟩
      rcases List.mem_cons.mp hu with rfl | hu
      · exact Nat.le_refl _
      · exact Nat.le_of_lt ((List.pairwise_cons.mp hs).1 u hu)
    have := below t htl
    have := below u hu
    omega


theorem State.choose_mem {s : State} {c t : Nat} {ready : List Nat} (h : s.choose c ready = some t) : t ∈ ready :=
  s.candidates_subset c ready t (State.mem_atTop.mp (State.choose_mem_atTop h)).1

theorem State.choose_isSome {s : State} {c : Nat} {ready : List Nat} (h : ready ≠ []) : ∃ t, s.choose c ready = some t := by
  obtain ⟨a, l, hl⟩ := List.exists_cons_of_ne_nil (State.atTop_ne_nil (s := s) (c := c) (State.candidates_ne_nil (s := s) (c := c) h))
  rw [State.choose_eq, hl, List.head?_cons]
  exact Option.isSome_iff_exists.mp (by simp)

/-! ## The order in which the slots are tried -/

theorem State.mem_inTurn {s : State} {c t : Nat} {l : List Nat} (h : t ∈ s.inTurn c l) : t ∈ l := by
  simp only [State.inTurn, List.mem_append, List.mem_flatMap, List.mem_filter] at h
  rcases h with ⟨_, _, h | h⟩ | ⟨_, _, h | h⟩ <;> exact h.1.1.1

theorem State.inTurn_mem {s : State} {c t : Nat} {l : List Nat} (h : t ∈ l) (he : (s.slot c t).eff ≤ 3) : t ∈ s.inTurn c l := by
  have hl : (s.slot c t).eff ∈ [3, 2, 1, 0] := by simp; omega
  simp only [State.inTurn, List.mem_append, List.mem_flatMap, List.mem_filter, beq_iff_eq, decide_eq_true_eq]
  cases hy : (s.slot c t).yielded with
  | false => exact .inl ⟨_, hl, (Nat.lt_or_ge t _).symm.imp (fun hp => ⟨⟨⟨h, by simp⟩, rfl⟩, hp⟩) (fun hp => ⟨⟨⟨h, by simp⟩, rfl⟩, hp⟩)⟩
  | true => exact .inr ⟨_, hl, (Nat.lt_or_ge t _).symm.imp (fun hp => ⟨⟨⟨h, rfl⟩, rfl⟩, hp⟩) (fun hp => ⟨⟨⟨h, rfl⟩, rfl⟩, hp⟩)⟩

theorem State.slot_onSlot_ne (s : State) (c t v : Nat) (f : Slot → Slot) (h : v ≠ t) : (s.onSlot c t f).slot c v = s.slot c v := by
  rw [State.onSlot_def, State.setSlot_def, State.slot, State.core_setCore, Core.slot_setSlot_ne _ _ _ _ h]
  rfl

/-! ## What the profile changes (R346) -/

/-- What a charge of a cycle leaves: of the cores only profiles change, of the machine's own position nothing. -/
def chargedOnly (s u : State) : Prop :=
  u.cur = s.cur ∧ u.issuing = s.issuing ∧ ∀ d, ∃ p q, u.core d = { s.core d with prof := p, profctl := q }

theorem chargedOnly_refl (s : State) : chargedOnly s s := ⟨rfl, rfl, fun _ => ⟨_, _, rfl⟩⟩

theorem chargedOnly_trans {s u v : State} (h : chargedOnly s u) (h' : chargedOnly u v) : chargedOnly s v := by
  obtain ⟨hc, hi, hk⟩ := h
  obtain ⟨hc', hi', hk'⟩ := h'
  refine ⟨hc'.trans hc, hi'.trans hi, fun d => ?_⟩
  obtain ⟨p, q, h⟩ := hk d
  obtain ⟨p', q', h'⟩ := hk' d
  exact ⟨p', q', by rw [h', h]⟩

theorem chargedOnly_slot {s u : State} (h : chargedOnly s u) (d t : Nat) : u.slot d t = s.slot d t := by
  obtain ⟨p, q, h⟩ := h.2.2 d
  rw [State.slot, h]
  rfl

theorem chargedOnly_onCore {s : State} {c : Nat} {f : Core → Core} (h : ∃ p q, f (s.core c) = { s.core c with prof := p, profctl := q }) :
    chargedOnly s (s.onCore c f) := by
  refine ⟨rfl, rfl, fun d => ?_⟩
  by_cases hd : d = c
  · subst hd
    rw [State.core_onCore]
    exact h
  · exact ⟨_, _, State.core_onCore_ne _ _ _ _ hd⟩

theorem chargedOnly_ownWord (s : State) (c : Nat) (dom : BitVec 6) (off : Nat) (w : Word) : chargedOnly s (s.ownWord c dom off w) := by
  have hp : (s.ownWord c dom off w).cur = s.cur ∧ (s.ownWord c dom off w).issuing = s.issuing := by
    unfold State.ownWord
    split
    · exact ⟨rfl, rfl⟩
    · exact ⟨rfl, rfl⟩
  exact ⟨hp.1, hp.2, fun d => ⟨_, _, State.core_ownWord _ _ _ _ _ d⟩⟩

theorem chargedOnly_writeProf (s : State) (c : Nat) (e : ProfEntry) (intr : Bool) (w : Word) : chargedOnly s (s.writeProf c e intr w) :=
  chargedOnly_trans (chargedOnly_trans (chargedOnly_ownWord ..) (chargedOnly_ownWord ..)) (chargedOnly_onCore ⟨_, _, rfl⟩)

theorem chargedOnly_charge (s : State) (c : Nat) (q : Word × Nat) : chargedOnly s (s.charge c q) := by
  unfold State.charge
  simp only
  split
  · exact chargedOnly_onCore ⟨_, _, rfl⟩
  · split
    · exact chargedOnly_onCore ⟨_, _, rfl⟩
    · exact chargedOnly_trans (chargedOnly_writeProf ..) (chargedOnly_onCore ⟨_, _, rfl⟩)

theorem chargedOnly_foldl {α : Type} (f : α → Word × Nat) (c : Nat) (l : List α) (s : State) :
    chargedOnly s (l.foldl (fun s a => s.charge c (f a)) s) := by
  induction l generalizing s with
  | nil => exact chargedOnly_refl s
  | cons a l ih => exact chargedOnly_trans (chargedOnly_charge ..) (ih _)

/-! ## Levels, ages and boosts -/

/-- What the profile and the breakpoints of a cycle leave as it is: the machine's position, and each slot's age, boost and PAUSE window. -/
def agesKept (c : Nat) (s u : State) : Prop :=
  u.cur = s.cur ∧ u.issuing = s.issuing ∧
    ∀ t, (u.slot c t).age = (s.slot c t).age ∧ (u.slot c t).boost = (s.slot c t).boost ∧ (u.slot c t).pauseLeft = (s.slot c t).pauseLeft

theorem agesKept_refl (c : Nat) (s : State) : agesKept c s s := ⟨rfl, rfl, fun _ => ⟨rfl, rfl, rfl⟩⟩

theorem agesKept_of_charged (c : Nat) {s u : State} (h : chargedOnly s u) : agesKept c s u :=
  ⟨h.1, h.2.1, fun t => by rw [chargedOnly_slot h]; exact ⟨rfl, rfl, rfl⟩⟩

theorem agesKept_chargeSlot (s : State) (c t : Nat) (q : Word × Nat) : agesKept c s (s.chargeSlot c t q) := by
  unfold State.chargeSlot
  split
  · exact agesKept_of_charged c (chargedOnly_charge ..)
  · refine ⟨rfl, rfl, fun v => ?_⟩
    by_cases hv : v = t
    · subst hv
      rw [State.slot_onSlot]
      exact ⟨rfl, rfl, rfl⟩
    · rw [State.slot_onSlot_ne _ _ _ _ _ hv]
      exact ⟨rfl, rfl, rfl⟩

/-- A reason read from the free values counts their use alone. -/
theorem drawn_state (s : State) (n m : Nat) : ∃ k, (if n = 0 then (m, { s with fresh := s.fresh + 1 }) else (n, s)).2 = { s with fresh := k } := by
  split
  · exact ⟨_, rfl⟩
  · exact ⟨_, rfl⟩

theorem State.stall_state (s : State) (c t : Nat) : ∃ n, (s.stall c t).2 = { s with fresh := n } := by
  unfold State.stall
  simp only
  split
  · exact ⟨_, rfl⟩
  · split
    · exact ⟨_, rfl⟩
    · split
      · exact drawn_state s _ _
      · exact drawn_state s _ _

theorem agesKept_profile (s : State) (c : Nat) (issued : Option Nat) : agesKept c s (s.profile c issued) := by
  unfold State.profile
  split
  · split
    · exact agesKept_chargeSlot ..
    · split
      · next t _ =>
        obtain ⟨n, hn⟩ := s.stall_state c t
        simp only [hn]
        exact agesKept_chargeSlot { s with fresh := n } c t _
      · exact agesKept_of_charged c (chargedOnly_charge ..)
  · exact agesKept_refl c s

/-- A pass over the slots of a core changes each slot once. -/
theorem foldl_onSlot_slot (c : Nat) (f : State → Nat → Slot → Slot) {l : List Nat} (hl : l.Nodup) (s : State) (v : Nat) :
    (v ∉ l → (l.foldl (fun s t => s.onSlot c t (f s t)) s).slot c v = s.slot c v) ∧
    (v ∈ l → ∃ r, (l.foldl (fun s t => s.onSlot c t (f s t)) s).slot c v = f r v (s.slot c v)) := by
  induction l generalizing s with
  | nil => exact ⟨fun _ => rfl, fun h => by cases h⟩
  | cons a l ih =>
    obtain ⟨ha, hl⟩ := List.nodup_cons.mp hl
    obtain ⟨hout, hin⟩ := ih hl (s.onSlot c a (f s a))
    by_cases hv : v = a
    · subst hv
      refine ⟨fun h => absurd List.mem_cons_self h, fun _ => ⟨s, ?_⟩⟩
      rw [List.foldl_cons, hout ha, State.slot_onSlot]
    · rw [State.slot_onSlot_ne _ _ _ _ _ hv] at hout hin
      refine ⟨fun h => hout (fun hm => h (List.mem_cons_of_mem _ hm)), fun h => hin ?_⟩
      exact (List.mem_cons.mp h).resolve_left hv

theorem foldl_onSlot_core (c : Nat) (f : State → Nat → Slot → Slot) (l : List Nat) (s : State) :
    ∃ y, (l.foldl (fun s t => s.onSlot c t (f s t)) s).core c = { s.core c with slots := y } := by
  induction l generalizing s with
  | nil => exact ⟨_, rfl⟩
  | cons a l ih =>
    obtain ⟨y, h⟩ := ih (s.onSlot c a (f s a))
    refine ⟨y, h.trans ?_⟩
    rw [State.onSlot_def, State.setSlot_def, State.core_setCore]
    rfl

theorem foldl_onSlot_cores (c : Nat) (f : State → Nat → Slot → Slot) (l : List Nat) (s : State) :
    l.foldl (fun s t => s.onSlot c t (f s t)) s = { s with cores := (l.foldl (fun s t => s.onSlot c t (f s t)) s).cores } := by
  induction l generalizing s with
  | nil => rfl
  | cons a l ih => rw [List.foldl_cons, ih]; rfl

/-- One cycle of R32 on age and boost, outside a PAUSE window. -/
theorem Slot.tick_age {x : Slot} (b : Nat) (issued ready : Bool) (h : x.pauseLeft = 0) : (x.tick b issued ready).age =
    (if issued then 0 else if ready then x.age + 1 else x.age) ∧ (x.tick b issued ready).boost = (if issued then 0 else x.boost) := by
  unfold Slot.tick
  rw [if_neg (by omega)]
  cases issued <;> cases ready <;> exact ⟨rfl, rfl⟩

/-- A slot that is not ready keeps its age and boost, in a PAUSE window too. -/
theorem Slot.tick_idle (x : Slot) (b : Nat) : (x.tick b false false).age = x.age ∧ (x.tick b false false).boost = x.boost := by
  unfold Slot.tick
  split <;> exact ⟨rfl, rfl⟩

/-- The levels of a cycle change each slot by its own tick. -/
theorem State.tickSlots_slot (s : State) (c : Nat) (ready : List Nat) (issued : Option Nat) (v : Nat) :
    (s.tickSlots c ready issued).slot c v = s.slot c v ∧ ¬ v < 13 ∨
    v < 13 ∧ ∃ b, (s.tickSlots c ready issued).slot c v = (s.slot c v).tick b (issued == some v) (ready.contains v) := by
  obtain ⟨hout, hin⟩ := foldl_onSlot_slot c (fun s t x => x.tick (s.baseLevel c t) (issued == some t) (ready.contains t)) List.nodup_range s v
  by_cases hv : v < 13
  · obtain ⟨r, hr⟩ := hin (List.mem_range.mpr hv)
    exact .inr ⟨hv, _, hr⟩
  · exact .inl ⟨hout (fun h => hv (List.mem_range.mp h)), hv⟩

theorem State.tickSlots_cores (s : State) (c : Nat) (ready : List Nat) (issued : Option Nat) :
    s.tickSlots c ready issued = { s with cores := (s.tickSlots c ready issued).cores } := foldl_onSlot_cores c _ _ s

theorem tget_map {α β : Type} (f : α → β) (l : Tbl α) (k : Nat) (d : α) :
    tget (l.map (fun p => (p.1, f p.2))) k (f d) = f (tget l k d) := by
  induction l with
  | nil => rfl
  | cons p l ih =>
    simp only [List.map_cons, tget]
    split
    · rfl
    · exact ih

/-- A slot whose YIELD is spent (R123). -/
def Slot.unyielded (x : Slot) : Slot := { x with yielded := false }

theorem Core.spendYields_slot (k : Core) (t : Nat) : k.spendYields.slot t = (k.slot t).unyielded :=
  tget_map Slot.unyielded k.slots t Slot.reset

/-- An event in the trace and the mark of a breakpoint, of each core of a list. -/
def State.hitAll (s : State) (l : List Nat) (t : Nat) (pc : Word) : State :=
  l.foldl (fun s d => (s.event d 3 t pc).onCore d (fun k => { k with bkptHit := true })) s

theorem State.hitAll_core (l : List Nat) (s : State) (t : Nat) (pc : Word) (d : Nat) :
    ∃ b, (s.hitAll l t pc).core d = { s.core d with bkptHit := b } := by
  induction l generalizing s with
  | nil => exact ⟨_, rfl⟩
  | cons a l ih =>
    obtain ⟨b, h⟩ := ih ((s.event a 3 t pc).onCore a (fun k => { k with bkptHit := true }))
    by_cases hd : d = a
    · subst hd
      rw [State.core_onCore] at h
      exact ⟨b, h⟩
    · rw [State.core_onCore_ne _ _ _ _ hd] at h
      exact ⟨b, h⟩

theorem State.matchBkpt_eq (s : State) (c t : Nat) : s.matchBkpt c t = s ∨ ∃ l, s.matchBkpt c t = s.hitAll l t (s.slot c t).pc := by
  by_cases h : (!s.midGang c t && (if t = 0 then s.gangOf c else [c]).any (fun d => (s.core d).bkptAt (s.slot c t).pc)) = true
  · exact .inr ⟨_, if_pos h⟩
  · exact .inl (if_neg h)

theorem State.matchBkpt_core (s : State) (c t d : Nat) : ∃ b, (s.matchBkpt c t).core d = { s.core d with bkptHit := b } := by
  rcases s.matchBkpt_eq c t with h | ⟨l, h⟩
  · rw [h]
    exact ⟨_, rfl⟩
  · rw [h]
    exact State.hitAll_core l s t _ d

/-- The state of a cycle before its instruction issues: profile, levels and yields are settled. -/
def State.settled (s : State) (c : Nat) (ready : List Nat) : State :=
  ((s.profile c (s.choose c ready)).tickSlots c ready (s.choose c ready)).onCore c Core.spendYields

theorem State.settled_place (s : State) (c : Nat) (ready : List Nat) :
    (s.settled c ready).cur = s.cur ∧ (s.settled c ready).issuing = s.issuing := by
  obtain ⟨hc, hi, _⟩ := agesKept_profile s c (s.choose c ready)
  have ht := State.tickSlots_cores (s.profile c (s.choose c ready)) c ready (s.choose c ready)
  unfold State.settled
  rw [State.onCore_cur, State.onCore_issuing, ht]
  exact ⟨hc, hi⟩

theorem State.settled_slot (s : State) (c : Nat) (ready : List Nat) (v : Nat) :
    (s.settled c ready).slot c v = (((s.profile c (s.choose c ready)).tickSlots c ready (s.choose c ready)).slot c v).unyielded := by
  rw [State.settled, State.slot, State.core_onCore, Core.spendYields_slot]
  rfl

/-- Age and boost after the settling of a cycle: of the slot that issues, of a ready one, of one that is not ready. -/
theorem State.settled_issued {s : State} {c t : Nat} {ready : List Nat} (ht : t < 13) (h : s.choose c ready = some t)
    (hp : (s.slot c t).pauseLeft = 0) : ((s.settled c ready).slot c t).age = 0 ∧ ((s.settled c ready).slot c t).boost = 0 := by
  obtain ⟨_, _, hk⟩ := agesKept_profile s c (s.choose c ready)
  obtain ⟨_, hn⟩ | ⟨_, b, hb⟩ := State.tickSlots_slot (s.profile c (s.choose c ready)) c ready (s.choose c ready) t
  · exact absurd ht hn
  · have hx := Slot.tick_age b (s.choose c ready == some t) (ready.contains t) ((hk t).2.2.trans hp)
    rw [State.settled_slot, hb]
    rw [h, beq_self_eq_true] at hx ⊢
    exact hx

theorem State.settled_ready {s : State} {c v : Nat} {ready : List Nat} (hv : v < 13) (h : s.choose c ready ≠ some v) (hr : v ∈ ready)
    (hp : (s.slot c v).pauseLeft = 0) :
    ((s.settled c ready).slot c v).age = (s.slot c v).age + 1 ∧ ((s.settled c ready).slot c v).boost = (s.slot c v).boost := by
  obtain ⟨_, _, hk⟩ := agesKept_profile s c (s.choose c ready)
  obtain ⟨ha, hb', hpl⟩ := hk v
  obtain ⟨_, hn⟩ | ⟨_, b, hb⟩ := State.tickSlots_slot (s.profile c (s.choose c ready)) c ready (s.choose c ready) v
  · exact absurd hv hn
  · obtain ⟨h1, h2⟩ := Slot.tick_age b (s.choose c ready == some v) (ready.contains v) (hpl.trans hp)
    rw [State.settled_slot, hb]
    rw [beq_false_of_ne h, List.contains_iff_mem.mpr hr] at h1 h2 ⊢
    exact ⟨h1.trans (by rw [ha]; rfl), h2.trans (by rw [hb']; rfl)⟩

theorem State.settled_idle {s : State} {c v : Nat} {ready : List Nat} (h : s.choose c ready ≠ some v) (hr : v ∉ ready) :
    ((s.settled c ready).slot c v).age = (s.slot c v).age ∧ ((s.settled c ready).slot c v).boost = (s.slot c v).boost := by
  obtain ⟨_, _, hk⟩ := agesKept_profile s c (s.choose c ready)
  obtain ⟨ha, hb', _⟩ := hk v
  rw [State.settled_slot]
  obtain ⟨hout, _⟩ | ⟨_, b, hb⟩ := State.tickSlots_slot (s.profile c (s.choose c ready)) c ready (s.choose c ready) v
  · rw [hout]
    exact ⟨ha, hb'⟩
  · obtain ⟨h1, h2⟩ := Slot.tick_idle ((s.profile c (s.choose c ready)).slot c v) b
    rw [hb, beq_false_of_ne h, Bool.eq_false_iff.mpr (fun hc => hr (List.contains_iff_mem.mp hc))]
    exact ⟨h1.trans ha, h2.trans hb'⟩

theorem State.endCycle_none {s : State} {c : Nat} {ready : List Nat} (h : s.choose c ready = none) : s.endCycle c ready = s.settled c ready := by
  unfold State.endCycle State.settled
  simp only [h]

/-- The slot handed to the next step, and the pointer of its level n (R31). -/
def State.handed (s : State) (c t n : Nat) : State :=
  { (s.matchBkpt c t).onCore c (fun k => k.setPointer n ((t + 1) % 13)) with cur := { s.cur with core := c, slot := t }, issuing := true }

theorem Core.setPointer_rr (k : Core) (n t : Nat) : (k.setPointer n t).rr[n % 4]? = some t := by
  simp [Core.setPointer, Nat.mod_lt]

theorem State.handed_core (s : State) (c t n : Nat) : ∃ b, (s.handed c t n).core c = { s.core c with bkptHit := b }.setPointer n ((t + 1) % 13) := by
  obtain ⟨b, hb⟩ := s.matchBkpt_core c t c
  refine ⟨b, ?_⟩
  change ((s.matchBkpt c t).onCore c (fun k => k.setPointer n ((t + 1) % 13))).core c = _
  rw [State.core_onCore, hb]

theorem State.handed_slot (s : State) (c t n v : Nat) : (s.handed c t n).slot c v = s.slot c v := by
  obtain ⟨b, hb⟩ := s.handed_core c t n
  rw [State.slot, hb]
  rfl

theorem State.handed_issues (s : State) (c t n : Nat) : (s.handed c t n).issuing = true ∧ (s.handed c t n).cur.core = c ∧
    (s.handed c t n).cur.slot = t ∧ ((s.handed c t n).core c).rr[n % 4]? = some ((t + 1) % 13) := by
  obtain ⟨b, hb⟩ := s.handed_core c t n
  refine ⟨rfl, rfl, rfl, ?_⟩
  rw [hb]
  exact Core.setPointer_rr _ _ _

theorem State.endCycle_some {s : State} {c t : Nat} {ready : List Nat} (h : s.choose c ready = some t) :
    s.endCycle c ready = (s.settled c ready).handed c t (s.slot c t).eff := by
  unfold State.endCycle State.settled
  simp only [h]
  rfl

theorem State.endCycle_slot {s : State} {c t v : Nat} {ready : List Nat} (h : s.choose c ready = some t) :
    (s.endCycle c ready).slot c v = (s.settled c ready).slot c v := by
  rw [State.endCycle_some h, State.handed_slot]

/-- Settles O10. -/
theorem highestLevelIssues : Obligations.HighestLevelIssues := by
  refine ⟨fun s c ready hs hl => ⟨fun t ht => ?_, State.choose_isSome⟩, fun s c hi hc => ?_, fun s c t ready h => ?_, fun s c ready h => ?_⟩
  · obtain ⟨hm, he⟩ := State.mem_atTop.mp (State.choose_mem_atTop ht)
    refine ⟨State.choose_mem ht, fun ⟨u, hu, hy⟩ => State.candidates_yielded hm hu hy, fun u hu => he ▸ State.eff_le_topLevel hu,
      fun p hp h12 u hu hue => ?_⟩
    have hptr : s.pointer c (s.topLevel c (s.candidates c ready)) = p := by
      rw [he] at hp
      exact Option.some.inj ((Vector.getElem?_eq_getElem _).symm.trans hp)
    rw [State.choose_eq, hptr] at ht
    exact first_cyclic ((State.candidates_sorted hs).filter _)
      (fun u hu => hl u (State.candidates_subset s c ready u (State.mem_atTop.mp hu).1)) h12 ht u
      (State.mem_atTop.mpr ⟨hu, hue.trans he⟩)
  · refine ⟨?_, fun t => State.mem_inTurn, fun t => State.inTurn_mem⟩
    have hstep : step s = cycleStep c s := by simp [step, hi, hc]
    exact hstep
  · have hu := (s.settled c ready).handed_issues c t (s.slot c t).eff
    rwa [← State.endCycle_some h] at hu
  · rw [State.endCycle_none h]
    exact ⟨(s.settled_place c ready).2, (s.settled_place c ready).1⟩

/-! ## The other steps of a cycle (R31 to R33) -/

theorem State.onSlot_eq (s : State) (c t : Nat) (f : Slot → Slot) : s.onSlot c t f = s.setSlot c t ((s.onSlot c t f).slot c t) := by
  rw [State.slot_onSlot]
  rfl

theorem Slot.boosted_file (x : Slot) (b : Nat) : (x.boosted b).g = x.g ∧ (x.boosted b).v = x.v ∧ (x.boosted b).pc = x.pc := by
  unfold Slot.boosted
  split <;> exact ⟨rfl, rfl, rfl⟩

theorem Slot.resumed_file (x : Slot) (b : Nat) : (x.resumed b).g = x.g ∧ (x.resumed b).v = x.v ∧ (x.resumed b).pc = x.pc := by
  unfold Slot.resumed
  split <;> exact ⟨rfl, rfl, rfl⟩

theorem State.settleLevels_file (s : State) (c v : Nat) : ((s.settleLevels c).slot c v).g = (s.slot c v).g ∧
    ((s.settleLevels c).slot c v).v = (s.slot c v).v ∧ ((s.settleLevels c).slot c v).pc = (s.slot c v).pc := by
  obtain ⟨hout, hin⟩ := foldl_onSlot_slot c (fun s t x => (x.boosted (s.baseLevel c t)).resumed (s.baseLevel c t)) List.nodup_range s v
  by_cases hv : v ∈ List.range 13
  · obtain ⟨r, hr⟩ := hin hv
    obtain ⟨hg, hvv, hpc⟩ := Slot.boosted_file (s.slot c v) (r.baseLevel c v)
    obtain ⟨hg', hv', hpc'⟩ := Slot.resumed_file ((s.slot c v).boosted (r.baseLevel c v)) (r.baseLevel c v)
    have hs : (s.settleLevels c).slot c v = ((s.slot c v).boosted (r.baseLevel c v)).resumed (r.baseLevel c v) := hr
    rw [hs]
    exact ⟨hg'.trans hg, hv'.trans hvv, hpc'.trans hpc⟩
  · have hs : (s.settleLevels c).slot c v = s.slot c v := hout hv
    rw [hs]
    exact ⟨rfl, rfl, rfl⟩

/-- A cycle of core c that begins at router time now (R12, R138). -/
def State.begun (s : State) (c : Nat) (now : Word) : State :=
  { s.onCore c (fun k => { k with cycle := k.cycle + 1 }) with rtime := now + 1, cycleOf := some c }

theorem State.begun_cycle (s : State) (c : Nat) (now : Word) : ((s.begun c now).core c).cycle = (s.core c).cycle + 1 := by
  change ((s.onCore c (fun k => { k with cycle := k.cycle + 1 })).core c).cycle = _
  rw [State.core_onCore]

theorem State.begun_slot (s : State) (c : Nat) (now : Word) (t : Nat) : (s.begun c now).slot c t = s.slot c t :=
  State.slot_onCore (f := fun k => { k with cycle := k.cycle + 1 }) rfl t

theorem State.begun_place (s : State) (c : Nat) (now : Word) : (s.begun c now).issuing = s.issuing ∧ (s.begun c now).cur = s.cur ∧
    (s.begun c now).mem = s.mem := ⟨rfl, rfl, rfl⟩

theorem State.settleLevels_place (s : State) (c : Nat) : (s.settleLevels c).issuing = s.issuing ∧ (s.settleLevels c).cur = s.cur ∧
    (s.settleLevels c).mem = s.mem := by
  unfold State.settleLevels
  rw [foldl_onSlot_cores]
  exact ⟨rfl, rfl, rfl⟩

/-- A cycle that begins counts. -/
theorem issueCycle_counts {s : State} {c : Nat} (h : s.cycles c = true) :
    ∃ u, exec (.issueCycle c) s = .next u ∧ u.cycleOf = some c ∧ u.rtime = s.rtime + 1 ∧ (u.core c).cycle = (s.core c).cycle + 1 ∧
      u.issuing = s.issuing ∧ u.cur = s.cur ∧ u.mem = s.mem ∧
      ∀ t, (u.slot c t).g = (s.slot c t).g ∧ (u.slot c t).v = (s.slot c t).v ∧ (u.slot c t).pc = (s.slot c t).pc := by
  obtain ⟨y, hy⟩ := foldl_onSlot_core c (fun s t x => (x.boosted (s.baseLevel c t)).resumed (s.baseLevel c t)) (List.range 13) s
  have hcore : (s.settleLevels c).core c = { s.core c with slots := y } := hy
  obtain ⟨hi, hc, hm⟩ := s.settleLevels_place c
  obtain ⟨hi', hc', hm'⟩ := (s.settleLevels c).begun_place c s.rtime
  have hu : exec (.issueCycle c) s = .next ((s.settleLevels c).begun c s.rtime) := congrArg Host.Outcome.next (if_pos h)
  refine ⟨_, hu, rfl, rfl, ?_, hi'.trans hi, hc'.trans hc, hm'.trans hm, fun t => ?_⟩
  · rw [State.begun_cycle, hcore]
  · rw [State.begun_slot]
    exact s.settleLevels_file c t

/-- Settles O11. -/
theorem cycleChoosesAndCounts : Obligations.CycleChoosesAndCounts := by
  refine ⟨fun s c h => issueCycle_counts h, fun s c t ready hl h => ?_, fun s c t h => ?_, fun s c t h => ?_⟩
  · refine ⟨fun hp => ?_, fun v hv hne hp => ?_, fun v hv => ?_⟩
    · rw [State.endCycle_slot h]
      exact State.settled_issued (hl t (State.choose_mem h)) h hp
    · rw [State.endCycle_slot h]
      exact State.settled_ready (hl v hv) (by rw [h]; exact fun hh => hne (Option.some.inj hh).symm) hv hp
    · rw [State.endCycle_slot h]
      exact State.settled_idle (fun hh => hv (State.choose_mem hh)) hv
  · have hb : (s.slot c t).boosted (s.baseLevel c t) = { s.slot c t with
        boost := (s.slot c t).boost + 1, age := 0, eff := min 3 (s.baseLevel c t + ((s.slot c t).boost + 1)) } := if_pos h
    have hx : (s.onSlot c t (fun x => x.boosted (s.baseLevel c t))).slot c t = _ := (State.slot_onSlot _ _ _ _).trans hb
    refine ⟨_, rfl, ?_, ?_, ?_, State.onSlot_eq s c t _⟩
    · rw [hx]
    · rw [hx]
    · rw [hx]
  · have hb : (s.slot c t).resumed (s.baseLevel c t) = { s.slot c t with
        pauseOver := false, eff := min 3 (s.baseLevel c t + (s.slot c t).boost) } := if_pos h
    have hx : (s.onSlot c t (fun x => x.resumed (s.baseLevel c t))).slot c t = _ := (State.slot_onSlot _ _ _ _).trans hb
    refine ⟨_, rfl, ?_, ?_, State.onSlot_eq s c t _⟩
    · rw [hx]
    · rw [hx]

end Sys2Proof.Machine
end

section
/-! PROOFS. Predictions and their undoing (R39, R40). -/

namespace Sys2Proof.Machine

open Sys2Proof Sys2Proof.Safety

/-! ## A branch that is predicted -/

/-- Outside a gang a slot's own registers decide (R50). -/
theorem State.lead_eq_me {s : State} (h : s.inGang = false) : s.lead = s.me := by
  unfold State.lead
  split
  · next h0 =>
    have hg : s.mine.gang = 0 := by simpa [State.inGang, h0] using h
    rw [State.gangOf_alone (c := s.cur.core) hg, State.me, h0]
    rfl
  · rfl

theorem State.cleared_inGang (s : State) : s.cleared.inGang = s.inGang := by
  have h : s.cleared.mine.gang = s.mine.gang := s.cleared_gang s.cur.core
  rw [State.inGang, h]
  rfl

/-- What the slot saw at a predicted jump from `actual`, going on at `guess` (R39). -/
def State.checkpoint (s : State) (actual guess : Word) : Checkpoint :=
  { actual := actual, guess := guess, g := s.me.g, pend := s.me.pend, more := s.me.more, unsync := s.me.unsync, issued := s.me.issued,
    bpc := s.cur.pc, icount := s.me.icount, charged := [] }

/-- The slot under one more unresolved branch. -/
def State.speculating (s : State) (ps : List Word) (b : Checkpoint) : State :=
  { s with predictions := ps }.onMe (fun x => { x with branches := x.branches ++ [b] })

theorem predicted_go {s : State} {p : Word} {ps : List Word} (actual other : Word) (useGuess : Bool) (hp : s.predictions = p :: ps)
    (hg : s.inGang = false) (hm : s.cur.mark = false) :
    let guess := if useGuess then p else if p = 0 then other else actual
    predicted s actual other useGuess = .go (s.speculating ps (s.checkpoint actual guess)) guess := by
  simp only [predicted, hp, hg, hm]
  rfl

/-- An instruction that goes on at a guess keeps what it saw (R39). -/
theorem issue_predicted {n : Need} {f : State → Act} {s : State} {p actual guess other : Word} {ps : List Word} {useGuess : Bool}
    (h : mayIssue n s = true) (hp : s.predictions = p :: ps) (hg : s.inGang = false) (hm : s.cur.mark = false)
    (hf : f s.cleared = predicted s.cleared actual other useGuess) (hgu : (if useGuess then p else if p = 0 then other else actual) = guess) :
    ∃ t b, issue n f s = .next t ∧ t.predictions = ps ∧ t.me.branches = s.me.branches ++ [b] ∧ t.me.pc = b.guess ∧ t.me.g = s.me.g ∧
      b.actual = actual ∧ b.guess = guess ∧
      b.g = s.me.g ∧ b.pend = s.me.pend ∧ b.more = s.me.more ∧ b.unsync = s.me.unsync ∧ b.issued = s.me.issued ∧ t.mem = s.mem := by
  have hgo := predicted_go (s := s.cleared) actual other useGuess hp ((State.cleared_inGang s).trans hg) hm
  simp only [hgu] at hgo
  have hme : (s.cleared.speculating ps (s.cleared.checkpoint actual guess)).me =
      { s.cleared.me with branches := s.cleared.me.branches ++ [s.cleared.checkpoint actual guess] } := State.me_onMe _ _
  rw [State.cleared_me] at hme
  obtain ⟨q, u, m, k, hret⟩ := Slot.retired_eq (s.cleared.speculating ps (s.cleared.checkpoint actual guess)).me n s.rtime.toNat false guess
  have ht : ((s.cleared.speculating ps (s.cleared.checkpoint actual guess)).retire n guess).me = _ :=
    (State.retire_me _ _ _).trans ((congrArg (fun b => Slot.retired _ n s.rtime.toNat b guess) hm).trans hret)
  rw [hme] at ht
  refine ⟨_, s.cleared.checkpoint actual guess, issue_go h (hf.trans hgo), rfl, ?_, ?_, ?_, rfl, rfl, ?_⟩
  · rw [ht]
  · rw [ht]; rfl
  · rw [ht]
  · simp only [State.checkpoint, State.cleared_me]
    exact ⟨trivial, trivial, trivial, trivial, trivial, rfl⟩

theorem State.cleared_lead_rd {s : State} (h : s.inGang = false) (r : Reg) : s.cleared.lead.rd r = s.me.rd r := by
  rw [State.lead_eq_me ((State.cleared_inGang s).trans h), State.cleared_rd]

/-- A conditional branch under a prediction (R39, R119). -/
theorem branchOp_predicted {test : Word → Bool} {a : Reg} {off : Word} {s : State} {p : Word} {ps : List Word}
    (h : mayIssue { rs := [a], late := false, who := .any } s = true) (hp : s.predictions = p :: ps) (hg : s.inGang = false)
    (hm : s.cur.mark = false) :
    ∃ t b, branchOp test a off s = .next t ∧ t.predictions = ps ∧ t.me.branches = s.me.branches ++ [b] ∧ t.me.pc = b.guess ∧ t.me.g = s.me.g ∧
      b.actual = (if test (s.me.rd a) then s.nextPc + off + off else s.nextPc) ∧ (b.guess = s.nextPc ∨ b.guess = s.nextPc + off + off) ∧
      b.g = s.me.g ∧ b.pend = s.me.pend ∧ b.more = s.me.more ∧ b.unsync = s.me.unsync ∧ b.issued = s.me.issued ∧ t.mem = s.mem := by
  have hrd := State.cleared_lead_rd hg a
  have guessed (x y : Word) (hx : x = s.nextPc ∨ x = s.nextPc + off + off) (hy : y = s.nextPc ∨ y = s.nextPc + off + off) :
      (if p = 0 then y else x) = s.nextPc ∨ (if p = 0 then y else x) = s.nextPc + off + off := by
    split
    · exact hy
    · exact hx
  by_cases ht : test (s.me.rd a) = true
  · obtain ⟨t, b, h0, h1, h2, h3, h4, h5, h6, h7⟩ := issue_predicted (f := fun s => if test (s.lead.rd a) then predicted s (s.target off) s.nextPc false
        else predicted s s.nextPc (s.target off) false) h hp hg hm (by simp only [hrd, ht, if_true]; rfl) rfl
    exact ⟨t, b, h0, h1, h2, h3, h4, h5.trans (if_pos ht).symm, h6 ▸ guessed _ _ (.inr rfl) (.inl rfl), h7⟩
  · obtain ⟨t, b, h0, h1, h2, h3, h4, h5, h6, h7⟩ := issue_predicted (f := fun s => if test (s.lead.rd a) then predicted s (s.target off) s.nextPc false
        else predicted s s.nextPc (s.target off) false) h hp hg hm (by simp only [hrd, ht]; rfl) rfl
    exact ⟨t, b, h0, h1, h2, h3, h4, h5.trans (if_neg ht).symm, h6 ▸ guessed _ _ (.inl rfl) (.inr rfl), h7⟩

theorem msb_eq_neg (v : Word) : v.msb = decide (v.toInt < 0) := by
  rw [BitVec.msb_eq_toInt]

/-- The four conditional branches are one operation (R119). -/
theorem exec_branchForm {i : Instr} {a : Reg} {off : Word} {test : Word → Bool} (h : branchForm i = some (a, off, test)) (s : State) :
    exec i s = branchOp test a off s := by
  cases i
  case bz => cases h; rfl
  case bnz => cases h; rfl
  case bltz a off =>
    cases h
    change branchOp (fun v => v.msb) a off s = _
    simp only [msb_eq_neg]
  case bgez a off =>
    cases h
    change branchOp (fun v => !v.msb) a off s = _
    simp only [msb_eq_neg, ← decide_not, Int.not_lt]
  all_goals cases h

/-! ## Its resolution -/

/-- The slot as an undone branch leaves it (R40). -/
def Slot.rewound (x : Slot) (b : Checkpoint) : Slot :=
  { x with g := b.g, pend := b.pend, more := b.more, unsync := b.unsync, issued := b.issued, icount := b.icount + 1, pc := b.actual,
           branches := [], results := x.results.filter (fun q => q.depth == 0), park := none }

/-- The queues without what slot t entered under a branch (R40). -/
def Core.unspeculated (k : Core) (t : Nat) : Core :=
  { k with queue := k.queue.map (fun p => (p.1, p.2.filter (fun m => m.slot != t || m.depth == 0))) }

theorem charge_core_ne (s : State) (c d : Nat) (q : Word × Nat) (h : d ≠ c) : (s.charge c q).core d = s.core d := by
  unfold State.charge
  simp only
  split
  · exact State.core_onCore_ne _ _ _ _ h
  · split
    · exact State.core_onCore_ne _ _ _ _ h
    · rw [State.core_onCore_ne _ _ _ _ h, State.writeProf, State.core_onCore_ne _ _ _ _ h, State.core_ownWord, State.core_ownWord]

/-- Charges of core c write no other core. -/
theorem charges_core_ne {α : Type} (f : α → Word × Nat) (c d : Nat) (h : d ≠ c) (l : List α) (s : State) :
    (l.foldl (fun s a => s.charge c (f a)) s).core d = s.core d := by
  induction l generalizing s with
  | nil => rfl
  | cons a l ih => rw [List.foldl_cons, ih, charge_core_ne _ _ _ _ h]

/-- The state in which a wrong prediction's cycles are charged: registers and queues are already undone (R40). -/
def State.rewind (s : State) (c t : Nat) (b : Checkpoint) : State :=
  (s.onSlot c t (fun x => x.rewound b)).onCore c (fun k => k.unspeculated t)

theorem State.rewind_core (s : State) (c t : Nat) (b : Checkpoint) :
    (s.rewind c t b).core c = ((s.core c).setSlot t ((s.slot c t).rewound b)).unspeculated t := by
  rw [State.rewind, State.core_onCore, State.onSlot_def, State.setSlot_def, State.core_setCore]

theorem branchWrong_eq (s : State) (c t : Nat) (b : Checkpoint) (r : List Checkpoint) :
    s.branchWrong c t b r = ((b :: r).flatMap (·.charged)).foldl (fun s _ => s.charge c (b.bpc, 0)) (s.rewind c t b) := rfl

theorem Core.unspeculated_queue (k : Core) (t e : Nat) :
    tget (k.unspeculated t).queue e [] = (tget k.queue e []).filter (fun m => m.slot != t || m.depth == 0) :=
  tget_map (fun l : List Cmd => l.filter (fun m : Cmd => m.slot != t || m.depth == 0)) k.queue e []

/-- BRANCH_RESOLVE of a wrong guess (R40). -/
theorem branchWrong_undoes (s : State) (c t : Nat) (b : Checkpoint) (r : List Checkpoint) :
    (s.branchWrong c t b r).slot c t = (s.slot c t).rewound b ∧
    (∀ e, tget ((s.branchWrong c t b r).core c).queue e [] = (tget (s.core c).queue e []).filter (fun m => m.slot != t || m.depth == 0)) ∧
    (∀ q, q ≠ t → (s.branchWrong c t b r).slot c q = s.slot c q) ∧ (∀ d, d ≠ c → (s.branchWrong c t b r).core d = s.core d) := by
  rw [branchWrong_eq]
  have hk := s.rewind_core c t b
  have hcharged := chargedOnly_foldl (fun _ => (b.bpc, 0)) c ((b :: r).flatMap (·.charged)) (s.rewind c t b)
  refine ⟨?_, fun e => ?_, fun q hq => ?_, fun d hd => ?_⟩
  · rw [chargedOnly_slot hcharged, State.slot, hk]
    exact Core.slot_setSlot _ _ _
  · obtain ⟨p, q, hcore⟩ := hcharged.2.2 c
    rw [hcore]
    change tget ((s.rewind c t b).core c).queue e [] = _
    rw [hk]
    exact Core.unspeculated_queue _ _ _
  · rw [chargedOnly_slot hcharged, State.slot, hk]
    exact Core.slot_setSlot_ne _ _ _ _ hq
  · rw [charges_core_ne _ c d hd, State.rewind, State.core_onCore_ne _ _ _ _ hd, State.core_onSlot_ne _ _ _ _ _ hd]

/-- The slot once its oldest branch was predicted right (R39). -/
def Slot.confirmed (x : Slot) (r : List Checkpoint) : Slot :=
  { x with branches := r, results := x.results.map (fun q => { q with depth := q.depth - 1 }) }

/-- BRANCH_RESOLVE of a right guess (R39). -/
theorem branchRight_confirms (s : State) (c t : Nat) (b : Checkpoint) (r : List Checkpoint) :
    (s.branchRight c t b r).slot c t = (s.slot c t).confirmed r ∧ ∀ d, d ≠ c → (s.branchRight c t b r).core d = s.core d := by
  unfold State.branchRight
  refine ⟨?_, fun d hd => ?_⟩
  · refine (chargedOnly_slot (chargedOnly_foldl (fun q => q) c _ _) c t).trans ((State.slot_onCore rfl t).trans ?_)
    exact State.slot_onSlot s c t (fun x => x.confirmed r)
  · refine (charges_core_ne (fun q => q) c d hd _ _).trans ((State.core_onCore_ne _ _ _ _ hd).trans ?_)
    exact State.core_onSlot_ne _ _ _ _ _ hd

theorem execBranchResolve_cons {s : State} {c t : Nat} {b : Checkpoint} {r : List Checkpoint} (h : (s.slot c t).branches = b :: r) :
    exec (.branchResolve c t) s = .next (if b.guess = b.actual then s.branchRight c t b r else s.branchWrong c t b r) := by
  change execBranchResolve c t s = _
  simp only [execBranchResolve, h]

/-- Settles O25. -/
theorem mispredictionIsUndone : Obligations.MispredictionIsUndone := by
  refine ⟨fun i a off test s p ps hi h hp hg hm => ?_, fun s a p ps h hp hg hm => ?_, fun s c t b r hb hne => ?_, fun s c t b r hb he => ?_⟩
  · rw [exec_branchForm hi]
    exact branchOp_predicted h hp hg hm
  · have hx : exec (.jr a) s = issue { rs := [a], late := false, who := .any } (fun s => predicted s (s.lead.rd a) 0 true) s := rfl
    rw [hx]
    exact issue_predicted (other := 0) (useGuess := true) h hp hg hm (by rw [State.cleared_lead_rd hg a]) rfl
  · obtain ⟨hslot, hqueue, hothers, hcores⟩ := branchWrong_undoes s c t b r
    refine ⟨_, (execBranchResolve_cons hb).trans (by rw [if_neg hne]), ?_⟩
    simp only [hslot]
    exact ⟨rfl, rfl, rfl, rfl, rfl, rfl, rfl, rfl, rfl, hqueue, hothers, hcores⟩
  · obtain ⟨hslot, hcores⟩ := branchRight_confirms s c t b r
    refine ⟨_, (execBranchResolve_cons hb).trans (by rw [if_pos he]), ?_⟩
    simp only [hslot]
    exact ⟨rfl, rfl, rfl, rfl, hcores⟩

end Sys2Proof.Machine
end

section
/-! PROOFS. SPILL and FILL (R45, R46, R265). -/

namespace Sys2Proof.Machine

open Sys2Proof Sys2Proof.Safety

/-! ## A word of core memory written by its own hardware -/

theorem State.ownWord_cur (s : State) (c : Nat) (dom : BitVec 6) (off : Nat) (v : Word) : (s.ownWord c dom off v).cur = s.cur :=
  (chargedOnly_ownWord s c dom off v).1

theorem State.ownWord_me (s : State) (c : Nat) (dom : BitVec 6) (off : Nat) (v : Word) : (s.ownWord c dom off v).me = s.me := by
  rw [State.me, State.ownWord_cur, State.slot, State.core_ownWord]
  rfl

/-- A word that the hardware may write there is written (R260, R397). -/
theorem State.ownWord_written {s : State} {c : Nat} {dom : BitVec 6} {off : Nat} (v : Word) (hf : s.foreign c dom off 8 = false)
    (hg : s.fieldGuard c off 8 = false) : s.ownWord c dom off v = s.setCoreWord c off v := if_neg (by simp [hf, hg])

/-- One that it may not is dropped (log entry 74). -/
theorem State.ownWord_dropped {s : State} {c : Nat} {dom : BitVec 6} {off : Nat} (v : Word)
    (h : s.foreign c dom off 8 = true ∨ s.fieldGuard c off 8 = true) : s.ownWord c dom off v = s := if_pos (by simpa using h)

theorem State.coreWord_setCoreWord {s : State} (c off : Nat) (v : Word) (h : memInv s) : (s.setCoreWord c off v).coreWord c off = v := by
  have hb := Memory.readN_writeBytes_bytesOf s.mem (coreKey c off) 8 v.toNat h
  apply BitVec.eq_of_toNat_eq
  change (BitVec.ofNat 64 (Memory.readN (Memory.writeN s.mem (coreKey c off) 8 v.toNat) (coreKey c off) 8)).toNat = v.toNat
  rw [Memory.writeN, hb, BitVec.toNat_ofNat]
  have := v.isLt
  omega

theorem State.read_setCoreWord (s : State) (c off : Nat) (v : Word) {k : Nat} (h : k < coreKey c off ∨ coreKey c off + 8 ≤ k) :
    Memory.read (s.setCoreWord c off v).mem k = Memory.read s.mem k :=
  Memory.read_writeBytes_out _ _ _ _ (by simpa using h)

theorem State.read_ownWord (s : State) (c : Nat) (dom : BitVec 6) (off : Nat) (v : Word) {k : Nat} (h : k < coreKey c off ∨ coreKey c off + 8 ≤ k) :
    Memory.read (s.ownWord c dom off v).mem k = Memory.read s.mem k := by
  unfold State.ownWord
  split
  · rfl
  · exact s.read_setCoreWord c off v h

/-! ## The spill map -/

/-- The entry of a number after one is set. -/
theorem find_tset {α : Type} (l : Tbl α) (k n : Nat) (v : α) :
    (tset l n v).find? (fun q => q.1 == k) = if k = n then some (n, v) else l.find? (fun q => q.1 == k) := by
  have first (p : Nat × α) (r : Tbl α) : (p :: r).find? (fun q => q.1 == k) = if k = p.1 then some p else r.find? (fun q => q.1 == k) := by
    by_cases h : k = p.1
    · rw [List.find?_cons_of_pos (by simp [h]), if_pos h]
    · rw [List.find?_cons_of_neg (by simpa using fun e => h e.symm), if_neg h]
  induction l with
  | nil => exact first (n, v) []
  | cons p r ih =>
    obtain ⟨k', v'⟩ := p
    simp only [tset]
    split
    · next e =>
      subst e
      rw [first, first]
      split
      · rfl
      · rfl
    · next e =>
      split
      · rw [first]
      · rw [first, first, ih]
        by_cases hk : k = k'
        · rw [if_pos hk, if_pos hk, if_neg (by omega)]
        · rw [if_neg hk, if_neg hk]

/-- The value of spill slot n of a slot that is in no call (R45). -/
def Slot.recalled (x : Slot) (n : Nat) : Word := match x.spill.find? (fun e => e.1 == n) with | some e => e.2.val | none => 0

theorem State.filled_outside {s : State} {c t : Nat} (h : (s.slot c t).calls = []) (n : Nat) : s.filled c t n = (s.slot c t).recalled n := by
  simp only [State.filled, h]
  rfl

theorem State.filled_inside {s : State} {c t : Nat} {k : Call} {r : List Call} (h : (s.slot c t).calls = k :: r) (n : Nat) :
    s.filled c t n = s.coreWord c (frameSpill (frameOff t r.length) n) := by
  simp only [State.filled, h]

/-- What a slot has spilled does not depend on its wait. -/
theorem State.cleared_filled (s : State) (n : Nat) : s.cleared.filled s.cur.core s.cur.slot n = s.filled s.cur.core s.cur.slot n := by
  have hme : s.cleared.slot s.cur.core s.cur.slot = { s.slot s.cur.core s.cur.slot with park := none } := s.cleared_me
  unfold State.filled
  rw [hme]
  rfl

/-! ## The place of a new spill value (R46) -/

theorem Core.mem_spilled {k : Core} {p : SpillPlace} : p ∈ k.spilled ↔ k.slots.any (fun y => y.2.spill.any (fun e => e.2.place == p)) = true := by
  simp [Core.spilled]

theorem State.cleared_spilled (s : State) (p : SpillPlace) : p ∈ s.cleared.mine.spilled ↔ p ∈ s.mine.spilled := by
  have h := any_tset (fun y : Slot => y.spill.any (fun e => e.2.place == p)) s.mine.slots s.cur.slot { s.me with park := none } Slot.reset rfl rfl
  rw [Core.mem_spilled, Core.mem_spilled, State.cleared_mine, Core.setSlot_slots]
  exact Iff.of_eq (congrArg (· = true) h)

theorem State.cleared_mode (s : State) (u : Nat) : (s.cleared.mine.slot u).mode = (s.mine.slot u).mode := by
  rw [State.cleared_mine]
  by_cases hu : u = s.cur.slot
  · subst hu
    rw [Core.slot_setSlot]
    rfl
  · rw [Core.slot_setSlot_ne _ _ _ _ hu]

/-- The columns of the tiles that are not allocated. -/
def Core.tilePlaces (k : Core) : List SpillPlace :=
  (List.range 16).flatMap (fun t => if (tget k.tiles t Tile.reset).alloc then [] else
    (List.range 32).flatMap (fun col => (List.range 16).map (fun row => SpillPlace.tile t col row)))

/-- The banks of the Free slots 0 to 10. -/
def Core.bankPlaces (k : Core) : List SpillPlace :=
  (List.range 11).flatMap (fun u => if (k.slot u).mode = .free then (List.range 31).map (fun i => SpillPlace.bank u i) else [])

theorem Core.mem_tilePlaces {k : Core} {p : SpillPlace} : p ∈ k.tilePlaces ↔
    ∃ u col row, p = .tile u col row ∧ u < 16 ∧ col < 32 ∧ row < 16 ∧ (tget k.tiles u Tile.reset).alloc = false := by
  simp only [Core.tilePlaces, List.mem_flatMap, List.mem_range]
  constructor
  · rintro ⟨u, hu, h⟩
    split at h
    · cases h
    · next ha =>
      obtain ⟨col, hc, h⟩ := List.mem_flatMap.mp h
      obtain ⟨row, hr, rfl⟩ := List.mem_map.mp h
      exact ⟨u, col, row, rfl, hu, List.mem_range.mp hc, List.mem_range.mp hr, by simpa using ha⟩
  · rintro ⟨u, col, row, rfl, hu, hc, hr, ha⟩
    refine ⟨u, hu, ?_⟩
    rw [if_neg (by simp [ha])]
    exact List.mem_flatMap.mpr ⟨col, List.mem_range.mpr hc, List.mem_map.mpr ⟨row, List.mem_range.mpr hr, rfl⟩⟩

theorem Core.mem_bankPlaces {k : Core} {p : SpillPlace} : p ∈ k.bankPlaces ↔ ∃ u i, p = .bank u i ∧ u ≤ 10 ∧ i < 31 ∧ (k.slot u).mode = .free := by
  simp only [Core.bankPlaces, List.mem_flatMap, List.mem_range]
  constructor
  · rintro ⟨u, hu, h⟩
    split at h
    · next hm =>
      obtain ⟨i, hi, rfl⟩ := List.mem_map.mp h
      exact ⟨u, i, rfl, by omega, List.mem_range.mp hi, hm⟩
    · cases h
  · rintro ⟨u, i, rfl, hu, hi, hm⟩
    refine ⟨u, by omega, ?_⟩
    rw [if_pos hm]
    exact List.mem_map.mpr ⟨i, List.mem_range.mpr hi, rfl⟩

/-- A free place found in the order of R46: a tile's column, or a Free slot's bank where no column is left, or neither. -/
theorem Core.freePlace_cases (k : Core) : (k.freePlace ∈ k.tilePlaces ∧ k.freePlace ∉ k.spilled) ∨
    (k.freePlace ∈ k.bankPlaces ∧ k.freePlace ∉ k.spilled ∧ ∀ p ∈ k.tilePlaces, p ∈ k.spilled) ∨
    (k.freePlace = .memory ∧ (∀ p ∈ k.tilePlaces, p ∈ k.spilled) ∧ ∀ p ∈ k.bankPlaces, p ∈ k.spilled) := by
  have hplace : k.freePlace = (((k.tilePlaces).find? (fun p => !k.spilled.contains p)).or
      (k.bankPlaces.find? (fun p => !k.spilled.contains p))).getD .memory := by
    rw [← List.find?_append]
    rfl
  have unused {l : List SpillPlace} {p : SpillPlace} (h : l.find? (fun p => !k.spilled.contains p) = some p) : p ∉ k.spilled := by
    simpa using List.find?_some h
  have used {l : List SpillPlace} (h : l.find? (fun p => !k.spilled.contains p) = none) : ∀ p ∈ l, p ∈ k.spilled := by
    intro p hp
    simpa using List.find?_eq_none.mp h p hp
  cases ht : k.tilePlaces.find? (fun p => !k.spilled.contains p) with
  | some p =>
    have hp : k.freePlace = p := by rw [hplace, ht]; rfl
    rw [hp]
    exact .inl ⟨List.mem_of_find?_eq_some ht, unused ht⟩
  | none =>
    cases hb : k.bankPlaces.find? (fun p => !k.spilled.contains p) with
    | some p =>
      have hp : k.freePlace = p := by rw [hplace, ht, hb]; rfl
      rw [hp]
      exact .inr (.inl ⟨List.mem_of_find?_eq_some hb, unused hb, used ht⟩)
    | none => exact .inr (.inr ⟨by rw [hplace, ht, hb]; rfl, used ht, used hb⟩)

/-- What R46 asks of a new place in core k. -/
def freeFor (k : Core) (place : SpillPlace) : Prop :=
  match place with
  | .tile u col row => u < 16 ∧ col < 32 ∧ row < 16 ∧ (tget k.tiles u Tile.reset).alloc = false ∧ place ∉ k.spilled
  | .bank u x => u ≤ 10 ∧ x < 31 ∧ (k.slot u).mode = .free ∧ place ∉ k.spilled ∧
      (∀ v w y, v < 16 → w < 32 → y < 16 → (tget k.tiles v Tile.reset).alloc = false → SpillPlace.tile v w y ∈ k.spilled)
  | .memory => (∀ v w y, v < 16 → w < 32 → y < 16 → (tget k.tiles v Tile.reset).alloc = false → SpillPlace.tile v w y ∈ k.spilled) ∧
      (∀ v x, v ≤ 10 → x < 31 → (k.slot v).mode = .free → SpillPlace.bank v x ∈ k.spilled)

theorem Core.freePlace_freeFor (k : Core) : freeFor k k.freePlace := by
  have tiles (h : ∀ p ∈ k.tilePlaces, p ∈ k.spilled) (v w y : Nat) (hv : v < 16) (hw : w < 32) (hy : y < 16)
      (ha : (tget k.tiles v Tile.reset).alloc = false) : SpillPlace.tile v w y ∈ k.spilled :=
    h _ (Core.mem_tilePlaces.mpr ⟨v, w, y, rfl, hv, hw, hy, ha⟩)
  obtain ⟨hm, hu⟩ | ⟨hm, hu, ht⟩ | ⟨hm, ht, hb⟩ := k.freePlace_cases
  · obtain ⟨u, col, row, hp, h1, h2, h3, h4⟩ := Core.mem_tilePlaces.mp hm
    rw [hp] at hu ⊢
    exact ⟨h1, h2, h3, h4, hu⟩
  · obtain ⟨u, i, hp, h1, h2, h3⟩ := Core.mem_bankPlaces.mp hm
    rw [hp] at hu ⊢
    exact ⟨h1, h2, h3, hu, tiles ht⟩
  · rw [hm]
    exact ⟨tiles ht, fun v x hv hx hf => hb _ (Core.mem_bankPlaces.mpr ⟨v, x, rfl, hv, hx, hf⟩)⟩

theorem freeFor_cleared {s : State} {p : SpillPlace} (h : freeFor s.cleared.mine p) : freeFor s.mine p := by
  have hs := s.cleared_spilled
  have hm := s.cleared_mode
  have ht : s.cleared.mine.tiles = s.mine.tiles := by rw [State.cleared_mine]; rfl
  cases p with
  | tile u col row => simpa only [freeFor, hs, ht] using h
  | bank u i => simpa only [freeFor, hs, hm, ht] using h
  | memory => simpa only [freeFor, hs, hm, ht] using h

/-! ## SPILL outside a call -/

/-- The place that SPILL takes for number n of the slot at hand (R46). -/
def State.spillPlace (s : State) (n : Nat) : SpillPlace :=
  match s.me.spill.find? (fun e => e.1 == n) with | some e => e.2.place | none => s.mine.freePlace

/-- The slot at hand with v under n at a place. -/
def Slot.recorded (x : Slot) (n : Nat) (v : Word) (place : SpillPlace) : Slot :=
  { x with spill := tset x.spill n { val := v, place := place, dom := x.dom } }

/-- The machine after SPILL: the record, and a word of core memory where no other place is left (R46). -/
def State.spillTo (s : State) (n : Nat) (v : Word) (place : SpillPlace) : State :=
  if place = .memory then (s.setMe (s.me.recorded n v place)).ownWord s.cur.core s.me.dom (s.spillOff s.cur.core s.cur.slot n) v
  else s.setMe (s.me.recorded n v place)

theorem State.setMe_spillOff (s : State) (y : Slot) (n : Nat) : (s.setMe y).spillOff s.cur.core s.cur.slot n = s.spillOff s.cur.core s.cur.slot n := by
  simp only [State.spillOff, State.core_setMe, if_true]
  rfl

theorem State.setMe_foreign (s : State) (y : Slot) (dom : BitVec 6) (off n : Nat) :
    (s.setMe y).foreign s.cur.core dom off n = s.foreign s.cur.core dom off n := by
  simp only [State.foreign, State.core_setMe, if_true]
  rfl

theorem State.setMe_fieldGuard (s : State) (y : Slot) (off n : Nat) : (s.setMe y).fieldGuard s.cur.core off n = s.fieldGuard s.cur.core off n := by
  simp only [State.fieldGuard, State.core_setMe, if_true]
  rfl

theorem State.spillTo_cur (s : State) (n : Nat) (v : Word) (place : SpillPlace) : (s.spillTo n v place).cur = s.cur := by
  unfold State.spillTo
  split
  · exact State.ownWord_cur _ _ _ _ _
  · rfl

theorem State.spillTo_me (s : State) (n : Nat) (v : Word) (place : SpillPlace) : (s.spillTo n v place).me = s.me.recorded n v place := by
  unfold State.spillTo
  split
  · rw [State.ownWord_me, State.me_setMe]
  · rw [State.me_setMe]

theorem State.spillTo_read (s : State) (n : Nat) (v : Word) (place : SpillPlace) {k : Nat}
    (h : place ≠ .memory ∨ k < coreKey s.cur.core (s.spillOff s.cur.core s.cur.slot n) ∨ coreKey s.cur.core (s.spillOff s.cur.core s.cur.slot n) + 8 ≤ k) :
    Memory.read (s.spillTo n v place).mem k = Memory.read s.mem k := by
  unfold State.spillTo
  split
  · next hp => exact State.read_ownWord _ _ _ _ _ (h.resolve_left (fun hne => hne hp))
  · rfl

theorem State.spillTo_dropped {s : State} {n : Nat} (v : Word) {place : SpillPlace}
    (h : s.foreign s.cur.core s.me.dom (s.spillOff s.cur.core s.cur.slot n) 8 = true ∨ s.fieldGuard s.cur.core (s.spillOff s.cur.core s.cur.slot n) 8 = true) :
    (s.spillTo n v place).mem = s.mem := by
  unfold State.spillTo
  split
  · rw [State.ownWord_dropped v (by rwa [State.setMe_foreign, State.setMe_fieldGuard])]
    rfl
  · rfl

theorem State.spillTo_word {s : State} {n : Nat} (v : Word) (hinv : memInv s)
    (hf : s.foreign s.cur.core s.me.dom (s.spillOff s.cur.core s.cur.slot n) 8 = false)
    (hg : s.fieldGuard s.cur.core (s.spillOff s.cur.core s.cur.slot n) 8 = false) :
    (s.spillTo n v .memory).coreWord s.cur.core (s.spillOff s.cur.core s.cur.slot n) = v := by
  unfold State.spillTo
  rw [if_pos rfl, State.ownWord_written v ((s.setMe_foreign _ _ _ _).trans hf) ((s.setMe_fieldGuard _ _ _).trans hg)]
  exact State.coreWord_setCoreWord _ _ _ hinv

theorem execSpill_outside {s : State} {n : BitVec 8} {b : Reg} (h : mayIssue { rs := [b], who := .any } s = true) (hc : s.me.calls = []) :
    exec (.spill n b) s =
      .next ((s.cleared.spillTo n.toNat (s.me.rd b) (s.cleared.spillPlace n.toNat)).retire { rs := [b], who := .any } s.nextPc) := by
  have hcalls : s.cleared.me.calls = [] := (congrArg (·.calls) s.cleared_me).trans hc
  have hrd : s.cleared.me.rd b = s.me.rd b := by rw [State.cleared_rd]
  change execSpill n b s = _
  unfold execSpill
  refine issue_done h ?_
  simp only [hrd]
  split
  · next hk => exact absurd (hcalls.symm.trans hk) (by simp)
  rw [State.spillTo, ← State.setMe_spillOff s.cleared (s.cleared.me.recorded n.toNat (s.me.rd b) (s.cleared.spillPlace n.toNat))]
  rfl


theorem State.cleared_spillOff (s : State) (n : Nat) : s.cleared.spillOff s.cur.core s.cur.slot n = s.spillOff s.cur.core s.cur.slot n :=
  s.setMe_spillOff _ n

theorem State.cleared_foreign (s : State) (dom : BitVec 6) (off n : Nat) : s.cleared.foreign s.cur.core dom off n = s.foreign s.cur.core dom off n :=
  s.setMe_foreign _ dom off n

theorem State.cleared_fieldGuard (s : State) (off n : Nat) : s.cleared.fieldGuard s.cur.core off n = s.fieldGuard s.cur.core off n :=
  s.setMe_fieldGuard _ off n

/-- A recorded number keeps its place (R46). -/
theorem State.spillPlace_kept {s : State} {n : Nat} {q : Nat × SpillEntry} (h : s.me.spill.find? (fun e => e.1 == n) = some q) :
    s.spillPlace n = q.2.place := by
  simp only [State.spillPlace, h]

theorem State.spillPlace_new {s : State} {n : Nat} (h : s.me.spill.find? (fun e => e.1 == n) = none) : s.spillPlace n = s.mine.freePlace := by
  simp only [State.spillPlace, h]

theorem Slot.recalled_recorded (x : Slot) (n m : Nat) (v : Word) (p : SpillPlace) :
    (x.recorded n v p).recalled m = if m = n then v else x.recalled m := by
  unfold Slot.recalled Slot.recorded
  simp only [find_tset]
  by_cases h : m = n
  · simp only [h, if_true]
  · simp only [h, if_false]

theorem State.filled_me {s t : State} (hc : t.cur = s.cur) (h : t.me.calls = []) (n : Nat) :
    t.filled s.cur.core s.cur.slot n = t.me.recalled n := by
  rw [← hc]
  exact State.filled_outside h n

/-- SPILL of a slot that is in no call (R45, R46). -/
theorem spill_outside {s : State} {n : BitVec 8} {b : Reg} (h : mayIssue { rs := [b], who := .any } s = true) (hc : s.me.calls = [])
    (hinv : memInv s) :
    ∃ t e, exec (.spill n b) s = .next t ∧ t.me.spill.find? (fun q => q.1 == n.toNat) = some (n.toNat, e) ∧ e.val = s.me.rd b ∧
      (∀ q, s.me.spill.find? (fun q => q.1 == n.toNat) = some q → e.place = q.2.place) ∧
      (s.me.spill.find? (fun q => q.1 == n.toNat) = none → freeFor s.mine e.place) ∧
      (∀ m, m ≠ n.toNat → t.filled s.cur.core s.cur.slot m = s.filled s.cur.core s.cur.slot m) ∧
      t.filled s.cur.core s.cur.slot n.toNat = s.me.rd b ∧ regsKeep s t ∧ leftAs s t s.nextPc ∧
      (∀ k, (e.place ≠ .memory ∨ k < coreKey s.cur.core (s.spillOff s.cur.core s.cur.slot n.toNat) ∨
          coreKey s.cur.core (s.spillOff s.cur.core s.cur.slot n.toNat) + 8 ≤ k) → Memory.read t.mem k = Memory.read s.mem k) ∧
      (e.place = .memory → s.foreign s.cur.core s.me.dom (s.spillOff s.cur.core s.cur.slot n.toNat) 8 = false →
        s.fieldGuard s.cur.core (s.spillOff s.cur.core s.cur.slot n.toNat) 8 = false →
        t.coreWord s.cur.core (s.spillOff s.cur.core s.cur.slot n.toNat) = s.me.rd b) ∧
      (e.place = .memory → s.foreign s.cur.core s.me.dom (s.spillOff s.cur.core s.cur.slot n.toNat) 8 = true ∨
        s.fieldGuard s.cur.core (s.spillOff s.cur.core s.cur.slot n.toNat) 8 = true → t.mem = s.mem) := by
  have hx := execSpill_outside (n := n) h hc
  have hspill : s.cleared.me.spill = s.me.spill := congrArg (·.spill) s.cleared_me
  have hdom : s.cleared.me.dom = s.me.dom := congrArg (·.dom) s.cleared_me
  have hoff := s.cleared_spillOff n.toNat
  have hkept (q : Nat × SpillEntry) (hq : s.me.spill.find? (fun q => q.1 == n.toNat) = some q) : s.cleared.spillPlace n.toNat = q.2.place :=
    State.spillPlace_kept (by rw [hspill]; exact hq)
  have hnew (hq : s.me.spill.find? (fun q => q.1 == n.toNat) = none) : freeFor s.mine (s.cleared.spillPlace n.toNat) := by
    rw [State.spillPlace_new (by rw [hspill]; exact hq)]
    exact freeFor_cleared (Core.freePlace_freeFor _)
  generalize s.cleared.spillPlace n.toNat = p at hx hkept hnew
  have hcur := s.cleared.spillTo_cur n.toNat (s.me.rd b) p
  have hme := s.cleared.spillTo_me n.toNat (s.me.rd b) p
  rw [State.cleared_me] at hme
  have hspilled : ((s.cleared.spillTo n.toNat (s.me.rd b) p).retire { rs := [b], who := .any } s.nextPc).me.spill =
      (({ s.me with park := none } : Slot).recorded n.toNat (s.me.rd b) p).spill := by
    rw [State.retire_me, Slot.retired_spill, hme]
  have hcalls : ((s.cleared.spillTo n.toNat (s.me.rd b) p).retire { rs := [b], who := .any } s.nextPc).me.calls = [] := by
    rw [State.retire_me, Slot.retired_calls, hme]
    exact hc
  have hfilled (m : Nat) : ((s.cleared.spillTo n.toNat (s.me.rd b) p).retire { rs := [b], who := .any } s.nextPc).filled s.cur.core s.cur.slot m =
      if m = n.toNat then s.me.rd b else s.filled s.cur.core s.cur.slot m := by
    rw [State.filled_me (s := s) (t := (s.cleared.spillTo n.toNat (s.me.rd b) p).retire _ _) hcur hcalls, State.filled_outside hc]
    have := Slot.recalled_recorded { s.me with park := none } n.toNat m (s.me.rd b) p
    unfold Slot.recalled at this ⊢
    rw [hspilled, this]
    rfl
  refine ⟨_, { val := s.me.rd b, place := p, dom := s.me.dom }, hx, ?_, rfl, hkept, hnew, fun m hm => (hfilled m).trans (if_neg hm),
    (hfilled _).trans (if_pos rfl), regsKeep_retire _ _ (by rw [hme]; rfl) (by rw [hme]; rfl),
    leftAs_retire _ rfl hcur (by rw [hme]; rfl) (by rw [hme]; rfl) (by rw [hme]; rfl) (by rw [hme]; rfl), fun k hk => ?_, ?_, ?_⟩
  · rw [hspilled]
    exact (find_tset _ _ _ _).trans (if_pos rfl)
  · rw [← hoff] at hk
    exact s.cleared.spillTo_read n.toNat (s.me.rd b) p hk
  · intro hp hf hg
    subst hp
    rw [← hoff] at hf hg ⊢
    exact State.spillTo_word (s := s.cleared) (s.me.rd b) hinv (by rw [hdom]; exact (s.cleared_foreign _ _ _).trans hf) ((s.cleared_fieldGuard _ _).trans hg)
  · intro _ hd
    rw [← hoff] at hd
    refine State.spillTo_dropped (s := s.cleared) (s.me.rd b) ?_
    rw [hdom]
    exact hd.imp (s.cleared_foreign _ _ _).trans (s.cleared_fieldGuard _ _).trans

/-! ## SPILL inside a call, and FILL -/

theorem State.retire_core_ne (s : State) (n : Need) (pc : Word) {d : Nat} (h : d ≠ s.cur.core) : (s.retire n pc).core d = s.core d := by
  rw [State.retire_setMe, State.core_setMe, if_neg h]

/-- SPILL of a slot in a call writes the frame's block (R265). -/
theorem execSpill_inside {s : State} {n : BitVec 8} {b : Reg} {k : Call} {r : List Call} (h : mayIssue { rs := [b], who := .any } s = true)
    (hc : s.me.calls = k :: r) :
    exec (.spill n b) s = if 32 ≤ n.toNat then .next (s.issueTrap 0x01 0 3) else
      .next ((s.cleared.setCoreWord s.cur.core (frameSpill (frameOff s.cur.slot r.length) n.toNat) (s.me.rd b)).retire { rs := [b], who := .any } s.nextPc) := by
  have hcalls : s.cleared.me.calls = k :: r := (congrArg (·.calls) s.cleared_me).trans hc
  have hrd : s.cleared.me.rd b = s.me.rd b := by rw [State.cleared_rd]
  change execSpill n b s = _
  unfold execSpill
  split
  · refine issue_traps h (mayIssue_branches h rfl) ?_
    simp only [hcalls]
    rfl
  · refine issue_done h ?_
    simp only [hcalls, hrd]
    rfl

theorem spill_inside {s : State} {n : BitVec 8} {b : Reg} {k : Call} {r : List Call} (h : mayIssue { rs := [b], who := .any } s = true)
    (hc : s.me.calls = k :: r) (hinv : memInv s) (hn : n.toNat < 32) :
    ∃ t, exec (.spill n b) s = .next t ∧ t.filled s.cur.core s.cur.slot n.toNat = s.me.rd b ∧ t.me.spill = s.me.spill ∧
      t.coreWord s.cur.core (frameSpill (frameOff s.cur.slot r.length) n.toNat) = s.me.rd b ∧
      (∀ j, (j < coreKey s.cur.core (frameSpill (frameOff s.cur.slot r.length) n.toNat) ∨
          coreKey s.cur.core (frameSpill (frameOff s.cur.slot r.length) n.toNat) + 8 ≤ j) → Memory.read t.mem j = Memory.read s.mem j) ∧
      regsKeep s t ∧ leftAs s t s.nextPc ∧ (∀ d, d ≠ s.cur.core → t.core d = s.core d) := by
  have hx := (execSpill_inside (n := n) h hc).trans (if_neg (Nat.not_le.mpr hn))
  have hme : (s.cleared.setCoreWord s.cur.core (frameSpill (frameOff s.cur.slot r.length) n.toNat) (s.me.rd b)).me = { s.me with park := none } :=
    s.cleared_me
  have hword := State.coreWord_setCoreWord (s := s.cleared) s.cur.core (frameSpill (frameOff s.cur.slot r.length) n.toNat) (s.me.rd b) hinv
  refine ⟨_, hx, ?_, ?_, hword, fun j hj => State.read_setCoreWord s.cleared _ _ _ hj,
    regsKeep_retire _ _ (by rw [hme]) (by rw [hme]), leftAs_retire _ rfl rfl (by rw [hme]) (by rw [hme]) (by rw [hme]) (by rw [hme]), fun d hd => ?_⟩
  · refine (State.filled_inside (k := k) (r := r) ?_ _).trans hword
    refine (congrArg (·.calls) (State.retire_me _ _ _)).trans ?_
    rw [Slot.retired_calls, hme]
    exact hc
  · rw [State.retire_me, Slot.retired_spill, hme]
  · refine (State.retire_core_ne _ _ _ ?_).trans ?_
    · exact hd
    · rw [State.core_setCoreWord, State.cleared_core, if_neg hd]

/-- The slot at hand once FILL has sent its value (R45, R139). -/
def Slot.sent (x : Slot) (d : Reg) (v : Word) : Slot :=
  if d = 0 then { x with park := none }
  else { x with park := none, results := x.results ++ [{ reg := d, val := v, depth := x.branches.length, acq := false }] }

theorem Slot.sent_calm (x : Slot) (d : Reg) (v : Word) : x.Calm (x.sent d v) := by
  unfold Slot.sent
  split
  · exact ⟨rfl, rfl, rfl, rfl, rfl, rfl⟩
  · exact ⟨rfl, rfl, rfl, rfl, rfl, rfl⟩

/-- An instruction that sends a value to its destination (R36, R139). -/
theorem issue_sends {n : Need} {f : State → Act} {s : State} {d : Reg} {v : Word} (h : mayIssue n s = true) (hv : n.var = true) (hw : n.ws = [d])
    (hf : f s.cleared = .done (s.setMe (s.me.sent d v))) : ∃ t, issue n f s = .next t ∧ sentResult s t d v ∧ onlyMe s t := by
  obtain ⟨t, ht, hme, _, hp, hr, ho⟩ := issue_setMe h hf (s.me.sent_calm d v)
  refine ⟨t, ht, ⟨?_, hp d hv hw, hr⟩, ho⟩
  rw [hme, Slot.retired_results, Slot.sent]
  split
  · rfl
  · exact ⟨_, rfl, rfl, rfl⟩

theorem execFill_sends {s : State} {d : Reg} {n : BitVec 8} (h : mayIssue { ws := [d], var := true, late := false, who := .any } s = true)
    (hn : n.toNat < 32 ∨ s.me.calls = []) :
    ∃ t, exec (.fill d n) s = .next t ∧ sentResult s t d (s.filled s.cur.core s.cur.slot n.toNat) ∧ onlyMe s t := by
  have hcalls : s.cleared.me.calls = s.me.calls := congrArg (·.calls) s.cleared_me
  have ok : ¬(32 ≤ n.toNat ∧ s.cleared.me.calls ≠ []) := by
    rw [hcalls]
    rintro ⟨h32, hne⟩
    rcases hn with hn | hn
    · omega
    · exact hne hn
  have hfill := s.cleared_filled n.toNat
  change ∃ t, execFill d n s = .next t ∧ _
  unfold execFill
  refine issue_sends h rfl rfl ?_
  simp only [if_neg ok]
  rw [State.cleared_setMe, State.cleared_cur, hfill, Slot.sent, State.cleared_me]

theorem execFill_illegal {s : State} {d : Reg} {n : BitVec 8} (h : mayIssue { ws := [d], var := true, late := false, who := .any } s = true)
    (hn : 32 ≤ n.toNat) (hc : s.me.calls ≠ []) (hb : s.me.branches = []) : traps (.fill d n) s 0x01 0 3 := by
  have hcalls : s.cleared.me.calls = s.me.calls := congrArg (·.calls) s.cleared_me
  change execFill d n s = _
  unfold execFill
  refine issue_traps h hb ?_
  simp only [hcalls, if_pos (And.intro hn hc)]
  rfl

/-- Settles O29. -/
theorem spillAndFill : Obligations.SpillAndFill := by
  refine ⟨fun s n b h hc hinv => ?_, fun s n b k r h hc hinv => ⟨spill_inside h hc hinv, fun hn => ?_⟩,
    fun s d n h => ⟨execFill_sends h, execFill_illegal h⟩⟩
  · exact spill_outside h hc hinv
  · exact (execSpill_inside h hc).trans (if_pos hn)

end Sys2Proof.Machine
end

section
/-! PROOFS. Helpers and gangs (R28, R140 to R142, R237, R238). -/

namespace Sys2Proof.Machine

open Sys2Proof Sys2Proof.Safety

/-! ## General registers -/

theorem Slot.rd_wr (x : Slot) (d : Reg) (v : Word) : (x.wr d v).rd d = written d v := by
  unfold Slot.rd Slot.wr written
  split
  · rfl
  · simp

theorem Slot.wr_file (x : Slot) (d : Reg) (v : Word) : x.wr d v = { x with g := (x.wr d v).g } := by
  unfold Slot.wr
  split <;> rfl

/-- An instruction of fixed latency that writes one general register and goes on (R106, R113). -/
theorem issue_writes {n : Need} {f : State → Act} {s : State} {d : Reg} {v : Word} (h : mayIssue n s = true) (hn : n.var = false)
    (hf : f s.cleared = .done (s.cleared.onMe (fun x => x.wr d v))) : ∃ t, issue n f s = .next t ∧ wroteReg s t d v := by
  rw [State.cleared_onMe] at hf
  have hme : (s.setMe (({ s.me with park := none } : Slot).wr d v)).me = ({ s.me with park := none } : Slot).wr d v := State.me_setMe _ _
  refine ⟨_, issue_done h hf, ?_, fun r hr => ?_, leftAs_retire _ hn rfl (by rw [hme, Slot.wr_park]) (by rw [hme, Slot.wr_icount])
    (by rw [hme, Slot.wr_pend]) (by rw [hme, Slot.wr_unsync]), onlyMe_retire _ _ (onlyMe_setMe s _), onlyRegs_retire _ hn ⟨_, none, hme.trans (Slot.wr_file _ _ _)⟩⟩
  · rw [State.retire_me, Slot.rd_congr (Slot.retired_g _ _ _ _ _), hme, Slot.rd_wr]
  · rw [State.retire_me, Slot.rd_congr (Slot.retired_g _ _ _ _ _), hme, Slot.rd_wr_ne _ _ _ _ hr]
    rfl

/-! ## HSTAT (R142) -/

/-- A sum of distinct powers of two has exactly their bits. -/
theorem testBit_sum (f : Nat → Bool) (n i : Nat) :
    (((List.range n).map (fun t => ofBool (f t) * 2 ^ t)).sum).testBit i = (decide (i < n) && f i) ∧
    ((List.range n).map (fun t => ofBool (f t) * 2 ^ t)).sum < 2 ^ n := by
  induction n with
  | zero => simp
  | succ n ih =>
    obtain ⟨hbit, hlt⟩ := ih
    have hsum : ((List.range (n + 1)).map (fun t => ofBool (f t) * 2 ^ t)).sum =
        2 ^ n * ofBool (f n) + ((List.range n).map (fun t => ofBool (f t) * 2 ^ t)).sum := by
      rw [List.range_succ, List.map_append, List.sum_append, List.map_cons, List.map_nil, List.sum_cons, List.sum_nil]
      ring
    rw [hsum]
    refine ⟨?_, ?_⟩
    · rw [Nat.testBit_two_pow_mul_add _ hlt, hbit]
      rcases Nat.lt_trichotomy i n with h | h | h
      · simp [h, Nat.lt_succ_of_lt h]
      · subst h
        cases f i <;> simp [ofBool]
      · have h1 : ¬ i < n := by omega
        have h2 : ¬ i < n + 1 := by omega
        have one : ofBool (f n) ≤ 1 := by cases f n <;> decide
        have high : (ofBool (f n)).testBit (i - n) = false := Nat.testBit_lt_two_pow (lt_of_le_of_lt one (Nat.one_lt_two_pow (by omega)))
        simp [h1, h2, high]
    · have hle : 2 ^ n * ofBool (f n) ≤ 2 ^ n := by cases f n <;> simp [ofBool]
      rw [Nat.pow_succ]
      omega

theorem hstatWord_bit (k : Core) {i : Nat} (h : i < 64) : (hstatWord k).getLsbD i = (decide (i < 13) && (k.slot i).mode != .free) := by
  rw [hstatWord, BitVec.getLsbD_ofNat, (testBit_sum (fun t => (k.slot t).mode != .free) 13 i).1]
  simp [h]

theorem hstat_shows {s : State} {d : Reg} (h : mayIssue { ws := [d], who := .threads } s = true) :
    ∃ u v, exec (.hstat d) s = .next u ∧ wroteReg s u d v ∧ ∀ i, i < 64 → v.getLsbD i = (decide (i < 13) && (s.mine.slot i).mode != .free) := by
  have hx : exec (.hstat d) s = issue { ws := [d], who := .threads } (fun s => .done (s.onMe (fun x => x.wr d (hstatWord s.mine)))) s := rfl
  rw [hx]
  obtain ⟨u, hu, hw⟩ := issue_writes (f := fun s => .done (s.onMe (fun x => x.wr d (hstatWord s.mine)))) h rfl rfl
  exact ⟨u, _, hu, hw, fun i hi => by rw [hstatWord_bit _ hi, State.cleared_mode]⟩

/-! ## HJOIN (R141) -/

theorem bit_eq_getLsbD (w : Word) (i : Nat) : bit w i = w.getLsbD i := by
  rw [bit_eq, BitVec.getLsbD, Nat.testBit_eq_decide_div_mod_eq]

theorem State.cleared_hdone (s : State) : s.cleared.mine.hdone = s.mine.hdone := by rw [State.cleared_mine]; rfl

theorem State.cleared_slot (s : State) (t : Nat) : ∃ k, s.cleared.mine.slot t = { s.mine.slot t with park := k } := by
  rw [State.cleared_mine]
  by_cases ht : t = s.cur.slot
  · subst ht
    exact ⟨none, Core.slot_setSlot _ _ _⟩
  · exact ⟨(s.mine.slot t).park, Core.slot_setSlot_ne _ _ _ _ ht⟩

/-- Whether a core's helpers of a mask are joined, helper by helper. -/
theorem Core.joined_iff (k : Core) (m : Word) : k.joined m = true ↔
    ∀ q, 1 ≤ q → q ≤ 10 → m.getLsbD q = true → k.hdone.getLsbD (q - 1) = true ∧ (k.slot (departed q)).acc = [] := by
  simp only [Core.joined, List.all_eq_true, List.mem_range'_1, Bool.or_eq_true, Bool.not_eq_true', Bool.and_eq_true, List.isEmpty_iff, bit_eq_getLsbD]
  constructor
  · intro h q h1 h10 hm
    exact (h q ⟨h1, by omega⟩).resolve_left (by simp [hm])
  · intro h q ⟨h1, h11⟩
    cases hm : m.getLsbD q with
    | false => exact .inl rfl
    | true => exact .inr (h q h1 (by omega) hm)

theorem State.cleared_joined (s : State) (m : Word) : s.cleared.mine.joined m = s.mine.joined m := by
  have hacc (t : Nat) : (s.cleared.mine.slot t).acc = (s.mine.slot t).acc := by
    obtain ⟨k, hk⟩ := s.cleared_slot t
    rw [hk]
  simp only [Core.joined, State.cleared_hdone, hacc]

theorem hjoin_done {s : State} {b : Reg} (h : mayIssue { rs := [b], who := .threads } s = true) (hj : s.mine.joined (s.me.rd b) = true) :
    ∃ u, exec (.hjoin b) s = .next u ∧ leftAs s u s.nextPc ∧ regsKeep s u ∧ onlyMe s u ∧ onlyRegs s u := by
  change ∃ u, execHjoin b s = .next u ∧ _
  unfold execHjoin
  refine issue_plain h rfl ?_
  rw [State.cleared_rd, State.cleared_joined, if_pos hj]

theorem hjoin_waits {s : State} {b : Reg} (h : mayIssue { rs := [b], who := .threads } s = true) (hj : s.mine.joined (s.me.rd b) = false) :
    waits (.hjoin b) s (.hjoin (s.me.rd b)) := by
  change ∃ t, execHjoin b s = .next t ∧ _
  unfold execHjoin
  refine issue_waits h ?_
  rw [State.cleared_rd, State.cleared_joined, if_neg (by simp [hj])]

/-! ## GANG (R237) -/

theorem gangMaskOk_iff (c : Nat) (w : Word) : gangMaskOk c w = true ↔
    w ∈ ([0x03, 0x0C, 0x30, 0xC0, 0x0F, 0xF0, 0xFF] : List Word) ∧ w.getLsbD (c % 8) = true := by
  rw [gangMaskOk, Bool.and_eq_true, List.contains_iff_mem, bit_eq_getLsbD]

/-- A mask of R237 is a byte. -/
theorem gangMask_byte {w : Word} (h : w ∈ ([0x03, 0x0C, 0x30, 0xC0, 0x0F, 0xF0, 0xFF] : List Word)) : (w.setWidth 8).setWidth 64 = w := by
  simp only [List.mem_cons, List.not_mem_nil, or_false] at h
  rcases h with rfl | rfl | rfl | rfl | rfl | rfl | rfl <;> rfl

/-- The core of a member that asks for a gang (R237). -/
def Core.asking (k : Core) (w : Word) : Core := { k with gangReq := w.setWidth 8 }

theorem gang_asks {s : State} {b : Reg} (h : mayIssue { rs := [b], who := .control } s = true) (hg : s.inGang = false)
    (hm : s.me.rd b ∈ ([0x03, 0x0C, 0x30, 0xC0, 0x0F, 0xF0, 0xFF] : List Word)) (hb : (s.me.rd b).getLsbD (s.cur.core % 8) = true) :
    ∃ u, exec (.gang b) s = .next u ∧ u.mine.gangReq.setWidth 64 = s.me.rd b ∧ u.me.park.map (·.kind) = some .gang ∧ u.me.pc = s.me.pc ∧
      regsKeep s u ∧ u.mem = s.mem ∧ onlyMine s u := by
  have hok : gangMaskOk s.cleared.cur.core (s.me.rd b) = true := (gangMaskOk_iff _ _).mpr ⟨hm, hb⟩
  have hme : (s.cleared.onMine (fun k => k.asking (s.me.rd b))).me = { s.me with park := none } :=
    (State.me_onMine (f := fun k => k.asking (s.me.rd b)) rfl).trans s.cleared_me
  change ∃ u, execGang b s = .next u ∧ _
  unfold execGang
  refine ⟨_, issue_stay (t := (s.cleared.onMine (fun k => k.asking (s.me.rd b))).setMe
    (({ s.me with park := none } : Slot).waitFor s.rtime.toNat .gang s.cur.mark)) h ?_, ?_, ?_, ?_, ?_, rfl, onlyMine_setMe _ (onlyMine_cleared ?_)⟩
  · rw [State.cleared_rd, State.cleared_inGang, hg, if_neg (by simp), hok, if_neg (by simp), ← hme]
    rfl
  · rw [State.mine_setMe, Core.setSlot_gangReq, State.mine_onMine]
    exact gangMask_byte hm
  · rw [State.me_setMe]; rfl
  · rw [State.me_setMe]; rfl
  · exact ⟨by rw [State.me_setMe]; rfl, by rw [State.me_setMe]; rfl⟩
  · rw [onlyMine, State.mine_onMine]
    rfl

theorem gang_bad {s : State} {b : Reg} (h : mayIssue { rs := [b], who := .control } s = true) (hg : s.inGang = false)
    (hm : ¬(s.me.rd b ∈ ([0x03, 0x0C, 0x30, 0xC0, 0x0F, 0xF0, 0xFF] : List Word) ∧ (s.me.rd b).getLsbD (s.cur.core % 8) = true)) :
    traps (.gang b) s 0x01 0 3 := by
  have hbad : gangMaskOk s.cleared.cur.core (s.me.rd b) = false := by
    rw [Bool.eq_false_iff]
    exact fun hk => hm ((gangMaskOk_iff _ _).mp hk)
  change execGang b s = _
  unfold execGang
  refine issue_traps h (mayIssue_branches h rfl) ?_
  rw [State.cleared_rd, State.cleared_inGang, hg, if_neg (by simp), hbad, if_pos (by simp)]
  rfl

theorem gang_nested {s : State} {b : Reg} (h : mayIssue { rs := [b], who := .control } s = true) (hg : s.inGang = true) :
    traps (.gang b) s 0x01 0 6 := by
  change execGang b s = _
  unfold execGang
  refine issue_traps h (mayIssue_branches h rfl) ?_
  rw [State.cleared_inGang, hg, if_pos rfl]
  rfl

/-! ## A pass over distinct cores -/

/-- A pass over distinct cores changes each by its own step, and no other, if every step keeps what the steps read besides. -/
theorem foldl_step_core {F : State → Nat → State} {G : Nat → Core → Core} {I : State → Prop} (hI : ∀ s d, I s → I (F s d))
    (hF : ∀ s d e, I s → (F s d).core e = if e = d then G d (s.core d) else s.core e) {l : List Nat} (hl : l.Nodup) {s : State} (hs : I s) (e : Nat) :
    (l.foldl F s).core e = if e ∈ l then G e (s.core e) else s.core e := by
  induction l generalizing s with
  | nil => rfl
  | cons a l ih =>
    obtain ⟨ha, hl⟩ := List.nodup_cons.mp hl
    rw [List.foldl_cons, ih hl (hI s a hs), hF s a e hs]
    by_cases he : e = a
    · subst he
      rw [if_neg ha, if_pos rfl, if_pos List.mem_cons_self]
    · rw [if_neg he]
      simp only [List.mem_cons, he, false_or]

theorem foldl_keeps {α β : Type} {F : State → α → State} {P : State → β} (hF : ∀ s a, P (F s a) = P s) (l : List α) (s : State) :
    P (l.foldl F s) = P s := by
  induction l generalizing s with
  | nil => rfl
  | cons a l ih => rw [List.foldl_cons, ih, hF]

/-! ## GANG_FORM (R237) -/

theorem gangCores_nodup (c : Nat) (m : BitVec 8) : (gangCores c m).Nodup := by
  refine List.Nodup.filterMap (fun i j b hi hj => ?_) List.nodup_range
  simp only [Option.mem_def] at hi hj
  split at hi
  · split at hj
    · cases hi
      have := Option.some.inj hj
      omega
    · cases hj
  · cases hi

/-- The control context of a gang's new member goes on at pc (R237). -/
def Slot.goesOn (x : Slot) (pc : Word) : Slot := { x with pc := pc, icount := x.icount + 1 }

/-- The tables of a core that joins the gang m. -/
def Core.ganged (k : Core) (m : BitVec 8) : Core := { k with gang := m, gangReq := 0, gangDone := none }

/-- A core that joins the gang m (R237). -/
def Core.joins (k : Core) (m : BitVec 8) (pc : Word) (now : Nat) : Core := (k.ganged m).setSlot 0 (((k.slot 0).goesOn pc).unpark now)

def State.joinGang (s : State) (m : BitVec 8) (pc : Word) (d : Nat) : State :=
  (s.onCore d (fun k => k.ganged m)).onSlot d 0 (fun x => (x.goesOn pc).unpark s.rtime.toNat)

/-- The gang that forms at the leader's next address. -/
def State.formGang (s : State) (l : List Nat) (m : BitVec 8) (pc : Word) : State := l.foldl (fun s d => s.joinGang m pc d) s

theorem State.joinGang_core (s : State) (m : BitVec 8) (pc : Word) (d e : Nat) :
    (s.joinGang m pc d).core e = if e = d then (s.core d).joins m pc s.rtime.toNat else s.core e := by
  by_cases he : e = d
  · subst he
    have hs : (s.onCore e (fun k => k.ganged m)).slot e 0 = s.slot e 0 := State.slot_onCore (f := fun k => k.ganged m) rfl 0
    rw [if_pos rfl, State.joinGang, State.onSlot_def, State.setSlot_def, State.core_setCore, hs, State.core_onCore]
    rfl
  · rw [if_neg he, State.joinGang, State.core_onSlot_ne _ _ _ _ _ he, State.core_onCore_ne _ _ _ _ he]

theorem State.formGang_core (s : State) {l : List Nat} (hl : l.Nodup) (m : BitVec 8) (pc : Word) (e : Nat) :
    (s.formGang l m pc).core e = if e ∈ l then (s.core e).joins m pc s.rtime.toNat else s.core e :=
  foldl_step_core (F := fun s d => s.joinGang m pc d) (G := fun _ k => k.joins m pc s.rtime.toNat) (I := fun u => u.rtime = s.rtime)
    (fun _ _ h => h) (fun u d e h => by rw [← h]; exact u.joinGang_core m pc d e) hl rfl e

/-- A gang forms four router cycles after its last GANG (R237). -/
theorem execGangForm_forms {s : State} {c : Nat} (h0 : (s.core c).gangReq ≠ 0)
    (hask : ∀ d ∈ gangCores c (s.core c).gangReq, s.asksGang d (s.core c).gangReq = true)
    (hsince : ∀ d ∈ gangCores c (s.core c).gangReq, ∀ w, (s.slot d 0).park = some w → w.since + 4 ≤ s.rtime.toNat) (h4 : 4 ≤ s.rtime.toNat) :
    exec (.gangForm c) s = .next (s.formGang (gangCores c (s.core c).gangReq) (s.core c).gangReq
      ((s.slot ((gangCores c (s.core c).gangReq).headD c) 0).pc + 4)) := by
  have hall : (gangCores c (s.core c).gangReq).all (fun d => s.asksGang d (s.core c).gangReq) = true := List.all_eq_true.mpr hask
  have hmax : ((gangCores c (s.core c).gangReq).map (fun d => match (s.slot d 0).park with | some w => w.since | none => 0)).foldl max 0 + 4 ≤
      s.rtime.toNat := by
    rcases foldl_max_mem ((gangCores c (s.core c).gangReq).map (fun d => match (s.slot d 0).park with | some w => w.since | none => 0)) 0 with h | h
    · omega
    · obtain ⟨d, hd, he⟩ := List.mem_map.mp h
      rw [← he]
      split
      · next w hw => exact hsince d hd w hw
      · omega
  exact congrArg Host.Outcome.next (if_pos ⟨h0, hall, hmax⟩)

/-- What a new member's thread waits for is over (R237). -/
theorem Slot.goesOn_facts (x : Slot) (pc : Word) (now : Nat) : ((x.goesOn pc).unpark now).pc = pc ∧ ((x.goesOn pc).unpark now).g = x.g ∧
    ((x.goesOn pc).unpark now).park.map (·.kind) ≠ some .gang := by
  generalize hy : x.goesOn pc = y
  have hpc : y.pc = pc := hy ▸ rfl
  have hg : y.g = x.g := hy ▸ rfl
  obtain ⟨p, u, h⟩ := y.unpark_eq now
  refine ⟨by rw [h, ← hpc], by rw [h, ← hg], ?_⟩
  unfold Slot.unpark
  split
  · split
    · unfold Slot.mark
      split
      · simp
      · simp [Slot.waitFor]
    · simp
  · next hp => simp [hp]

theorem State.formGang_mem (s : State) (l : List Nat) (m : BitVec 8) (pc : Word) : (s.formGang l m pc).mem = s.mem :=
  foldl_keeps (F := fun s d => s.joinGang m pc d) (P := State.mem) (fun _ _ => rfl) l s

/-- What GANG_FORM makes of a member (R237). -/
theorem State.formGang_member (s : State) {l : List Nat} (hl : l.Nodup) (m : BitVec 8) (pc : Word) {d : Nat} (hd : d ∈ l) :
    ((s.formGang l m pc).core d).gang = m ∧ ((s.formGang l m pc).core d).gangReq = 0 ∧ ((s.formGang l m pc).slot d 0).pc = pc ∧
      ((s.formGang l m pc).slot d 0).park.map (·.kind) ≠ some .gang ∧ ((s.formGang l m pc).slot d 0).g = (s.slot d 0).g := by
  obtain ⟨hpc, hg, hpark⟩ := (s.slot d 0).goesOn_facts pc s.rtime.toNat
  have hk := s.formGang_core hl m pc d
  rw [if_pos hd] at hk
  have hs : (s.formGang l m pc).slot d 0 = ((s.slot d 0).goesOn pc).unpark s.rtime.toNat := by
    rw [State.slot, hk]
    exact Core.slot_setSlot _ _ _
  rw [hk, hs]
  exact ⟨rfl, rfl, hpc, hpark, hg⟩

theorem gangForm_forms {s : State} {c : Nat} (h0 : (s.core c).gangReq ≠ 0)
    (hask : ∀ d ∈ gangCores c (s.core c).gangReq, s.asksGang d (s.core c).gangReq = true ∧
      ∀ w, (s.slot d 0).park = some w → w.since + 4 ≤ s.rtime.toNat) (h4 : 4 ≤ s.rtime.toNat) :
    ∃ u, exec (.gangForm c) s = .next u ∧ u.mem = s.mem ∧
      ∀ d ∈ gangCores c (s.core c).gangReq, (u.core d).gang = (s.core c).gangReq ∧ (u.core d).gangReq = 0 ∧
        (u.slot d 0).pc = (s.slot ((gangCores c (s.core c).gangReq).headD c) 0).pc + 4 ∧ (u.slot d 0).park.map (·.kind) ≠ some .gang ∧
        (u.slot d 0).g = (s.slot d 0).g := by
  refine ⟨_, execGangForm_forms h0 (fun d hd => (hask d hd).1) (fun d hd => (hask d hd).2) h4, State.formGang_mem _ _ _ _, fun d hd => ?_⟩
  exact State.formGang_member s (gangCores_nodup c _) _ _ hd

/-! ## SPLIT (R51, R238) -/

theorem dissolve_left (s : State) : s.cleared.dissolve.me = { s.me with park := none } := by
  rw [State.dissolve_me, State.cleared_me]

theorem split_dissolves (s : State) (h : mayIssue { who := .threads } s = true) :
    ∃ u, exec .split s = .next u ∧ leftAs s u s.nextPc ∧ regsKeep s u ∧ u.mem = s.mem ∧
      (s.cur.slot = 0 → s.lastOfGang = true → ∀ d ∈ s.gangOf s.cur.core, (u.core d).gang = 0) ∧
      (s.cur.slot ≠ 0 ∨ s.lastOfGang = false → onlyMe s u) := by
  have hx : exec .split s = issue { who := .threads } (fun s => .done (if s.cur.slot = 0 then s.dissolve else s)) s := rfl
  rw [hx]
  by_cases h0 : s.cur.slot = 0 ∧ s.lastOfGang = true
  · obtain ⟨hs, hl⟩ := h0
    have hme := dissolve_left s
    have hlast : s.cleared.lastOfGang = true := by rwa [State.cleared_lastOfGang]
    refine ⟨_, issue_done (t := s.cleared.dissolve) h (by rw [State.cleared_cur, if_pos hs]), leftAs_retire _ rfl (by rw [State.dissolve_cur]; rfl)
      (by rw [hme]) (by rw [hme]) (by rw [hme]) (by rw [hme]), regsKeep_retire _ _ (by rw [hme]) (by rw [hme]), ?_, fun _ _ d hd => ?_, fun hn => ?_⟩
    · rw [State.retire_mem, State.dissolve_mem, State.cleared_mem]
    · have hg : (s.cleared.dissolve.core d).gang = 0 := by
        rw [State.dissolve_core, if_pos ⟨hlast, by rwa [State.cleared_gangOf]⟩]
        rfl
      rw [State.retire_setMe, State.core_setMe]
      split
      · next e => rw [Core.setSlot_gang]; rw [e] at hg; exact hg
      · exact hg
    · exact absurd hn (by simp [hs, hl])
  · have hf : (if s.cleared.cur.slot = 0 then s.cleared.dissolve else s.cleared) = s.cleared := by
      split
      · next e => exact State.dissolve_not_last (by rw [State.cleared_lastOfGang]; simpa using fun hl => h0 ⟨e, hl⟩)
      · rfl
    obtain ⟨u, hu, hl, hr, ho, _⟩ := issue_plain (f := fun s => .done (if s.cur.slot = 0 then s.dissolve else s)) h rfl (congrArg Act.done hf)
    exact ⟨u, hu, hl, hr, by rw [show u = s.setMe u.me from ho]; rfl, fun h1 h2 => absurd ⟨h1, h2⟩ h0, fun _ => ho⟩

/-! ## START (R28, R47, R140) -/

/-- Of the slots only spill maps change, of the cores nothing but slots, and not the machine's position. -/
def spillsOnly (s u : State) : Prop :=
  u.cur = s.cur ∧ u.rtime = s.rtime ∧ (∀ d, ∃ y, u.core d = { s.core d with slots := y }) ∧ ∀ d v, ∃ l, u.slot d v = { s.slot d v with spill := l }

theorem spillsOnly_trans {s u w : State} (h : spillsOnly s u) (h' : spillsOnly u w) : spillsOnly s w := by
  obtain ⟨hc, hr, hk, hs⟩ := h
  obtain ⟨hc', hr', hk', hs'⟩ := h'
  refine ⟨hc'.trans hc, hr'.trans hr, fun d => ?_, fun d v => ?_⟩
  · obtain ⟨y, hy⟩ := hk d
    obtain ⟨z, hz⟩ := hk' d
    exact ⟨z, by rw [hz, hy]⟩
  · obtain ⟨l, hl⟩ := hs d v
    obtain ⟨m, hm⟩ := hs' d v
    exact ⟨m, by rw [hm, hl]⟩

theorem spillsOnly_of_cores {s u : State} (hc : u.cur = s.cur) (hr : u.rtime = s.rtime) (hk : ∀ d, u.core d = s.core d) : spillsOnly s u :=
  ⟨hc, hr, fun d => ⟨_, hk d⟩, fun d v => ⟨_, by rw [State.slot, hk]; rfl⟩⟩

theorem State.ownWord_rtime (s : State) (c : Nat) (dom : BitVec 6) (off : Nat) (v : Word) : (s.ownWord c dom off v).rtime = s.rtime := by
  unfold State.ownWord
  split <;> rfl

theorem spillsOnly_spillBytes (s : State) (c t : Nat) (p : SpillPlace → Bool) : spillsOnly s (s.spillBytes c t p) := by
  refine spillsOnly_of_cores ?_ ?_ (fun d => State.core_spillBytes s c t p d)
  · refine foldl_keeps (P := State.cur) (fun u a => ?_) _ s
    split
    · exact State.ownWord_cur _ _ _ _ _
    · rfl
  · refine foldl_keeps (P := State.rtime) (fun u a => ?_) _ s
    split
    · exact State.ownWord_rtime _ _ _ _ _
    · rfl

theorem spillsOnly_onSlot (s : State) (c t : Nat) {f : Slot → Slot} (h : ∀ x, ∃ l, f x = { x with spill := l }) : spillsOnly s (s.onSlot c t f) := by
  refine ⟨rfl, rfl, fun d => ?_, fun d v => ?_⟩
  · by_cases hd : d = c
    · subst hd
      rw [State.onSlot_def, State.setSlot_def, State.core_setCore]
      exact ⟨_, rfl⟩
    · exact ⟨_, State.core_onSlot_ne _ _ _ _ _ hd⟩
  · by_cases hd : d = c
    · subst hd
      by_cases hv : v = t
      · subst hv
        rw [State.slot_onSlot]
        exact h _
      · exact ⟨_, State.slot_onSlot_ne _ _ _ _ _ hv⟩
    · exact ⟨_, by rw [State.slot, State.core_onSlot_ne _ _ _ _ _ hd]; rfl⟩

/-- Spill values that leave their places change of each slot the spill map alone (R47). -/
theorem spillsOnly_moveSpills (s : State) (c : Nat) (p : SpillPlace → Bool) : spillsOnly s (s.moveSpills c p) := by
  unfold State.moveSpills
  generalize List.range 13 = l
  induction l generalizing s with
  | nil => exact spillsOnly_of_cores rfl rfl (fun _ => rfl)
  | cons t l ih => exact spillsOnly_trans (spillsOnly_trans (spillsOnly_spillBytes ..) (spillsOnly_onSlot _ c t (fun x => ⟨_, rfl⟩))) (ih _)

theorem spillsOnly_curcore (s : State) (p : SpillPlace → Bool) : (s.moveSpills s.cur.core p).cur.core = s.cur.core :=
  congrArg Cur.core (spillsOnly_moveSpills _ _ _).1

/-- The lowest free helper (R28). -/
theorem freeHelper_some {k : Core} {h : Nat} (h1 : 1 ≤ h) (h10 : h ≤ 10) (hf : (k.slot h).mode = .free)
    (hlow : ∀ q, 1 ≤ q → q < h → (k.slot q).mode ≠ .free) : k.freeHelper = some h := by
  rw [Core.freeHelper, List.find?_range'_eq_some]
  exact ⟨by simp [hf], List.mem_range'_1.mpr ⟨h1, by omega⟩, fun q hq hlt => by simpa using hlow q hq hlt⟩

theorem freeHelper_none {k : Core} (h : ∀ q, 1 ≤ q → q ≤ 10 → (k.slot q).mode ≠ .free) : k.freeHelper = none := by
  rw [Core.freeHelper, List.find?_eq_none]
  intro q hq
  rw [List.mem_range'_1] at hq
  simpa using h q hq.1 (by omega)

/-- The starter once it has a helper's number under way to register a. -/
def Slot.numbered (x : Slot) (a : Reg) (n : Nat) : Slot :=
  if a = 0 then x else { x with results := x.results ++ [{ reg := a, val := BitVec.ofNat 64 n, depth := 0, acq := false }] }

theorem Slot.numbered_eq (x : Slot) (a : Reg) (n : Nat) : x.numbered a n = { x with results := (x.numbered a n).results } := by
  unfold Slot.numbered
  split <;> rfl

/-- The machine once helper n is placed, for the starter st (R28, R140). -/
def State.places (s : State) (st : Slot) (n : Nat) (a b : Reg) : State :=
  ((s.onCore s.cur.core (fun k => k.setDone n false)).onSlot s.cur.core n (fun x => x.helper st s.cur.slot (st.rd a) (st.rd b))).onMe (fun x => x.numbered a n)

theorem State.places_mine (s : State) (st : Slot) {n : Nat} (a b : Reg) (h : n ≠ s.cur.slot) : (s.places st n a b).mine =
    ((s.mine.setDone n false).setSlot n ((s.mine.slot n).helper st s.cur.slot (st.rd a) (st.rd b))).setSlot s.cur.slot (s.me.numbered a n) := by
  have hk : (s.onCore s.cur.core (fun k => k.setDone n false)).core s.cur.core = s.mine.setDone n false := State.core_onCore _ _ _
  have hmine : ((s.onCore s.cur.core (fun k => k.setDone n false)).onSlot s.cur.core n
      (fun x => x.helper st s.cur.slot (st.rd a) (st.rd b))).mine =
      (s.mine.setDone n false).setSlot n ((s.mine.slot n).helper st s.cur.slot (st.rd a) (st.rd b)) := by
    change (State.onSlot _ _ _ _).core s.cur.core = _
    rw [State.onSlot_def, State.setSlot_def, State.core_setCore, State.slot, hk]
    rfl
  have hme : ((s.onCore s.cur.core (fun k => k.setDone n false)).onSlot s.cur.core n
      (fun x => x.helper st s.cur.slot (st.rd a) (st.rd b))).me = s.me := by
    change (State.mine _).slot s.cur.slot = _
    rw [hmine, Core.slot_setSlot_ne _ _ _ _ h.symm]
    rfl
  rw [State.places, State.onMe_def, State.mine_setMe, hmine, hme]
  rfl

theorem State.places_me (s : State) (st : Slot) {n : Nat} (a b : Reg) (h : n ≠ s.cur.slot) : (s.places st n a b).me = s.me.numbered a n := by
  change (s.places st n a b).mine.slot s.cur.slot = _
  rw [State.places_mine s st a b h, Core.slot_setSlot]

theorem Core.setDone_off (k : Core) {n q : Nat} (hn : 1 ≤ n) (hn10 : n ≤ 10) (hq : q < 10) :
    (k.setDone n false).hdone.getLsbD q = (k.hdone.getLsbD q && decide (q ≠ n - 1)) := by
  have hset : (k.setDone n false).hdone = k.hdone &&& ~~~((1 : BitVec 10) <<< (n - 1)) := rfl
  rw [hset, BitVec.getLsbD_and, BitVec.getLsbD_not, BitVec.getLsbD_shiftLeft]
  by_cases h : q = n - 1
  · subst h
    simp [hq]
  · by_cases hlt : q < n - 1
    · simp [hq, h, hlt]
    · have hd : q - (n - 1) ≠ 0 := by omega
      simp [hq, h, hlt, hd]

/-- The machine once spill values have left their places, not to be unfolded. -/
@[irreducible] def State.spillsMoved (s : State) (c : Nat) (p : SpillPlace → Bool) : State := s.moveSpills c p

theorem State.moveSpills_eq (s : State) (c : Nat) (p : SpillPlace → Bool) : s.moveSpills c p = s.spillsMoved c p := by
  unfold State.spillsMoved
  rfl

theorem spillsOnly_spillsMoved (s : State) (c : Nat) (p : SpillPlace → Bool) : spillsOnly s (s.spillsMoved c p) := by
  rw [← State.moveSpills_eq]
  exact spillsOnly_moveSpills s c p

theorem State.cleared_freeHelper (s : State) : s.cleared.mine.freeHelper = s.mine.freeHelper := by
  simp only [Core.freeHelper, State.cleared_mode]

theorem State.places_eq {s : State} {c t : Nat} (hc : s.cur.core = c) (ht : s.cur.slot = t) (st : Slot) (n : Nat) (a b : Reg) :
    s.places st n a b = ((s.onCore c (fun k => k.setDone n false)).onSlot c n (fun x => x.helper st t (st.rd a) (st.rd b))).onMe (fun x => x.numbered a n) := by
  subst hc ht
  rfl

/-- START with a free helper (R28, R140). -/
theorem start_places {s : State} {a b : Reg} {h : Nat} (hmay : mayIssue { rs := [a, b], ws := [a], var := true, who := .threads } s = true)
    (hfree : s.mine.freeHelper = some h) :
    ∃ v, spillsOnly s.cleared v ∧ exec (.start a b) s =
      .next ((v.places s.cleared.me h a b).retire { rs := [a, b], ws := [a], var := true, who := .threads } s.nextPc) := by
  have hv := spillsOnly_spillsMoved s.cleared s.cleared.cur.core (fun p => match p with | .bank u _ => u == h | _ => false)
  refine ⟨_, hv, ?_⟩
  change execStart a b s = _
  unfold execStart
  refine issue_done hmay ?_
  simp only [s.cleared_freeHelper, hfree, State.moveSpills_eq]
  rw [State.places_eq (congrArg Cur.core hv.1) rfl]
  rfl

theorem start_waits {s : State} {a b : Reg} (hmay : mayIssue { rs := [a, b], ws := [a], var := true, who := .threads } s = true)
    (hfree : s.mine.freeHelper = none) : waits (.start a b) s .startSlot := by
  change ∃ t, execStart a b s = .next t ∧ _
  unfold execStart
  refine issue_waits hmay ?_
  simp only [s.cleared_freeHelper, hfree]

/-- The slot of a new helper before its argument is written: its starter's group, its own counters, registers 0 (R28, R133). -/
def Slot.launched (x st : Slot) (entry : Word) : Slot :=
  { x.freed with mode := .live, pc := entry, asid := st.asid, dom := st.dom, key := st.key, codebase := st.codebase, codelim := st.codelim }

/-- The stores and atomics of the starter, which come before the helper's own accesses (R140). -/
def Slot.precedes (st : Slot) (t : Nat) : List (Nat × Nat) :=
  (st.acc.filter (fun a => match a.kind with | .load _ | .stget _ => false | _ => true)).map (fun a => (t, a.id))

theorem Slot.helper_eq (x st : Slot) (t : Nat) (entry arg : Word) :
    x.helper st t entry arg = { (x.launched st entry).wr 1 arg with after := st.precedes t } := rfl

theorem Slot.mem_precedes {st : Slot} {t : Nat} {a : Access} (ha : a ∈ st.acc) (hl : ∀ sg, a.kind ≠ .load sg) (hs : ∀ tag, a.kind ≠ .stget tag) :
    (t, a.id) ∈ st.precedes t := by
  refine List.mem_map.mpr ⟨a, List.mem_filter.mpr ⟨ha, ?_⟩, rfl⟩
  split
  · next sg h => exact absurd h (hl sg)
  · next tag h => exact absurd h (hs tag)
  · rfl

theorem Slot.launched_rd (x st : Slot) (entry : Word) (r : Reg) : (x.launched st entry).rd r = 0 := x.freed_rd r

/-- What the helper's slot reads: its argument in register 1 and 0 in every other (R140). -/
theorem Slot.helper_rd (x st : Slot) (t : Nat) (entry arg : Word) (r : Reg) : (x.helper st t entry arg).rd r = if r = 1 then arg else 0 := by
  have hrd : (x.helper st t entry arg).rd r = ((x.launched st entry).wr 1 arg).rd r := rfl
  rw [hrd]
  split
  · next h => rw [h, Slot.rd_wr_same _ _ _ (by decide)]
  · next h => rw [Slot.rd_wr_ne _ _ _ _ h, Slot.launched_rd]

/-- What stands in the issuing core after spill values have moved. -/
theorem spillsOnly_mine {s v : State} (h : spillsOnly s.cleared v) : v.cur = s.cur ∧ (∃ l, v.me = { s.me with park := none, spill := l }) ∧
    (∀ t, ∃ k l, v.mine.slot t = { s.mine.slot t with park := k, spill := l }) ∧ v.mine.hdone = s.mine.hdone := by
  obtain ⟨hcur, _, hcores, hslots⟩ := h
  have hc : v.cur = s.cur := hcur
  have hmine : v.mine = v.core s.cur.core := by rw [State.mine, hc]
  have hslot (t : Nat) : v.mine.slot t = v.slot s.cur.core t := by rw [hmine]; rfl
  refine ⟨hc, ?_, fun t => ?_, ?_⟩
  · obtain ⟨l, hl⟩ := hslots s.cur.core s.cur.slot
    have hcl : s.cleared.slot s.cur.core s.cur.slot = { s.me with park := none } := s.cleared_me
    rw [hcl] at hl
    exact ⟨l, by rw [State.me, hc]; exact hl⟩
  · obtain ⟨l, hl⟩ := hslots s.cur.core t
    obtain ⟨k, hk⟩ := s.cleared_slot t
    have hcl : s.cleared.slot s.cur.core t = { s.mine.slot t with park := k } := hk
    rw [hcl] at hl
    exact ⟨k, l, (hslot t).trans hl⟩
  · obtain ⟨y, hy⟩ := hcores s.cur.core
    rw [hmine, hy]
    exact s.cleared_hdone

theorem start_starts {s : State} {a b : Reg} {h : Nat} (hmay : mayIssue { rs := [a, b], ws := [a], var := true, who := .threads } s = true)
    (hme : s.me.mode ≠ .free) (h1 : 1 ≤ h) (h10 : h ≤ 10) (hf : (s.mine.slot h).mode = .free) (hlow : ∀ q, 1 ≤ q → q < h → (s.mine.slot q).mode ≠ .free) :
    ∃ u, exec (.start a b) s = .next u ∧ (u.mine.slot h).mode = .live ∧ (u.mine.slot h).pc = s.me.rd a ∧ (u.mine.slot h).rd 1 = s.me.rd b ∧
      (∀ r, r ≠ 1 → (u.mine.slot h).rd r = 0) ∧ (u.mine.slot h).dom = s.me.dom ∧ (u.mine.slot h).asid = s.me.asid ∧ (u.mine.slot h).key = s.me.key ∧
      (u.mine.slot h).codebase = s.me.codebase ∧ (u.mine.slot h).codelim = s.me.codelim ∧ (u.mine.slot h).issued = (s.mine.slot h).issued ∧
      (u.mine.slot h).counter = (s.mine.slot h).counter ∧
      (∀ x ∈ s.me.acc, (∀ sg, x.kind ≠ .load sg) → (∀ tag, x.kind ≠ .stget tag) → (s.cur.slot, x.id) ∈ (u.mine.slot h).after) ∧
      u.mine.hdone.getLsbD (h - 1) = false ∧
      (∀ q, q < 10 → q ≠ h - 1 → u.mine.hdone.getLsbD q = s.mine.hdone.getLsbD q) ∧ sentResult s u a (BitVec.ofNat 64 h) := by
  have hne : h ≠ s.cur.slot := fun e => hme (by rw [e] at hf; exact hf)
  obtain ⟨v, hv, hx⟩ := start_places hmay (freeHelper_some h1 h10 hf hlow)
  obtain ⟨hcur, ⟨l, hvme⟩, hslots, hdone⟩ := spillsOnly_mine hv
  obtain ⟨k, m, hslot⟩ := hslots h
  have hnev : h ≠ v.cur.slot := by rw [hcur]; exact hne
  have hplaced := v.places_mine s.cleared.me a b hnev
  have hplacedMe := v.places_me s.cleared.me a b hnev
  have hpc : (v.places s.cleared.me h a b).cur = v.cur := rfl
  have hrd := s.cleared_rd
  rw [hslot, hvme, hcur] at hplaced
  rw [hvme] at hplacedMe
  rw [hcur] at hpc
  generalize v.places s.cleared.me h a b = w at hx hplaced hplacedMe hpc
  have humine := State.mine_setMe w (w.retire { rs := [a, b], ws := [a], var := true, who := .threads } s.nextPc).me
  rw [← State.retire_setMe, hpc, hplaced] at humine
  have huslot : (w.retire { rs := [a, b], ws := [a], var := true, who := .threads } s.nextPc).mine.slot h =
      ({ s.mine.slot h with park := k, spill := m } : Slot).helper s.cleared.me s.cur.slot (s.me.rd a) (s.me.rd b) := by
    rw [humine, Core.slot_setSlot_ne _ _ _ _ hne, Core.slot_setSlot_ne _ _ _ _ hne, Core.slot_setSlot, hrd]
  have hudone : (w.retire { rs := [a, b], ws := [a], var := true, who := .threads } s.nextPc).mine.hdone = (s.mine.setDone h false).hdone := by
    rw [humine, Core.setSlot_hdone, Core.setSlot_hdone, Core.setSlot_hdone]
    exact congrArg (· &&& ~~~((1 : BitVec 10) <<< (h - 1))) hdone
  have hacc : s.cleared.me.acc = s.me.acc := congrArg (·.acc) s.cleared_me
  have hwme := hplacedMe.trans (Slot.numbered_eq _ a h)
  refine ⟨_, hx, ?_⟩
  simp only [huslot, hudone]
  refine ⟨rfl, rfl, (Slot.helper_rd _ _ _ _ _ 1).trans (if_pos rfl), fun r hr => (Slot.helper_rd _ _ _ _ _ r).trans (if_neg hr),
    congrArg (·.dom) s.cleared_me, congrArg (·.asid) s.cleared_me, congrArg (·.key) s.cleared_me, congrArg (·.codebase) s.cleared_me,
    congrArg (·.codelim) s.cleared_me, rfl, rfl, fun x hxa hl hs => Slot.mem_precedes (hacc ▸ hxa) hl hs, ?_, fun q hq hqh => ?_, ⟨?_, ?_, ?_⟩⟩
  · rw [Core.setDone_off _ h1 h10 (by omega)]
    simp
  · rw [Core.setDone_off _ h1 h10 hq]
    simp [hqh]
  · rw [State.retire_me, Slot.retired_results, hplacedMe, Slot.numbered]
    split
    · rfl
    · exact ⟨_, rfl, rfl, rfl⟩
  · exact leftPending_retire _ rfl rfl hpc (by rw [hwme]) (by rw [hwme]) (by rw [hwme]) (by rw [hwme])
  · exact regsKeep_retire _ _ (by rw [hwme]) (by rw [hwme])

/-- Settles O53. -/
theorem helpersAndGangs : Obligations.HelpersAndGangs := by
  refine ⟨fun s a b h hmay hme h1 h10 hf hlow => start_starts hmay hme h1 h10 hf hlow, fun s a b hmay hn => start_waits hmay (freeHelper_none hn),
    fun s b h => ⟨fun hj => hjoin_done h ((Core.joined_iff _ _).mpr hj), fun ⟨q, h1, h10, hm, hn⟩ => hjoin_waits h ?_⟩, fun s d h => hstat_shows h,
    fun s b h => ⟨fun hg hm hb => gang_asks h hg hm hb, fun hg hm => gang_bad h hg hm, fun hg => gang_nested h hg⟩,
    fun s c h0 hask h4 => gangForm_forms h0 hask h4, split_dissolves⟩
  rw [Bool.eq_false_iff]
  intro hj
  obtain ⟨hd, ha⟩ := (Core.joined_iff _ _).mp hj q h1 h10 hm
  rcases hn with hn | hn
  · exact absurd hd (by simp [hn])
  · exact hn ha

end Sys2Proof.Machine
end

section
/-! PROOFS. Engine commands start and complete (R41, R42, R167, R174, R363). -/

namespace Sys2Proof.Machine

open Sys2Proof Sys2Proof.Safety

/-! ## The start of a command (R42) -/

theorem State.beginCmd_core (s : State) (c e : Nat) (m : Cmd) : (s.beginCmd c e m).core c =
    { s.core c with queue := tset (s.core c).queue e ((tget (s.core c).queue e []).drop 1), exec := tset (s.core c).exec e (tget (s.core c).exec e [] ++ [m]) } := by
  rw [State.beginCmd, State.core_onCore]

theorem State.beginCmd_facts {s : State} {c e : Nat} {m : Cmd} {r : List Cmd} (m' : Cmd) (h : tget (s.core c).queue e [] = m :: r) :
    tget ((s.beginCmd c e m').core c).queue e [] = r ∧ tget ((s.beginCmd c e m').core c).exec e [] = tget (s.core c).exec e [] ++ [m'] ∧
      (∀ t, (s.beginCmd c e m').slot c t = s.slot c t) ∧ ∀ d, d ≠ c → (s.beginCmd c e m').core d = s.core d := by
  refine ⟨?_, ?_, fun t => ?_, fun d hd => ?_⟩
  · rw [State.beginCmd_core, tget_tset, h]
    rfl
  · rw [State.beginCmd_core, tget_tset]
  · rw [State.slot, State.beginCmd_core]
    rfl
  · rw [State.beginCmd, State.core_onCore_ne _ _ _ _ hd]

/-- The head of a queue may start when its engine has room and no marker executes before it (R42, R166). -/
theorem State.startable_head {s : State} {c e : Nat} {m : Cmd} {r : List Cmd} (hq : tget (s.core c).queue e [] = m :: r) (hd : m.depth = 0)
    (hc : s.clockOn c = true) (hx : ∀ q ∈ tget (s.core c).exec e [], ∀ x y z, q.instr ≠ .ewait x y z)
    (hroom : if e = 2 then (tget (s.core c).exec e []).length < 4 else tget (s.core c).exec e [] = []) : s.startable c e = some m := by
  have hmarker : (tget (s.core c).exec e []).any Cmd.isMarker = false := by
    rw [List.any_eq_false]
    intro q hq hmk
    obtain ⟨x, y, z, h⟩ := q.isMarker_iff.mp hmk
    exact hx q hq x y z h
  have room : if e = 2 then m.isMarker = true ∨ (tget (s.core c).exec e []).length < Config.copyDepth else (tget (s.core c).exec e []).isEmpty = true := by
    split
    · next h2 => exact .inr (by rw [if_pos h2] at hroom; exact hroom)
    · next h2 => rw [if_neg h2] at hroom; exact List.isEmpty_iff.mpr hroom
  simp only [State.startable, hc, if_true, State.queueHead, hq]
  exact if_pos ⟨hd, hmarker, room⟩

theorem engineCommandStart_starts {s : State} {c e : Nat} {m : Cmd} (he : e < 3) (hs : s.startable c e = some m) (hr : s.runs c = true)
    (hj : ∀ x y z, m.instr ≠ .mmaj x y z) :
    exec (.engineCommandStart c e) s = .next (s.beginCmd c e { m with srcs := startSources (s.slot c m.slot) m.instr }) := by
  have h3 : (e == 3) = false := beq_false_of_ne (by omega)
  change execEngineCommandStart c e s = _
  simp only [execEngineCommandStart, hs]
  split
  · next h => exact absurd h (by simp [hr, h3])
  · rw [if_neg (show ¬e = 3 by omega)]

/-! ## The completion of a command (R41) -/

theorem engineCommandComplete_performs {s : State} {c e i : Nat} {m : Cmd} (h : (tget (s.core c).exec e [])[i]? = some m) (he : e ≠ 0)
    (hm : m.isMarker = false) (hd : m.dead = false) (hb : m.readsB = false) :
    exec (.engineCommandComplete c e i) s = .next (s.settleCmd c e m (s.cmdEffect c e m)) := by
  change execEngineCommandComplete c e i s = _
  have hp : s.passB c e m = s := if_neg (by simp [he])
  simp only [execEngineCommandComplete, h, hm, hd, hp, hb, Bool.false_eq_true, if_false]

theorem engineCommandComplete_drops {s : State} {c e i : Nat} {m : Cmd} (h : (tget (s.core c).exec e [])[i]? = some m) (hm : m.isMarker = false)
    (hd : m.dead = true) : exec (.engineCommandComplete c e i) s = .next (s.dropAll c e m) := by
  change execEngineCommandComplete c e i s = _
  simp only [execEngineCommandComplete, h, hm, hd, Bool.false_eq_true, if_false, if_true]

/-- A vector command whose effect stands completes it (R167). -/
theorem vector_completes {s t : State} {c i : Nat} {m : Cmd} (h : (tget (s.core c).exec 1 [])[i]? = some m) (hm : m.isMarker = false)
    (hd : m.dead = false) (hb : m.readsB = false) (he : s.vecEffect c m = .ok t) :
    exec (.engineCommandComplete c 1 i) s = .next (t.leave c 1 m (copyTotal m)) := by
  rw [engineCommandComplete_performs h (by decide) hm hd hb]
  have hx : s.cmdEffect c 1 m = .ok t := he
  rw [hx]
  rfl

/-- A vector command is neither a marker nor a joint matrix command. -/
theorem vecForm_plain {m : Cmd} {rs : List Reg} (hf : vecForm m.instr = some rs) : m.isMarker = false ∧ m.readsB = false := by
  refine ⟨Bool.eq_false_iff.mpr (fun h => ?_), ?_⟩
  · obtain ⟨e, f, b, hi⟩ := m.isMarker_iff.mp h
    rw [hi] at hf
    cases hf
  · unfold Cmd.readsB
    split
    · next hi => rw [hi] at hf; cases hf
    · rfl

/-- What a vector command that only writes a vector register comes to (R178 to R187). -/
theorem vecEffect_registers {s : State} {c : Nat} {m : Cmd} {rs : List Reg} {d : VReg} (hf : vecForm m.instr = some rs) (hd : vdestOf m.instr = some d) :
    s.vecEffect c m = .ok (s.onSlot c m.slot (fun x => x.vwr d (vecValue m))) := by
  unfold State.vecEffect
  simp only
  split
  case h_8 => simp only [hd]
  all_goals
    next hi => rw [hi] at hf; cases hf

theorem Slot.vrd_vwr (x : Slot) (d : VReg) (v : Vec) : (x.vwr d v).vrd d = v := by simp [Slot.vrd, Slot.vwr]

theorem Slot.vrd_vwr_ne (x : Slot) {d r : VReg} (v : Vec) (h : r ≠ d) : (x.vwr d v).vrd r = x.vrd r := by
  have hn : d.toNat ≠ r.toNat := fun e => h (BitVec.eq_of_toNat_eq e.symm)
  simp [Slot.vrd, Slot.vwr, hn]

theorem Slot.vrd_congr {x y : Slot} (h : x.v = y.v) (r : VReg) : x.vrd r = y.vrd r := by unfold Slot.vrd; rw [h]

/-- A vector command that has written vector register d leaves its engine (R41, R167). -/
theorem State.leave_vwr (s : State) (c : Nat) (m : Cmd) (d : VReg) (v : Vec) (work : Nat) :
    let u := (s.onSlot c m.slot (fun x => x.vwr d v)).leave c 1 m work
    (u.slot c m.slot).vrd d = v ∧ (∀ x, x ≠ d → (u.slot c m.slot).vrd x = (s.slot c m.slot).vrd x) ∧ (u.slot c m.slot).g = (s.slot c m.slot).g ∧
      ectx (u.slot c m.slot).counter 1 = BitVec.ofNat 64 m.num ∧ tget (u.core c).exec 1 [] = (tget (s.core c).exec 1 []).filter (fun q => q.id != m.id) ∧
      (∀ t, t ≠ m.slot → u.slot c t = s.slot c t) ∧ (∀ k, k ≠ c → u.core k = s.core k) := by
  have hv : (((s.onSlot c m.slot (fun x => x.vwr d v)).leave c 1 m work).slot c m.slot).v = ((s.slot c m.slot).vwr d v).v := by
    rw [State.leave_v, State.slot_onSlot]
  refine ⟨(Slot.vrd_congr hv d).trans (Slot.vrd_vwr _ _ _), fun x hx => (Slot.vrd_congr hv x).trans (Slot.vrd_vwr_ne _ _ hx), ?_,
    State.leave_counter _ _ _ _ _ (by decide), ?_, fun t ht => ?_, fun k hk => ?_⟩
  · rw [State.leave_g, State.slot_onSlot]
    rfl
  · rw [State.leave_exec, State.onSlot_def, State.setSlot_def, State.core_setCore]
    rfl
  · rw [State.leave_slot_ne _ _ _ _ _ _ ht, State.slot_onSlot_ne _ _ _ _ _ ht]
  · rw [State.leave_core_ne _ _ _ _ _ _ hk, State.core_onSlot_ne _ _ _ _ _ hk]

/-- VLD reads its 64 bytes as one unit (R174). -/
theorem vecEffect_vld {s : State} {c : Nat} {m : Cmd} {d : VReg} {b x : Reg} {off : Word} {p : Place} (hi : m.instr = .vld d b x off)
    (hr : m.walk.reads = []) (hp : s.engPlace (s.cmdAgent c 1 m) (m.arg 0) 64 4 1 = .ok p) :
    s.vecEffect c m = .ok (s.onSlot c m.slot (fun x => x.vwr d (bytesVec (s.readAt p 64)))) := by
  have hbytes : (s.cmdAgent c 1 m).walk.bytes (m.arg 0) 64 = none := by
    change m.walk.bytes (m.arg 0) 64 = none
    rw [Walk.bytes, hr]
    rfl
  have hread : s.engRead (s.cmdAgent c 1 m) 4 (m.arg 0) 64 = .ok (s.readAt p 64) := by
    rw [State.engPlace] at hp
    simp only [State.engRead, State.unitRead, hbytes, hp]
    rfl
  simp only [State.vecEffect, hi, hread]
  rfl

/-! ## VST (R174) -/

theorem State.countLanding_slot (s : State) (d o n e t : Nat) : (s.countLanding d o n).slot e t = s.slot e t := by
  induction n with
  | zero => rfl
  | succ n ih =>
    rw [State.countLanding_succ, ← ih]
    unfold State.landByte
    split
    · next w _ =>
      by_cases he : e = d
      · subst he
        exact State.slot_onCore (f := fun k => k.countByte w) rfl t
      · rw [State.slot, State.core_onCore_ne _ _ _ _ he]
        rfl
    · rfl

/-- A permitted write leaves the slots as they are. -/
theorem State.writeThrough_slot (s : State) (a : Word) (p : Place) (bs : List Byte) (e t : Nat) : (s.writeThrough a p bs).slot e t = s.slot e t := by
  unfold State.writeThrough
  simp only
  split
  · rw [State.countLanding_slot, State.writeAt_slot]
  · exact State.writeAt_slot _ _ _ _ _

/-- One run of bytes written by an engine (R309): its bytes, and nothing of a slot. -/
theorem State.unitWrite_one (s : State) (a : Word) (p : Place) (bs : List Byte) :
    (s.unitWrite 2 [(a, p, bs)]).mem = Memory.writeBytes s.mem p.key bs ∧ ∀ e t, (s.unitWrite 2 [(a, p, bs)]).slot e t = s.slot e t := by
  unfold State.unitWrite
  simp only [List.foldl_cons, List.foldl_nil, Nat.reduceEqDiff, if_false]
  have hm := s.writeThrough_mem a p bs
  have hs := s.writeThrough_slot a p bs
  split
  · exact ⟨hm, hs⟩
  · exact ⟨hm, hs⟩

theorem State.stick_facts (s : State) (c : Nat) (who : Parker) (nan ovf : Bool) :
    (s.stick c who nan ovf).mem = s.mem ∧ ∀ t, ((s.stick c who nan ovf).slot c t).v = (s.slot c t).v := by
  unfold State.stick
  split
  · split
    · next m _ =>
      refine ⟨rfl, fun t => ?_⟩
      by_cases ht : t = m.slot
      · subst ht
        rw [State.slot_onSlot]
      · rw [State.slot_onSlot_ne _ _ _ _ _ ht]
    · exact ⟨rfl, fun _ => rfl⟩
  · exact ⟨rfl, fun _ => rfl⟩

/-- A run of bytes of an engine that nothing refuses and that it has not written yet (R309). -/
theorem State.engWrite_run {s : State} {g : Agent} {a : Word} {bs : List Byte} {p : Place} (k : Nat) (hw : g.walk.wrote = [])
    (hp : s.engPlace g a bs.length 5 2 = .ok p) :
    s.engWrite g k (.run (a, bs)) = .ok ((s.unitWrite 2 [(a, p, bs)]).stick g.core g.who false false) := by
  have hplaces : s.unitPlaces g a [(a, bs)] = .ok [(a, p, bs)] := by
    simp only [State.unitPlaces, hp]
    rfl
  have hnot : ((WriteUnit.run (a, bs)).parts.isEmpty || g.walk.wrote.contains k) = false := by rw [hw]; rfl
  unfold State.engWrite
  rw [hnot, if_neg (by decide)]
  change (EngRes.parkAs (s.unitPlaces g a [(a, bs)]) _).bind _ = _
  rw [hplaces]
  rfl

theorem vecEffect_vst {s : State} {c : Nat} {m : Cmd} {d : VReg} {b x : Reg} {off : Word} {p : Place} (hi : m.instr = .vst d b x off)
    (hw : m.walk.wrote = []) (hp : s.engPlace (s.cmdAgent c 1 m) (m.arg 0) 64 5 2 = .ok p) :
    s.vecEffect c m = .ok ((s.unitWrite 2 [(m.arg 0, p, vecBytes (m.src 0))]).stick c (.cmd m.id) false false) := by
  have hrun := State.engWrite_run (g := s.cmdAgent c 1 m) (a := m.arg 0) (bs := vecBytes (m.src 0)) 0 hw (by rw [vecBytes_length]; exact hp)
  have hwrites : vecWrites m = [(m.arg 0, vecBytes (m.src 0))] := by simp only [vecWrites, vecAddrs, hi, List.map_cons, List.map_nil]
  have heff : s.vecEffect c m = s.engWrites (s.cmdAgent c 1 m) 0 [.run (m.arg 0, vecBytes (m.src 0))] := by
    simp only [State.vecEffect, hi, hwrites, List.map_cons, List.map_nil]
  rw [heff, State.engWrites, hrun]
  rfl

/-! ## Abandoned commands (R363) -/

theorem State.dropCmd_elsewhere (s : State) (c e d : Nat) (m : Cmd) (h : d ≠ c) : (s.dropCmd c e m).core d = s.core d ∧ (s.dropCmd c e m).mem = s.mem := by
  unfold State.dropCmd
  simp only
  split
  · exact ⟨(State.core_onSlot_ne _ _ _ _ _ h).trans (State.leave_core_ne _ _ _ _ _ _ h), rfl⟩
  · exact ⟨State.leave_core_ne _ _ _ _ _ _ h, rfl⟩

/-- Commands of other cores that are abandoned leave core c and memory as they are. -/
theorem foldl_dropCmd (c e : Nat) (l : List (Nat × Cmd)) (hl : ∀ q ∈ l, q.1 ≠ c) (s : State) :
    (l.foldl (fun s q => s.dropCmd q.1 e q.2) s).core c = s.core c ∧ (l.foldl (fun s q => s.dropCmd q.1 e q.2) s).mem = s.mem := by
  induction l generalizing s with
  | nil => exact ⟨rfl, rfl⟩
  | cons q l ih =>
    obtain ⟨hc, hm⟩ := ih (fun x hx => hl x (List.mem_cons_of_mem _ hx)) (s.dropCmd q.1 e q.2)
    obtain ⟨hc', hm'⟩ := s.dropCmd_elsewhere q.1 e c q.2 (hl q List.mem_cons_self).symm
    exact ⟨hc.trans hc', hm.trans hm'⟩

/-- An abandoned command leaves its own core as one that has left its engine (R363). -/
theorem dropAll_leaves {s : State} {c e : Nat} {m : Cmd} (hv : ∀ t d b l, m.instr ≠ .vext t d b l) :
    (s.dropAll c e m).core c = (s.leave c e m (copyProgress (s.cmdNow c e m))).core c ∧ (s.dropAll c e m).mem = s.mem := by
  have hdrop : s.dropCmd c e m = s.leave c e m (copyProgress (s.cmdNow c e m)) := by
    unfold State.dropCmd
    simp only
  have hne : ∀ q ∈ (if m.readsB then (s.jointMates c m).filter (fun q => q.1 != c) else []), q.1 ≠ c := by
    intro q hq
    split at hq
    · simpa using (List.mem_filter.mp hq).2
    · cases hq
  unfold State.dropAll
  rw [hdrop]
  exact foldl_dropCmd c e _ hne _

/-- A copy that completes before an earlier one waits to be counted (R41, R205). -/
theorem Slot.countDone_copy {x : Slot} {num : Nat} (h : x.early = []) :
    (num = (ectx x.counter 2).toNat + 1 → ectx (x.countDone 2 num).counter 2 = BitVec.ofNat 64 num) ∧
    (num ≠ (ectx x.counter 2).toNat + 1 → ectx (x.countDone 2 num).counter 2 = ectx x.counter 2 ∧ num ∈ (x.countDone 2 num).early) := by
  have hdone : x.countDone 2 num = { x with
      counter := ectxSet x.counter 2 (BitVec.ofNat 64 (advance 1 (ectx x.counter 2).toNat [num]).1), early := (advance 1 (ectx x.counter 2).toNat [num]).2 } := by
    simp only [Slot.countDone, h]
    rfl
  rw [hdone]
  refine ⟨fun he => ?_, fun hne => ?_⟩
  · have hadv : advance 1 (ectx x.counter 2).toNat [num] = (num, []) := by simp [advance, he]
    rw [hadv]
    exact ectx_ectxSet _ _ _
  · have hadv : advance 1 (ectx x.counter 2).toNat [num] = ((ectx x.counter 2).toNat, [num]) := by
      simp [advance, Ne.symm hne]
    rw [hadv]
    exact ⟨(ectx_ectxSet _ _ _).trans (by simp), List.mem_singleton.mpr rfl⟩

theorem Slot.copied_early (x : Slot) (e num n : Nat) : (x.copied e num n).early = x.early := by
  unfold Slot.copied
  split <;> rfl

theorem dead_leaves {s : State} {c e i : Nat} {m : Cmd} (h : (tget (s.core c).exec e [])[i]? = some m) (hm : m.isMarker = false) (hd : m.dead = true)
    (hv : ∀ t d b l, m.instr ≠ .vext t d b l) :
    ∃ u, exec (.engineCommandComplete c e i) s = .next u ∧ tget (u.core c).exec e [] = (tget (s.core c).exec e []).filter (fun q => q.id != m.id) ∧
      u.mem = s.mem ∧ (u.slot c m.slot).g = (s.slot c m.slot).g ∧ (u.slot c m.slot).v = (s.slot c m.slot).v ∧
      (e = 0 ∨ e = 1 ∨ e = 3 → ectx (u.slot c m.slot).counter e = BitVec.ofNat 64 m.num) ∧
      (e = 2 → (s.slot c m.slot).early = [] →
        (m.num = (ectx (s.slot c m.slot).counter 2).toNat + 1 → ectx (u.slot c m.slot).counter 2 = BitVec.ofNat 64 m.num) ∧
        (m.num ≠ (ectx (s.slot c m.slot).counter 2).toNat + 1 →
          ectx (u.slot c m.slot).counter 2 = ectx (s.slot c m.slot).counter 2 ∧ m.num ∈ (u.slot c m.slot).early)) := by
  obtain ⟨hcore, hmem⟩ := dropAll_leaves (s := s) (c := c) (e := e) hv
  have hslot : (s.dropAll c e m).slot c m.slot = (s.leave c e m (copyProgress (s.cmdNow c e m))).slot c m.slot := by
    rw [State.slot, hcore]
    rfl
  refine ⟨_, engineCommandComplete_drops h hm hd, by rw [hcore, State.leave_exec], hmem, by rw [hslot, State.leave_g], by rw [hslot, State.leave_v],
    fun he => by rw [hslot, State.leave_counter _ _ _ _ _ (by omega)], fun he hearly => ?_⟩
  subst he
  rw [hslot, State.leave_slot, Slot.copied_counter, Slot.copied_early]
  exact Slot.countDone_copy hearly

/-- Settles O41. -/
theorem enginesStartAndComplete : Obligations.EnginesStartAndComplete := by
  refine ⟨fun s c e m r he hq hd hc hr hx hroom hj => ?_, fun s c i m rs d h hf hd hdead => ?_, fun s c i m d b x off p h hi hdead hreads hp => ?_,
    fun s c i m d b x off p h hi hdead hwrote hinv hp => ?_, fun s c e i m h hm hd hv => dead_leaves h hm hd hv⟩
  · obtain ⟨h1, h2, h3, h4⟩ := State.beginCmd_facts { m with srcs := startSources (s.slot c m.slot) m.instr } hq
    exact ⟨_, _, engineCommandStart_starts he (State.startable_head hq hd hc hx hroom) hr hj, h1, h2, rfl, rfl, h3, h4⟩
  · obtain ⟨hm, hb⟩ := vecForm_plain hf
    obtain ⟨h1, h2, h3, h4, h5, h6, h7⟩ := s.leave_vwr c m d (vecValue m) (copyTotal m)
    exact ⟨_, vector_completes h hm hdead hb (vecEffect_registers hf hd), h1, h2, h3, h4, h5, rfl, h6, h7⟩
  · have hm : m.isMarker = false := by rw [Cmd.isMarker, hi]; rfl
    have hb : m.readsB = false := by simp [Cmd.readsB, hi]
    obtain ⟨h1, h2, _, h4, _⟩ := s.leave_vwr c m d (bytesVec (s.readAt p 64)) (copyTotal m)
    exact ⟨_, vector_completes h hm hdead hb (vecEffect_vld hi hreads hp), h1, h2, h4, rfl⟩
  · have hm : m.isMarker = false := by rw [Cmd.isMarker, hi]; rfl
    have hb : m.readsB = false := by simp [Cmd.readsB, hi]
    obtain ⟨hmem, hslots⟩ := s.unitWrite_one (m.arg 0) p (vecBytes (m.src 0))
    obtain ⟨hmem', hv⟩ := (s.unitWrite 2 [(m.arg 0, p, vecBytes (m.src 0))]).stick_facts c (.cmd m.id) false false
    have written := Memory.readBytes_writeBytes (vecBytes (m.src 0)) s.mem p.key hinv
    refine ⟨_, vector_completes h hm hdead hb (vecEffect_vst hi hwrote hp), ?_, fun k hk => ?_, State.leave_counter _ _ _ _ _ (by decide), ?_⟩
    · rw [State.leave_mem, hmem', hmem]
      rwa [vecBytes_length] at written
    · rw [State.leave_mem, hmem', hmem]
      exact Memory.read_writeBytes_out _ _ _ _ (by rwa [vecBytes_length])
    · rw [State.leave_v, hv, hslots]

end Sys2Proof.Machine
end

section
/-! PROOFS. SYNC, arrivals and the releases of phases (R54, R214 to R222, R284, R399, R407). -/

namespace Sys2Proof.Machine

open Sys2Proof Sys2Proof.Safety

/-! ## A pass over cores whose steps write their own core alone -/

theorem foldl_apart {F : State → Nat → State} (hF : ∀ s d e, e ≠ d → (F s d).core e = s.core e) {l : List Nat} {e : Nat} (he : e ∉ l) (s : State) :
    (l.foldl F s).core e = s.core e := by
  induction l generalizing s with
  | nil => rfl
  | cons a l ih =>
    have hne : e ≠ a := fun h => he (h ▸ List.mem_cons_self)
    rw [List.foldl_cons, ih (fun h => he (List.mem_cons_of_mem _ h)), hF s a e hne]

/-- Of distinct cores each takes its own step from the core it was. -/
theorem foldl_at {F : State → Nat → State} (hF : ∀ s d e, e ≠ d → (F s d).core e = s.core e) {l : List Nat} (hl : l.Nodup) {d : Nat} (hd : d ∈ l)
    (s : State) : ∃ u : State, u.core d = s.core d ∧ (l.foldl F s).core d = (F u d).core d := by
  induction l generalizing s with
  | nil => cases hd
  | cons a l ih =>
    obtain ⟨ha, hl⟩ := List.nodup_cons.mp hl
    by_cases he : d = a
    · subst he
      exact ⟨s, rfl, by rw [List.foldl_cons, foldl_apart hF ha]⟩
    · obtain ⟨u, hu, hx⟩ := ih hl ((List.mem_cons.mp hd).resolve_left he) (F s a)
      exact ⟨u, hu.trans (hF s a d he), hx⟩

/-! ## The record of a phase (R221, R222) -/

theorem foldl_min_le (l : List Nat) (b : Nat) : l.foldl min b ≤ b ∧ ∀ n ∈ l, l.foldl min b ≤ n := by
  induction l generalizing b with
  | nil => exact ⟨Nat.le_refl b, fun _ h => by cases h⟩
  | cons a l ih =>
    obtain ⟨hb, hl⟩ := ih (min b a)
    refine ⟨le_trans hb (Nat.min_le_left b a), fun n hn => ?_⟩
    rcases List.mem_cons.mp hn with rfl | hn
    · exact le_trans hb (Nat.min_le_right b n)
    · exact hl n hn

theorem foldl_min_mem (l : List Nat) (b : Nat) : l.foldl min b = b ∨ l.foldl min b ∈ l := by
  induction l generalizing b with
  | nil => exact .inl rfl
  | cons a l ih =>
    rcases ih (min b a) with h | h
    · rcases Nat.le_total b a with hab | hab
      · exact .inl (by rw [List.foldl_cons, h, Nat.min_eq_left hab])
      · exact .inr (by rw [List.foldl_cons, h, Nat.min_eq_right hab]; exact List.mem_cons_self)
    · exact .inr (List.mem_cons_of_mem _ h)

/-- The least number of a list that is not empty, as the record finds it, is one of it. -/
theorem foldl_min_mem_of_ne_nil {l : List Nat} (h : l ≠ []) : l.foldl min (l.headD 0) ∈ l := by
  rcases foldl_min_mem l (l.headD 0) with h0 | hm
  · rw [h0]
    obtain ⟨a, r, rfl⟩ := List.exists_cons_of_ne_nil h
    exact List.mem_cons_self
  · exact hm

/-- What the record of a phase holds (R221, R222). -/
theorem recordOf_facts {l : List Arrival} (h : l ≠ []) (ph : Nat) : (recordOf l ph).sum = (l.map (fun x => x.value.toNat)).sum ∧
    (∃ x ∈ l, (recordOf l ph).min = x.value.toNat) ∧ (∀ x ∈ l, (recordOf l ph).min ≤ x.value.toNat) ∧
    (∃ x ∈ l, (recordOf l ph).max = x.value.toNat) ∧ (∀ x ∈ l, x.value.toNat ≤ (recordOf l ph).max) ∧
    (∃ x ∈ l, (recordOf l ph).rlast = x.time) ∧ (∀ x ∈ l, x.time ≤ (recordOf l ph).rlast) := by
  have found {f : Arrival → Nat} {n : Nat} (hn : n ∈ l.map f) : ∃ x ∈ l, n = f x := by
    obtain ⟨x, hx, rfl⟩ := List.mem_map.mp hn
    exact ⟨x, hx, rfl⟩
  have ne {f : Arrival → Nat} : l.map f ≠ [] := by simpa using h
  refine ⟨rfl, found (foldl_min_mem_of_ne_nil ne), fun x hx => (foldl_min_le _ _).2 _ (List.mem_map_of_mem hx),
    found (foldl_max_mem_of_ne_nil ne), fun x hx => le_foldl_max 0 (List.mem_map_of_mem (f := fun a : Arrival => a.value.toNat) hx),
    found (foldl_max_mem_of_ne_nil ne), fun x hx => le_foldl_max 0 (List.mem_map_of_mem (f := fun a : Arrival => a.time) hx)⟩

theorem phaseTime_ge (l : List Arrival) : ∀ a ∈ l, a.time + 28 ≤ phaseTime l := by
  intro a ha
  have ht : a.time ≤ (l.map (·.time)).foldl max 0 := le_foldl_max 0 (List.mem_map_of_mem (f := fun a : Arrival => a.time) ha)
  unfold phaseTime releaseLatency
  split <;> omega

/-! ## The phase completes (R215) -/

/-- A member's core once the phase of channel ch with arrivals l is complete. -/
def Core.completes (k : Core) (ch : Nat) (l : List Arrival) : Core :=
  k.setChan ch { k.chan ch with p := (k.chan ch).p + 1, last := recordOf l ((k.chan ch).p + 1).toNat }

theorem Core.completes_chan (k : Core) (ch : Nat) (l : List Arrival) : (k.completes ch l).chan ch =
    { k.chan ch with p := (k.chan ch).p + 1, last := recordOf l ((k.chan ch).p + 1).toNat } := tget_tset _ _ _ _

theorem State.completePhase_core {s : State} {ch : Nat} {l : List Arrival} (hl : (l.map (·.core)).Nodup) {a : Arrival} (ha : a ∈ l) :
    (s.completePhase ch l).core a.core = (s.core a.core).completes ch l := by
  obtain ⟨u, hu, hx⟩ := foldl_at (F := fun s d => s.onCore d (fun k => k.completes ch l)) (fun s d e h => State.core_onCore_ne _ _ _ _ h) hl
    (List.mem_map_of_mem (f := fun a : Arrival => a.core) ha) { s with arrivals := s.arrivals.filter (fun a => !l.contains a) }
  refine hx.trans ?_
  rw [State.core_onCore, hu]
  rfl

theorem State.completePhase_core_ne {s : State} {ch d : Nat} {l : List Arrival} (hd : ∀ a ∈ l, a.core ≠ d) : (s.completePhase ch l).core d = s.core d :=
  foldl_apart (F := fun s d => s.onCore d (fun k => k.completes ch l)) (fun s d e h => State.core_onCore_ne _ _ _ _ h)
    (fun h => by obtain ⟨a, ha, he⟩ := List.mem_map.mp h; exact hd a ha he) { s with arrivals := s.arrivals.filter (fun a => !l.contains a) }

theorem State.completePhase_place (s : State) (ch : Nat) (l : List Arrival) : (s.completePhase ch l).mem = s.mem ∧
    (s.completePhase ch l).exchanges = s.exchanges ∧ (s.completePhase ch l).arrivals = s.arrivals.filter (fun a => !l.contains a) ∧
    (s.completePhase ch l).rtime = s.rtime :=
  ⟨foldl_keeps (F := fun s d => s.onCore d (fun k => k.completes ch l)) (P := State.mem) (fun _ _ => rfl) _ _,
   foldl_keeps (F := fun s d => s.onCore d (fun k => k.completes ch l)) (P := State.exchanges) (fun _ _ => rfl) _ _,
   foldl_keeps (F := fun s d => s.onCore d (fun k => k.completes ch l)) (P := State.arrivals) (fun _ _ => rfl) _ _,
   foldl_keeps (F := fun s d => s.onCore d (fun k => k.completes ch l)) (P := State.rtime) (fun _ _ => rfl) _ _⟩

/-- BARRIER_RELEASE once its router cycle has come (R215). -/
theorem barrierRelease_completes {s : State} {c ch : Nat} {l : List Arrival} (hl : s.phaseArrivals c ch = some l) (hne : l ≠ [])
    (ht : phaseTime l ≤ s.rtime.toNat)
    (hh : (((s.core c).chanLevel ch).isSome || ((s.core c).fieldOn ch).isSome) = true → s.holdsRelease (l.map (·.core)) = false) :
    exec (.barrierRelease c ch) s = .next (match (s.core c).chanLevel ch with
      | some n => (s.completePhase ch l).beginLevel n ch (l.map (·.core)) (l.any (·.ovr))
      | none => if ((s.core c).fieldOn ch).isSome then (s.completePhase ch l).fieldRelease ch l else s.completePhase ch l) := by
  have open_ : (l.isEmpty || decide (s.rtime.toNat < phaseTime l) ||
      ((((s.core c).chanLevel ch).isSome || ((s.core c).fieldOn ch).isSome) && s.holdsRelease (l.map (·.core)))) = false := by
    have h1 : l.isEmpty = false := by simpa using hne
    have h2 : decide (s.rtime.toNat < phaseTime l) = false := decide_eq_false (Nat.not_lt.mpr ht)
    have h3 : ((((s.core c).chanLevel ch).isSome || ((s.core c).fieldOn ch).isSome) && s.holdsRelease (l.map (·.core))) = false := by
      cases hb : (((s.core c).chanLevel ch).isSome || ((s.core c).fieldOn ch).isSome) with
      | false => rfl
      | true => rw [hh hb]; rfl
    rw [h1, h2, h3]
    rfl
  change execBarrierRelease c ch s = _
  simp only [execBarrierRelease, hl, open_, Bool.false_eq_true, if_false] <;> rfl

theorem barrierRelease_plain {s : State} {c ch : Nat} {l : List Arrival} (hl : s.phaseArrivals c ch = some l) (hne : l ≠ [])
    (hlvl : (s.core c).chanLevel ch = none) (hf : (s.core c).fieldOn ch = none) (ht : phaseTime l ≤ s.rtime.toNat) :
    exec (.barrierRelease c ch) s = .next (s.completePhase ch l) := by
  rw [barrierRelease_completes hl hne ht (by simp [hlvl, hf])]
  simp [hlvl, hf]

theorem barrierRelease_waits {s : State} {c ch : Nat}
    (h : s.phaseArrivals c ch = none ∨ ∃ l, s.phaseArrivals c ch = some l ∧ s.rtime.toNat < phaseTime l) :
    exec (.barrierRelease c ch) s = .next s := by
  change execBarrierRelease c ch s = _
  rcases h with h | ⟨l, h, ht⟩
  · simp only [execBarrierRelease, h]
  · simp only [execBarrierRelease, h, ht, decide_true, Bool.or_true, Bool.true_or, if_true]

/-! ## SYNC (R54) -/

/-- The slot of a control thread that has begun a SYNC. -/
def Slot.syncs (x : Slot) (now l : Nat) (mark : Bool) : Slot :=
  let y := ({ x with syncStands := none } : Slot).parkAt now (.sync l)
  { y with park := y.park.map (fun w => { w with mark := mark }) }

theorem Slot.syncs_eq (x : Slot) (now l : Nat) (mark : Bool) :
    ∃ w, x.syncs now l mark = { x with syncStands := none, park := some w } ∧ w.kind = .sync l := by
  obtain ⟨w, hw, hk⟩ := ({ x with syncStands := none } : Slot).parkAt_eq now (.sync l)
  refine ⟨{ w with mark := mark }, ?_, hk⟩
  simp only [Slot.syncs, hw, Option.map_some]

theorem State.syncPark_eq (s : State) (l : Nat) :
    (s.onMe (fun x => { x with syncStands := none })).syncPark l = s.setMe (s.me.syncs s.rtime.toNat l s.cur.mark) := by
  rw [State.onMe_def]
  generalize hx : ({ s.me with syncStands := none } : Slot) = x
  change ((s.setMe x).onMe (fun y => y.parkAt s.rtime.toNat (.sync l))).onMe (fun y => { y with park := y.park.map (fun w => { w with mark := s.cur.mark }) }) = _
  rw [State.onMe_def (s.setMe x), State.me_setMe, State.setMe_setMe, State.onMe_def, State.me_setMe, State.setMe_setMe, ← hx]
  rfl

/-- The core of a control thread that has begun a SYNC. -/
def Core.drains (k : Core) (l : Nat) (n : Word) : Core := { k with sync := .drain l n }

theorem State.cleared_levelChan (s : State) (l : Nat) : s.cleared.mine.levelChan l = s.mine.levelChan l := by rw [State.cleared_mine]; rfl
theorem State.cleared_member (s : State) (ch : Nat) : s.cleared.mine.member ch = s.mine.member ch := by rw [State.cleared_mine]; rfl
theorem State.cleared_sync (s : State) : s.cleared.mine.sync = s.mine.sync := by rw [State.cleared_mine]; rfl
theorem State.cleared_syncStands (s : State) : s.cleared.me.syncStands = s.me.syncStands := by rw [State.cleared_me]

theorem sync_drains {s : State} {l : BitVec 2} {ch : Nat} (h : mayIssue { who := .control } s = true) (hl : s.mine.levelChan (l.toNat + 1) = some ch)
    (hm : s.mine.member ch = true) (hn : s.mine.sync = .none) (hs : s.me.syncStands ≠ some (l.toNat + 1)) :
    ∃ u, exec (.sync l) s = .next u ∧ u.mine.sync = .drain (l.toNat + 1) s.nextPc ∧ u.me.park.map (·.kind) = some (.sync (l.toNat + 1)) ∧
      u.me.pc = s.me.pc ∧ regsKeep s u ∧ u.me.acc = s.me.acc ∧ u.mem = s.mem ∧ onlyMine s u := by
  have hme : (s.cleared.onMine (fun k => k.drains (l.toNat + 1) s.nextPc)).me = { s.me with park := none } :=
    (State.me_onMine (f := fun k => k.drains (l.toNat + 1) s.nextPc) rfl).trans s.cleared_me
  obtain ⟨w, hw, hk⟩ := ({ s.me with park := none } : Slot).syncs_eq s.rtime.toNat (l.toNat + 1) s.cur.mark
  change ∃ u, execSync l s = .next u ∧ _
  unfold execSync
  refine ⟨_, issue_stay (t := (s.cleared.onMine (fun k => k.drains (l.toNat + 1) s.nextPc)).setMe
    (({ s.me with park := none } : Slot).syncs s.rtime.toNat (l.toNat + 1) s.cur.mark)) h ?_, ?_, ?_, ?_, ?_, ?_, rfl, onlyMine_setMe _ (onlyMine_cleared ?_)⟩
  · simp only [State.cleared_levelChan, State.cleared_member, State.cleared_sync, State.cleared_syncStands, hl, hm, hn, hs, if_false, if_true, Bool.not_true,
      Bool.false_eq_true]
    rw [← hme, State.syncPark_eq]
    rfl
  · rw [State.mine_setMe, Core.setSlot_sync, State.mine_onMine]
    rfl
  · rw [State.me_setMe, hw]; exact congrArg some hk
  · rw [State.me_setMe, hw]
  · exact ⟨by rw [State.me_setMe, hw], by rw [State.me_setMe, hw]⟩
  · rw [State.me_setMe, hw]
  · rw [onlyMine, State.mine_onMine]
    rfl

theorem sync_over {s : State} {l : BitVec 2} {ch : Nat} (h : mayIssue { who := .control } s = true) (hl : s.mine.levelChan (l.toNat + 1) = some ch)
    (hm : s.mine.member ch = true) (hn : s.mine.sync = .none) (hs : s.me.syncStands = some (l.toNat + 1)) :
    ∃ u, exec (.sync l) s = .next u ∧ leftAs s u s.nextPc ∧ u.me.syncStands = none ∧ regsKeep s u ∧ onlyMe s u := by
  change ∃ u, execSync l s = .next u ∧ _
  unfold execSync
  refine Exists.imp (fun u ⟨hx, hu, hleft, _, hk, ho⟩ => ⟨hx, hleft rfl, by rw [hu, Slot.retired_syncStands], hk, ho⟩)
    (issue_setMe (y := { s.me with park := none, syncStands := none }) h ?_ ⟨rfl, rfl, rfl, rfl, rfl, rfl⟩)
  simp only [State.cleared_levelChan, State.cleared_member, State.cleared_sync, State.cleared_syncStands, hl, hm, hn, hs, if_false, if_true, Bool.not_true,
    Bool.false_eq_true]
  rw [State.cleared_onMe]

/-- A core whose SYNC of a level has arrived on its channel. -/
def Core.arrives (k : Core) (ch l : Nat) (n : Word) : Core := { k.countArrival ch with sync := .arrived l n }

/-- A core whose overruns of a level its arrival carries (R407). -/
def Core.carries (k : Core) (l : Nat) : Core := { k with overrun := k.overrun.map (fun o => if o.lvl = l then { o with carried := true } else o) }

/-- A control thread whose arrival of a level stands. -/
def Slot.stands (x : Slot) (l : Nat) : Slot := { x with syncStands := some l }

theorem syncArrival_arrives {s : State} {c l ch : Nat} {n : Word} (hs : (s.core c).sync = .drain l n) (hl : (s.core c).levelChan l = some ch)
    (hd : s.drained c = true) : exec (.syncArrival c) s = .next
      (((((s.onCore c (fun k => k.arrives ch l n)).onSlot c 0 (fun x => x.stands l)).onCore c (fun k => k.carries l))).enterArrival c ch
        (s.rtime.setWidth 32) ((s.core c).overrun.any (fun o => o.lvl == l)) none) := by
  change execSyncArrival c s = _
  simp only [execSyncArrival, hs, hl, hd, if_true]
  rfl

theorem State.core_onSlot (s : State) (c t : Nat) (f : Slot → Slot) : (s.onSlot c t f).core c = (s.core c).setSlot t (f (s.slot c t)) := by
  rw [State.onSlot_def, State.setSlot_def, State.core_setCore]

theorem syncArrival_enters {s : State} {c l ch : Nat} {n : Word} (hs : (s.core c).sync = .drain l n) (hl : (s.core c).levelChan l = some ch)
    (hd : s.drained c = true) :
    ∃ u a, exec (.syncArrival c) s = .next u ∧ u.arrivals = s.arrivals ++ [a] ∧ a.core = c ∧ a.ch = ch ∧ a.value = s.rtime.setWidth 32 ∧ a.time = s.rtime.toNat ∧
      a.ovr = (s.core c).overrun.any (fun o => o.lvl == l) ∧ (u.core c).sync = .arrived l n ∧ ((u.core c).chan ch).ac = ((s.core c).chan ch).ac + 1 ∧
      ((u.core c).chan ch).p = ((s.core c).chan ch).p ∧ (u.slot c 0).syncStands = some l ∧ (u.slot c 0).g = (s.slot c 0).g ∧ u.mem = s.mem := by
  refine ⟨_, _, syncArrival_arrives hs hl hd, rfl, rfl, rfl, rfl, rfl, rfl, ?_⟩
  generalize hv : ((s.onCore c (fun k => k.arrives ch l n)).onSlot c 0 (fun x => x.stands l)).onCore c (fun k => k.carries l) = v
  have hcore : v.core c = (((s.core c).arrives ch l n).setSlot 0 ((s.slot c 0).stands l)).carries l := by
    rw [← hv, State.core_onCore, State.core_onSlot, State.core_onCore, State.slot_onCore rfl]
  have hslot : v.slot c 0 = (s.slot c 0).stands l := by
    rw [← hv, State.slot_onCore rfl, State.slot_onSlot, State.slot_onCore rfl]
  have hchan : (v.core c).chan ch = { (s.core c).chan ch with ac := ((s.core c).chan ch).ac + 1 } := by
    rw [hcore]
    exact tget_tset _ _ _ _
  have hmem : v.mem = s.mem := by rw [← hv]; rfl
  refine ⟨?_, ?_, ?_, ?_, ?_, hmem⟩
  · change (v.core c).sync = _
    rw [hcore]; rfl
  · change ((v.core c).chan ch).ac = _
    rw [hchan]
  · change ((v.core c).chan ch).p = _
    rw [hchan]
  · change (v.slot c 0).syncStands = _
    rw [hslot]; rfl
  · change (v.slot c 0).g = _
    rw [hslot]; rfl

/-! ## The release of a level's phase (R54, R223, R225, R407, R408) -/

/-- A member's core once the exchange of level n is open. -/
def Core.opens (k : Core) (n : Nat) (cancelled : Bool) : Core :=
  { k with xareaNow := k.xarea, posts := k.posts.filter (fun p => p.lvl != n), xcnt := tset k.xcnt n (if cancelled then 0x8000000000000000 else 0) }

/-- The members of a phase opening the exchange of level n. -/
def State.opened (s : State) (n : Nat) (mem : List Nat) (cancelled : Bool) : State := mem.foldl (fun s d => s.onCore d (fun k => k.opens n cancelled)) s

theorem State.opened_core {s : State} {n d : Nat} {mem : List Nat} (cancelled : Bool) (hm : mem.Nodup) (hd : d ∈ mem) :
    (s.opened n mem cancelled).core d = (s.core d).opens n cancelled := by
  obtain ⟨u, hu, hx⟩ := foldl_at (F := fun s d => s.onCore d (fun k => k.opens n cancelled)) (fun s d e h => State.core_onCore_ne _ _ _ _ h) hm hd s
  exact hx.trans (by rw [State.core_onCore, hu])

theorem State.opened_place (s : State) (n : Nat) (mem : List Nat) (cancelled : Bool) : (s.opened n mem cancelled).mem = s.mem ∧
    (s.opened n mem cancelled).exchanges = s.exchanges ∧ (s.opened n mem cancelled).rtime = s.rtime :=
  ⟨foldl_keeps (F := fun s d => s.onCore d (fun k => k.opens n cancelled)) (P := State.mem) (fun _ _ => rfl) _ _,
   foldl_keeps (F := fun s d => s.onCore d (fun k => k.opens n cancelled)) (P := State.exchanges) (fun _ _ => rfl) _ _,
   foldl_keeps (F := fun s d => s.onCore d (fun k => k.opens n cancelled)) (P := State.rtime) (fun _ _ => rfl) _ _⟩

theorem State.beginLevel_opens (s : State) (n ch : Nat) {mem : List Nat} (cancelled : Bool) (hm : mem.Nodup) :
    ∃ e : Exch, (s.beginLevel n ch mem cancelled).exchanges = s.exchanges ++ [e] ∧ e.tag = n ∧ e.members = mem ∧ e.c = none ∧ e.cancelled = cancelled ∧
      e.air = [] ∧ e.e = s.rtime.toNat ∧ (cancelled = true → e.slots = 0 ∧ e.todo = []) ∧ (s.beginLevel n ch mem cancelled).mem = s.mem ∧
      ∀ d ∈ mem, (s.beginLevel n ch mem cancelled).core d = (s.core d).opens n cancelled := by
  obtain ⟨hmem, hex, hr⟩ := s.opened_place n mem cancelled
  have hx : s.beginLevel n ch mem cancelled = (s.opened n mem cancelled).openExchange (s.jobOf (mem.headD 0)) n ch mem
      (if cancelled then 0 else s.schedSlots (s.jobOf (mem.headD 0)) n) (if cancelled then [] else s.levelFlits n mem) cancelled := rfl
  rw [hx]
  refine ⟨_, by rw [State.openExchange, hex], rfl, rfl, rfl, rfl, rfl, by rw [hr], fun hc => ⟨if_pos hc, if_pos hc⟩, hmem, fun d hd => State.opened_core _ hm hd⟩

/-- BARRIER_RELEASE of a level's phase. -/
theorem barrierRelease_level {s : State} {c ch n : Nat} {l : List Arrival} (hl : s.phaseArrivals c ch = some l) (hne : l ≠ []) (hn : (l.map (·.core)).Nodup)
    (hlvl : (s.core c).chanLevel ch = some n) (hh : s.holdsRelease (l.map (·.core)) = false) (ht : phaseTime l ≤ s.rtime.toNat) :
    ∃ u e, exec (.barrierRelease c ch) s = .next u ∧ u.mem = s.mem ∧ u.exchanges = s.exchanges ++ [e] ∧ e.tag = n ∧ e.members = l.map (·.core) ∧ e.c = none ∧
      e.cancelled = l.any (·.ovr) ∧ e.air = [] ∧ e.e = s.rtime.toNat ∧ (l.any (·.ovr) = true → e.slots = 0 ∧ e.todo = []) ∧
      ∀ a ∈ l, u.core a.core = ((s.core a.core).completes ch l).opens n (l.any (·.ovr)) := by
  obtain ⟨e, hex, htag, hmem', hc, hcan, hair, he, hslots, hmem, hcore⟩ := (s.completePhase ch l).beginLevel_opens n ch (l.any (·.ovr)) hn
  obtain ⟨pm, px, -, pr⟩ := s.completePhase_place ch l
  refine ⟨_, e, barrierRelease_completes hl hne ht (fun _ => hh), ?_, ?_, htag, hmem', hc, hcan, hair, he.trans (by rw [pr]), hslots, fun a ha => ?_⟩
  · simp only [hlvl]
    exact hmem.trans pm
  · simp only [hlvl]
    exact hex.trans (by rw [px])
  · simp only [hlvl]
    rw [hcore _ (List.mem_map_of_mem (f := fun a : Arrival => a.core) ha), State.completePhase_core hn ha]

theorem Core.opens_chan (k : Core) (ch n : Nat) (l : List Arrival) (b : Bool) : (((k.completes ch l).opens n b).chan ch).p = (k.chan ch).p + 1 := by
  change ((k.completes ch l).chan ch).p = _
  rw [Core.completes_chan]

/-! ## The release of a field's phase (R284, R399) -/

/-- A core with every field of an id changed. -/
def Core.onField (k : Core) (id : Nat) (f : Field → Field) : Core := { k with fields := k.fields.map (fun p => if p.1 = id then (p.1, f p.2) else p) }

/-- A field of an id, changed, is found where it was. -/
theorem Core.onField_field? (k : Core) (id : Nat) (f : Field → Field) : (k.onField id f).field? id = (k.field? id).map f := by
  have hp : ((fun p : Nat × Field => p.1 == id) ∘ fun p => if p.1 = id then (p.1, f p.2) else p) = fun p => p.1 == id := by
    funext p
    by_cases h : p.1 = id <;> simp [h]
  simp only [Core.field?, Core.onField, List.find?_map, hp, Option.map_map]
  cases hx : k.fields.find? (fun p => p.1 == id) with
  | none => rfl
  | some p =>
    have h : p.1 = id := by simpa using List.find?_some hx
    simp [h]

/-- A change that keeps a field's run and its channel keeps which field stands on a channel. -/
theorem Core.onField_fieldOn {k : Core} {ch q : Nat} {g : Field} (f : Field → Field) (hf : ∀ x, (f x).run = x.run ∧ (f x).desc = x.desc)
    (h : k.fieldOn ch = some (q, g)) : (k.onField q f).fieldOn ch = some (q, f g) := by
  have hp : ((fun p : Nat × Field => p.2.run && fCHAN p.2.desc == ch) ∘ fun p => if p.1 = q then (p.1, f p.2) else p) =
      fun p => p.2.run && fCHAN p.2.desc == ch := by
    funext p
    by_cases he : p.1 = q <;> simp [he, (hf p.2).1, (hf p.2).2]
  simp only [Core.fieldOn] at h
  simp only [Core.fieldOn, Core.onField, List.find?_map, hp, h, Option.map_some, if_true]

/-- The field that stands on a channel is a field of its id. -/
theorem Core.field?_of_fieldOn {k : Core} {ch q : Nat} {g : Field} (h : k.fieldOn ch = some (q, g)) : ∃ f, k.field? q = some f := by
  have hm : (q, g) ∈ k.fields := List.mem_of_find?_eq_some h
  have hs : (k.fields.find? (fun p => p.1 == q)).isSome = true := List.find?_isSome.mpr ⟨(q, g), hm, by simp⟩
  obtain ⟨p, hp⟩ := Option.isSome_iff_exists.mp hs
  exact ⟨p.2, by rw [Core.field?, hp, Option.map_some]⟩

/-! ### The digests agree -/

/-- Core c's field on a channel goes into the exchange. -/
def State.fieldGoes (s : State) (ch c : Nat) : State :=
  match (s.core c).fieldOn ch with
  | some (id, _) => s.onField c id (fun f => { f with stage := .release })
  | none => s

theorem State.fieldGoes_core_ne (s : State) (ch c d : Nat) (h : d ≠ c) : (s.fieldGoes ch c).core d = s.core d := by
  unfold State.fieldGoes
  split
  · exact State.core_onCore_ne _ _ _ _ h
  · rfl

theorem State.fieldGoes_place (s : State) (ch c : Nat) : (s.fieldGoes ch c).mem = s.mem ∧ (s.fieldGoes ch c).exchanges = s.exchanges ∧
    (s.fieldGoes ch c).rtime = s.rtime := by
  unfold State.fieldGoes
  split
  · exact ⟨rfl, rfl, rfl⟩
  · exact ⟨rfl, rfl, rfl⟩

theorem State.fieldGoes_core {s : State} {ch c q : Nat} {f : Field} (h : (s.core c).fieldOn ch = some (q, f)) :
    (s.fieldGoes ch c).core c = (s.core c).onField q (fun f => { f with stage := .release }) := by
  simp only [State.fieldGoes, h]
  exact State.core_onCore _ _ _

/-! ### The digests differ -/

/-- What a step of the Herder on core c leaves: other cores, memory and the exchanges; c's modes and channels. -/
structure HerderOnly (s u : State) (c : Nat) : Prop where
  others : ∀ d, d ≠ c → u.core d = s.core d
  modes : ∀ t, (u.slot c t).mode = (s.slot c t).mode
  mem : u.mem = s.mem
  exchanges : u.exchanges = s.exchanges
  chans : (u.core c).chans = (s.core c).chans

theorem HerderOnly.refl (s : State) (c : Nat) : HerderOnly s s c := ⟨fun _ _ => rfl, fun _ => rfl, rfl, rfl, rfl⟩

theorem HerderOnly.trans {s u w : State} {c : Nat} (h : HerderOnly s u c) (h' : HerderOnly u w c) : HerderOnly s w c :=
  ⟨fun d hd => (h'.others d hd).trans (h.others d hd), fun t => (h'.modes t).trans (h.modes t), h'.mem.trans h.mem, h'.exchanges.trans h.exchanges,
    h'.chans.trans h.chans⟩

/-- A slot with a trap that stands. -/
def Slot.queued (x : Slot) (tr : Trap) : Slot := if x.mode = .free then x else { x with traps := x.traps ++ [tr] }

theorem Slot.queued_mode (x : Slot) (tr : Trap) : (x.queued tr).mode = x.mode := by
  unfold Slot.queued
  split
  · rfl
  · rfl

theorem Slot.mem_queued {x : Slot} {tr : Trap} (h : x.mode ≠ .free) : tr ∈ (x.queued tr).traps := by
  rw [Slot.queued, if_neg h]
  exact List.mem_append_right _ List.mem_cons_self

theorem herderOnly_queueTrap (s : State) (c t : Nat) (tr : Trap) : HerderOnly s (s.queueTrap c t tr) c := by
  refine ⟨fun d hd => State.core_onSlot_ne _ _ _ _ _ hd, fun v => ?_, rfl, rfl, by rw [State.queueTrap, State.core_onSlot, Core.setSlot_chans]⟩
  by_cases h : v = t
  · subst h
    rw [State.queueTrap, State.slot_onSlot]
    exact (s.slot c v).queued_mode tr
  · rw [State.queueTrap, State.slot_onSlot_ne _ _ _ _ _ h]

theorem State.queueTrap_fields (s : State) (c t : Nat) (tr : Trap) : ((s.queueTrap c t tr).core c).fields = (s.core c).fields := by
  rw [State.queueTrap, State.core_onSlot, Core.setSlot_fields]

theorem herderOnly_onField (s : State) (c id : Nat) (f : Field → Field) : HerderOnly s (s.onField c id f) c :=
  ⟨fun d hd => State.core_onCore_ne _ _ _ _ hd, fun t => by rw [State.onField, State.slot_onCore rfl], rfl, rfl, by rw [State.onField, State.core_onCore]⟩

/-- A field of id that has been stopped with next sweep n. -/
def Field.halts (n : Nat) (f : Field) : Field := { f with run := false, stage := .stopped, next := n, colour := 0, todo := [], failed := false, fault := none }

theorem State.stopField_facts {s : State} {c id : Nat} {f : Field} (n : Nat) (h : (s.core c).field? id = some f) :
    HerderOnly s (s.stopField c id n) c ∧ ((s.stopField c id n).core c).field? id = some (f.halts n) := by
  have hx : ((s.onField c id (Field.halts n)).core c).field? id = some (f.halts n) := by
    have hc : (s.onField c id (Field.halts n)).core c = (s.core c).onField id (Field.halts n) := State.core_onCore _ _ _
    rw [hc, Core.onField_field?, h, Option.map_some]
  have hs : s.stopField c id n = match f.fault with
      | some tr => (s.onField c id (Field.halts n)).queueTrap c ((s.onField c id (Field.halts n)).fieldSlot c f) tr
      | none => s.onField c id (Field.halts n) := by
    simp only [State.stopField, h]
    rfl
  rw [hs]
  split
  · next tr _ =>
    refine ⟨(herderOnly_onField s c id _).trans (herderOnly_queueTrap _ _ _ _), ?_⟩
    rw [Core.field?, State.queueTrap_fields]
    exact hx
  · exact ⟨herderOnly_onField s c id _, hx⟩

/-- The Herder's stop of core c when the digests of its field's phase differ (R399). -/
def State.disagrees (s : State) (ch c : Nat) : State :=
  match (s.core c).fieldOn ch with
  | some (id, f) => (s.stopField c id f.next).fieldTrap c f 0 (fieldInfo 10 id 0 f.next 0 0)
  | none => s

theorem fieldInfo_reason (reason id inner value mreason acc : Nat) : (fieldInfo reason id inner value mreason acc).toNat % 16 = reason % 16 := by
  rw [fieldInfo, BitVec.toNat_ofNat, Nat.mod_mod_of_dvd _ (by decide : 16 ∣ 2 ^ 64)]
  omega

theorem State.disagrees_facts {s : State} {ch c q : Nat} {f : Field} (h : (s.core c).fieldOn ch = some (q, f)) :
    HerderOnly s (s.disagrees ch c) c ∧
    (∃ f', ((s.disagrees ch c).core c).field? q = some f' ∧ f'.run = false ∧ f'.stage = .stopped ∧ f'.next = f.next) ∧
    ((s.slot c (s.fieldSlot c f)).mode ≠ .free →
      ∃ tr ∈ ((s.disagrees ch c).slot c (s.fieldSlot c f)).traps, tr.code = 0x13 ∧ tr.defer = true ∧ tr.info.toNat % 16 = 10) := by
  obtain ⟨f0, hf0⟩ := Core.field?_of_fieldOn h
  obtain ⟨hstop, hfld⟩ := State.stopField_facts f.next hf0
  have hx : s.disagrees ch c = (s.stopField c q f.next).fieldTrap c f 0 (fieldInfo 10 q 0 f.next 0 0) := by simp only [State.disagrees, h]
  have hslot : (s.stopField c q f.next).fieldSlot c f = s.fieldSlot c f := by simp only [State.fieldSlot, hstop.modes]
  rw [hx, State.fieldTrap, hslot]
  generalize s.stopField c q f.next = w at *
  refine ⟨hstop.trans (herderOnly_queueTrap _ _ _ _), ⟨f0.halts f.next, ?_, rfl, rfl, rfl⟩, fun hm => ⟨w.standTrap c (s.fieldSlot c f) 0x13 0 (fieldInfo 10 q 0 f.next 0 0), ?_, rfl, rfl, ?_⟩⟩
  · rw [Core.field?, State.queueTrap_fields]
    exact hfld
  · rw [State.queueTrap, State.slot_onSlot]
    exact Slot.mem_queued (by rw [hstop.modes]; exact hm)
  · exact fieldInfo_reason 10 q 0 f.next 0 0

theorem State.disagrees_only (s : State) (ch c : Nat) : HerderOnly s (s.disagrees ch c) c := by
  cases h : (s.core c).fieldOn ch with
  | none =>
    have hx : s.disagrees ch c = s := by simp only [State.disagrees, h]
    rw [hx]
    exact .refl s c
  | some p => exact (State.disagrees_facts (f := p.2) h).1

/-- A field's phase whose arrivals hold unequal digests. -/
def digestsDiffer (l : List Arrival) : Bool :=
  l.any (fun a => a.digest != (l.headD { core := 0, ch := 0, k := 0, value := 0, time := 0, ovr := false, digest := none }).digest)

theorem digestsDiffer_iff {l : List Arrival} (hne : l ≠ []) : digestsDiffer l = true ↔ ∃ a ∈ l, ∃ b ∈ l, a.digest ≠ b.digest := by
  obtain ⟨a0, r, rfl⟩ := List.exists_cons_of_ne_nil hne
  simp only [digestsDiffer, List.headD_cons, List.any_eq_true, bne_iff_ne]
  constructor
  · rintro ⟨a, ha, h⟩
    exact ⟨a, ha, a0, List.mem_cons_self, h⟩
  · rintro ⟨a, ha, b, hb, h⟩
    by_cases h0 : a.digest = a0.digest
    · exact ⟨b, hb, fun hb0 => h (h0.trans hb0.symm)⟩
    · exact ⟨a, ha, h0⟩

/-- BARRIER_RELEASE of a field's phase (R284, R399). -/
theorem barrierRelease_field {s : State} {c ch : Nat} {l : List Arrival} (hl : s.phaseArrivals c ch = some l) (hne : l ≠ [])
    (hlvl : (s.core c).chanLevel ch = none) (hf : ((s.core c).fieldOn ch).isSome = true) (hh : s.holdsRelease (l.map (·.core)) = false)
    (ht : phaseTime l ≤ s.rtime.toNat) : exec (.barrierRelease c ch) s = .next ((s.completePhase ch l).fieldRelease ch l) := by
  rw [barrierRelease_completes hl hne ht (fun _ => hh)]
  simp only [hlvl, hf, if_true]

/-- Unequal digests stop every Herder (R399). -/
theorem State.fieldRelease_differ {s : State} {ch : Nat} {l : List Arrival} (h : digestsDiffer l = true) :
    s.fieldRelease ch l = (l.map (·.core)).foldl (fun s c => s.disagrees ch c) s := if_pos h

/-- Equal digests open the halo exchange (R284). -/
theorem State.fieldRelease_agree {s : State} {ch q : Nat} {f : Field} {a : Arrival} {r : List Arrival} (h : digestsDiffer (a :: r) = false)
    (hf : (s.core a.core).fieldOn ch = some (q, f)) : ∃ job slots flits, s.fieldRelease ch (a :: r) =
      (((a :: r).map (·.core)).foldl (fun s c => s.fieldGoes ch c) s).openExchange job (8 + fHSCHED f.desc) ch ((a :: r).map (·.core)) slots flits
        false := by
  have hx : s.fieldRelease ch (a :: r) = _ := if_neg (Bool.eq_false_iff.mp h)
  simp only [List.map_cons, List.headD_cons, hf] at hx
  exact ⟨_, _, _, hx⟩

theorem Core.completes_fieldOn (k : Core) (ch : Nat) (l : List Arrival) (n : Nat) : (k.completes ch l).fieldOn n = k.fieldOn n := rfl

theorem Core.onField_chan (k : Core) (q ch : Nat) (f : Field → Field) : (k.onField q f).chan ch = k.chan ch := rfl

theorem HerderOnly.chan {s u : State} {c : Nat} (h : HerderOnly s u c) (ch : Nat) : (u.core c).chan ch = (s.core c).chan ch := by
  rw [Core.chan, h.chans]
  rfl

theorem Core.completes_p (k : Core) (ch : Nat) (l : List Arrival) : ((k.completes ch l).chan ch).p = (k.chan ch).p + 1 := by rw [Core.completes_chan]

theorem State.completePhase_slot {s : State} {ch : Nat} {l : List Arrival} (hl : (l.map (·.core)).Nodup) {a : Arrival} (ha : a ∈ l) (t : Nat) :
    (s.completePhase ch l).slot a.core t = s.slot a.core t := by
  rw [State.slot, State.completePhase_core hl ha]
  rfl

/-- A release of a field's phase with equal digests opens its exchange and each member's field goes into it (R284). -/
theorem fieldRelease_opens {s : State} {ch : Nat} {l : List Arrival} (hne : l ≠ []) (hn : (l.map (·.core)).Nodup)
    (hf : ∀ a ∈ l, ((s.core a.core).fieldOn ch).isSome = true) (hd : ∀ a ∈ l, ∀ b ∈ l, a.digest = b.digest) :
    ∃ e : Exch, (s.fieldRelease ch l).exchanges = s.exchanges ++ [e] ∧ 8 ≤ e.tag ∧ e.ch = ch ∧ e.members = l.map (·.core) ∧ e.c = none ∧
      e.cancelled = false ∧ e.e = s.rtime.toNat ∧ (s.fieldRelease ch l).mem = s.mem ∧
      ∀ a ∈ l, ∀ q f, (s.core a.core).fieldOn ch = some (q, f) →
        (s.fieldRelease ch l).core a.core = (s.core a.core).onField q (fun f => { f with stage := .release }) := by
  have same : digestsDiffer l = false := by
    rw [Bool.eq_false_iff]
    intro h
    obtain ⟨a, ha, b, hb, hab⟩ := (digestsDiffer_iff hne).mp h
    exact hab (hd a ha b hb)
  obtain ⟨a0, r, rfl⟩ := List.exists_cons_of_ne_nil hne
  obtain ⟨p, hp⟩ := Option.isSome_iff_exists.mp (hf a0 List.mem_cons_self)
  obtain ⟨job, slots, flits, hx⟩ := State.fieldRelease_agree (f := p.2) same hp
  have hmem := foldl_keeps (F := fun s c => s.fieldGoes ch c) (P := State.mem) (fun s c => (s.fieldGoes_place ch c).1) ((a0 :: r).map (·.core)) s
  have hex := foldl_keeps (F := fun s c => s.fieldGoes ch c) (P := State.exchanges) (fun s c => (s.fieldGoes_place ch c).2.1) ((a0 :: r).map (·.core)) s
  have hrt := foldl_keeps (F := fun s c => s.fieldGoes ch c) (P := State.rtime) (fun s c => (s.fieldGoes_place ch c).2.2) ((a0 :: r).map (·.core)) s
  rw [hx]
  refine ⟨_, by rw [State.openExchange, hex], Nat.le_add_right _ _, rfl, rfl, rfl, rfl, by rw [hrt], hmem, fun a ha q f hq => ?_⟩
  obtain ⟨u, hu, hc⟩ := foldl_at (F := fun s c => s.fieldGoes ch c) (fun s c e h => s.fieldGoes_core_ne ch c e h) hn
    (List.mem_map_of_mem (f := fun a : Arrival => a.core) ha) s
  exact hc.trans (by rw [State.fieldGoes_core (by rw [hu]; exact hq), hu])

/-- A release of a field's phase with unequal digests stops each member's Herder (R399). -/
theorem fieldRelease_stops {s : State} {ch : Nat} {l : List Arrival} (hn : (l.map (·.core)).Nodup) (hd : digestsDiffer l = true) :
    (s.fieldRelease ch l).mem = s.mem ∧ (s.fieldRelease ch l).exchanges = s.exchanges ∧
      ∀ a ∈ l, ((s.fieldRelease ch l).core a.core).chans = (s.core a.core).chans ∧ ∀ q f, (s.core a.core).fieldOn ch = some (q, f) →
        (∃ f', ((s.fieldRelease ch l).core a.core).field? q = some f' ∧ f'.run = false ∧ f'.stage = .stopped ∧ f'.next = f.next) ∧
        ((s.slot a.core (s.fieldSlot a.core f)).mode ≠ .free →
          ∃ tr ∈ ((s.fieldRelease ch l).slot a.core (s.fieldSlot a.core f)).traps, tr.code = 0x13 ∧ tr.defer = true ∧ tr.info.toNat % 16 = 10) := by
  rw [State.fieldRelease_differ hd]
  refine ⟨foldl_keeps (F := fun s c => s.disagrees ch c) (P := State.mem) (fun s c => (s.disagrees_only ch c).mem) _ _,
    foldl_keeps (F := fun s c => s.disagrees ch c) (P := State.exchanges) (fun s c => (s.disagrees_only ch c).exchanges) _ _, fun a ha => ?_⟩
  obtain ⟨u, hu, hc⟩ := foldl_at (F := fun s c => s.disagrees ch c) (fun s c e h => (s.disagrees_only ch c).others e h) hn
    (List.mem_map_of_mem (f := fun a : Arrival => a.core) ha) s
  have hs (t : Nat) : u.slot a.core t = s.slot a.core t := by rw [State.slot, hu]; rfl
  have ht (t : Nat) : ((l.map (·.core)).foldl (fun s c => s.disagrees ch c) s).slot a.core t = (u.disagrees ch a.core).slot a.core t := by
    rw [State.slot, hc]
    rfl
  refine ⟨by rw [hc, (u.disagrees_only ch a.core).chans, hu], fun q f hq => ?_⟩
  obtain ⟨-, hfld, htr⟩ := State.disagrees_facts (s := u) (by rw [hu]; exact hq)
  have hfs : u.fieldSlot a.core f = s.fieldSlot a.core f := by simp only [State.fieldSlot, hs]
  rw [hfs, hs] at htr
  refine ⟨by rw [hc]; exact hfld, fun hm => ?_⟩
  rw [ht]
  exact htr hm

end Sys2Proof.Machine

namespace Sys2Proof.Proofs

open Sys2Proof Sys2Proof.Machine Sys2Proof.Safety

/-- Settles O51: each part is a rule of SYNC, of the arrival or of the release; the members' cores take their own steps. -/
theorem syncAndPhases : Obligations.SyncAndPhases := by
  unfold Obligations.SyncAndPhases
  refine ⟨fun s l ch h hl hm hn => ⟨fun hs => sync_drains h hl hm hn hs, fun hs => sync_over h hl hm hn hs⟩,
    fun s c l ch n hs hl hd => syncArrival_enters hs hl hd, ?plain, ?level, ?cancelled, ?field, fun s c ch h => barrierRelease_waits h, phaseTime_ge⟩
  case plain =>
    intro s c ch l hl hne hn hlvl hf ht
    obtain ⟨pm, px, pa, -⟩ := s.completePhase_place ch l
    refine ⟨_, barrierRelease_plain hl hne hlvl hf ht, pm, px, pa, fun a ha => ?_, fun d hd => State.completePhase_core_ne hd⟩
    rw [State.completePhase_core hn ha, Core.completes_chan]
    exact ⟨rfl, rfl, recordOf_facts hne _⟩
  case level =>
    intro s c ch n l hl hne hn hlvl hh hov ht
    have none' : l.any (·.ovr) = false := by simpa using hov
    obtain ⟨u, e, hx, hm, hex, htag, hmem, hc, hcan, hair, he, -, hcore⟩ := barrierRelease_level hl hne hn hlvl hh ht
    refine ⟨u, e, hx, hm, hex, htag, hmem, hc, hcan.trans none', hair, he, fun a ha => ?_⟩
    rw [hcore a ha]
    exact ⟨Core.opens_chan _ _ _ _ _, rfl, rfl⟩
  case cancelled =>
    intro s c ch n l hl hne hn hlvl hh hov ht
    have some' : l.any (·.ovr) = true := by simpa using hov
    obtain ⟨u, e, hx, hm, hex, htag, hmem, hc, hcan, hair, he, hz, hcore⟩ := barrierRelease_level hl hne hn hlvl hh ht
    obtain ⟨hslots, htodo⟩ := hz some'
    refine ⟨u, e, hx, hm, hex, htag, hmem, hc, hcan.trans some', hslots, htodo, hair, he, fun a ha => ?_⟩
    rw [hcore a ha, some']
    exact ⟨Core.opens_chan _ _ _ _ _, rfl, tget_tset _ _ _ _⟩
  case field =>
    intro s c ch l hl hne hn hlvl hf hfa hh ht
    obtain ⟨pm, px, -, pr⟩ := s.completePhase_place ch l
    have hx := barrierRelease_field hl hne hlvl hf hh ht
    have on (a : Arrival) (ha : a ∈ l) : ((s.completePhase ch l).core a.core).fieldOn ch = (s.core a.core).fieldOn ch := by
      rw [State.completePhase_core hn ha]
      rfl
    refine ⟨fun hd => ?_, fun hd => ?_⟩
    · obtain ⟨e, hex, htag, hch, hmem, hc, hcan, he, hm, hcore⟩ := fieldRelease_opens hne hn (s := s.completePhase ch l) (ch := ch)
        (fun a ha => by rw [on a ha]; exact hfa a ha) hd
      refine ⟨_, e, hx, hm.trans pm, hex.trans (by rw [px]), htag, hch, hmem, hc, hcan, he.trans (by rw [pr]), fun a ha => ?_⟩
      obtain ⟨p, hp⟩ := Option.isSome_iff_exists.mp (hfa a ha)
      refine ⟨?_, fun q f hq => ?_⟩
      · rw [hcore a ha p.1 p.2 (by rw [on a ha]; exact hp), Core.onField_chan, State.completePhase_core hn ha, Core.completes_p]
      · rw [hcore a ha q f (by rw [on a ha]; exact hq)]
        exact Core.onField_fieldOn _ (fun _ => ⟨rfl, rfl⟩) (by rw [on a ha]; exact hq)
    · obtain ⟨hm, hex, hall⟩ := fieldRelease_stops (s := s.completePhase ch l) (ch := ch) hn ((digestsDiffer_iff hne).mpr hd)
      refine ⟨_, hx, hm.trans pm, hex.trans px, fun a ha => ?_⟩
      obtain ⟨hch, hq⟩ := hall a ha
      have hs (t : Nat) : (s.completePhase ch l).slot a.core t = s.slot a.core t := State.completePhase_slot hn ha t
      have hfs (f : Field) : (s.completePhase ch l).fieldSlot a.core f = s.fieldSlot a.core f := by simp only [State.fieldSlot, hs]
      refine ⟨?_, fun q f h => ?_⟩
      · rw [Core.chan, hch, State.completePhase_core hn ha]
        exact Core.completes_p _ _ _
      · have := hq q f (by rw [on a ha]; exact h)
        rw [hfs, hs] at this
        exact this

end Sys2Proof.Proofs
end

section
/-! PROOFS. Exchange phases: flits, deliveries, compute releases and their arrivals (R54, R55, R223, R227, R340, R407, R408, R410). -/

namespace Sys2Proof.Machine

open Sys2Proof Sys2Proof.Safety

/-! ## An exchange changes -/

theorem State.exch?_onExch (s : State) (xid : Nat) (f : Exch → Exch) (hf : ∀ e, (f e).xid = e.xid) : (s.onExch xid f).exch? xid = (s.exch? xid).map f := by
  have hp : ((fun e : Exch => e.xid == xid) ∘ fun e => if e.xid = xid then f e else e) = fun e => e.xid == xid := by
    funext e
    by_cases h : e.xid = xid <;> simp [h, hf]
  simp only [State.exch?, State.onExch, List.find?_map, hp]
  cases hx : s.exchanges.find? (fun e => e.xid == xid) with
  | none => rfl
  | some e =>
    have h : e.xid = xid := by simpa using List.find?_some hx
    simp [h]

theorem State.exch?_xid {s : State} {xid : Nat} {e : Exch} (h : s.exch? xid = some e) : e.xid = xid := by simpa using List.find?_some h

/-! ## Injection (R55) -/

theorem State.slotCycles_pos (s : State) (job : Nat) : 1 ≤ s.slotCycles job := by
  unfold State.slotCycles
  split
  · split <;> omega
  · omega

theorem State.slot_le_flitTime (s : State) (e : Exch) (f : Flit) : e.e + f.slot ≤ s.flitTime e f :=
  Nat.add_le_add_left (Nat.le_mul_of_pos_left _ (s.slotCycles_pos e.job)) _

/-- An exchange whose next flit is in flight. -/
def Exch.injects (e : Exch) (f : Flit) (r : List Flit) : Exch := { e with todo := r, air := e.air ++ [f] }

theorem exchangeFlitInject_injects {s : State} {xid : Nat} {e : Exch} {f : Flit} {r : List Flit} (hx : s.exch? xid = some e) (ht : e.todo = f :: r)
    (hr : s.flitTime e f ≤ s.rtime.toNat) : exec (.exchangeFlitInject xid) s = .next (s.onExch xid (fun e => e.injects f r)) := by
  change execExchangeFlitInject xid s = _
  simp only [execExchangeFlitInject, hx, ht, if_neg (Nat.not_lt.mpr hr)]
  rfl

/-! ## Delivery (R227, R410) -/

/-- An exchange whose flit i has left the wires. -/
def Exch.lands (i : Nat) (e : Exch) : Exch := { e with air := e.air.eraseIdx i }

/-- The machine once flit i of exchange xid has left the wires. -/
def State.landed (s : State) (xid i : Nat) : State := s.onExch xid (Exch.lands i)

theorem exchangeDelivery_delivers {s : State} {xid i : Nat} {e : Exch} {f : Flit} (hx : s.exch? xid = some e) (hi : e.air[i]? = some f)
    (hfirst : ∀ g ∈ e.air.take i, g.dst ≠ f.dst) (hseam : s.seamHolds 2 f.src f.dst = false) (ht : s.flitTime e f + 2 + hops f.src f.dst + 2 ≤ s.rtime.toNat) :
    exec (.exchangeDelivery xid i) s = .next (if e.tag < 8 then (s.landed xid i).deliverLevel e f else (s.landed xid i).deliverHalo e.ch f) := by
  have first : (e.air.take i).any (fun g => g.dst == f.dst) = false := by
    rw [List.any_eq_false]
    exact fun g hg => by simpa using hfirst g hg
  have due : decide (s.rtime.toNat < s.flitTime e f + 2 + hops f.src f.dst + 2) = false := decide_eq_false (Nat.not_lt.mpr ht)
  change execExchangeDelivery xid i s = _
  simp only [execExchangeDelivery, hx, hi, first, hseam, due, Bool.or_self, Bool.false_eq_true, if_false]
  rfl

/-- One more delivery of level n at a core. -/
def Core.receives (k : Core) (n : Nat) : Core := { k with xcnt := tset k.xcnt n (tget k.xcnt n 0 + 1) }

/-- A port register with a value. -/
def Core.fillsPort (k : Core) (p : Nat) (v : Word) : Core := { k with ports := tset k.ports p { present := true, val := v } }

/-- WINDOW of a flit that was dropped (R410). -/
def Flit.dropTrap (f : Flit) (reason : Nat) : Trap :=
  { code := 0x07, defer := true, page := f.page, op := f.op, addr := windowAddr f.dst f.off.toNat, info := memInfo reason 1 3 f.asid 0 false, fpc := f.fpc,
    map := none }

theorem State.deliverLevel_port {s : State} {e : Exch} {f : Flit} {p : Nat} (h : f.port = some p) :
    s.deliverLevel e f = (s.onCore f.dst (fun k => k.fillsPort p (f.data.setWidth 64))).onCore f.dst (fun k => k.receives e.tag) := by
  simp only [State.deliverLevel, h]
  rfl

theorem State.deliverLevel_written {s : State} {e : Exch} {f : Flit} (h : f.port = none) (hf : s.deliveryFault f = none) :
    s.deliverLevel e f = (s.writeAt (.plain (coreKey f.dst f.off.toNat)) (vecBytes f.data)).onCore f.dst (fun k => k.receives e.tag) := by
  simp only [State.deliverLevel, h, hf]
  rfl

/-- An exchange with one more dropped delivery. -/
def Exch.drops (e : Exch) (f : Flit) (reason : Nat) : Exch := { e with late := e.late ++ [(f.src, f.by_, f.dropTrap reason)] }

theorem State.deliverLevel_dropped {s : State} {e : Exch} {f : Flit} {r : Nat} (h : f.port = none) (hf : s.deliveryFault f = some r) :
    s.deliverLevel e f = s.onExch e.xid (fun x => x.drops f r) := by
  simp only [State.deliverLevel, h, hf]
  rfl

theorem State.deliveryFault_none {s : State} {f : Flit} (hx : inXarea (s.core f.dst).xareaNow f.off = true)
    (hg : s.fieldGuard f.dst f.off.toNat 64 = false) (hd : s.foreign f.dst f.dom f.off.toNat 64 = false) : s.deliveryFault f = none := by
  simp [State.deliveryFault, hx, hg, hd]

theorem State.deliveryFault_outside {s : State} {f : Flit} (hx : inXarea (s.core f.dst).xareaNow f.off = false)
    (hd : s.foreign f.dst f.dom f.off.toNat 64 = false) : s.deliveryFault f = some 2 := by
  simp [State.deliveryFault, hx, hd]

theorem State.writeAt_exchanges (s : State) (p : Place) (bs : List Byte) : (s.writeAt p bs).exchanges = s.exchanges := by
  unfold State.writeAt
  split
  · rfl
  · rfl

theorem State.landed_exch? {s : State} {xid i : Nat} {e : Exch} (h : s.exch? xid = some e) : (s.landed xid i).exch? xid = some (e.lands i) := by
  rw [State.landed, State.exch?_onExch s xid (Exch.lands i) (fun _ => rfl), h]
  rfl

/-- A level flit written into its area (R227). -/
theorem State.deliverLevel_area {s : State} {e : Exch} {f : Flit} (h : f.port = none) (hf : s.deliveryFault f = none) (hm : memInv s) :
    Memory.readBytes (s.deliverLevel e f).mem (coreKey f.dst f.off.toNat) 64 = vecBytes f.data ∧
    (∀ k, (k < coreKey f.dst f.off.toNat ∨ coreKey f.dst f.off.toNat + 64 ≤ k) → Memory.read (s.deliverLevel e f).mem k = Memory.read s.mem k) ∧
    (s.deliverLevel e f).core f.dst = (s.core f.dst).receives e.tag ∧ (s.deliverLevel e f).exchanges = s.exchanges := by
  have hw := State.deliverLevel_written (e := e) h hf
  rw [hw, State.core_onCore, State.writeAt_core]
  generalize coreKey f.dst f.off.toNat = k
  have hmem := State.writeAt_mem s (.plain k) (vecBytes f.data)
  have hex := State.writeAt_exchanges s (.plain k) (vecBytes f.data)
  have back := Memory.readBytes_writeBytes (vecBytes f.data) s.mem k hm
  rw [vecBytes_length] at back
  generalize s.writeAt (.plain k) (vecBytes f.data) = w at *
  have hmem' : (w.onCore f.dst (fun k => k.receives e.tag)).mem = Memory.writeBytes s.mem k (vecBytes f.data) := hmem
  rw [hmem']
  exact ⟨back, fun j hj => Memory.read_writeBytes_out _ _ _ _ (by rwa [vecBytes_length]), rfl, hex⟩

theorem State.exch?_congr {s u : State} (h : u.exchanges = s.exchanges) (xid : Nat) : u.exch? xid = s.exch? xid := by
  rw [State.exch?, h]
  rfl

/-- The delivery of a level flit: a port, memory, or dropped (R227, R410). -/
theorem deliverLevel_effects {s t : State} {xid : Nat} {e e' : Exch} (f : Flit) (hid : e.xid = xid) (hx : t.exch? xid = some e') (hc : t.cores = s.cores)
    (hd : t.domRange = s.domRange) (hmem : t.mem = s.mem) (hm : memInv s) :
    (f.port ≠ none ∨ s.deliveryFault f = none → (t.deliverLevel e f).exch? xid = some e') ∧
    (f.port = none → s.deliveryFault f = none →
      Memory.readBytes (t.deliverLevel e f).mem (coreKey f.dst f.off.toNat) 64 = vecBytes f.data ∧
      (∀ k, (k < coreKey f.dst f.off.toNat ∨ coreKey f.dst f.off.toNat + 64 ≤ k) → Memory.read (t.deliverLevel e f).mem k = Memory.read s.mem k) ∧
      (t.deliverLevel e f).core f.dst = (s.core f.dst).receives e.tag) ∧
    (∀ w, f.port = none → s.deliveryFault f = some w → (t.deliverLevel e f).mem = s.mem ∧ (t.deliverLevel e f).cores = s.cores ∧
      (t.deliverLevel e f).exch? xid = some (e'.drops f w)) ∧
    (∀ p, f.port = some p → (t.deliverLevel e f).mem = s.mem ∧
      (t.deliverLevel e f).core f.dst = ((s.core f.dst).fillsPort p (f.data.setWidth 64)).receives e.tag) := by
  have core : t.core f.dst = s.core f.dst := by rw [State.core, hc]; rfl
  have fault : t.deliveryFault f = s.deliveryFault f := by
    simp only [State.deliveryFault, State.foreign, State.fieldGuard, core, hd]
    rfl
  have hinv : memInv t := by rw [memInv, hmem]; exact hm
  refine ⟨fun h => ?kept, fun hp hf => ?written, fun w hp hf => ?dropped, fun p hp => ?port⟩
  case kept =>
    rw [← hx]
    cases hp : f.port with
    | some p =>
      rw [State.deliverLevel_port hp]
      rfl
    | none => exact State.exch?_congr (State.deliverLevel_area hp (fault.trans (h.resolve_left (fun hn => hn hp))) hinv).2.2.2 xid
  case written =>
    obtain ⟨hr, ho, hk, -⟩ := State.deliverLevel_area (e := e) hp (fault.trans hf) hinv
    rw [hmem] at ho
    exact ⟨hr, ho, hk.trans (by rw [core])⟩
  case dropped =>
    rw [State.deliverLevel_dropped hp (fault.trans hf)]
    refine ⟨hmem, hc, ?_⟩
    rw [hid, State.exch?_onExch t xid (fun x => x.drops f w) (fun _ => rfl), hx]
    rfl
  case port =>
    rw [State.deliverLevel_port hp]
    refine ⟨hmem, ?_⟩
    rw [State.core_onCore, State.core_onCore, core]

/-- The delivery of a halo flit (R284, R397). -/
theorem deliverHalo_effects {s : State} (xid i ch : Nat) (f : Flit) (hm : memInv s) :
    (s.haloGuard f.dst ch f.off.toNat f.bytes = false →
      Memory.readBytes ((s.landed xid i).deliverHalo ch f).mem (coreKey f.dst f.off.toNat) f.bytes = bytesOf f.bytes f.data.toNat) ∧
    (s.haloGuard f.dst ch f.off.toNat f.bytes = true → ((s.landed xid i).deliverHalo ch f).mem = s.mem) ∧
    (∀ k, (k < coreKey f.dst f.off.toNat ∨ coreKey f.dst f.off.toNat + f.bytes ≤ k) →
      Memory.read ((s.landed xid i).deliverHalo ch f).mem k = Memory.read s.mem k) := by
  have guard : (s.landed xid i).haloGuard f.dst ch f.off.toNat f.bytes = s.haloGuard f.dst ch f.off.toNat f.bytes := rfl
  cases h : s.haloGuard f.dst ch f.off.toNat f.bytes with
  | true =>
    have hx : (s.landed xid i).deliverHalo ch f = s.landed xid i := if_pos (guard.trans h)
    rw [hx]
    exact ⟨fun hf => absurd hf Bool.true_eq_false.mp, fun _ => rfl, fun _ _ => rfl⟩
  | false =>
    have hx : (s.landed xid i).deliverHalo ch f = (s.landed xid i).writeAt (.plain (coreKey f.dst f.off.toNat)) (bytesOf f.bytes f.data.toNat) :=
      if_neg (Bool.eq_false_iff.mp (guard.trans h))
    have hmem : ((s.landed xid i).deliverHalo ch f).mem = Memory.writeBytes s.mem (coreKey f.dst f.off.toNat) (bytesOf f.bytes f.data.toNat) := by
      rw [hx]
      exact State.writeAt_mem _ _ _
    have back := Memory.readBytes_writeBytes (bytesOf f.bytes f.data.toNat) s.mem (coreKey f.dst f.off.toNat) hm
    rw [bytesOf_length] at back
    rw [hmem]
    exact ⟨fun _ => back, fun hf => absurd hf Bool.false_ne_true, fun k hk => Memory.read_writeBytes_out _ _ _ _ (by rwa [bytesOf_length])⟩

/-! ## Compute releases (R55, R340) -/

/-- An exchange released at router cycle n. -/
def Exch.freed (n : Nat) (e : Exch) : Exch := { e with c := some n, released := e.members }

theorem computeRelease_releases {s : State} {xid hold : Nat} {e : Exch} (hx : s.exch? xid = some e) (ht : e.todo = []) (ha : e.air = []) (hc : e.c = none)
    (hw : s.withheld e = false) (hr : s.releaseTime e + hold ≤ s.rtime.toNat) :
    ∃ u, exec (.computeRelease xid hold) s = .next u ∧ u.exchanges = (s.onExch xid (Exch.freed s.rtime.toNat)).exchanges ∧ u.cores = s.cores ∧ u.mem = s.mem := by
  change ∃ u, execComputeRelease xid hold s = .next u ∧ _
  simp only [execComputeRelease, hx, ht, ha, hc, hw, List.isEmpty_nil, Option.isNone_none, Bool.not_false, Bool.and_self, hr, decide_true, if_true]
  split
  · exact ⟨_, rfl, rfl, rfl, rfl⟩
  · exact ⟨_, rfl, rfl, rfl, rfl⟩

theorem State.releaseTime_ge (s : State) (e : Exch) (h : e.slots ≠ 0) : e.e + (e.slots - 1) + 4 + e.hops ≤ s.releaseTime e := by
  have := Nat.le_mul_of_pos_left (e.slots - 1) (s.slotCycles_pos e.job)
  rw [State.releaseTime, if_neg h]
  omega

/-! ## The arrival of a compute release (R54, R339, R407, R408, R410) -/

/-- What traps that come to stand, and the lease, leave of core c: its slots but for further traps, its SYNC and its count, memory and the exchanges. -/
structure TrapsOnly (s u : State) (c : Nat) : Prop where
  slot : ∀ t, ∃ l, u.slot c t = { s.slot c t with traps := l } ∧ (s.slot c t).traps ⊆ l
  sync : (u.core c).sync = (s.core c).sync
  sstep : (u.core c).sstep = (s.core c).sstep
  mem : u.mem = s.mem
  exchanges : u.exchanges = s.exchanges

theorem TrapsOnly.refl (s : State) (c : Nat) : TrapsOnly s s c := ⟨fun _ => ⟨_, rfl, List.Subset.refl _⟩, rfl, rfl, rfl, rfl⟩

theorem TrapsOnly.trans {s u w : State} {c : Nat} (h : TrapsOnly s u c) (h' : TrapsOnly u w c) : TrapsOnly s w c := by
  refine ⟨fun t => ?_, h'.sync.trans h.sync, h'.sstep.trans h.sstep, h'.mem.trans h.mem, h'.exchanges.trans h.exchanges⟩
  obtain ⟨l, hl, hs⟩ := h.slot t
  obtain ⟨l', hl', hs'⟩ := h'.slot t
  rw [hl] at hl' hs'
  exact ⟨l', hl', fun _ h => hs' (hs h)⟩

theorem TrapsOnly.mode {s u : State} {c : Nat} (h : TrapsOnly s u c) (t : Nat) : (u.slot c t).mode = (s.slot c t).mode := by
  obtain ⟨l, hl, -⟩ := h.slot t
  rw [hl]

theorem TrapsOnly.traps {s u : State} {c : Nat} (h : TrapsOnly s u c) {t : Nat} {tr : Trap} (hm : tr ∈ (s.slot c t).traps) : tr ∈ (u.slot c t).traps := by
  obtain ⟨l, hl, hs⟩ := h.slot t
  rw [hl]
  exact hs hm

theorem Slot.queued_eq (x : Slot) (tr : Trap) : ∃ l, x.queued tr = { x with traps := l } ∧ x.traps ⊆ l := by
  unfold Slot.queued
  split
  · exact ⟨_, rfl, List.Subset.refl _⟩
  · exact ⟨_, rfl, List.subset_append_left _ _⟩

theorem State.queueTrap_slot (s : State) (c t : Nat) (tr : Trap) : (s.queueTrap c t tr).slot c t = (s.slot c t).queued tr := by
  rw [State.queueTrap, State.slot_onSlot]
  rfl

theorem trapsOnly_queueTrap (s : State) (c t : Nat) (tr : Trap) : TrapsOnly s (s.queueTrap c t tr) c := by
  refine ⟨fun v => ?_, ?_, ?_, rfl, rfl⟩
  · by_cases h : v = t
    · subst h
      rw [State.queueTrap_slot]
      exact (s.slot c v).queued_eq tr
    · exact ⟨_, by rw [State.queueTrap, State.slot_onSlot_ne _ _ _ _ _ h], List.Subset.refl _⟩
  · rw [State.queueTrap, State.core_onSlot, Core.setSlot_sync]
  · rw [State.queueTrap, State.core_onSlot, Core.setSlot_sstep]

/-- Traps that come to stand at core c one after another. -/
def State.queueTraps {α : Type} (s : State) (c : Nat) (t : α → Nat) (tr : α → Trap) (l : List α) : State := l.foldl (fun s a => s.queueTrap c (t a) (tr a)) s

theorem trapsOnly_queueTraps {α : Type} (c : Nat) (t : α → Nat) (tr : α → Trap) (l : List α) (s : State) : TrapsOnly s (s.queueTraps c t tr l) c := by
  induction l generalizing s with
  | nil => exact .refl s c
  | cons a l ih => exact (trapsOnly_queueTrap s c (t a) (tr a)).trans (ih _)

/-- Each of them stands at its slot, unless that is Free. -/
theorem State.mem_queueTraps {α : Type} (c : Nat) (t : α → Nat) (tr : α → Trap) {l : List α} (s : State) {a : α} (ha : a ∈ l)
    (hm : (s.slot c (t a)).mode ≠ .free) : tr a ∈ ((s.queueTraps c t tr l).slot c (t a)).traps := by
  induction l generalizing s with
  | nil => cases ha
  | cons b l ih =>
    rcases List.mem_cons.mp ha with rfl | ha
    · refine (trapsOnly_queueTraps c t tr l (s.queueTrap c (t a) (tr a))).traps ?_
      rw [State.queueTrap_slot]
      exact Slot.mem_queued hm
    · exact ih (s.queueTrap c (t b) (tr b)) ha (by rw [(trapsOnly_queueTrap s c (t b) (tr b)).mode]; exact hm)

theorem State.queueTraps_overrun {α : Type} (s : State) (c : Nat) (t : α → Nat) (tr : α → Trap) (l : List α) :
    ((s.queueTraps c t tr l).core c).overrun = (s.core c).overrun :=
  foldl_keeps (F := fun s a => s.queueTrap c (t a) (tr a)) (P := fun s => (s.core c).overrun)
    (fun s a => by rw [State.queueTrap, State.core_onSlot, Core.setSlot_overrun]) l s

theorem trapsOnly_onCore (s : State) (c : Nat) {f : Core → Core} (hf : ∀ k, (f k).slots = k.slots ∧ (f k).sync = k.sync ∧ (f k).sstep = k.sstep) :
    TrapsOnly s (s.onCore c f) c := by
  obtain ⟨hs, hy, hp⟩ := hf (s.core c)
  exact ⟨fun t => ⟨_, by rw [State.slot_onCore hs], List.Subset.refl _⟩, by rw [State.core_onCore, hy], by rw [State.core_onCore, hp], rfl, rfl⟩

theorem trapsOnly_leaseTick (s : State) (c : Nat) : TrapsOnly s (s.leaseTick c) c ∧ ((s.leaseTick c).core c).overrun = (s.core c).overrun := by
  have drawn : TrapsOnly s (s.boostTest c).2 c := ⟨fun t => ⟨_, rfl, List.Subset.refl _⟩, rfl, rfl, rfl, rfl⟩
  simp only [State.leaseTick]
  split
  · exact ⟨.refl s c, rfl⟩
  · split
    · split
      · exact ⟨drawn.trans (trapsOnly_onCore _ c (fun _ => ⟨rfl, rfl, rfl⟩)), by rw [State.core_onCore]; rfl⟩
      · exact ⟨drawn, rfl⟩
    · exact ⟨trapsOnly_onCore _ c (fun _ => ⟨rfl, rfl, rfl⟩), by rw [State.core_onCore]⟩

/-- A core whose SYNC of a level is over (R54). -/
def Core.syncOver (k : Core) (lvl : Nat) : Core := { k with sync := .none, sstep := if lvl = 1 then k.sstep + 1 else k.sstep }

/-- A control thread that goes on after its SYNC of a level (R54). -/
def Slot.resumes (x : Slot) (now lvl : Nat) (next : Word) : Slot :=
  match x.park with
  | some w => if w.kind = .sync lvl then { x.unpark now with pc := next, syncStands := none, icount := x.icount + 1 } else x
  | none => x

/-- A slot that still waits at a pc for its gang's partner. -/
def Slot.staysAt (x : Slot) (now : Nat) (pc : Word) : Slot := { (if x.park.isSome then x else x.parkAt now .partner) with pc := pc }

/-- Core c once its control thread has gone on. -/
def State.wentOn (s : State) (c lvl : Nat) : State :=
  (s.onCore c (fun k => k.syncOver lvl)).onSlot c 0 (fun x => x.resumes s.rtime.toNat lvl (s.core c).sync.next)

/-- Core c once its control thread has gone on, or stays for its gang. -/
def State.resumed (s : State) (c lvl : Nat) : State :=
  if ((s.wentOn c lvl).core c).gangDone.isSome then (s.wentOn c lvl).onSlot c 0 (fun x => x.staysAt s.rtime.toNat (s.slot c 0).pc) else s.wentOn c lvl

theorem State.resumeCore_eq (s : State) (c lvl : Nat) : s.resumeCore c lvl =
    let r := s.resumed c lvl
    let v := (r.queueTraps c (·.by_) (fun o => o.trap (overrunInfo o.by_ lvl o)) ((r.core c).cancelledBy lvl)).onCore c (fun k => k.clearOverruns lvl)
    if lvl = 1 then v.leaseTick c else v := rfl

/-- What a slot keeps as its SYNC ends: mode, registers and waiting traps. -/
structure Slot.Alike (x y : Slot) : Prop where
  mode : y.mode = x.mode
  g : y.g = x.g
  traps : y.traps = x.traps

theorem Slot.alike_resumes (x : Slot) (now lvl : Nat) (next : Word) : x.Alike (x.resumes now lvl next) := by
  obtain ⟨p, u, hu⟩ := x.unpark_eq now
  unfold Slot.resumes
  split
  · split
    · rw [hu]
      exact ⟨rfl, rfl, rfl⟩
    · exact ⟨rfl, rfl, rfl⟩
  · exact ⟨rfl, rfl, rfl⟩

theorem Slot.alike_staysAt (x : Slot) (now : Nat) (pc : Word) : x.Alike (x.staysAt now pc) := by
  obtain ⟨w, hw, -⟩ := x.parkAt_eq now .partner
  unfold Slot.staysAt
  split
  · exact ⟨rfl, rfl, rfl⟩
  · rw [hw]
    exact ⟨rfl, rfl, rfl⟩

theorem Slot.resumes_waiting {x : Slot} {w : Wait} (now : Nat) {lvl : Nat} (next : Word) (h : x.park = some w) (hk : w.kind = .sync lvl) :
    (x.resumes now lvl next).pc = next ∧ (w.mark = false → (x.resumes now lvl next).park = none) := by
  have hx : x.resumes now lvl next = { x.unpark now with pc := next, syncStands := none, icount := x.icount + 1 } := by
    simp only [Slot.resumes, h, hk, if_true]
  rw [hx]
  refine ⟨rfl, fun hm => ?_⟩
  simp only [Slot.unpark, h, hm, Bool.false_eq_true, if_false]

theorem State.resumed_facts (s : State) (c lvl : Nat) : ((s.resumed c lvl).core c).sync = .none ∧
    ((s.resumed c lvl).core c).sstep = (s.core c).sstep + (if lvl = 1 then 1 else 0) ∧ ((s.resumed c lvl).core c).overrun = (s.core c).overrun ∧
    (∀ t, (s.slot c t).Alike ((s.resumed c lvl).slot c t)) ∧
    (∀ w, (s.slot c 0).park = some w → w.kind = .sync lvl → (s.core c).gangDone = none →
      ((s.resumed c lvl).slot c 0).pc = (s.core c).sync.next ∧ (w.mark = false → ((s.resumed c lvl).slot c 0).park = none)) ∧
    (s.resumed c lvl).mem = s.mem ∧ (s.resumed c lvl).exchanges = s.exchanges := by
  unfold State.resumed
  generalize hv : s.wentOn c lvl = v
  unfold State.wentOn at hv
  have core : v.core c = ((s.core c).syncOver lvl).setSlot 0 ((s.slot c 0).resumes s.rtime.toNat lvl (s.core c).sync.next) := by
    rw [← hv, State.core_onSlot, State.core_onCore, State.slot_onCore rfl]
  have slot0 : v.slot c 0 = (s.slot c 0).resumes s.rtime.toNat lvl (s.core c).sync.next := by
    rw [State.slot, core, Core.slot_setSlot]
  have slot (t : Nat) (h : t ≠ 0) : v.slot c t = s.slot c t := by
    rw [State.slot, core, Core.slot_setSlot_ne _ _ _ _ h]
    rfl
  have hmem : v.mem = s.mem := by rw [← hv]; rfl
  have hex : v.exchanges = s.exchanges := by rw [← hv]; rfl
  have hsync : (v.core c).sync = .none := by rw [core]; rfl
  have hstep : (v.core c).sstep = (s.core c).sstep + (if lvl = 1 then 1 else 0) := by
    rw [core]
    change (if lvl = 1 then (s.core c).sstep + 1 else (s.core c).sstep) = _
    split
    · rfl
    · exact (BitVec.add_zero _).symm
  have hov : (v.core c).overrun = (s.core c).overrun := by rw [core]; rfl
  have hgang : (v.core c).gangDone = (s.core c).gangDone := by rw [core]; rfl
  have alike (t : Nat) : (s.slot c t).Alike (v.slot c t) := by
    by_cases h : t = 0
    · subst h
      rw [slot0]
      exact Slot.alike_resumes _ _ _ _
    · rw [slot t h]
      exact ⟨rfl, rfl, rfl⟩
  split
  · next hg =>
    refine ⟨?_, ?_, ?_, fun t => ?_, fun w _ _ hn => ?_, hmem, hex⟩
    · rw [State.core_onSlot]; exact hsync
    · rw [State.core_onSlot]; exact hstep
    · rw [State.core_onSlot]; exact hov
    · by_cases h : t = 0
      · subst h
        rw [State.slot_onSlot]
        obtain ⟨m, g, tr⟩ := alike 0
        obtain ⟨m', g', tr'⟩ := (v.slot c 0).alike_staysAt s.rtime.toNat (s.slot c 0).pc
        exact ⟨m'.trans m, g'.trans g, tr'.trans tr⟩
      · rw [State.slot_onSlot_ne _ _ _ _ _ h]
        exact alike t
    · rw [hgang, hn] at hg
      exact absurd hg Bool.false_ne_true
  · refine ⟨hsync, hstep, hov, alike, fun w hp hk _ => ?_, hmem, hex⟩
    rw [slot0]
    exact Slot.resumes_waiting _ _ hp hk

theorem Core.mem_clearOverruns {k : Core} {lvl : Nat} {o : Overrun} :
    o ∈ (k.clearOverruns lvl).overrun ↔ o ∈ k.overrun ∧ ¬(o.lvl = lvl ∧ o.carried = true) := by
  simp [Core.clearOverruns, List.mem_filter, imp_iff_not_or]

theorem Core.mem_cancelledBy {k : Core} {lvl : Nat} {o : Overrun} (h : o ∈ k.overrun) (hl : o.lvl = lvl) (hc : o.carried = true) : o ∈ k.cancelledBy lvl := by
  simp [Core.cancelledBy, List.mem_filter, h, hl, hc]

/-- What stands on core c once its threads have resumed: the traps of its overruns, whose flags are cleared (R407, R408). -/
theorem State.resumeCore_facts (s : State) (c lvl : Nat) : TrapsOnly (s.resumed c lvl) (s.resumeCore c lvl) c ∧
    (∀ o ∈ (s.core c).overrun, o.lvl = lvl → o.carried = true → (s.slot c o.by_).mode ≠ .free →
      o.trap (overrunInfo o.by_ lvl o) ∈ ((s.resumeCore c lvl).slot c o.by_).traps) ∧
    (∀ o, o ∈ ((s.resumeCore c lvl).core c).overrun ↔ o ∈ (s.core c).overrun ∧ ¬(o.lvl = lvl ∧ o.carried = true)) := by
  obtain ⟨-, -, hov, halike, -⟩ := s.resumed_facts c lvl
  have hx := s.resumeCore_eq c lvl
  generalize s.resumed c lvl = r at *
  have hq := trapsOnly_queueTraps c (fun o : Overrun => o.by_) (fun o => o.trap (overrunInfo o.by_ lvl o)) ((r.core c).cancelledBy lvl) r
  have hqo := r.queueTraps_overrun c (fun o : Overrun => o.by_) (fun o => o.trap (overrunInfo o.by_ lvl o)) ((r.core c).cancelledBy lvl)
  have hqm (o : Overrun) (ho : o ∈ (r.core c).cancelledBy lvl) := r.mem_queueTraps c (fun o : Overrun => o.by_) (fun o => o.trap (overrunInfo o.by_ lvl o)) ho
  simp only at hx
  generalize r.queueTraps c (fun o : Overrun => o.by_) (fun o => o.trap (overrunInfo o.by_ lvl o)) ((r.core c).cancelledBy lvl) = q at *
  have hc := trapsOnly_onCore q c (f := fun k => k.clearOverruns lvl) (fun _ => ⟨rfl, rfl, rfl⟩)
  have ho : ((q.onCore c (fun k => k.clearOverruns lvl)).core c).overrun = ((s.core c).clearOverruns lvl).overrun := by
    rw [State.core_onCore, Core.clearOverruns, Core.clearOverruns, hqo, hov]
  generalize q.onCore c (fun k => k.clearOverruns lvl) = v at *
  obtain ⟨htick, hto⟩ := trapsOnly_leaseTick v c
  have last : TrapsOnly v (s.resumeCore c lvl) c ∧ ((s.resumeCore c lvl).core c).overrun = (v.core c).overrun := by
    rw [hx]
    split
    · exact ⟨htick, hto⟩
    · exact ⟨.refl v c, rfl⟩
  refine ⟨hq.trans (hc.trans last.1), fun o hm hl hcar hmode => (hc.trans last.1).traps (hqm o ?_ ?_), fun o => ?_⟩
  · exact Core.mem_cancelledBy (by rw [hov]; exact hm) hl hcar
  · rw [(halike o.by_).mode]
    exact hmode
  · rw [last.2, ho]
    exact Core.mem_clearOverruns

theorem State.mem_leaveExchange {s : State} {xid c : Nat} {x : Exch} (h : x ∈ (s.leaveExchange xid c).exchanges) (hx : x.xid = xid) : c ∉ x.released := by
  obtain ⟨y, hy, rfl⟩ := List.mem_map.mp (List.mem_of_mem_filter h)
  split at hx
  · next he => simp [he]
  · next he => exact absurd hx he

theorem computeReleaseArrival_resumes {s : State} {c : Nat} {e : Exch} (hr : s.releasing c = some e) (ht : e.tag < 8)
    (hs : s.staggered e c (e.c.getD 0) ≤ s.rtime.toNat) :
    exec (.computeReleaseArrival c) s = .next (((s.leaveExchange e.xid c).resumeCore c e.tag).lateTraps e c) := by
  change execComputeReleaseArrival c s = _
  simp only [execComputeReleaseArrival, hr, if_neg (Nat.not_lt.mpr hs), if_pos ht]

theorem State.lateTraps_eq (s : State) (e : Exch) (c : Nat) :
    s.lateTraps e c = s.queueTraps c (·.2.1) (·.2.2) (e.late.filter (fun q => q.1 == c)) := rfl

/-- The arrival of a level's compute release at a core (R54, R407, R408, R410). -/
theorem computeReleaseArrival_effects {s : State} {c : Nat} {e : Exch} (hr : s.releasing c = some e) (ht : e.tag < 8)
    (hs : s.staggered e c (e.c.getD 0) ≤ s.rtime.toNat) :
    ∃ u, exec (.computeReleaseArrival c) s = .next u ∧ (u.core c).sync = .none ∧ (u.core c).sstep = (s.core c).sstep + (if e.tag = 1 then 1 else 0) ∧
      (∀ w, (s.slot c 0).park = some w → w.kind = .sync e.tag → (s.core c).gangDone = none →
        (u.slot c 0).pc = (s.core c).sync.next ∧ (w.mark = false → (u.slot c 0).park = none)) ∧ (u.slot c 0).g = (s.slot c 0).g ∧
      (∀ o ∈ (s.core c).overrun, o.lvl = e.tag → o.carried = true → (s.slot c o.by_).mode ≠ .free →
        ∃ tr ∈ (u.slot c o.by_).traps, tr.code = 0x0F ∧ tr.defer = true ∧ tr.fpc = o.fpc ∧ tr.info = overrunInfo o.by_ e.tag o) ∧
      (∀ o, o ∈ (u.core c).overrun ↔ o ∈ (s.core c).overrun ∧ ¬(o.lvl = e.tag ∧ o.carried = true)) ∧
      (∀ q ∈ e.late, q.1 = c → (s.slot c q.2.1).mode ≠ .free → q.2.2 ∈ (u.slot c q.2.1).traps) ∧
      (∀ x ∈ u.exchanges, x.xid = e.xid → c ∉ x.released) ∧ u.mem = s.mem := by
  have hleft (x : Exch) := @State.mem_leaveExchange s e.xid c x
  obtain ⟨hsync, hstep, -, halike, hgo, hmem, hex⟩ := (s.leaveExchange e.xid c).resumed_facts c e.tag
  obtain ⟨hres, htraps, hovr⟩ := (s.leaveExchange e.xid c).resumeCore_facts c e.tag
  refine ⟨_, computeReleaseArrival_resumes hr ht hs, ?_⟩
  rw [State.lateTraps_eq]
  generalize (s.leaveExchange e.xid c).resumed c e.tag = r at *
  generalize (s.leaveExchange e.xid c).resumeCore c e.tag = v at *
  have hlate := trapsOnly_queueTraps c (fun q : Nat × Nat × Trap => q.2.1) (fun q => q.2.2) (e.late.filter (fun q => q.1 == c)) v
  have hlo := v.queueTraps_overrun c (fun q : Nat × Nat × Trap => q.2.1) (fun q => q.2.2) (e.late.filter (fun q => q.1 == c))
  have hlm (q : Nat × Nat × Trap) (hq : q ∈ e.late.filter (fun q => q.1 == c)) :=
    v.mem_queueTraps c (fun q : Nat × Nat × Trap => q.2.1) (fun q => q.2.2) hq
  generalize v.queueTraps c (fun q : Nat × Nat × Trap => q.2.1) (fun q => q.2.2) (e.late.filter (fun q => q.1 == c)) = u at *
  have hall := hres.trans hlate
  obtain ⟨l, hl, -⟩ := hall.slot 0
  refine ⟨hall.sync.trans hsync, hall.sstep.trans hstep, fun w hp hk hg => ?_, ?_, fun o ho hlvl hc hm => ⟨_, hlate.traps (htraps o ho hlvl hc hm), rfl, rfl, rfl, rfl⟩,
    fun o => ?_, fun q hq hqc hm => hlm q (List.mem_filter.mpr ⟨hq, by simp [hqc]⟩) ?_, fun x hx he => ?_, hall.mem.trans hmem⟩
  · rw [hl]
    exact hgo w hp hk hg
  · rw [hl]
    exact (halike 0).g
  · rw [hlo]
    exact hovr o
  · rw [hres.mode, (halike q.2.1).mode]
    exact hm
  · rw [hall.exchanges, hex] at hx
    exact hleft x hx he

end Sys2Proof.Machine

namespace Sys2Proof.Proofs

open Sys2Proof Sys2Proof.Machine Sys2Proof.Safety

/-- Settles O52: each part is the rule of its step, on the exchange it names. -/
theorem exchangePhases : Obligations.ExchangePhases := by
  unfold Obligations.ExchangePhases
  refine ⟨?inject, ?level, ?halo, ?release, fun s c e hr ht hs => computeReleaseArrival_effects hr ht hs⟩
  case inject =>
    intro s xid e f r hx ht hr
    refine ⟨_, exchangeFlitInject_injects hx ht hr, ?_, rfl, rfl, rfl, le_trans (s.slot_le_flitTime e f) hr⟩
    rw [State.exch?_onExch s xid (fun e => e.injects f r) (fun _ => rfl), hx]
    rfl
  case level =>
    intro s xid i e f hx hi hfirst hseam htag ht hm
    obtain ⟨hkept, hwritten, hdropped, hport⟩ := deliverLevel_effects f (State.exch?_xid hx) (State.landed_exch? (i := i) hx) rfl rfl rfl hm
    have hexec := exchangeDelivery_delivers hx hi hfirst hseam ht
    rw [if_pos htag] at hexec
    refine ⟨_, hexec, hkept, fun hp hin hg hf => ?_, fun w hp hf => ?_, fun hp hin hf => State.deliveryFault_outside hin hf, fun p hp => ?_⟩
    · obtain ⟨hback, hout, hcore⟩ := hwritten hp (State.deliveryFault_none hin hg hf)
      refine ⟨hback, hout, ?_, by rw [hcore]; rfl⟩
      rw [hcore]
      exact tget_tset _ _ _ _
    · obtain ⟨hmem, hcores, hex⟩ := hdropped w hp hf
      exact ⟨hmem, hcores, f.dropTrap w, hex, rfl, rfl, rfl, rfl, rfl⟩
    · obtain ⟨hmem, hcore⟩ := hport p hp
      rw [hcore]
      exact ⟨hmem, tget_tset _ _ _ _, rfl, tget_tset _ _ _ _⟩
  case halo =>
    intro s xid i e f hx hi hfirst hseam htag ht hm
    have hexec := exchangeDelivery_delivers hx hi hfirst hseam ht
    rw [if_neg (Nat.not_lt.mpr htag)] at hexec
    exact ⟨_, hexec, deliverHalo_effects xid i e.ch f hm⟩
  case release =>
    intro s xid hold e hx ht ha hc hw hr
    obtain ⟨u, hu, hex, hcores, hmem⟩ := computeRelease_releases hx ht ha hc hw hr
    refine ⟨u, hu, ?_, fun h => if_pos h, fun h => s.releaseTime_ge e h, hcores, hmem⟩
    rw [State.exch?_congr hex, State.exch?_onExch s xid (Exch.freed s.rtime.toNat) (fun _ => rfl), hx]
    rfl

end Sys2Proof.Proofs
end

section
/-! PROOFS. The host's registers: reset, configuration requests, descriptors, doorbells, MSI-X, BAR4 and firmware (R317 to R320, R335, R424, R425). -/

namespace Sys2Proof.Machine

open Sys2Proof Sys2Proof.Safety

/-! ## Bring-up keeps the count of retries (R335) -/

theorem State.repairRow_configRetries (s : State) (row : Nat) : (s.repairRow row).configRetries = s.configRetries := by
  simp only [State.repairRow]
  split
  · rfl
  · split
    · rfl
    · split
      · rfl
      · rfl

theorem State.repairHbm_configRetries (s : State) : s.repairHbm.configRetries = s.configRetries :=
  foldl_keeps (F := State.repairRow) (P := State.configRetries) State.repairRow_configRetries _ _

theorem State.bindCore_shape (s : State) (c : Nat) : s.bindCore c = { s with remap := (s.bindCore c).remap } := by
  unfold State.bindCore
  split
  · rfl
  · split
    · rfl
    · rfl

/-- Binding logical cores changes the remap table alone (R417). -/
theorem State.rebind_shape (s : State) : s.rebind = { s with remap := s.rebind.remap } := by
  unfold State.rebind
  generalize (s.remap.filter (fun q => !bit q.2 24 && (s.core q.1).job.isNone)).map (·.1) = l
  induction l generalizing s with
  | nil => rfl
  | cons c l ih =>
    rw [List.foldl_cons, ih (s.bindCore c), s.bindCore_shape c]

theorem State.trainPort_configRetries (s : State) (p : Nat) : (s.trainPort p).configRetries = s.configRetries := by
  simp only [State.trainPort]
  split
  · rfl
  · rfl

theorem State.steer_configRetries (s : State) : s.steer.configRetries = s.configRetries := by
  unfold State.steer
  rw [foldl_keeps (F := State.trainPort) (P := State.configRetries) State.trainPort_configRetries]
  exact s.repairHbm_configRetries

theorem State.bringUpStage_configRetries (s : State) (k : Nat) : (s.bringUpStage k).configRetries = s.configRetries := by
  simp only [State.bringUpStage]
  split
  · rfl
  · split
    · exact State.repairHbm_configRetries _
    · split
      · rfl
      · split
        · have steered := State.steer_configRetries ({ s with stage := k } : State).rebind
          have bound : ({ s with stage := k } : State).rebind.configRetries = s.configRetries := by rw [State.rebind_shape]
          generalize ({ s with stage := k } : State).rebind.steer = u at *
          exact steered.trans bound
        · rfl

theorem State.bringUp_configRetries (s : State) : s.bringUp.configRetries = s.configRetries := by
  simp only [State.bringUp]
  split
  · rfl
  · split
    · split
      · rfl
      · rfl
    · exact State.bringUpStage_configRetries _ _

/-! ## Configuration requests (R335, R378, R379) -/

theorem configurationRequest_retries {s : State} (r : CfgWrite) (h : s.ready = false) :
    ∃ u, exec (.configurationRequest r) s = .next u ∧ u.configRetries = s.configRetries + 1 := by
  change ∃ u, execConfigurationRequest r s = .next u ∧ _
  simp only [execConfigurationRequest, h, Bool.false_eq_true, if_false]
  exact ⟨_, rfl, State.bringUp_configRetries _⟩

/-- PRI's failure after a write of PRI Enable (R379). -/
def State.priAfter (s : State) (r : CfgWrite) : Bool := match r.pri with | some b => s.priFailed && !(b && !s.priEnable) | none => s.priFailed

theorem configurationRequest_writes {s : State} (r : CfgWrite) (h : s.ready = true) : exec (.configurationRequest r) s =
    .next { s with priEnable := r.pri.getD s.priEnable, priFailed := s.priAfter r, priAlloc := r.alloc.getD s.priAlloc } := by
  have hx : exec (.configurationRequest r) s = _ := congrArg Host.Outcome.next (if_pos h)
  rw [hx]
  obtain ⟨pri, alloc⟩ := r
  cases pri with
  | none => cases alloc with
    | none => rfl
    | some n => rfl
  | some b => cases alloc with
    | none => rfl
    | some n => rfl

theorem State.priAfter_facts (s : State) (r : CfgWrite) : (r.pri ≠ some true → s.priAfter r = s.priFailed) ∧
    (s.priEnable = true → s.priAfter r = s.priFailed) ∧ (r.pri = some true → s.priEnable = false → s.priAfter r = false) := by
  unfold State.priAfter
  cases hp : r.pri with
  | none => exact ⟨fun _ => rfl, fun _ => rfl, fun h => nomatch h⟩
  | some b => cases b <;> cases s.priEnable <;> simp

/-! ## Nothing in the recovery configuration (R424) -/

theorem recovery_ignores {s : State} (h : s.fail = true) : (∀ q w v, exec (.queueDescriptorWrite q w v) s = .next s) ∧
    (∀ v, exec (.msixUnmask v) s = .next s) ∧ (∀ a v, exec (.hostRegisterWrite a v) s = .next s) ∧ (∀ w a v, exec (.hostBar4Access w a v) s = .next s) :=
  ⟨fun _ _ _ => congrArg Host.Outcome.next (if_pos (.inr h)), fun _ => congrArg Host.Outcome.next (if_pos (.inr h)), fun _ _ => congrArg Host.Outcome.next (if_pos (.inl h)),
    fun _ _ _ => congrArg Host.Outcome.next (if_pos h)⟩

/-! ## Descriptors (R319) -/

theorem fld_eq (w : Word) (lo n : Nat) : fld w lo n = w.toNat / 2 ^ lo % 2 ^ n := by rw [fld, Nat.shiftRight_eq_div_pow]

/-- Word 1 as it is held (R6, R319). -/
theorem descWord1_toNat (v : Word) : (descWord1 v).toNat = v.toNat % 2 ^ 14 + v.toNat / 2 ^ 16 % 2 ^ 12 * 2 ^ 16 := by
  rw [descWord1, BitVec.toNat_ofNat, fld_eq, fld_eq]
  have h1 := Nat.mod_lt v.toNat (show 0 < 2 ^ 14 by decide)
  have h2 := Nat.mod_lt (v.toNat / 2 ^ 16) (show 0 < 2 ^ 12 by decide)
  rw [Nat.pow_zero, Nat.div_one, Nat.mod_eq_of_lt]
  omega

theorem getLsbD_eq_fld (v : Word) (i : Nat) : v.getLsbD i = (fld v i 1 == 1) := (bit_eq_getLsbD v i).symm

theorem descWord1_fields (x : WQueue) (v : Word) :
    ({ x with ctlw := descWord1 v } : WQueue).log2 = v.toNat % 32 ∧ ({ x with ctlw := descWord1 v } : WQueue).prio = v.toNat / 2 ^ 5 % 8 ∧
    ({ x with ctlw := descWord1 v } : WQueue).weight = v.toNat / 2 ^ 8 % 16 + 1 ∧ ({ x with ctlw := descWord1 v } : WQueue).en = v.getLsbD 13 ∧
    ({ x with ctlw := descWord1 v } : WQueue).vec = v.toNat / 2 ^ 16 % 2048 ∧ ({ x with ctlw := descWord1 v } : WQueue).ien = v.getLsbD 27 := by
  have hw := descWord1_toNat v
  have bit_at (i : Nat) (hi : (descWord1 v).toNat / 2 ^ i % 2 ^ 1 = v.toNat / 2 ^ i % 2 ^ 1) : bit (descWord1 v) i = v.getLsbD i := by
    rw [bit, getLsbD_eq_fld, fld_eq, fld_eq, hi]
  refine ⟨?_, ?_, ?_, bit_at 13 ?_, ?_, bit_at 27 ?_⟩
  · simp only [WQueue.log2, fld_eq, hw]; omega
  · simp only [WQueue.prio, fld_eq, hw]; omega
  · simp only [WQueue.weight, fld_eq, hw]; omega
  · rw [hw]; omega
  · simp only [WQueue.vec, fld_eq, hw]; omega
  · rw [hw]; omega

theorem State.queue_setQueue (s : State) (q : Nat) (x : WQueue) : (s.setQueue q x).queue q = x := tget_tset _ _ _ _
theorem State.queue_setQueue_ne (s : State) (q p : Nat) (x : WQueue) (h : p ≠ q) : (s.setQueue q x).queue p = s.queue p := tget_tset_ne _ _ _ _ _ h

/-- The descriptor after a write of its word 1. -/
def WQueue.controlled (x : WQueue) (v : Word) : WQueue :=
  let y : WQueue := { x with ctlw := descWord1 v }
  if y.en && !x.en then { y with ridx := 0, widx := 0, qerr := 0 } else y

theorem WQueue.controlled_ctlw (x : WQueue) (v : Word) : (x.controlled v).ctlw = descWord1 v ∧ (x.controlled v).ring = x.ring := by
  simp only [WQueue.controlled]
  split
  · exact ⟨rfl, rfl⟩
  · exact ⟨rfl, rfl⟩

theorem WQueue.controlled_facts (x : WQueue) (v : Word) : (x.controlled v).log2 = v.toNat % 32 ∧ (x.controlled v).prio = v.toNat / 2 ^ 5 % 8 ∧
    (x.controlled v).weight = v.toNat / 2 ^ 8 % 16 + 1 ∧ (x.controlled v).en = v.getLsbD 13 ∧ (x.controlled v).vec = v.toNat / 2 ^ 16 % 2048 ∧
    (x.controlled v).ien = v.getLsbD 27 ∧ (x.controlled v).ring = x.ring ∧
    (v.getLsbD 13 = true → x.en = false → (x.controlled v).ridx = 0 ∧ (x.controlled v).widx = 0 ∧ (x.controlled v).qerr = 0) := by
  obtain ⟨hctlw, hring⟩ := x.controlled_ctlw v
  obtain ⟨hlog, hprio, hwt, hen, hvec, hien⟩ := descWord1_fields (x.controlled v) v
  have same : ({ x.controlled v with ctlw := descWord1 v } : WQueue) = x.controlled v := by rw [← hctlw]
  rw [same] at hlog hprio hwt hen hvec hien
  refine ⟨hlog, hprio, hwt, hen, hvec, hien, hring, fun h h0 => ?_⟩
  have hy : (({ x with ctlw := descWord1 v } : WQueue).en && !x.en) = true := by
    rw [(descWord1_fields x v).2.2.2.1, h, h0]
    rfl
  simp only [WQueue.controlled, hy, if_true, and_self]

theorem queueDescriptorWrite_writes (s : State) (q : Nat) (w : BitVec 2) (v : Word) (hf : s.fail = false) (hq : q < 65536) :
    ∃ u, exec (.queueDescriptorWrite q w v) s = .next u ∧ (∀ p, p ≠ q → u.queue p = s.queue p) ∧ u.mem = s.mem ∧
      (w = 0 → u.queue q = { s.queue q with ring := v }) ∧ (2 ≤ w.toNat → u = s) ∧ (w = 1 → u.queue q = (s.queue q).controlled v) := by
  have open_ : ¬(65536 ≤ q ∨ s.fail = true) := by simp [hf, hq]
  change ∃ u, execQueueDescriptorWrite q w v s = .next u ∧ _
  simp only [execQueueDescriptorWrite, if_neg open_]
  by_cases h0 : w = 0
  · subst h0
    simp only [if_true]
    exact ⟨_, rfl, fun p hp => State.queue_setQueue_ne _ _ _ _ hp, rfl, fun _ => State.queue_setQueue _ _ _, fun h => absurd h (by decide),
      fun h => absurd h (by decide)⟩
  · simp only [h0, if_false]
    by_cases h1 : w = 1
    · subst h1
      simp only [if_true]
      refine ⟨_, rfl, fun p hp => (State.queue_setQueue_ne _ _ _ _ hp).trans ?_, ?_, fun h => h.elim, fun h => absurd h (by decide),
        fun _ => State.queue_setQueue _ _ _⟩
      · split
        · rfl
        · rfl
      · split
        · rfl
        · rfl
    · simp only [h1, if_false]
      exact ⟨s, rfl, fun _ _ => rfl, rfl, fun h => h.elim, fun _ => rfl, fun h => h.elim⟩

/-! ## Doorbells (R320, R425) -/

/-- EN cleared in a queue's word 1. -/
theorem putFld_en_off (w : Word) : bit (putFld w 13 1 0) 13 = false := by
  have hw := w.isLt
  have h : (putFld w 13 1 0).toNat / 2 ^ 13 % 2 ^ 1 = 0 := by
    rw [putFld, BitVec.toNat_ofNat, fld_eq]
    omega
  rw [bit, fld_eq, h]
  rfl

/-- QUEUE_ERROR: the queue is disabled with its code, logged, and its message goes (R425). -/
theorem State.queueError_facts (s : State) (q err : Nat) : ((s.queueError q err).queue q).en = false ∧
    ((s.queueError q err).queue q).widx = (s.queue q).widx ∧ (s.queueError q err).hlcount = s.hlcount + 1 ∧ ((s.queueError q err).queue q).qerr = err ∧
    ((s.queue q).ien = true → (s.msixVec (s.queue q).vec).masked = false → (s.queueError q err).msixSent = s.msixSent ++ [(s.queue q).vec]) := by
  have hx : s.queueError q err = if (s.queue q).ien then
      (((s.forgetNext q).setQueue q { s.queue q with ctlw := putFld (s.queue q).ctlw 13 1 0, qerr := err }).log q err 1).sendMsix (s.queue q).vec
    else ((s.forgetNext q).setQueue q { s.queue q with ctlw := putFld (s.queue q).ctlw 13 1 0, qerr := err }).log q err 1 := rfl
  generalize hv : ((s.forgetNext q).setQueue q { s.queue q with ctlw := putFld (s.queue q).ctlw 13 1 0, qerr := err }).log q err 1 = v at hx
  have hqueue : v.queue q = { s.queue q with ctlw := putFld (s.queue q).ctlw 13 1 0, qerr := err } := by
    rw [← hv]
    exact State.queue_setQueue _ _ _
  have hcount : v.hlcount = s.hlcount + 1 := by rw [← hv]; rfl
  have hsent : v.msixSent = s.msixSent := by rw [← hv]; rfl
  have hvec : v.msixVec (s.queue q).vec = s.msixVec (s.queue q).vec := by rw [← hv]; rfl
  have sent (n : Nat) : (v.sendMsix n).queue q = v.queue q ∧ (v.sendMsix n).hlcount = v.hlcount ∧
      ((v.msixVec n).masked = false → (v.sendMsix n).msixSent = v.msixSent ++ [n]) := by
    simp only [State.sendMsix]
    split
    · next h => exact ⟨rfl, rfl, fun hm => absurd (h.symm.trans hm) (by decide)⟩
    · exact ⟨rfl, rfl, fun _ => rfl⟩
  have off : ({ s.queue q with ctlw := putFld (s.queue q).ctlw 13 1 0, qerr := err } : WQueue).en = false := putFld_en_off _
  rw [hx]
  split
  · obtain ⟨hq, hc, hm⟩ := sent (s.queue q).vec
    rw [hq, hqueue, hc, hcount]
    exact ⟨off, rfl, rfl, rfl, fun _ hmask => by rw [hm (by rw [hvec]; exact hmask), hsent]⟩
  · next hien =>
    rw [hqueue, hcount]
    exact ⟨off, rfl, rfl, rfl, fun h => absurd h hien⟩

theorem writeIndexDoorbell_rings {s : State} {q : Nat} {v : Word} (hr : s.ready = true) (hq : q < 65536) (he : (s.queue q).en = true) :
    exec (.writeIndexDoorbell q v) s = .next (
      if 2 ^ 31 ≤ (v.toNat % 2 ^ 32 + 2 ^ 32 - (s.queue q).widx) % 2 ^ 32 then s.queueError q 1
      else if 2 ^ (s.queue q).log2 < (v.toNat % 2 ^ 32 + 2 ^ 32 - (s.queue q).ridx) % 2 ^ 32 then s.queueError q 2
      else s.setQueue q { s.queue q with widx := v.toNat % 2 ^ 32 }) := by
  have hw : fld v 0 32 = v.toNat % 2 ^ 32 := by rw [fld_eq, Nat.pow_zero, Nat.div_one]
  have open_ : ¬(65536 ≤ q ∨ (s.queue q).en = false) := by
    rw [he]
    simp
    omega
  change execWriteIndexDoorbell q v s = _
  simp only [execWriteIndexDoorbell, hr, Bool.true_eq_false, if_false, if_neg open_, hw]

/-! ## MSI-X and BAR0 (R317, R328) -/

theorem msixUnmask_sends {s : State} {v : Nat} (hf : s.fail = false) (hv : v < 2048) : ∃ u, exec (.msixUnmask v) s = .next u ∧ (u.msixVec v).masked = false ∧
    u.msixSent = (if (s.msixVec v).pending then s.msixSent ++ [v] else s.msixSent) ∧ u.mem = s.mem := by
  have open_ : ¬(2048 ≤ v ∨ s.fail = true) := by
    rw [hf]
    simp
    omega
  have unmasked : tget (tset s.msix v ({ masked := false, pending := false } : Msix)) v Msix.reset = { masked := false, pending := false } := tget_tset _ _ _ _
  change ∃ u, execMsixUnmask v s = .next u ∧ _
  simp only [execMsixUnmask, if_neg open_]
  split
  · exact ⟨_, rfl, congrArg Msix.masked unmasked, rfl, rfl⟩
  · exact ⟨_, rfl, congrArg Msix.masked unmasked, rfl, rfl⟩

theorem hostRegisterWrite_mask {s : State} {n : Nat} (v : Word) (hf : s.fail = false) (hn : n < 2048) :
    ∃ u, exec (.hostRegisterWrite (0x300000 + 16 * n + 8) v) s = .next u ∧ u.mem = s.mem ∧ u.queues = s.queues ∧ (u.msixVec n).masked = v.getLsbD 32 ∧
      (v.getLsbD 32 = true → u.msixSent = s.msixSent) := by
  have open_ : ¬(s.fail = true ∨ (0x300000 + 16 * n + 8) % 8 ≠ 0 ∨ 0x4000000 ≤ 0x300000 + 16 * n + 8 ∨ 0x300000 + 16 * n + 8 < 0x18 ∨
      (0x100000 ≤ 0x300000 + 16 * n + 8 ∧ 0x300000 + 16 * n + 8 < 0x300000) ∨ (0x308000 ≤ 0x300000 + 16 * n + 8 ∧ 0x300000 + 16 * n + 8 < 0x308100) ∨
      (0x400000 ≤ 0x300000 + 16 * n + 8 ∧ 0x300000 + 16 * n + 8 < 0x420000)) := by
    rw [hf]
    simp only [Bool.false_eq_true, false_or]
    omega
  have table : 0x300000 ≤ 0x300000 + 16 * n + 8 ∧ 0x300000 + 16 * n + 8 < 0x308000 ∧ (0x300000 + 16 * n + 8) % 16 = 8 := by omega
  have index : (0x300000 + 16 * n + 8 - 0x300000) / 16 = n := by omega
  have held (t : Tbl Msix) (m : Msix) : tget (tset t n m) n Msix.reset = m := tget_tset _ _ _ _
  change ∃ u, execHostRegisterWrite (0x300000 + 16 * n + 8) v s = .next u ∧ _
  simp only [execHostRegisterWrite, if_neg open_, if_pos table, index, bit_eq_getLsbD]
  split
  · next h => exact ⟨_, rfl, rfl, rfl, (congrArg Msix.masked (held _ _)).trans h.symm, fun _ => rfl⟩
  · next h =>
    have h' : v.getLsbD 32 = false := Bool.eq_false_iff.mpr h
    split
    · exact ⟨_, rfl, rfl, rfl, (congrArg Msix.masked (held _ _)).trans h'.symm, fun ht => absurd ht h⟩
    · exact ⟨_, rfl, rfl, rfl, (congrArg Msix.masked (held _ _)).trans h'.symm, fun ht => absurd ht h⟩

/-! ## BAR4 (R317) -/

theorem State.faultsFor_not_admits {s : State} {key : Nat} {w : Bool} (h : s.faultsFor key w = true) : s.admits key w = false := by
  unfold State.faultsFor at h
  unfold State.admits
  cases ho : s.objAt key with
  | none => simp only [ho] at h; exact absurd h Bool.false_ne_true
  | some o =>
    simp only [ho] at h ⊢
    cases w with
    | true => rfl
    | false =>
      simp only [Bool.false_eq_true, if_false] at h
      split at h
      · next hd => simp [hd]
      · exact absurd h Bool.false_ne_true

/-- A BAR4 access while none waits: it comes to its unit at once. -/
theorem hostBar4Access_arrives {s : State} {w : Bool} {off : Nat} {v : Word} (hf : s.fail = false) (hw : s.hostWaits = []) (ha : off % 8 = 0)
    (ho : off < Config.commonsBytes) : exec (.hostBar4Access w off v) s = .next (
      let u := s.hostArrive { id := s.nextId, write := w, off := off, val := v }
      if u.hostWaits.any (fun a => a.id == s.nextId) then { u with nextId := s.nextId + 1 } else u) := by
  have hs : ({ s with hostWaits := [] } : State) = s := by rw [← hw]
  have served : ({ s with hostWaits := [] } : State).hostServe s.hostWaits = s := by
    rw [hw, hs]
    rfl
  have hx : exec (.hostBar4Access w off v) s = _ := congrArg Host.Outcome.next ((if_neg (Bool.eq_false_iff.mp hf)).trans (if_pos (And.intro ha ho)))
  rw [hx, served]

theorem State.hostArrive_eq {s : State} {a : HostAccess} (hw : s.hostWaits = []) : s.hostArrive a =
    if s.admits (commonsKey a.off) a.write then s.hostPerform a else if s.faultsFor (commonsKey a.off) a.write then s
    else ({ s with hostWaits := [a] } : State).parkOther (.host a.id) (commonsKey a.off) a.write := by
  simp only [State.hostArrive, hw, List.any_nil, Bool.false_eq_true, if_false, List.nil_append]

theorem hostBar4Access_write {s : State} {off : Nat} (v : Word) (hi : memInv s) (hf : s.fail = false) (hw : s.hostWaits = []) (ha : off % 8 = 0)
    (ho : off < Config.commonsBytes) (hadm : s.admits (commonsKey off) true = true) :
    ∃ u, exec (.hostBar4Access true off v) s = .next u ∧ Memory.readBytes u.mem (commonsKey off) 8 = bytesOf 8 v.toNat ∧
      (∀ k, (k < commonsKey off ∨ commonsKey off + 8 ≤ k) → Memory.read u.mem k = Memory.read s.mem k) := by
  have harr : s.hostArrive { id := s.nextId, write := true, off := off, val := v } = s.writeAt (.plain (commonsKey off)) (bytesOf 8 v.toNat) := by
    rw [State.hostArrive_eq hw, if_pos hadm]
    rfl
  rw [hostBar4Access_arrives hf hw ha ho, harr]
  have hmem := State.writeAt_mem s (.plain (commonsKey off)) (bytesOf 8 v.toNat)
  have back := Memory.readBytes_writeBytes (bytesOf 8 v.toNat) s.mem (commonsKey off) hi
  rw [bytesOf_length] at back
  generalize s.writeAt (.plain (commonsKey off)) (bytesOf 8 v.toNat) = u at *
  have hu : (if u.hostWaits.any (fun a => a.id == s.nextId) then ({ u with nextId := s.nextId + 1 } : State) else u).mem = u.mem := by
    split
    · rfl
    · rfl
  refine ⟨_, rfl, ?_, fun k hk => ?_⟩
  · rw [hu, hmem]
    exact back
  · rw [hu, hmem]
    exact Memory.read_writeBytes_out _ _ _ _ (by rwa [bytesOf_length])

theorem hostBar4Access_read {s : State} {off : Nat} (v : Word) (hf : s.fail = false) (hw : s.hostWaits = []) (ha : off % 8 = 0)
    (ho : off < Config.commonsBytes) (hadm : s.admits (commonsKey off) false = true) :
    ∃ u r, exec (.hostBar4Access false off v) s = .next u ∧ u = { s with reads := s.reads ++ [r] } ∧ r.port = none ∧
      r.data = Memory.readBytes s.mem (commonsKey off) 8 ∧ r.poisoned = (s.poisoned (commonsKey off) 8).isSome := by
  have harr : s.hostArrive { id := s.nextId, write := false, off := off, val := v } = s.readOut none (commonsKey off) 8 := by
    rw [State.hostArrive_eq hw, if_pos hadm]
    rfl
  have none_ : ¬((s.readOut none (commonsKey off) 8).hostWaits.any (fun a => a.id == s.nextId) = true) := by
    change ¬(s.hostWaits.any _ = true)
    rw [hw]
    simp
  rw [hostBar4Access_arrives hf hw ha ho, harr]
  simp only [if_neg none_]
  exact ⟨_, _, rfl, rfl, rfl, rfl, rfl⟩

theorem hostBar4Access_faults {s : State} {w : Bool} {off : Nat} (v : Word) (hf : s.fail = false) (hw : s.hostWaits = []) (ha : off % 8 = 0)
    (ho : off < Config.commonsBytes) (hflt : s.faultsFor (commonsKey off) w = true) : exec (.hostBar4Access w off v) s = .next s := by
  have harr : s.hostArrive { id := s.nextId, write := w, off := off, val := v } = s := by
    rw [State.hostArrive_eq hw, if_neg (Bool.eq_false_iff.mp (State.faultsFor_not_admits hflt)), if_pos hflt]
  have none_ : ¬(s.hostWaits.any (fun a => a.id == s.nextId) = true) := by simp [hw]
  rw [hostBar4Access_arrives hf hw ha ho, harr]
  exact congrArg Host.Outcome.next (if_neg none_)

theorem State.parkOther_shape (s : State) (who : Parker) (key : Nat) (write : Bool) :
    s.parkOther who key write = { s with objs := (s.parkOther who key write).objs } := by
  unfold State.parkOther
  split
  · split
    · rfl
    · rfl
  · rfl

/-- An access of no core joins the queue of its object (R248). -/
theorem State.parkOther_joins {s : State} {who : Parker} {key : Nat} {write : Bool} {o : Obj} (ho : s.objAt key = some o) (hp : s.parksFull o = false)
    (hq : ∀ q ∈ o.queue, q.who ≠ who) : ∃ y ∈ (s.parkOther who key write).objs, y.id = o.id ∧ y.state = o.state ∧
      ∃ q, y.queue = o.queue ++ [q] ∧ q.core = 2048 ∧ q.who = who := by
  have hmem : o ∈ s.objs := List.mem_of_find?_eq_some ho
  have hx : s.parkOther who key write = s.enqueue o.id { core := noCore, who := who, need := if write then 2 else 1, n := 1, unit := 0, parts := [(0, .plain key, [])] } := by
    simp only [State.parkOther, ho, hp, Bool.false_eq_true, if_false]
  generalize hqd : ({ core := noCore, who := who, need := if write then 2 else 1, n := 1, unit := 0, parts := [(0, .plain key, [])] } : Parked) = q at hx
  have hnew : o.queue.contains q = false := by
    rw [List.contains_eq_mem, decide_eq_false_iff_not]
    intro hc
    exact hq q hc (by rw [← hqd])
  rw [hx]
  refine ⟨{ o with queue := o.queue ++ [q] }, List.mem_map.mpr ⟨o, hmem, ?_⟩, rfl, rfl, q, rfl, by rw [← hqd]; rfl, by rw [← hqd]⟩
  simp only [if_true, hnew, Bool.false_eq_true, if_false]

theorem hostBar4Access_parks {s : State} {w : Bool} {off : Nat} (v : Word) (hf : s.fail = false) (hw : s.hostWaits = []) (ha : off % 8 = 0)
    (ho : off < Config.commonsBytes) (hadm : s.admits (commonsKey off) w = false) (hflt : s.faultsFor (commonsKey off) w = false) :
    ∃ u, exec (.hostBar4Access w off v) s = .next u ∧ u.hostWaits = [{ id := s.nextId, write := w, off := off, val := v }] ∧ u.mem = s.mem ∧
      u.reads = s.reads ∧ (∀ o, s.objAt (commonsKey off) = some o → s.parksFull o = false → (∀ q ∈ o.queue, q.who ≠ .host s.nextId) →
        ∃ y ∈ u.objs, y.id = o.id ∧ y.state = o.state ∧ ∃ q, y.queue = o.queue ++ [q] ∧ q.core = 2048 ∧ q.who = .host s.nextId) := by
  generalize had : ({ id := s.nextId, write := w, off := off, val := v } : HostAccess) = a
  have harr : s.hostArrive a = ({ s with hostWaits := [a] } : State).parkOther (.host s.nextId) (commonsKey off) w := by
    rw [State.hostArrive_eq hw, ← had, if_neg (Bool.eq_false_iff.mp hadm), if_neg (Bool.eq_false_iff.mp hflt)]
  have hjoin (o : Obj) (h1 : s.objAt (commonsKey off) = some o) (h2 : s.parksFull o = false) (h3 : ∀ q ∈ o.queue, q.who ≠ .host s.nextId) :=
    State.parkOther_joins (s := { s with hostWaits := [a] }) (write := w) (o := o) h1 h2 h3
  rw [hostBar4Access_arrives hf hw ha ho, had, harr, State.parkOther_shape]
  generalize (({ s with hostWaits := [a] } : State).parkOther (.host s.nextId) (commonsKey off) w).objs = l at *
  have mine : [a].any (fun a => a.id == s.nextId) = true := by simp [← had]
  simp only [mine, if_true]
  exact ⟨_, rfl, rfl, rfl, rfl, hjoin⟩

/-! ## Firmware (R424) -/

theorem firmwareUpdate_measures {s : State} (ok : Bool) (h : s.fail = true) : ∃ u, exec (.firmwareUpdate ok) s = .next u ∧
    u.attest = s.attest ++ [{ image := s.attest.length + 1, ok := ok }] ∧ u.firmware = (if ok then s.attest.length + 1 else s.firmware) ∧ u.fail = true ∧
    u.ready = s.ready ∧ u.mem = s.mem := by
  change ∃ u, execFirmwareUpdate ok s = .next u ∧ _
  simp only [execFirmwareUpdate, h, if_true]
  exact ⟨_, rfl, rfl, rfl, h, rfl, rfl⟩

end Sys2Proof.Machine
end

section
/-! PROOFS. The head of a queue: its check, its completion and the scheduler's choice (R56, R57, R320 to R328). -/

namespace Sys2Proof.Machine

open Sys2Proof Sys2Proof.Safety

/-! ## What the device writes (R323) -/

/-- A memory after bytes written one by one. -/
def writeKeys (m : List Host.Cell) (l : List (Nat × Byte)) : List Host.Cell := l.foldl (fun m p => Memory.write m p.1 p.2) m

theorem State.foldl_write (s : State) (l : List (Nat × Byte)) :
    l.foldl (fun (s : State) p => { s with mem := Memory.write s.mem p.1 p.2 }) s = { s with mem := writeKeys s.mem l } := by
  induction l generalizing s with
  | nil => rfl
  | cons p l ih =>
    rw [List.foldl_cons, ih]
    rfl

/-- The machine after the device has written bytes at keys. -/
def State.devWrote (s : State) (ks : List Nat) (bs : List Byte) : State :=
  { s with mem := writeKeys s.mem (ks.zip bs), poison := clearPoison s.poison (ks.headD 0) bs.length }

theorem State.devWrite_eq (s : State) (g : DevAgent) (a : Word) (bs : List Byte) : s.devWrite g a bs =
    if oneSpace a bs.length then (s.devKeys g a bs.length).bind (fun ks => .ok (s.devWrote ks bs)) else .bad := by
  simp only [State.devWrite, State.foldl_write]
  rfl

theorem State.devWrite_ok {s w : State} {g : DevAgent} {a : Word} {bs : List Byte} (h : s.devWrite g a bs = .ok w) :
    ∃ ks, oneSpace a bs.length = true ∧ s.devKeys g a bs.length = .ok ks ∧ w = s.devWrote ks bs := by
  rw [State.devWrite_eq] at h
  split at h
  · next ho =>
    cases hk : s.devKeys g a bs.length with
    | ok ks =>
      rw [hk] at h
      exact ⟨ks, ho, rfl, (DevRes.ok.inj h).symm⟩
    | need v => rw [hk] at h; cases h
    | parked k => rw [hk] at h; cases h
    | bad => rw [hk] at h; cases h
  · cases h

theorem State.devWrite_of_keys {s : State} {g : DevAgent} {a : Word} {bs : List Byte} {ks : List Nat} (ho : oneSpace a bs.length = true)
    (hk : s.devKeys g a bs.length = .ok ks) : s.devWrite g a bs = .ok (s.devWrote ks bs) := by
  rw [State.devWrite_eq, if_pos ho, hk]
  rfl

theorem State.devWrite_need {s : State} {g : DevAgent} {a : Word} {bs : List Byte} {va : Nat} :
    s.devWrite g a bs = .need va ↔ oneSpace a bs.length = true ∧ s.devKeys g a bs.length = .need va := by
  rw [State.devWrite_eq]
  cases hk : s.devKeys g a bs.length <;> by_cases ho : oneSpace a bs.length = true <;> simp [ho, DevRes.bind]

/-- The state of the queues and of verdicts has no part in what the device may write. -/
theorem State.devKeys_queues (s : State) (qs : Tbl WQueue) (vs : Tbl Verdict) (g : DevAgent) (a : Word) (n : Nat) :
    ({ s with queues := qs, verdicts := vs } : State).devKeys g a n = s.devKeys g a n := by
  induction n generalizing a with
  | zero => rfl
  | succ n ih =>
    rw [State.devKeys, ih]
    rfl

/-! ## A queue's completion (R328) -/

/-- What a queue's message and its CTL leave. -/
theorem State.sendMsix_shape (s : State) (v : Nat) : s.sendMsix v = { s with msix := (s.sendMsix v).msix, msixSent := (s.sendMsix v).msixSent } := by
  simp only [State.sendMsix]
  split
  · rfl
  · rfl

theorem State.completeQueue_shape (s : State) (q : Nat) : ∃ m l, s.completeQueue q =
    { s.setQueue q { s.queue q with ctl := BitVec.ofNat 64 (s.ctlOf q) } with msix := m, msixSent := l } := by
  simp only [State.completeQueue]
  split
  · exact ⟨_, _, State.sendMsix_shape _ _⟩
  · exact ⟨_, _, rfl⟩

theorem State.completeQueue_queue (s : State) (q : Nat) : (s.completeQueue q).queue q = { s.queue q with ctl := BitVec.ofNat 64 (s.ctlOf q) } := by
  obtain ⟨m, l, h⟩ := s.completeQueue_shape q
  rw [h]
  exact State.queue_setQueue _ _ _

/-- What stays of the machine as a queue's head completes. -/
structure QueueOnly (s u : State) : Prop where
  mem : u.mem = s.mem
  cores : u.cores = s.cores
  jobs : u.jobs = s.jobs
  heads : u.heads = s.heads
  objs : u.objs = s.objs

theorem State.completeQueue_only (s : State) (q : Nat) : QueueOnly s (s.completeQueue q) ∧ (s.completeQueue q).verdicts = s.verdicts := by
  obtain ⟨m, l, h⟩ := s.completeQueue_shape q
  rw [h]
  exact ⟨⟨rfl, rfl, rfl, rfl, rfl⟩, rfl⟩

/-! ## A head that is found bad (R321, R326) -/

/-- The head of queue q, found bad, once its record is written. -/
theorem State.rejectHead_written {s w : State} {q : Nat} {v : Verdict} (h : s.devWrite (pkAgent (jobId q v.num) v.pkt) (pkW v.pkt 18)
    ((rejectRecord v.status v.num s.rtime).flatMap (fun w => bytesOf 8 w.toNat)) = .ok w) :
    (s.rejectHead q v).mem = w.mem ∧ (s.rejectHead q v).cores = s.cores ∧ (s.rejectHead q v).jobs = s.jobs ∧ (s.rejectHead q v).heads = s.heads ∧
      (s.rejectHead q v).verdicts = tdel s.verdicts q ∧ ((s.rejectHead q v).queue q).ridx = (s.queue q).ridx ∧
      ((s.rejectHead q v).queue q).num = (s.queue q).num := by
  obtain ⟨ks, -, -, hw⟩ := State.devWrite_ok h
  have hx : s.rejectHead q v = (({ w with verdicts := tdel w.verdicts q } : State).devForget (jobId q v.num) (pkPasid v.pkt)).completeQueue q := by
    simp only [State.rejectHead, State.writeRecord, h, if_true]
  rw [hx, hw]
  obtain ⟨⟨hm, hc, hj, hh, -⟩, hv⟩ :=
    (({ s.devWrote ks ((rejectRecord v.status v.num s.rtime).flatMap (fun w => bytesOf 8 w.toNat)) with verdicts := tdel s.verdicts q } :
      State).devForget (jobId q v.num) (pkPasid v.pkt)).completeQueue_only q
  exact ⟨hm, hc, hj, hh, hv, by rw [State.completeQueue_queue]; rfl, by rw [State.completeQueue_queue]; rfl⟩

theorem State.devRequest_shape (s : State) (launch pasid va : Nat) (write : Bool) : s.devRequest launch pasid va write =
    { s with nextId := (s.devRequest launch pasid va write).nextId, atsReqs := (s.devRequest launch pasid va write).atsReqs } := by
  unfold State.devRequest
  split
  · rfl
  · rfl

/-- The head of queue q, found bad, while the record's page is asked for. -/
theorem State.rejectHead_asks {s : State} {q va : Nat} {v : Verdict} (h : s.devWrite (pkAgent (jobId q v.num) v.pkt) (pkW v.pkt 18)
    ((rejectRecord v.status v.num s.rtime).flatMap (fun w => bytesOf 8 w.toNat)) = .need va) :
    ∃ n r, s.rejectHead q v = { s with nextId := n, atsReqs := r } := by
  have hx : s.rejectHead q v = s.devRequest (jobId q v.num) (pkPasid v.pkt) va true := by
    simp only [State.rejectHead, State.writeRecord, h, Bool.false_eq_true, if_false]
  rw [hx]
  exact ⟨_, _, State.devRequest_shape _ _ _ _ _⟩

/-! ## The check at the head (R320, R326) -/

/-- The machine once the next entry of queue q has been taken. -/
def State.taken (s : State) (q : Nat) : State :=
  s.setQueue q { s.queue q with ridx := ((s.queue q).ridx + 1) % 2 ^ 32, num := (s.queue q).num + 1 }

theorem State.taken_queue (s : State) (q : Nat) : ((s.taken q).queue q).ridx = ((s.queue q).ridx + 1) % 2 ^ 32 ∧
    ((s.taken q).queue q).num = (s.queue q).num + 1 := by
  rw [State.taken, State.queue_setQueue]
  exact ⟨rfl, rfl⟩

theorem find_none_of_ne {α : Type} {l : Tbl α} {q : Nat} (h : ∀ x ∈ l, x.1 ≠ q) : l.find? (fun p => p.1 == q) = none := by
  rw [List.find?_eq_none]
  exact fun x hx => by simpa using h x hx

theorem any_false_of_ne {α : Type} {l : Tbl α} {q : Nat} (h : ∀ x ∈ l, x.1 ≠ q) : l.any (fun p => p.1 == q) = false := by
  rw [List.any_eq_false]
  exact fun x hx => by simpa using h x hx

theorem mem_tset {α : Type} (t : Tbl α) (k : Nat) (v : α) : (k, v) ∈ tset t k v := by
  have h := find_tset t k k v
  rw [if_pos rfl] at h
  exact List.mem_of_find?_eq_some h

theorem ne_of_mem_tdel {α : Type} {t : Tbl α} {k : Nat} {x : Nat × α} (h : x ∈ tdel t k) : x.1 ≠ k := by
  simpa using (List.mem_filter.mp h).2

/-- LAUNCH_HEAD_CHECK of an entry that has been read. -/
theorem launchHeadCheck_checks {s : State} {q : Nat} {p : List Word} (hr : s.ready = true) (he : (s.queue q).en = true)
    (hi : (s.queue q).ridx ≠ (s.queue q).widx) (hh : ∀ x ∈ s.heads, x.1 ≠ q) (hv : ∀ x ∈ s.verdicts, x.1 ≠ q) (hk : s.keepsHead q = false)
    (hp : s.readEntry q (jobId q ((s.queue q).num + 1)) = .ok p) :
    (∀ h, s.checkHead q ((s.queue q).num + 1) p = .accept h → exec (.launchHeadCheck q) s =
      .next (({ s.taken q with heads := tset s.heads q h } : State).devForget (jobId q ((s.queue q).num + 1)) (pkPasid p))) ∧
    (∀ st, s.checkHead q ((s.queue q).num + 1) p = .reject st → exec (.launchHeadCheck q) s =
      .next (({ s.taken q with verdicts := tset s.verdicts q { num := (s.queue q).num + 1, pkt := p, status := st } } : State).rejectHead q
        { num := (s.queue q).num + 1, pkt := p, status := st })) := by
  have open_ : ¬(s.ready = false ∨ (s.queue q).en = false ∨ (s.queue q).ridx = (s.queue q).widx ∨ (s.heads.any (fun p => p.1 == q)) = true ∨
      s.keepsHead q = true) := by
    simp [hr, he, hi, any_false_of_ne hh, hk]
  refine ⟨fun h hc => ?_, fun st hc => ?_⟩
  · change execLaunchHeadCheck q s = _
    simp only [execLaunchHeadCheck, find_none_of_ne hv, if_neg open_, hp, hc]
    rfl
  · change execLaunchHeadCheck q s = _
    simp only [execLaunchHeadCheck, find_none_of_ne hv, if_neg open_, hp, hc]
    rfl

theorem launchHeadCheck_accepts {s : State} {q : Nat} {p : List Word} {h : Head} (hr : s.ready = true) (he : (s.queue q).en = true)
    (hi : (s.queue q).ridx ≠ (s.queue q).widx) (hh : ∀ x ∈ s.heads, x.1 ≠ q) (hv : ∀ x ∈ s.verdicts, x.1 ≠ q) (hk : s.keepsHead q = false)
    (hp : s.readEntry q (jobId q ((s.queue q).num + 1)) = .ok p) (hc : s.checkHead q ((s.queue q).num + 1) p = .accept h) :
    ∃ u, exec (.launchHeadCheck q) s = .next u ∧ (q, h) ∈ u.heads ∧ u.mem = s.mem ∧ u.cores = s.cores ∧
      (u.queue q).ridx = ((s.queue q).ridx + 1) % 2 ^ 32 ∧ (u.queue q).num = (s.queue q).num + 1 :=
  ⟨_, (launchHeadCheck_checks hr he hi hh hv hk hp).1 h hc, mem_tset _ _ _, rfl, rfl, (s.taken_queue q).1, (s.taken_queue q).2⟩

/-- The record of a rejected head, written, or its page asked for: as in the machine before the check. -/
theorem State.taken_devKeys (s : State) (q : Nat) (vs : Tbl Verdict) (g : DevAgent) (a : Word) (n : Nat) :
    ({ s.taken q with verdicts := vs } : State).devKeys g a n = s.devKeys g a n := s.devKeys_queues _ vs g a n

theorem launchHeadCheck_rejects {s w : State} {q st : Nat} {p : List Word} (hr : s.ready = true) (he : (s.queue q).en = true)
    (hi : (s.queue q).ridx ≠ (s.queue q).widx) (hh : ∀ x ∈ s.heads, x.1 ≠ q) (hv : ∀ x ∈ s.verdicts, x.1 ≠ q) (hk : s.keepsHead q = false)
    (hp : s.readEntry q (jobId q ((s.queue q).num + 1)) = .ok p) (hc : s.checkHead q ((s.queue q).num + 1) p = .reject st)
    (hw : s.devWrite (pkAgent (jobId q ((s.queue q).num + 1)) p) (pkW p 18)
      ((rejectRecord st ((s.queue q).num + 1) s.rtime).flatMap (fun w => bytesOf 8 w.toNat)) = .ok w) :
    ∃ u, exec (.launchHeadCheck q) s = .next u ∧ u.heads = s.heads ∧ u.mem = w.mem ∧ u.cores = s.cores ∧ u.jobs = s.jobs ∧
      (u.queue q).ridx = ((s.queue q).ridx + 1) % 2 ^ 32 ∧ (u.queue q).num = (s.queue q).num + 1 := by
  obtain ⟨ks, ho, hks, rfl⟩ := State.devWrite_ok hw
  have hx := (launchHeadCheck_checks hr he hi hh hv hk hp).2 st hc
  generalize hvd : ({ num := (s.queue q).num + 1, pkt := p, status := st } : Verdict) = v at hx
  have hd : ({ s.taken q with verdicts := tset s.verdicts q v } : State).devWrite (pkAgent (jobId q v.num) v.pkt) (pkW v.pkt 18)
      ((rejectRecord v.status v.num s.rtime).flatMap (fun w => bytesOf 8 w.toNat)) =
      .ok (({ s.taken q with verdicts := tset s.verdicts q v } : State).devWrote ks ((rejectRecord v.status v.num s.rtime).flatMap (fun w => bytesOf 8 w.toNat))) := by
    subst hvd
    exact State.devWrite_of_keys ho (by rw [State.taken_devKeys]; exact hks)
  obtain ⟨hm, hcr, hj, hhd, -, hri, hnum⟩ := State.rejectHead_written hd
  subst hvd
  exact ⟨_, hx, hhd, hm, hcr, hj, hri.trans (s.taken_queue q).1, hnum.trans (s.taken_queue q).2⟩

theorem launchHeadCheck_waits {s : State} {q st va : Nat} {p : List Word} (hr : s.ready = true) (he : (s.queue q).en = true)
    (hi : (s.queue q).ridx ≠ (s.queue q).widx) (hh : ∀ x ∈ s.heads, x.1 ≠ q) (hv : ∀ x ∈ s.verdicts, x.1 ≠ q) (hk : s.keepsHead q = false)
    (hp : s.readEntry q (jobId q ((s.queue q).num + 1)) = .ok p) (hc : s.checkHead q ((s.queue q).num + 1) p = .reject st)
    (hw : s.devWrite (pkAgent (jobId q ((s.queue q).num + 1)) p) (pkW p 18)
      ((rejectRecord st ((s.queue q).num + 1) s.rtime).flatMap (fun w => bytesOf 8 w.toNat)) = .need va) :
    ∃ u, exec (.launchHeadCheck q) s = .next u ∧ (q, { num := (s.queue q).num + 1, pkt := p, status := st }) ∈ u.verdicts ∧ u.heads = s.heads ∧
      u.mem = s.mem ∧ (u.queue q).ridx = ((s.queue q).ridx + 1) % 2 ^ 32 ∧ (u.queue q).num = (s.queue q).num + 1 := by
  obtain ⟨ho, hks⟩ := State.devWrite_need.mp hw
  have hx := (launchHeadCheck_checks hr he hi hh hv hk hp).2 st hc
  have hd : ({ s.taken q with verdicts := tset s.verdicts q { num := (s.queue q).num + 1, pkt := p, status := st } } : State).devWrite
      (pkAgent (jobId q ((s.queue q).num + 1)) p) (pkW p 18) ((rejectRecord st ((s.queue q).num + 1) s.rtime).flatMap (fun w => bytesOf 8 w.toNat)) =
      .need va := State.devWrite_need.mpr ⟨ho, by rw [State.taken_devKeys]; exact hks⟩
  obtain ⟨n, r, hu⟩ := State.rejectHead_asks (v := { num := (s.queue q).num + 1, pkt := p, status := st }) hd
  rw [hu] at hx
  exact ⟨_, hx, mem_tset _ _ _, rfl, rfl, (s.taken_queue q).1, (s.taken_queue q).2⟩

/-- LAUNCH_HEAD_CHECK of a head found bad whose record is now written (R328). -/
theorem launchHeadCheck_verdict {s w : State} {q : Nat} {v : Verdict} (hr : s.ready = true) (hf : s.verdicts.find? (fun x => x.1 == q) = some (q, v))
    (hw : s.devWrite (pkAgent (jobId q v.num) v.pkt) (pkW v.pkt 18) ((rejectRecord v.status v.num s.rtime).flatMap (fun w => bytesOf 8 w.toNat)) = .ok w) :
    ∃ u, exec (.launchHeadCheck q) s = .next u ∧ u.mem = w.mem ∧ (∀ x ∈ u.verdicts, x.1 ≠ q) ∧ u.heads = s.heads ∧ u.jobs = s.jobs ∧ u.cores = s.cores ∧
      (u.queue q).ridx = (s.queue q).ridx ∧ (u.queue q).num = (s.queue q).num := by
  have hx : exec (.launchHeadCheck q) s = .next (s.rejectHead q v) := by
    change execLaunchHeadCheck q s = _
    simp only [execLaunchHeadCheck, hf, hr, if_true]
  obtain ⟨hm, hc, hj, hh, hv, hri, hnum⟩ := State.rejectHead_written hw
  exact ⟨_, hx, hm, fun x hx => ne_of_mem_tdel (hv ▸ hx), hh, hj, hc, hri, hnum⟩

/-! ## The entry as it is read (R319, R323) -/

theorem Memory.readBytes_add (m : List Host.Cell) (k a b : Nat) : Memory.readBytes m k (a + b) = Memory.readBytes m k a ++ Memory.readBytes m (k + a) b := by
  induction a generalizing k with
  | zero => rw [Nat.zero_add]; rfl
  | succ a ih =>
    rw [Nat.add_right_comm, Memory.readBytes, ih (k + 1), Memory.readBytes, List.cons_append, Nat.add_right_comm k 1 a, Nat.add_assoc k a 1]

/-- Where no object is staged the next entry is the packet that memory holds. -/
theorem State.readEntry_plain {s : State} {q launch : Nat} {p : List Word} (ho : s.objs = []) (hd : s.devReads = []) (hp : s.readEntry q launch = .ok p) :
    p = words64 32 (Memory.readBytes s.mem (s.entryKey q) 256) := by
  have block (k : Nat) : s.entryBlock launch k = .ok (Memory.readBytes s.mem k 64) := by
    simp [State.entryBlock, State.devRead?, State.devAdmit, State.admits, State.objAt, ho, hd, DevRes.bind]
  have hx : s.readEntry q launch = .ok (words64 32 (Memory.readBytes s.mem (s.entryKey q) 64 ++ Memory.readBytes s.mem (s.entryKey q + 64) 64 ++
      Memory.readBytes s.mem (s.entryKey q + 128) 64 ++ Memory.readBytes s.mem (s.entryKey q + 192) 64)) := by
    simp only [State.readEntry, block, DevRes.bind]
  rw [hx] at hp
  rw [← DevRes.ok.inj hp, show 256 = 64 + (64 + (64 + 64)) from rfl, Memory.readBytes_add, Memory.readBytes_add, Memory.readBytes_add, List.append_assoc,
    List.append_assoc]

/-! ## The scheduler (R56 to R58) -/

theorem State.pickQueue_facts {s w : State} {q : Nat} {h : Head} (hp : s.pickQueue = some (q, h, w)) :
    (∀ x ∈ s.heads, s.eligible x.1 x.2 = true → s.headPrio x.1 x.2 ≤ s.headPrio q h) ∧ w.mem = s.mem := by
  simp only [State.pickQueue] at hp
  split at hp
  · next p hf =>
    obtain ⟨hq, hp⟩ := Prod.mk.inj (Option.some.inj hp)
    obtain ⟨hh, hw⟩ := Prod.mk.inj hp
    have htop := eq_of_beq (List.mem_filter.mp (List.mem_of_find?_eq_some hf)).2
    rw [← hq, ← hh, ← hw]
    refine ⟨fun x hx he => ?_, ?_⟩
    · rw [htop]
      exact le_foldl_max 0 (List.mem_map_of_mem (f := fun p : Nat × Head => s.headPrio p.1 p.2) (List.mem_filter.mpr ⟨hx, he⟩))
    · rw [State.setQueue_mem]
      split
      · rfl
      · exact foldl_keeps (F := fun (s : State) (p : Nat × Head) => s.setQueue p.1 { s.queue p.1 with credit := (s.queue p.1).weight }) (P := State.mem) (fun _ _ => rfl) _ _
  · cases hp

theorem gridCores_congr {a b : Word} (h : a.toNat % 2 ^ 30 = b.toNat % 2 ^ 30) : gridCores a = gridCores b := by
  have h1 : fld a 0 6 = fld b 0 6 := by simp only [fld_eq]; omega
  have h2 : fld a 8 5 = fld b 8 5 := by simp only [fld_eq]; omega
  have h3 : fld a 16 7 = fld b 16 7 := by simp only [fld_eq]; omega
  have h4 : fld a 24 6 = fld b 24 6 := by simp only [fld_eq]; omega
  rw [gridCores, gridCores, h1, h2, h3, h4]

theorem gridCores_pkGrid (p : List Word) : gridCores (pkGrid p) = gridCores (pkW p 2) := by
  refine gridCores_congr ?_
  rw [pkGrid, BitVec.toNat_ofNat, fld_eq, Nat.pow_zero, Nat.div_one]
  omega

/-- A core that a job has claimed. -/
def Core.claimed (k : Core) (id : Nat) : Core := { k with job := some id }

theorem State.claim_facts (s : State) (q : Nat) (h : Head) : ∃ j, j ∈ (s.claim q h).jobs ∧ j.id = jobId q h.num ∧ j.phase = .claimed ∧ j.pkt = h.pkt ∧
    (∀ x ∈ (s.claim q h).heads, x.1 ≠ q) ∧ (∀ c ∈ gridCores (pkGrid h.pkt), ((s.claim q h).core c).job = some j.id) ∧ (s.claim q h).mem = s.mem := by
  obtain ⟨j, t, hx, hid, hphase, hpkt, hj, hheads, hmem⟩ : ∃ (j : Job) (t : State),
      s.claim q h = j.cores.foldl (fun s c => s.onCore c (fun k => k.claimed (jobId q h.num))) t ∧ j.id = jobId q h.num ∧ j.phase = .claimed ∧ j.pkt = h.pkt ∧
      j ∈ t.jobs ∧ t.heads = tdel s.heads q ∧ t.mem = s.mem :=
    ⟨_, _, rfl, rfl, rfl, rfl, List.mem_append_right _ List.mem_cons_self, rfl, rfl⟩
  have hgrid : gridCores (pkGrid h.pkt) = j.cores := by
    rw [gridCores_pkGrid, Job.cores, Job.pw, hpkt, pkW]
  have hcores := foldl_onCore_cores (fun k => k.claimed (jobId q h.num)) j.cores t
  rw [hx]
  refine ⟨j, ?_, hid, hphase, hpkt, ?_, fun c hc => ?_, ?_⟩
  · rw [hcores]; exact hj
  · rw [hcores]
    intro x hx
    exact ne_of_mem_tdel (hheads ▸ hx)
  · rw [foldl_onCore_core (fun k => k.claimed (jobId q h.num)) (fun _ => rfl), if_pos (hgrid ▸ hc), hid]
    rfl
  · rw [hcores]; exact hmem

theorem schedulerStart_claims {s w : State} {q : Nat} {h : Head} (hr : s.ready = true) (hp : s.markPreempt.pickQueue = some (q, h, w))
    (hn : pkResume h.pkt = false) :
    ∃ u j, exec .schedulerStart s = .next u ∧ j ∈ u.jobs ∧ j.id = jobId q h.num ∧ j.phase = .claimed ∧ j.pkt = h.pkt ∧ (∀ x ∈ u.heads, x.1 ≠ q) ∧
      (∀ c ∈ gridCores (pkGrid h.pkt), (u.core c).job = some j.id) ∧ u.mem = s.mem ∧
      (∀ x ∈ s.heads, s.markPreempt.eligible x.1 x.2 = true → s.headPrio x.1 x.2 ≤ s.headPrio q h) := by
  obtain ⟨hprio, hwm⟩ := State.pickQueue_facts hp
  obtain ⟨j, hj, hid, hph, hpk, hh, hc, hm⟩ := w.claim_facts q h
  have hx : exec .schedulerStart s = .next (w.claim q h) := by
    have hr' : s.markPreempt.ready = true := hr
    change execSchedulerStart s = _
    simp only [execSchedulerStart, hr', Bool.true_eq_false, if_false, hp, hn, Bool.false_eq_true]
  exact ⟨_, j, hx, hj, hid, hph, hpk, hh, hc, hm.trans hwm, hprio⟩

end Sys2Proof.Machine
end

section
/-! PROOFS. A job's image, its release, and the end of a core (R30, R58, R59, R344, R346). -/

namespace Sys2Proof.Machine

open Sys2Proof Sys2Proof.Safety

/-! ## Passes over cores -/

/-- Of elements with distinct cores each takes its own step from the core it was. -/
theorem foldl_at_key {α : Type} {F : State → α → State} {key : α → Nat} (hF : ∀ s a e, e ≠ key a → (F s a).core e = s.core e) {l : List α}
    (hl : (l.map key).Nodup) {a : α} (ha : a ∈ l) (s : State) :
    ∃ u : State, u.core (key a) = s.core (key a) ∧ (l.foldl F s).core (key a) = (F u a).core (key a) := by
  have apart (l : List α) (e : Nat) (he : e ∉ l.map key) (s : State) : (l.foldl F s).core e = s.core e := by
    induction l generalizing s with
    | nil => rfl
    | cons b l ih =>
      obtain ⟨hb, hl⟩ : e ≠ key b ∧ e ∉ l.map key := by simpa using he
      rw [List.foldl_cons, ih hl, hF s b e hb]
  induction l generalizing s with
  | nil => cases ha
  | cons b l ih =>
    obtain ⟨hb, hl⟩ := List.nodup_cons.mp hl
    rcases List.mem_cons.mp ha with rfl | ha
    · exact ⟨s, rfl, by rw [List.foldl_cons, apart l _ hb]⟩
    · have hne : key a ≠ key b := fun h => hb (h ▸ List.mem_map_of_mem ha)
      obtain ⟨u, hu, hx⟩ := ih hl ha (F s b)
      exact ⟨u, hu.trans (hF s b _ hne), hx⟩

/-- What a step establishes of its own core, every core of the list has after the pass. -/
theorem foldl_establishes {F : State → Nat → State} {P : Nat → Core → Prop} (hF : ∀ s c e, e ≠ c → (F s c).core e = s.core e)
    (hP : ∀ s c, P c ((F s c).core c)) {l : List Nat} {c : Nat} (hc : c ∈ l) (s : State) : P c ((l.foldl F s).core c) := by
  induction l generalizing s with
  | nil => cases hc
  | cons a l ih =>
    rw [List.foldl_cons]
    by_cases hl : c ∈ l
    · exact ih hl _
    · obtain rfl : c = a := (List.mem_cons.mp hc).resolve_right hl
      rw [foldl_apart hF hl]
      exact hP s c

theorem State.job?_onJob (s : State) (job : Nat) (f : Job → Job) (hf : ∀ j, (f j).id = j.id) : (s.onJob job f).job? job = (s.job? job).map f := by
  have hp : ((fun j : Job => j.id == job) ∘ fun j => if j.id = job then f j else j) = fun j => j.id == job := by
    funext j
    by_cases h : j.id = job <;> simp [h, hf]
  simp only [State.job?, State.onJob, List.find?_map, hp]
  cases hx : s.jobs.find? (fun j => j.id == job) with
  | none => rfl
  | some j =>
    have h : j.id = job := by simpa using List.find?_some hx
    simp [h]

theorem State.job?_id {s : State} {job : Nat} {j : Job} (h : s.job? job = some j) : j.id = job := by simpa using List.find?_some h

theorem State.job?_congr {s u : State} (h : u.jobs = s.jobs) (job : Nat) : u.job? job = s.job? job := by
  rw [State.job?, h]
  rfl

/-! ## The image placed (R58, R59) -/

/-- A core as a job starts on it (R59). -/
structure Core.Starts (k : Core) (j : Job) (i : Nat) : Prop where
  phase : k.phase = .placed
  smask : k.smask = BitVec.ofNat 64 (j.memb.getD i 0)
  sstep : k.sstep = 0
  mode : (k.slot 0).mode = .live
  pc : (k.slot 0).pc = selfAddr (hdEntry j.hdr)
  arg : (k.slot 0).rd 1 = selfAddr (pkArgOff j.pkt)
  regs : ∀ r : Reg, r ≠ 1 → (k.slot 0).rd r = 0
  free : ∀ t, 0 < t → (k.slot t).mode = .free

theorem Slot.reset_rd (r : Reg) : Slot.reset.rd r = 0 := by
  unfold Slot.rd
  split
  · rfl
  · simp [Slot.reset]

/-- The control thread of a job at its entry, with no argument yet. -/
def Slot.atEntry (j : Job) : Slot :=
  let base := selfAddr (hdCodeOff j.hdr)
  { Slot.reset with mode := .live, pc := selfAddr (hdEntry j.hdr), asid := j.asid, dom := j.dom, key := j.key, codebase := base, codelim := base + BitVec.ofNat 64 (hdCodeLen j.hdr) }

theorem Core.launch_starts (k : Core) (j : Job) (i c : Nat) : (k.launch j i c).Starts j i := by
  have slot0 : (k.launch j i c).slot 0 = (Slot.atEntry j).wr 1 (selfAddr (pkArgOff j.pkt)) := rfl
  refine ⟨rfl, rfl, rfl, ?_, ?_, ?_, fun r hr => ?_, fun t ht => ?_⟩
  · rw [slot0, Slot.wr_mode]
    rfl
  · rw [slot0, Slot.wr_pc]
    rfl
  · rw [slot0, Slot.rd_wr_same _ _ _ (by decide)]
  · rw [slot0, Slot.rd_wr_ne _ _ _ _ hr]
    exact Slot.reset_rd r
  · have : (k.launch j i c).slot t = Slot.reset := by
      change tget [(0, _)] t Slot.reset = Slot.reset
      simp only [tget]
      rw [if_neg (by omega)]
    rw [this]
    rfl

/-- The bytes of a job's image and arguments placed in its cores. -/
def State.imagePlaced (s : State) (j : Job) (img : Option (List Byte × List Byte)) : State :=
  j.cores.foldl (fun s c => s.placeBytes c (pkArgOff j.pkt) j.args)
    (match img with
      | some (a, b) => j.cores.foldl (fun s c => (s.placeBytes c (hdCodeOff j.hdr) a).placeBytes c (hdDataOff j.hdr) b) s
      | none => s)

theorem State.imagePlaced_jobs (s : State) (j : Job) (img : Option (List Byte × List Byte)) : (s.imagePlaced j img).jobs = s.jobs := by
  unfold State.imagePlaced
  rw [foldl_keeps (F := fun (s : State) c => s.placeBytes c (pkArgOff j.pkt) j.args) (P := State.jobs) (fun _ _ => rfl)]
  split
  · exact foldl_keeps (F := fun (s : State) c => (s.placeBytes c (hdCodeOff j.hdr) _).placeBytes c (hdDataOff j.hdr) _) (P := State.jobs) (fun _ _ => rfl) _ _
  · rfl

/-- The cores of a job begun on a machine. -/
def State.coresBegun (s : State) (j : Job) : State := j.cores.zipIdx.foldl (fun s p => s.onCore p.1 (fun k => k.launch j p.2 p.1)) s

theorem State.coresBegun_core {s : State} {j : Job} (hj : j.cores.Nodup) {p : Nat × Nat} (hp : p ∈ j.cores.zipIdx) : ((s.coresBegun j).core p.1).Starts j p.2 := by
  obtain ⟨u, -, hx⟩ := foldl_at_key (F := fun s (p : Nat × Nat) => s.onCore p.1 (fun k => k.launch j p.2 p.1)) (key := Prod.fst)
    (fun s a e h => State.core_onCore_ne _ _ _ _ h) (by rw [List.zipIdx_map_fst]; exact hj) hp s
  rw [State.coresBegun, hx, State.core_onCore]
  exact Core.launch_starts _ _ _ _

theorem State.coresBegun_jobs (s : State) (j : Job) : (s.coresBegun j).jobs = s.jobs :=
  foldl_keeps (F := fun (s : State) (p : Nat × Nat) => s.onCore p.1 (fun k => k.launch j p.2 p.1)) (P := State.jobs) (fun _ _ => rfl) _ _

/-- The machine once a job's code region is known and its image resident (R58). -/
def State.imageBound (s : State) (j : Job) : State :=
  let base := selfAddr (hdCodeOff j.hdr)
  { s with
    domCode := tset s.domCode j.dom.toNat (base, base + BitVec.ofNat 64 (hdCodeLen j.hdr))
    resident := s.resident.filter (fun r => !j.cores.contains r.1) ++ j.cores.map (fun c => (c, j.pw 1, hdCodeOff j.hdr, hdCodeLen j.hdr)) }

/-- A job in another phase. -/
def Job.inPhase (j : Job) (p : JobPhase) : Job := { j with phase := p }

theorem launchImagePlaced_places {s : State} {job : Nat} {j : Job} {img : Option (List Byte × List Byte)} (hj : s.job? job = some j)
    (hp : j.phase = .claimed) (hm : s.movingIn (pkGrid j.pkt) = false) (hi : s.readImage j = .ok img) : exec (.launchImagePlaced job) s =
      .next ((((s.imagePlaced j img).coresBegun j).imageBound j).onJob job (fun j => j.inPhase .placed)) := by
  have open_ : ¬(j.phase ≠ .claimed ∨ s.movingIn (pkGrid j.pkt) = true) := by simp [hp, hm]
  change execLaunchImagePlaced job s = _
  simp only [execLaunchImagePlaced, hj, if_neg open_, hi]
  cases img with
  | none => rfl
  | some ab => rfl

theorem launchImagePlaced_starts {s : State} {job : Nat} {j : Job} {img : Option (List Byte × List Byte)} (hj : s.job? job = some j)
    (hp : j.phase = .claimed) (hm : s.movingIn (pkGrid j.pkt) = false) (hi : s.readImage j = .ok img) (hn : j.cores.Nodup) :
    ∃ u, exec (.launchImagePlaced job) s = .next u ∧ (u.job? job).map (·.phase) = some .placed ∧ ∀ p ∈ j.cores.zipIdx, (u.core p.1).Starts j p.2 := by
  refine ⟨_, launchImagePlaced_places hj hp hm hi, ?_, fun p hp => State.coresBegun_core hn hp⟩
  have hjobs : (((s.imagePlaced j img).coresBegun j).imageBound j).jobs = s.jobs := ((s.imagePlaced j img).coresBegun_jobs j).trans (s.imagePlaced_jobs j img)
  rw [State.job?_onJob _ _ (fun j => j.inPhase .placed) (fun _ => rfl), State.job?_congr hjobs, hj]
  rfl

/-! ## The release (R58) -/

/-- A core that runs. -/
def Core.runs (k : Core) : Core := { k with phase := .running }

theorem State.shareCore_shape (s : State) (c : Nat) : (s.shareCore c).mem = s.mem ∧ (s.shareCore c).jobs = s.jobs ∧
    ∀ e, e ≠ c → (s.shareCore c).core e = s.core e := by
  unfold State.shareCore
  split
  · split
    · exact ⟨rfl, rfl, fun e he => State.core_onCore_ne _ _ _ _ he⟩
    · exact ⟨rfl, rfl, fun _ _ => rfl⟩
  · exact ⟨rfl, rfl, fun _ _ => rfl⟩

/-- The cores of a job released. -/
def State.coresRun (s : State) (l : List Nat) : State := l.foldl (fun s c => (s.shareCore c).onCore c Core.runs) s

theorem State.coresRun_facts (s : State) (l : List Nat) : (s.coresRun l).mem = s.mem ∧ (s.coresRun l).jobs = s.jobs ∧
    ∀ c ∈ l, ((s.coresRun l).core c).phase = .running :=
  ⟨foldl_keeps (F := fun s c => (s.shareCore c).onCore c Core.runs) (P := State.mem) (fun s c => (s.shareCore_shape c).1) _ _,
   foldl_keeps (F := fun s c => (s.shareCore c).onCore c Core.runs) (P := State.jobs) (fun s c => (s.shareCore_shape c).2.1) _ _,
   fun c hc => foldl_establishes (F := fun s c => (s.shareCore c).onCore c Core.runs) (P := fun _ k => k.phase = .running)
    (fun s c e he => (State.core_onCore_ne _ _ _ _ he).trans ((s.shareCore_shape c).2.2 e he)) (fun s c => by rw [State.core_onCore]; rfl) hc s⟩

/-- A job that runs from a router cycle. -/
def Job.startsAt (j : Job) (n : Nat) : Job := { j with phase := .running, tstart := n, since := n }

theorem launchRelease_releases {s : State} {job : Nat} {j : Job} (hj : s.job? job = some j) (hp : j.phase = .placed) :
    ∃ u, exec (.launchRelease job) s = .next u ∧ (u.job? job).map (·.phase) = some .running ∧ (∀ c ∈ j.cores, (u.core c).phase = .running) ∧ u.mem = s.mem := by
  generalize hv : (s.notBefore (s.rtime.toNat + releaseLatency j.cores)).coresRun j.cores = v
  have hx : exec (.launchRelease job) s = .next (v.onJob job (fun j => j.startsAt v.rtime.toNat)) := by
    change execLaunchRelease job s = _
    simp only [execLaunchRelease, hj, hp, ne_eq, not_true_eq_false, if_false]
    rw [← hv]
    rfl
  obtain ⟨hm, hjobs, hc⟩ := (s.notBefore (s.rtime.toNat + releaseLatency j.cores)).coresRun_facts j.cores
  rw [hv] at hm hjobs hc
  refine ⟨_, hx, ?_, hc, hm⟩
  rw [State.job?_onJob _ _ (fun j => j.startsAt v.rtime.toNat) (fun _ => rfl), State.job?_congr hjobs]
  have hj' : (s.notBefore (s.rtime.toNat + releaseLatency j.cores)).job? job = some j := hj
  rw [hj']
  rfl

/-! ## The end of a core (R30, R344) -/

/-- A step that touches memory, cores and the queues of objects alone. -/
def bodyOnly (s u : State) : Prop := u = { s with mem := u.mem, poison := u.poison, cores := u.cores, objs := u.objs }

theorem bodyOnly_refl (s : State) : bodyOnly s s := rfl

theorem bodyOnly_trans {s u w : State} (h : bodyOnly s u) (h' : bodyOnly u w) : bodyOnly s w := by
  refine h'.trans ?_
  rw [h]

theorem bodyOnly_onCore (s : State) (c : Nat) (f : Core → Core) : bodyOnly s (s.onCore c f) := rfl

theorem bodyOnly_ownWord (s : State) (c : Nat) (dom : BitVec 6) (off : Nat) (v : Word) : bodyOnly s (s.ownWord c dom off v) := by
  unfold State.ownWord
  split
  · exact bodyOnly_refl s
  · rfl

theorem bodyOnly_foldl {α : Type} {F : State → α → State} (hF : ∀ s a, bodyOnly s (F s a)) (l : List α) (s : State) : bodyOnly s (l.foldl F s) := by
  induction l generalizing s with
  | nil => exact bodyOnly_refl s
  | cons a l ih => exact bodyOnly_trans (hF s a) (ih _)

theorem bodyOnly_writeProf (s : State) (c : Nat) (e : ProfEntry) (intr : Bool) (w : Word) : bodyOnly s (s.writeProf c e intr w) := by
  simp only [State.writeProf]
  exact bodyOnly_trans (bodyOnly_trans (bodyOnly_ownWord _ _ _ _ _) (bodyOnly_ownWord _ _ _ _ _)) (bodyOnly_onCore _ _ _)

theorem bodyOnly_flushProf (s : State) (c : Nat) (intr : Bool) (w : Word) : bodyOnly s (s.flushProf c intr w) := by
  unfold State.flushProf
  exact bodyOnly_trans (bodyOnly_foldl (F := fun (s : State) (p : Nat × ProfEntry) => s.writeProf c p.2 intr w)
    (fun s p => bodyOnly_writeProf s c p.2 intr w) _ _) (bodyOnly_onCore _ _ _)

theorem bodyOnly_freeSlot (s : State) (c t : Nat) : bodyOnly s (s.freeSlot c t) := by
  simp only [State.freeSlot]
  split
  · rfl
  · rfl

theorem State.writeProf_core_ne (s : State) (c : Nat) (e : ProfEntry) (intr : Bool) (w : Word) {d : Nat} (h : d ≠ c) :
    (s.writeProf c e intr w).core d = s.core d := by
  unfold State.writeProf
  rw [State.core_onCore_ne _ _ _ _ h, State.core_ownWord, State.core_ownWord]

theorem State.flushProf_core_ne (s : State) (c : Nat) (intr : Bool) (w : Word) {d : Nat} (h : d ≠ c) : (s.flushProf c intr w).core d = s.core d := by
  unfold State.flushProf
  rw [State.core_onCore_ne _ _ _ _ h]
  exact foldl_keeps (F := fun (s : State) (p : Nat × ProfEntry) => s.writeProf c p.2 intr w) (P := fun s => s.core d)
    (fun s p => s.writeProf_core_ne c p.2 intr w h) _ _

/-- A core that has ended: nothing runs, its inbox empty and its windows closed (R30). -/
def Core.over (k : Core) : Prop := k.phase = .ended ∧ k.inbox = [] ∧ ∀ p ∈ k.windows, p.2.isOpen = false

/-- A core as it ends. -/
def Core.ends (k : Core) : Core :=
  { k with
    phase := .ended, inbox := [], backlog := false, staging := [], heap := 0
    windows := k.windows.map (fun p => (p.1, { p.2 with isOpen := false })) }

theorem Core.ends_over (k : Core) : k.ends.over := by
  refine ⟨rfl, rfl, fun p hp => ?_⟩
  obtain ⟨q, -, rfl⟩ := List.mem_map.mp hp
  rfl

theorem State.onCore_over {s : State} {c : Nat} (d : Nat) {f : Core → Core} (hf : ∀ k, k.over → (f k).over) (h : (s.core c).over) :
    ((s.onCore d f).core c).over := by
  by_cases hd : c = d
  · subst hd
    rw [State.core_onCore]
    exact hf _ h
  · rwa [State.core_onCore_ne _ _ _ _ hd]

theorem State.yieldPair_facts (s : State) (c : Nat) : ((s.core c).over → ((s.yieldPair c).core c).over) ∧
    ∀ d, d ≠ c → s.partner c ≠ some d → (s.yieldPair c).core d = s.core d := by
  simp only [State.yieldPair]
  split
  · next e he =>
    split
    · refine ⟨fun h => ?_, fun d hd hp => ?_⟩
      · unfold State.switchTo
        exact State.onCore_over e (fun k hk => hk) (State.onCore_over c (fun k hk => hk) h)
      · unfold State.switchTo
        rw [State.core_onCore_ne _ _ _ _ (fun h => hp (by rw [he, h])), State.core_onCore_ne _ _ _ _ hd]
    · exact ⟨id, fun _ _ _ => rfl⟩
  · exact ⟨id, fun _ _ _ => rfl⟩

/-- Core c's records written and every slot freed. -/
def State.slotsFreed (s : State) (c : Nat) : State := (List.range 13).foldl (fun s t => s.freeSlot c t) (s.flushProf c false (s.core c).sstep)

theorem coreEnd_ends {s : State} {c : Nat} (h : s.coreDone c = true) : ∃ u, exec (.coreEnd c) s = .next u ∧ (u.core c).phase = .ended ∧
    (u.core c).inbox = [] ∧ (∀ p ∈ (u.core c).windows, p.2.isOpen = false) ∧ (∀ d, d ≠ c → s.partner c ≠ some d → u.core d = s.core d) := by
  have hx : exec (.coreEnd c) s = .next (((s.slotsFreed c).onCore c Core.ends).yieldPair c) := by
    change execCoreEnd c s = _
    simp only [execCoreEnd, h, if_true]
    rfl
  have hbody : bodyOnly s (s.slotsFreed c) := bodyOnly_trans (bodyOnly_flushProf ..) (bodyOnly_foldl (fun s t => bodyOnly_freeSlot s c t) _ _)
  have others (d : Nat) (hd : d ≠ c) : (s.slotsFreed c).core d = s.core d :=
    (foldl_keeps (F := fun (s : State) t => s.freeSlot c t) (P := fun s => s.core d) (fun s t => s.freeSlot_core_ne c t d hd) _ _).trans
      (s.flushProf_core_ne c false _ hd)
  generalize s.slotsFreed c = v at *
  have hpart : (v.onCore c Core.ends).partner c = s.partner c := by
    change v.partner c = _
    rw [hbody]
    rfl
  obtain ⟨hover, hne⟩ := (v.onCore c Core.ends).yieldPair_facts c
  obtain ⟨h1, h2, h3⟩ := hover (by rw [State.core_onCore]; exact Core.ends_over _)
  exact ⟨_, hx, h1, h2, h3, fun d hd hp => by rw [hne d hd (by rw [hpart]; exact hp), State.core_onCore_ne _ _ _ _ hd, others d hd]⟩

end Sys2Proof.Machine
end

section
/-! PROOFS. The end of a job: its record, what is given up, and kills (R327, R328, R366, R389). -/

namespace Sys2Proof.Machine

open Sys2Proof Sys2Proof.Safety

/-! ## Accesses that go to memory again (R389) -/

/-- A relation that an entry's change respects, and the default, holds between what two tables give. -/
theorem tget_map_rel {α : Type} {R : α → α → Prop} {f : Nat → α → α} (hf : ∀ k v, R v (f k v)) {d : α} (hd : R d d) (t : Tbl α) (k : Nat) :
    R (tget t k d) (tget (t.map (fun p => (p.1, f p.1 p.2))) k d) := by
  induction t with
  | nil => exact hd
  | cons p t ih =>
    simp only [List.map_cons, tget]
    split
    · exact hf _ _
    · exact ih

/-- A core of which only accesses have changed. -/
def Core.AccOnly (k k' : Core) : Prop := k' = { k with slots := k'.slots } ∧ ∀ t, ∃ l, k'.slot t = { k.slot t with acc := l }

theorem Core.accOnly_refl (k : Core) : k.AccOnly k := ⟨rfl, fun t => ⟨(k.slot t).acc, rfl⟩⟩

/-- The accesses of a slot that are held in a queue no longer go to memory again. -/
def Slot.reready (x : Slot) (held : Nat → Bool) : Slot := { x with acc := x.acc.map (fun a => if a.phase = .parked ∧ held a.id = false then a.again else a) }

theorem State.reready_core (s : State) (c : Nat) : (s.core c).AccOnly (s.reready.core c) := by
  refine tget_map_rel (R := Core.AccOnly) (f := fun c k => { k with slots := k.slots.map (fun q => (q.1, q.2.reready (fun id =>
    s.objs.any (fun o => o.queue.any (fun p => p.core == c && p.who == .acc q.1 id))))) }) (fun c k => ⟨rfl, fun t => ?_⟩) (Core.accOnly_refl _) s.cores c
  exact tget_map_rel (R := fun x y => ∃ l, y = { x with acc := l }) (f := fun t x => x.reready (fun id =>
    s.objs.any (fun o => o.queue.any (fun p => p.core == c && p.who == .acc t id)))) (d := Slot.reset) (fun _ x => ⟨_, rfl⟩) ⟨Slot.reset.acc, rfl⟩ k.slots t

/-! ## What a job gives up (R389) -/

theorem State.discard_jobs (s : State) (j : Job) : (s.discard j).jobs = s.jobs.filter (fun x => x.id != j.id) := rfl

theorem State.discard_facts (s : State) (j : Job) : (s.discard j).job? j.id = none ∧ (∀ o ∈ (s.discard j).objs, o.binder ≠ j.dom) ∧ (s.discard j).mem = s.mem ∧
    ∀ c, (s.core c).AccOnly ((s.discard j).core c) := by
  refine ⟨?_, fun o ho => ?_, rfl, fun c => ?_⟩
  · rw [State.job?, State.discard_jobs, List.find?_eq_none]
    intro x hx
    simpa using (List.mem_filter.mp hx).2
  · have : o ∈ ((s.forgetSaved j.id).retireJob j).objs.filter (fun o => o.binder != j.dom) := ho
    simpa using (List.mem_filter.mp this).2
  · exact State.reready_core _ c

theorem savedJobDiscard_discards {s : State} {n : Nat} {j : Job}
    (h : s.jobs.find? (fun j => j.save == some n && (match j.phase with | .stopped7 => true | _ => false)) = some j) :
    ∃ u, exec (.savedJobDiscard n) s = .next u ∧ u.job? j.id = none ∧ (∀ o ∈ u.objs, o.binder ≠ j.dom) ∧ u.mem = s.mem ∧
      (∀ c t, (u.slot c t).g = (s.slot c t).g ∧ (u.slot c t).pc = (s.slot c t).pc) := by
  have hx : exec (.savedJobDiscard n) s = .next (s.discard j) := by
    refine congrArg Host.Outcome.next ?_
    have hm : s.jobs.find? (fun j => j.save == some n && (match j.phase with | .stopped7 => true | _ => false)) = some j := h
    exact (congrArg (fun o : Option Job => match o with | some j => s.discard j | none => s) hm)
  obtain ⟨hj, ho, hm, hc⟩ := s.discard_facts j
  refine ⟨_, hx, hj, ho, hm, fun c t => ?_⟩
  obtain ⟨-, hs⟩ := hc c
  obtain ⟨l, hl⟩ := hs t
  rw [State.slot, hl]
  exact ⟨rfl, rfl⟩

/-! ## Kills (R366) -/

/-- A core whose lease is cancelled. -/
def Core.unleased (k : Core) : Core := { k with vf := { k.vf with lease := 0, held := false, mail := some k.vf.launchLevel } }

theorem jobKill_stops {s : State} {job : Nat} {j : Job} (hj : s.job? job = some j) (h1 : ∀ st, j.phase ≠ .stopping st) (h7 : j.phase ≠ .stopped7) :
    ∃ u, exec (.jobKill job) s = .next u ∧ (u.job? job).map (·.phase) = some (.stopping 5) ∧
      (∀ c ∈ s.held j, (u.core c).vf.lease = 0 ∧ (u.core c).vf.mail.isSome = true) ∧ u.mem = s.mem := by
  have hx : exec (.jobKill job) s = .next (((s.held j).foldl (fun s c => s.onCore c Core.unleased) s).onJob job (fun j => j.inPhase (.stopping 5))) := by
    change execJobKill job s = _
    simp only [execJobKill, hj]
    cases hp : j.phase with
    | stopping st => exact absurd hp (h1 st)
    | stopped7 => exact absurd hp h7
    | _ => rfl
  have hcores := foldl_onCore_cores Core.unleased (s.held j) s
  have hcore (c : Nat) (hc : c ∈ s.held j) : ((s.held j).foldl (fun s c => s.onCore c Core.unleased) s).core c = (s.core c).unleased := by
    rw [foldl_onCore_core Core.unleased (fun _ => rfl), if_pos hc]
  generalize (s.held j).foldl (fun s c => s.onCore c Core.unleased) s = v at *
  refine ⟨_, hx, ?_, fun c hc => ?_, ?_⟩
  · have hjobs : v.jobs = s.jobs := by rw [hcores]
    rw [State.job?_onJob _ _ (fun j => j.inPhase (.stopping 5)) (fun _ => rfl), State.job?_congr hjobs, hj]
    rfl
  · have : (v.onJob job (fun j => j.inPhase (.stopping 5))).core c = v.core c := rfl
    rw [this, hcore c hc]
    exact ⟨rfl, rfl⟩
  · rw [State.onJob_mem, hcores]

/-! ## Cores given back (R344) -/

theorem State.vacate_shape (s : State) (c : Nat) : s.vacate c = { s with cores := (s.vacate c).cores } := by
  simp only [State.vacate]
  split
  · rfl
  · rfl

theorem State.vacate_job (s : State) (c : Nat) : ((s.vacate c).core c).job = none ∧ ∀ e, (s.core e).job = none → ((s.vacate c).core e).job = none := by
  have own (e : Nat) (h : e = c ∨ (s.core e).job = none) : ((s.onCore c Core.vacated).core e).job = none := by
    by_cases he : e = c
    · subst he
      rw [State.core_onCore]
      rfl
    · rw [State.core_onCore_ne _ _ _ _ he]
      exact h.resolve_left he
  have all (e : Nat) (h : e = c ∨ (s.core e).job = none) : ((s.vacate c).core e).job = none := by
    simp only [State.vacate]
    split
    · next d _ =>
      by_cases he : e = d
      · subst he
        rw [State.core_onCore]
        exact own e h
      · rw [State.core_onCore_ne _ _ _ _ he]
        exact own e h
    · exact own e h
  exact ⟨all c (.inl rfl), fun e h => all e (.inr h)⟩

/-- Cores given back one after another. -/
theorem State.foldl_vacate (l : List Nat) (s : State) : l.foldl State.vacate s = { s with cores := (l.foldl State.vacate s).cores } ∧
    ∀ e, (e ∈ l ∨ (s.core e).job = none) → ((l.foldl State.vacate s).core e).job = none := by
  induction l generalizing s with
  | nil => exact ⟨rfl, fun e h => h.resolve_left (by simp)⟩
  | cons c l ih =>
    obtain ⟨hs, hj⟩ := ih (s.vacate c)
    obtain ⟨hc, ho⟩ := s.vacate_job c
    refine ⟨?_, fun e h => hj e ?_⟩
    · rw [List.foldl_cons, hs, s.vacate_shape c]
    · rcases h with h | h
      · rcases List.mem_cons.mp h with rfl | h
        · exact .inr hc
        · exact .inl h
      · exact .inr (ho e h)

/-! ## The end of a job (R327, R328) -/

/-- What a completed job has under way, withdrawn (R389). -/
def State.underWayGone (s : State) (cs : List Nat) (job : Nat) : State :=
  let s := s.mapParked (fun c => if cs.contains c then none else some c)
  { s with
    arrivals := s.arrivals.filter (fun a => !cs.contains a.core)
    exchanges := s.exchanges.filter (fun e => e.job != job)
    portWrites := s.portWrites.filter (fun w => !cs.contains w.src)
    messages := s.messages.filter (fun m => !cs.contains m.src)
    atsReqs := s.atsReqs.filter (fun r => !cs.contains r.core) }

theorem State.endJob_eq (s : State) (j : Job) {st : Nat} (h : st ≠ 7) :
    s.endJob j st = ((s.held j).foldl State.vacate ((s.underWayGone (s.held j) j.id).discard j)).rebind := by
  simp only [State.endJob, if_neg h]
  rfl

/-- What a job's end leaves in memory, in the jobs, its cores and the objects, for a STATUS other than 7. -/
theorem State.endJob_facts (s : State) (j : Job) {st : Nat} (h : st ≠ 7) : (s.endJob j st).mem = s.mem ∧ (s.endJob j st).job? j.id = none ∧
    (∀ c ∈ s.held j, ((s.endJob j st).core c).job = none) ∧ ∀ o ∈ (s.endJob j st).objs, o.binder ≠ j.dom := by
  have hvm : (s.underWayGone (s.held j) j.id).mem = s.mem := rfl
  rw [State.endJob_eq s j h]
  generalize s.underWayGone (s.held j) j.id = v at *
  obtain ⟨hjob, hobj, hmem, -⟩ := v.discard_facts j
  obtain ⟨hshape, hfree⟩ := State.foldl_vacate (s.held j) (v.discard j)
  rw [State.rebind_shape, hshape]
  refine ⟨hmem.trans hvm, hjob, fun c hc => hfree c (.inl hc), hobj⟩

end Sys2Proof.Machine
end

section
/-! PROOFS. The completion record (R327, R328). -/

namespace Sys2Proof.Machine

open Sys2Proof Sys2Proof.Safety

/-! ## Keys that the device writes (R323) -/

/-- The memory key of a record's address for a launch without a PASID. -/
def recordKey (a : Word) : Nat := if a.toNat / 2 ^ 56 = 0x0D then commonsKey (a.toNat % 2 ^ 28) else hostKey a.toNat

theorem devKey_record (s : State) {g : DevAgent} {a : Word} (hg : g.pv = false) (ho : oneSpace a 64 = true) {i : Nat} (hi : i < 64) :
    s.devKey g (a + BitVec.ofNat 64 i) true = .ok (recordKey a + i) := by
  have ha := a.isLt
  have hadd (h : a.toNat + i < 2 ^ 64) : (a + BitVec.ofNat 64 i).toNat = a.toNat + i := by
    rw [BitVec.toNat_add, BitVec.toNat_ofNat, Nat.mod_eq_of_lt (show i < 2 ^ 64 by omega), Nat.mod_eq_of_lt h]
  unfold oneSpace at ho
  by_cases h : a.toNat / 2 ^ 56 = 0x0D
  · have hf : fld a 56 8 = 0x0D := by rw [fld_eq]; omega
    rw [if_pos hf] at ho
    obtain ⟨hz, hl⟩ : fld a 28 28 = 0 ∧ fld a 0 28 + 64 ≤ Config.commonsBytes := by simpa using ho
    rw [fld_eq] at hz hl
    have hb : Config.commonsBytes = 2 ^ 28 := rfl
    rw [hb, Nat.pow_zero, Nat.div_one] at hl
    have hx := hadd (by omega)
    have hf' : fld (a + BitVec.ofNat 64 i) 56 8 = 0x0D := by rw [fld_eq, hx]; omega
    have hlow : fld (a + BitVec.ofNat 64 i) 0 28 = a.toNat % 2 ^ 28 + i := by rw [fld_eq, hx, Nat.pow_zero, Nat.div_one]; omega
    rw [State.devKey, if_pos hf', hlow, recordKey, if_pos h, commonsKey, commonsKey, Nat.add_assoc]
  · have hf : ¬fld a 56 8 = 0x0D := by rw [fld_eq]; omega
    rw [if_neg hf, decide_eq_true_eq] at ho
    have hbase : Config.commonsBase = 0x0D00000000000000 := rfl
    rw [hbase] at ho
    have hroom : a.toNat + 64 ≤ 2 ^ 64 ∧ (a.toNat < 0x0D00000000000000 → a.toNat + 64 ≤ 0x0D00000000000000) := by
      by_cases hc : a.toNat < 0x0D00000000000000
      · rw [if_pos hc] at ho
        exact ⟨by omega, fun _ => ho⟩
      · rw [if_neg hc] at ho
        exact ⟨ho, fun hc' => absurd hc' hc⟩
    obtain ⟨h64, hlow⟩ := hroom
    have hx := hadd (by omega)
    have hf' : ¬fld (a + BitVec.ofNat 64 i) 56 8 = 0x0D := by
      rw [fld_eq, hx]
      by_cases hc : a.toNat < 0x0D00000000000000
      · have := hlow hc
        omega
      · omega
    rw [State.devKey, if_neg hf', if_pos (by simp [hg]), hx, recordKey, if_neg h, hostKey, hostKey, Nat.add_assoc]

/-- Keys in a row, where no object is staged. -/
theorem devKeys_run {s : State} {g : DevAgent} {n : Nat} {a : Word} {k : Nat}
    (h : ∀ i, i < n → s.devKey g (a + BitVec.ofNat 64 i) true = .ok (k + i) ∧ s.admits (k + i) true = true) :
    s.devKeys g a n = .ok (List.range' k n) := by
  induction n generalizing a k with
  | zero => rfl
  | succ n ih =>
    obtain ⟨hk, hadm⟩ := h 0 (Nat.succ_pos n)
    have hk' : s.devKey g a true = .ok k := by simpa using hk
    have hadm' : s.devAdmit true k = .ok k := by
      rw [State.devAdmit, if_pos (by simpa using hadm)]
    have rest := ih (a := a + 1) (k := k + 1) (fun i hi => by
      have hi' := h (i + 1) (Nat.succ_lt_succ hi)
      have he : a + 1 + BitVec.ofNat 64 i = a + BitVec.ofNat 64 (i + 1) := by
        rw [BitVec.add_assoc, Nat.add_comm i 1, BitVec.ofNat_add]
        rfl
      rw [he, Nat.add_right_comm k 1 i]
      exact hi')
    simp only [State.devKeys, hk', DevRes.bind, hadm', rest]
    rfl

theorem writeKeys_run (m : List Host.Cell) (k : Nat) (bs : List Byte) : writeKeys m ((List.range' k bs.length).zip bs) = Memory.writeBytes m k bs := by
  induction bs generalizing m k with
  | nil => rfl
  | cons b bs ih => exact ih (Memory.write m k b) (k + 1)

theorem writeKeys_wf {m : List Host.Cell} (h : Memory.wf m = true) (l : List (Nat × Byte)) : Memory.wf (writeKeys m l) = true := by
  induction l generalizing m with
  | nil => exact h
  | cons p l ih => exact ih (Memory.wf_write m p.1 p.2 h)

/-! ## The records of a job (R357, R403) -/

/-- A step that touches memory and the fault records alone, and keeps memory canonical. -/
def recordsOnly (s u : State) : Prop := u = { s with mem := u.mem, poison := u.poison, faults := u.faults } ∧ (memInv s → memInv u)

theorem recordsOnly_writeFaults (s : State) (job : Nat) : recordsOnly s (s.writeFaults job) := by
  unfold State.writeFaults
  split
  · exact ⟨rfl, id⟩
  · split
    · next t ht =>
      obtain ⟨ks, -, -, rfl⟩ := State.devWrite_ok ht
      exact ⟨rfl, fun h => writeKeys_wf h _⟩
    · exact ⟨rfl, id⟩

theorem recordsOnly_closeRecords (s : State) (j : Job) (st : Nat) : recordsOnly s (s.closeRecords j st) := by
  obtain ⟨hs, hm⟩ := recordsOnly_writeFaults ({ s with faults := markLast j.id (s.faults ++ if waitsRecorded st then s.waitRecs j else []) } : State) j.id
  exact ⟨hs, hm⟩

theorem State.admits_write_congr {s u : State} (h : u.objs = s.objs) (k : Nat) : u.admits k true = s.admits k true := by
  rw [State.admits, State.admits, State.objAt, State.objAt, h]
  cases s.objs.find? (fun o => o.holds k) <;> rfl

/-- The record of a job written where no object is staged. -/
theorem State.writeRecord_written {s : State} {q num : Nat} {p : List Word} {r : List Word} (hpv : pkPv p = false) (ho : oneSpace (pkW p 18) 64 = true)
    (hr : (r.flatMap (fun w => bytesOf 8 w.toNat)).length = 64) (ha : ∀ i, i < 64 → s.admits (recordKey (pkW p 18) + i) true = true) :
    s.writeRecord q num p r = (s.devWrote (List.range' (recordKey (pkW p 18)) 64) (r.flatMap (fun w => bytesOf 8 w.toNat)), true) := by
  have hk : s.devKeys (pkAgent (jobId q num) p) (pkW p 18) (r.flatMap (fun w => bytesOf 8 w.toNat)).length =
      .ok (List.range' (recordKey (pkW p 18)) 64) := by
    rw [hr]
    exact devKeys_run (fun i hi => ⟨devKey_record s hpv ho hi, ha i hi⟩)
  have hw := State.devWrite_of_keys (bs := r.flatMap (fun w => bytesOf 8 w.toNat)) (by rw [hr]; exact ho) hk
  simp only [State.writeRecord, hw]

theorem length_words (r : List Word) : (r.flatMap (fun w => bytesOf 8 w.toNat)).length = 8 * r.length := by
  induction r with
  | nil => rfl
  | cons w r ih => rw [List.flatMap_cons, List.length_append, ih, bytesOf_length, List.length_cons]; omega

theorem State.completion_facts (s : State) (j : Job) {st : Nat} (h : st ≠ 7) : ∃ e f g, s.completion j st =
    [BitVec.ofNat 64 st, BitVec.ofNat 64 j.num, BitVec.ofNat 64 j.tstart, s.rtime, e, f, g, 0] := by
  simp only [State.completion, if_neg h]
  exact ⟨_, _, _, rfl⟩

theorem State.completeQueue_ctlOf (s : State) (q : Nat) : (s.completeQueue q).ctlOf q = s.ctlOf q := by
  obtain ⟨⟨-, -, hj, hh, -⟩, hv⟩ := s.completeQueue_only q
  have hn : ((s.completeQueue q).queue q).num = (s.queue q).num := by rw [State.completeQueue_queue]
  rw [State.ctlOf, State.ctlOf, hj, hh, hv, hn]

/-! ## JOB_END -/

theorem jobEnd_finishes {s : State} {job st : Nat} {j : Job} (hj : s.job? job = some j) (hc : s.cancelledAt j = false) (hf : s.finalStatus j = some st)
    (hi : s.inFlight j = false) (hb : s.behind j = false) : exec (.jobEnd job) s = .next (
      let t := s.closeRecords j st
      let r := t.writeRecord j.queue j.num j.pkt (t.completion j st)
      if r.2 then ((r.1.devForget j.id (pkPasid j.pkt)).endJob j st).completeQueue j.queue
      else { s with nextId := r.1.nextId, atsReqs := r.1.atsReqs, objs := r.1.objs }) := by
  change execJobEnd job s = _
  simp only [execJobEnd, hj, hc, hf, State.finish, hi, hb, Bool.false_eq_true, if_false]

/-- A record written reads back. -/
theorem State.devWrote_back {s : State} (hm : memInv s) (k : Nat) (bs : List Byte) :
    Memory.readBytes (s.devWrote (List.range' k bs.length) bs).mem k bs.length = bs := by
  have back := Memory.readBytes_writeBytes bs s.mem k hm
  rw [← writeKeys_run] at back
  exact back

/-- What the end of a job leaves, its queue's status written. -/
theorem State.jobOver_facts (s : State) (j : Job) {st : Nat} (h : st ≠ 7) (q : Nat) : ((s.endJob j st).completeQueue q).mem = s.mem ∧
    ((s.endJob j st).completeQueue q).job? j.id = none ∧ (∀ c ∈ s.held j, (((s.endJob j st).completeQueue q).core c).job = none) ∧
    (((s.endJob j st).completeQueue q).queue q).ctl = BitVec.ofNat 64 (((s.endJob j st).completeQueue q).ctlOf q) ∧
    ∀ o ∈ ((s.endJob j st).completeQueue q).objs, o.binder ≠ j.dom := by
  obtain ⟨hem, hejob, hecore, heobj⟩ := s.endJob_facts j h
  obtain ⟨⟨qm, qc, qj, -, qo⟩, -⟩ := (s.endJob j st).completeQueue_only q
  have hcore (c : Nat) : ((s.endJob j st).completeQueue q).core c = (s.endJob j st).core c := by rw [State.core, qc]; rfl
  exact ⟨qm.trans hem, by rw [State.job?_congr qj, hejob], fun c hc => by rw [hcore, hecore c hc],
    by rw [State.completeQueue_ctlOf, State.completeQueue_queue], fun o ho => heobj o (qo ▸ ho)⟩

theorem jobEnd_records {s : State} {job st : Nat} {j : Job} (hm : memInv s) (hj : s.job? job = some j) (hc : s.cancelledAt j = false)
    (hf : s.finalStatus j = some st) (hi : s.inFlight j = false) (hb : s.behind j = false) (h7 : st ≠ 7) (hpv : pkPv j.pkt = false)
    (ha : ∀ i, i < 64 → s.admits (recordKey (j.pw 18) + i) true = true) (ho : oneSpace (j.pw 18) 64 = true) : ∃ u e f g,
      exec (.jobEnd job) s = .next u ∧ Memory.readBytes u.mem (recordKey (j.pw 18)) 64 =
        ([BitVec.ofNat 64 st, BitVec.ofNat 64 j.num, BitVec.ofNat 64 j.tstart, s.rtime, e, f, g, 0] : List Word).flatMap (fun w => bytesOf 8 w.toNat) ∧
      u.job? job = none ∧ (∀ c ∈ s.held j, (u.core c).job = none) ∧ (u.queue j.queue).ctl = BitVec.ofNat 64 (u.ctlOf j.queue) ∧
      (∀ o ∈ u.objs, o.binder ≠ j.dom) := by
  have hx := jobEnd_finishes hj hc hf hi hb
  obtain ⟨hshape, hinv⟩ := recordsOnly_closeRecords s j st
  generalize s.closeRecords j st = t at *
  have htime : t.rtime = s.rtime := by rw [hshape]
  have hcores : t.cores = s.cores := by rw [hshape]
  obtain ⟨e, f, g, hrec⟩ := t.completion_facts j h7
  rw [htime] at hrec
  have hlen : ((t.completion j st).flatMap (fun w => bytesOf 8 w.toNat)).length = 64 := by rw [hrec, length_words]; rfl
  have hwr : t.writeRecord j.queue j.num j.pkt (t.completion j st) =
      (t.devWrote (List.range' (recordKey (j.pw 18)) 64) ((t.completion j st).flatMap (fun w => bytesOf 8 w.toNat)), true) :=
    State.writeRecord_written hpv ho hlen (fun i hi => by rw [State.admits_write_congr (by rw [hshape])]; exact ha i hi)
  have back := t.devWrote_back (hinv hm) (recordKey (j.pw 18)) ((t.completion j st).flatMap (fun w => bytesOf 8 w.toNat))
  simp only [hwr, if_true] at hx
  rw [hlen] at back
  generalize hw : t.devWrote (List.range' (recordKey (j.pw 18)) 64) ((t.completion j st).flatMap (fun w => bytesOf 8 w.toNat)) = w at *
  have hheld : w.held j = s.held j := by
    rw [← hw]
    simp only [State.held, State.core, State.devWrote, hcores]
  obtain ⟨hmem, hjob, hcore, hctl, hobj⟩ := (w.devForget j.id (pkPasid j.pkt)).jobOver_facts j h7 j.queue
  refine ⟨_, e, f, g, hx, ?_, State.job?_id hj ▸ hjob, fun c hc => hcore c (hheld.symm ▸ hc), hctl, hobj⟩
  rw [hmem, ← hrec]
  exact back

end Sys2Proof.Machine
end

section
/-! PROOFS. Contexts saved: safe points, pre-emption, debug stops and step limits (R60 to R62, R348, R349, R361, R364 to R366). -/

namespace Sys2Proof.Machine

open Sys2Proof Sys2Proof.Safety

/-! ## Pre-emption of a core (R346, R365) -/

theorem bodyOnly_suspend (s : State) (c : Nat) : bodyOnly s (s.suspend c) := bodyOnly_trans (bodyOnly_flushProf ..) (bodyOnly_onCore _ _ _)

theorem State.flushProf_slots (s : State) (c : Nat) (intr : Bool) (w : Word) (d : Nat) : ((s.flushProf c intr w).core d).slots = (s.core d).slots := by
  have records := foldl_keeps (F := fun (s : State) (p : Nat × ProfEntry) => s.writeProf c p.2 intr w) (P := fun s => (s.core d).slots) (fun s p => by
    obtain ⟨a, b, h⟩ := (chargedOnly_writeProf s c p.2 intr w).2.2 d
    rw [h]) (s.core c).prof s
  refine Eq.trans ?_ records
  unfold State.flushProf
  by_cases hd : d = c
  · subst hd
    rw [State.core_onCore]
  · rw [State.core_onCore_ne _ _ _ _ hd]

theorem State.suspend_slots (s : State) (c d : Nat) : ((s.suspend c).core d).slots = (s.core d).slots := by
  refine Eq.trans ?_ (s.flushProf_slots c true (s.resumeStep c) d)
  unfold State.suspend
  by_cases hd : d = c
  · subst hd
    rw [State.core_onCore]
  · rw [State.core_onCore_ne _ _ _ _ hd]

/-- The cores of a job as they are saved. -/
def State.suspended (s : State) (j : Job) (pre : Bool) : State := if pre then (s.held j).foldl State.suspend s else s

theorem State.suspended_facts (s : State) (j : Job) (pre : Bool) : (s.suspended j pre).jobs = s.jobs ∧
    (∀ c, ((s.suspended j pre).core c).slots = (s.core c).slots) := by
  unfold State.suspended
  split
  · have h := bodyOnly_foldl bodyOnly_suspend (s.held j) s
    exact ⟨by rw [h], fun c => foldl_keeps (F := State.suspend) (P := fun s => (s.core c).slots) (fun s d => s.suspend_slots d c) _ _⟩
  · exact ⟨rfl, fun _ => rfl⟩

/-! ## A context saved (R61) -/

/-- The job as its context is saved under a number. -/
def Job.savedAs (j : Job) (phase : JobPhase) (pre : Bool) (n : Nat) : Job := { j with phase := phase, preempt := pre, draining := false, save := some n }

/-- What a save leaves: the job in its phase, its context among the saved ones, its cores free. -/
theorem State.saveJob_facts {s : State} {job : Nat} {j : Job} (hj : s.job? job = some j) (pre safe : Bool) (phase : JobPhase) :
    ((s.saveJob j pre safe phase).job? job).map (·.phase) = some phase ∧
    (∃ v ∈ (s.saveJob j pre safe phase).saves, v.job.id = job ∧ v.cores = (s.held j).map (fun c => (c, (s.suspended j pre).core c))) ∧
    (s.saveJob j pre safe phase).mem = (s.suspended j pre).mem ∧ ∀ c ∈ s.held j, ((s.saveJob j pre safe phase).core c).job = none := by
  have hid := State.job?_id hj
  obtain ⟨hjobs, -⟩ := s.suspended_facts j pre
  obtain ⟨w, v, hx, hwj, hws, hwm, hvj, hvc⟩ : ∃ (w : State) (v : Save), s.saveJob j pre safe phase = (s.held j).foldl State.vacate w ∧
      w.jobs = (s.suspended j pre).jobs.map (fun x => if x.id = j.id then ((s.suspended j pre).rest j).savedAs phase pre (s.suspended j pre).nextId else x) ∧
      v ∈ w.saves ∧ w.mem = (s.suspended j pre).mem ∧ v.job.id = j.id ∧ v.cores = (s.held j).map (fun c => (c, (s.suspended j pre).core c)) :=
    ⟨_, _, rfl, rfl, List.mem_append_right _ List.mem_cons_self, rfl, rfl, rfl⟩
  obtain ⟨hshape, hfree⟩ := State.foldl_vacate (s.held j) w
  rw [hx]
  refine ⟨?_, ⟨v, by rw [hshape]; exact hws, hvj.trans hid, hvc⟩, by rw [hshape]; exact hwm, fun c hc => hfree c (.inl hc)⟩
  have hp : ((fun x : Job => x.id == job) ∘ fun x => if x.id = j.id then ((s.suspended j pre).rest j).savedAs phase pre (s.suspended j pre).nextId else x) =
      fun x => x.id == job := by
    funext x
    by_cases h : x.id = j.id
    · simp only [Function.comp, h]
      rfl
    · simp only [Function.comp, if_neg h]
  have hjob : w.job? job = (s.job? job).map (fun x => if x.id = j.id then ((s.suspended j pre).rest j).savedAs phase pre (s.suspended j pre).nextId else x) := by
    rw [State.job?, hwj, hjobs, List.find?_map, hp]
    rfl
  have hlater : ((s.held j).foldl State.vacate w).jobs = w.jobs := by rw [hshape]
  rw [State.job?_congr hlater job, hjob, hj, Option.map_some, if_pos rfl]
  rfl

/-! ## The steps -/

theorem debugStop_saves {s : State} {job : Nat} {j : Job} (hj : s.job? job = some j) (hp : j.phase = .running) (hs : s.safePoint j = true)
    (hb : ∃ c ∈ s.held j, (s.core c).bkptHit = true) : exec (.debugStop job) s = .next (s.saveJob j false true (.saved true)) := by
  have hit : (s.held j).any (fun c => (s.core c).bkptHit) = true := by
    rw [List.any_eq_true]
    exact hb
  change execDebugStop job s = _
  simp only [execDebugStop, hj, hp, hit, hs, ne_eq, not_true_eq_false, Bool.true_eq_false, or_self, if_false, if_true]

theorem preemptSafePoint_saves {s : State} {job : Nat} {j : Job} (hj : s.job? job = some j) (hp : j.phase = .running) (hs : s.safePoint j = true)
    (hb : j.preempt = true) : exec (.preemptSafePoint job) s = .next (s.saveJob j true true (.saved true)) := by
  change execPreemptSafePoint job s = _
  simp only [execPreemptSafePoint, hj, hp, hb, hs, and_self, if_true]

/-- A job whose slots are asked to stop. -/
def Job.drains (j : Job) : Job := { j with draining := true }

theorem preemptBetween_asks {s : State} {job : Nat} {j : Job} (hj : s.job? job = some j) (hp : j.phase = .running) (hb : j.preempt = true)
    (hd : pkDet j.pkt = false) (hn : j.draining = false) : exec (.preemptBetweenSafePoints job) s = .next (s.onJob job Job.drains) := by
  change execPreemptBetweenSafePoints job s = _
  simp only [execPreemptBetweenSafePoints, hj, hp, hb, hd, hn, ne_eq, not_true_eq_false, Bool.true_eq_false, Bool.false_eq_true, or_self, if_false, if_true]
  rfl

theorem preemptBetween_saves {s : State} {job : Nat} {j : Job} (hj : s.job? job = some j) (hp : j.phase = .running) (hb : j.preempt = true)
    (hd : pkDet j.pkt = false) (hn : j.draining = true) (hq : s.quiet j false = true) :
    exec (.preemptBetweenSafePoints job) s = .next (s.saveJob j true false (.saved false)) := by
  change execPreemptBetweenSafePoints job s = _
  simp only [execPreemptBetweenSafePoints, hj, hp, hb, hd, hn, hq, ne_eq, not_true_eq_false, Bool.true_eq_false, Bool.false_eq_true, or_self, if_false, if_true]

theorem stepLimitReached_saves {s : State} {job c t n : Nat} {j : Job} (hj : s.job? job = some j) (hl : s.stepLimit = some (c, t, n))
    (hn : n ≤ (s.slot c t).icount) (hc : (s.core c).job = some job) (hq : s.quiet j true = true) :
    exec .stepLimitReached s = .next { s.saveJob j false false (.saved false) with stepLimit := none } := by
  change execStepLimitReached s = _
  simp only [execStepLimitReached, hl, if_pos hn, hc, Option.bind_some, hj, hq, if_true]

/-- Saves of a running job (R60 to R62, R348, R349). -/
theorem runningJob_saves {s : State} {job : Nat} {j : Job} (hj : s.job? job = some j) (hp : j.phase = .running) :
    (s.safePoint j = true → (∃ c ∈ s.held j, (s.core c).bkptHit = true) → ∃ u v, exec (.debugStop job) s = .next u ∧
      (u.job? job).map (·.phase) = some (.saved true) ∧ v ∈ u.saves ∧ v.job.id = job ∧ v.cores = (s.held j).map (fun c => (c, s.core c)) ∧ u.mem = s.mem ∧
      (∀ c ∈ s.held j, (u.core c).job = none)) ∧
    (s.safePoint j = true → j.preempt = true → ∃ u v, exec (.preemptSafePoint job) s = .next u ∧ (u.job? job).map (·.phase) = some (.saved true) ∧
      v ∈ u.saves ∧ v.job.id = job ∧ v.cores.map (·.1) = s.held j ∧ (∀ p ∈ v.cores, p.2.slots = (s.core p.1).slots) ∧ (∀ c ∈ s.held j, (u.core c).job = none)) ∧
    (j.preempt = true → pkDet j.pkt = false → j.draining = false → ∃ u, exec (.preemptBetweenSafePoints job) s = .next u ∧
      (u.job? job).map (·.draining) = some true ∧ u.cores = s.cores ∧ u.mem = s.mem) ∧
    (j.preempt = true → pkDet j.pkt = false → j.draining = true → s.quiet j false = true → ∃ u v, exec (.preemptBetweenSafePoints job) s = .next u ∧
      (u.job? job).map (·.phase) = some (.saved false) ∧ v ∈ u.saves ∧ v.job.id = job ∧ v.cores.map (·.1) = s.held j) ∧
    (∀ c t n, s.stepLimit = some (c, t, n) → n ≤ (s.slot c t).icount → (s.core c).job = some job → s.quiet j true = true → ∃ u v,
      exec .stepLimitReached s = .next u ∧ (u.job? job).map (·.phase) = some (.saved false) ∧ v ∈ u.saves ∧ v.job.id = job ∧
      v.cores = (s.held j).map (fun c => (c, s.core c)) ∧ u.stepLimit = none) := by
  have fsts {f : Nat → Core} : ((s.held j).map (fun c => (c, f c))).map (·.1) = s.held j := by rw [List.map_map]; exact List.map_id _
  refine ⟨fun hs hb => ?debug, fun hs hb => ?safe, fun hb hd hn => ?asks, fun hb hd hn hq => ?between, fun c t n hl hn hc hq => ?limit⟩
  case debug =>
    obtain ⟨hph, ⟨v, hv, hvj, hvc⟩, hm, hfree⟩ := State.saveJob_facts hj false true (.saved true)
    exact ⟨_, v, debugStop_saves hj hp hs hb, hph, hv, hvj, hvc, hm, hfree⟩
  case safe =>
    obtain ⟨hph, ⟨v, hv, hvj, hvc⟩, -, hfree⟩ := State.saveJob_facts hj true true (.saved true)
    refine ⟨_, v, preemptSafePoint_saves hj hp hs hb, hph, hv, hvj, by rw [hvc, fsts], fun p hpv => ?_, hfree⟩
    rw [hvc] at hpv
    obtain ⟨c, -, rfl⟩ := List.mem_map.mp hpv
    exact (s.suspended_facts j true).2 c
  case asks =>
    refine ⟨_, preemptBetween_asks hj hp hb hd hn, ?_, rfl, rfl⟩
    rw [State.job?_onJob _ _ Job.drains (fun _ => rfl), hj]
    rfl
  case between =>
    obtain ⟨hph, ⟨v, hv, hvj, hvc⟩, -, -⟩ := State.saveJob_facts hj true false (.saved false)
    exact ⟨_, v, preemptBetween_saves hj hp hb hd hn hq, hph, hv, hvj, by rw [hvc, fsts]⟩
  case limit =>
    obtain ⟨hph, ⟨v, hv, hvj, hvc⟩, -, -⟩ := State.saveJob_facts hj false false (.saved false)
    exact ⟨_, v, stepLimitReached_saves hj hl hn hc hq, hph, hv, hvj, hvc, rfl⟩

end Sys2Proof.Machine
end

section
/-! PROOFS. A saved job on its cores again (R61, R248, R349, R366, R379). -/

namespace Sys2Proof.Machine

open Sys2Proof Sys2Proof.Safety

/-! ## With nothing parked (R248, R379) -/

/-- Nothing waits at an object. -/
def State.noQueue (s : State) : Prop := ∀ o ∈ s.objs, o.queue = []

theorem State.recheckObj_noQueue {s : State} (h : s.noQueue) (id : Nat) : s.recheckObj id = s := by
  unfold State.recheckObj
  split
  · rfl
  next o ho => rw [h o (List.mem_of_find?_eq_some ho)]; rfl

theorem State.recheckAll_noQueue {s : State} (h : s.noQueue) (l : List Nat) : l.foldl State.recheckObj s = s := by
  induction l with
  | nil => rfl
  | cons id l ih => rw [List.foldl_cons, State.recheckObj_noQueue h, ih]

theorem State.mapParked_noQueue {s : State} (h : s.noQueue) (f : Nat → Option Nat) : (s.mapParked f).noQueue := by
  intro o ho
  obtain ⟨x, hx, rfl⟩ := List.mem_map.mp ho
  change x.queue.filterMap _ = []
  rw [h x hx, List.filterMap_nil]

theorem State.lateAnswers_none {s : State} (h : s.answers = []) (c : Nat) : s.lateAnswers c = s := by
  have stays (l : List Misser) : l.foldl (fun s m => match m.phase with
      | .pageReq r _ => (s.answers.find? (fun q => q.1 == r)).elim s (fun q => s.release c m q.2)
      | _ => s) s = s := by
    induction l with
    | nil => rfl
    | cons m l ih =>
      rw [List.foldl_cons]
      split
      · rw [h]; exact ih
      · exact ih
  exact stays _

theorem State.allLate_none {s : State} (h : s.answers = []) (l : List Nat) : l.foldl State.lateAnswers s = s := by
  induction l with
  | nil => rfl
  | cons c l ih => rw [List.foldl_cons, State.lateAnswers_none h, ih]

/-! ## A core as it was (R61) -/

/-- A core that a job holds with what a saved core showed a program, no translation kept. -/
structure Core.Resumes (k k0 : Core) (job : Nat) : Prop where
  job : k.job = some job
  phase : k.phase = k0.phase
  tlb : k.tlb = []
  slots : ∀ t, (k.slot t).g = (k0.slot t).g ∧ (k.slot t).v = (k0.slot t).v ∧ (k.slot t).pc = (k0.slot t).pc

theorem Core.restored_resumes (k now : Core) (job from_ to_ : Nat) (out : List Nat) : (k.restored now job from_ to_ out).Resumes k job := by
  refine ⟨rfl, rfl, rfl, fun t => ?_⟩
  exact tget_map_rel (R := fun x y => y.g = x.g ∧ y.v = x.v ∧ y.pc = x.pc) (f := fun _ x => x.restored from_ to_ out) (d := Slot.reset)
    (fun _ _ => ⟨rfl, rfl, rfl⟩) ⟨rfl, rfl, rfl⟩ k.slots t

theorem Core.Resumes.of_accOnly {k k' k0 : Core} {job : Nat} (h : k.Resumes k0 job) (ha : k.AccOnly k') : k'.Resumes k0 job := by
  obtain ⟨hk, hs⟩ := ha
  refine ⟨by rw [hk]; exact h.job, by rw [hk]; exact h.phase, by rw [hk]; exact h.tlb, fun t => ?_⟩
  obtain ⟨l, hl⟩ := hs t
  rw [hl]
  exact h.slots t

/-! ## Passes over the cores -/

/-- A core with other V/F state. -/
def Core.withVf (k : Core) (v : VF) : Core := { k with vf := v }

theorem State.retest_cases (s : State) (c : Nat) :
    s.retest c = s ∨ s.retest c = s.draw.2 ∨ ∃ v, s.retest c = s.draw.2.onCore c (fun k => k.withVf v) := by
  unfold State.retest
  dsimp only
  split
  · split
    · exact .inr (.inr ⟨_, rfl⟩)
    · exact .inr (.inl rfl)
  · exact .inl rfl

/-- Another state with the jobs, objects and answers of this one. -/
def State.SameQueues (s u : State) : Prop := u.jobs = s.jobs ∧ u.objs = s.objs ∧ u.answers = s.answers

theorem State.SameQueues.trans {s u w : State} (h : s.SameQueues u) (h' : u.SameQueues w) : s.SameQueues w :=
  ⟨h'.1.trans h.1, h'.2.1.trans h.2.1, h'.2.2.trans h.2.2⟩

theorem foldl_sameQueues {α : Type} {F : State → α → State} (hF : ∀ (s : State) (a : α), s.SameQueues (F s a)) (l : List α) (s : State) : s.SameQueues (l.foldl F s) := by
  induction l generalizing s with
  | nil => exact ⟨rfl, rfl, rfl⟩
  | cons a l ih => exact (hF s a).trans (ih _)

theorem State.retest_facts (s : State) (c : Nat) : s.SameQueues (s.retest c) ∧ (∀ e, e ≠ c → (s.retest c).core e = s.core e) ∧
    ∃ v, (s.retest c).core c = (s.core c).withVf v := by
  rcases s.retest_cases c with h | h | ⟨v, h⟩
  · rw [h]; exact ⟨⟨rfl, rfl, rfl⟩, fun _ _ => rfl, (s.core c).vf, rfl⟩
  · rw [h]; exact ⟨⟨rfl, rfl, rfl⟩, fun _ _ => rfl, (s.core c).vf, rfl⟩
  · rw [h]; exact ⟨⟨rfl, rfl, rfl⟩, fun e he => State.core_onCore_ne _ _ _ _ he, v, State.core_onCore _ _ _⟩

/-- A saved core put back. -/
def State.coreBack (s : State) (job from_ : Nat) (out : List Nat) (p : Nat × Core) : State :=
  (s.onCore p.1 (fun k => p.2.restored k job from_ s.rtime.toNat out)).retest p.1

theorem State.coreBack_ne (s : State) (job from_ : Nat) (out : List Nat) (p : Nat × Core) (e : Nat) (he : e ≠ p.1) :
    (s.coreBack job from_ out p).core e = s.core e :=
  ((State.retest_facts _ p.1).2.1 e he).trans (State.core_onCore_ne _ _ _ _ he)

theorem State.coreBack_resumes (s : State) (job from_ : Nat) (out : List Nat) (p : Nat × Core) :
    ((s.coreBack job from_ out p).core p.1).Resumes p.2 job := by
  obtain ⟨-, -, v, hv⟩ := State.retest_facts (s.onCore p.1 (fun k => p.2.restored k job from_ s.rtime.toNat out)) p.1
  rw [State.coreBack, hv, State.core_onCore]
  obtain ⟨hj, hp, ht, hs⟩ := Core.restored_resumes p.2 (s.core p.1) job from_ s.rtime.toNat out
  exact ⟨hj, hp, ht, hs⟩

theorem State.coreBack_sameQueues (s : State) (job from_ : Nat) (out : List Nat) (p : Nat × Core) : s.SameQueues (s.coreBack job from_ out p) :=
  (State.retest_facts (s.onCore p.1 (fun k => p.2.restored k job from_ s.rtime.toNat out)) p.1).1

theorem State.shareCore_facts (s : State) (c : Nat) : s.SameQueues (s.shareCore c) ∧
    ∀ e k0 job, ((s.core e).Resumes k0 job) → ((s.shareCore c).core e).Resumes k0 job := by
  have other (e : Nat) (k0 : Core) (job : Nat) (h : (s.core e).Resumes k0 job) : ((s.onCore c (fun k => { k with slice := true })).core e).Resumes k0 job := by
    by_cases he : e = c
    · subst he
      rw [State.core_onCore]
      exact ⟨h.job, h.phase, h.tlb, h.slots⟩
    · rw [State.core_onCore_ne _ _ _ _ he]
      exact h
  unfold State.shareCore
  split
  · split
    · exact ⟨⟨rfl, rfl, rfl⟩, other⟩
    · exact ⟨⟨rfl, rfl, rfl⟩, fun _ _ _ h => h⟩
  · exact ⟨⟨rfl, rfl, rfl⟩, fun _ _ _ h => h⟩

theorem State.foldl_shareCore_resumes (l : List Nat) (s : State) {e : Nat} {k0 : Core} {job : Nat} (h : (s.core e).Resumes k0 job) :
    ((l.foldl State.shareCore s).core e).Resumes k0 job := by
  induction l generalizing s with
  | nil => exact h
  | cons c l ih => exact ih _ ((s.shareCore_facts c).2 e k0 job h)

/-! ## The restored context -/

/-- A saved context's memory, transfers and image in the machine. -/
def State.contextPlaced (s : State) (sv : Save) (j : Job) : State :=
  let cs := sv.cores.map (·.1)
  { s with
    mem := sv.mem.foldl (fun m p => Memory.write m p.1 p.2) (s.mem.filter (fun p => !inCores cs p.1))
    poison := s.poison.filter (fun p => !inCores cs (p.1 * 64))
    arrivals := s.arrivals ++ sv.arrivals
    exchanges := s.exchanges ++ sv.exchanges.map (fun e => { e with job := j.id })
    portWrites := s.portWrites ++ sv.writes
    messages := s.messages ++ sv.messages
    domCode := tset s.domCode j.dom.toNat (selfAddr (hdCodeOff j.hdr), selfAddr (hdCodeOff j.hdr) + BitVec.ofNat 64 (hdCodeLen j.hdr))
    resident := s.resident.filter (fun r => !cs.contains r.1) ++ cs.map (fun c => (c, j.pw 1, hdCodeOff j.hdr, hdCodeLen j.hdr)) }

/-- A saved context back in the machine, its parked accesses at its cores. -/
def State.contextBack (s : State) (sv : Save) (j : Job) : State :=
  (s.contextPlaced sv j).mapParked (fun c => some (if c / noCore = 2 + sv.id then c % noCore else c))

theorem State.contextBack_facts {s : State} (hq : s.noQueue) (ha : s.answers = []) (sv : Save) (j : Job) :
    (s.contextBack sv j).noQueue ∧ (s.contextBack sv j).answers = [] ∧ (s.contextBack sv j).jobs = s.jobs := by
  have hp : (s.contextPlaced sv j).noQueue := hq
  exact ⟨State.mapParked_noQueue hp _, ha, rfl⟩

/-- The requests that what is restored may still wait on. -/
def State.openRequests (s : State) : List Nat := s.pageReqs.map (·.id) ++ s.answers.map (·.1)

/-- The saved cores put back. -/
def State.coresBack (s : State) (sv : Save) (job : Nat) : State := sv.cores.foldl (fun u p => u.coreBack job sv.time s.openRequests p) s

theorem State.restore_eq (s : State) (sv : Save) (j : Job) : s.restore sv j =
    (((sv.cores.map (·.1)).foldl State.lateAnswers ((s.contextBack sv j).coresBack sv j.id)).objs.map (·.id)).foldl State.recheckObj
      ((sv.cores.map (·.1)).foldl State.shareCore ((sv.cores.map (·.1)).foldl State.lateAnswers ((s.contextBack sv j).coresBack sv j.id))).reready := rfl

theorem State.coresBack_resumes (s : State) {sv : Save} (job : Nat) (hn : (sv.cores.map (·.1)).Nodup) {p : Nat × Core} (hp : p ∈ sv.cores) :
    ((s.coresBack sv job).core p.1).Resumes p.2 job := by
  obtain ⟨u, -, hu⟩ := foldl_at_key (F := fun u p => u.coreBack job sv.time s.openRequests p) (key := Prod.fst)
    (fun u p e he => u.coreBack_ne job _ _ p e he) hn hp s
  rw [State.coresBack, hu]
  exact u.coreBack_resumes ..

/-- What a restored context leaves where nothing waits at an object or on a failed page request: the jobs, and each saved core resumed. -/
theorem State.restore_facts {s : State} {sv : Save} {j : Job} (hq : s.noQueue) (ha : s.answers = []) (hn : (sv.cores.map (·.1)).Nodup) :
    (s.restore sv j).jobs = s.jobs ∧ ∀ p ∈ sv.cores, ((s.restore sv j).core p.1).Resumes p.2 j.id := by
  obtain ⟨hbq, hba, hbj⟩ := State.contextBack_facts hq ha sv j
  have hback : ∀ p ∈ sv.cores, _ := fun p hp => (s.contextBack sv j).coresBack_resumes j.id hn hp
  obtain ⟨hcj, hco, hca⟩ : (s.contextBack sv j).SameQueues ((s.contextBack sv j).coresBack sv j.id) :=
    foldl_sameQueues (fun u p => u.coreBack_sameQueues _ _ _ p) _ _
  rw [State.restore_eq]
  generalize (s.contextBack sv j).coresBack sv j.id = w at hback hcj hco hca
  rw [State.allLate_none (hca.trans hba)]
  obtain ⟨hsj, hso, -⟩ := foldl_sameQueues (fun u c => (u.shareCore_facts c).1) (sv.cores.map (·.1)) w
  have hshared : ∀ p ∈ sv.cores, _ := fun p hp => State.foldl_shareCore_resumes (sv.cores.map (·.1)) w (hback p hp)
  generalize (sv.cores.map (·.1)).foldl State.shareCore w = x at hsj hso hshared
  have hx : x.reready.noQueue := by
    intro o ho
    exact hbq o (by rw [← hco, ← hso]; exact ho)
  rw [State.recheckAll_noQueue hx]
  exact ⟨hsj.trans (hcj.trans hbj), fun p hp => (hshared p hp).of_accOnly (x.reready_core p.1)⟩

/-! ## The step (R61, R349) -/

/-- A resumed job. -/
def Job.resumed (j : Job) (now : Nat) : Job := { j with phase := .running, preempt := false, save := none, since := now }

/-- The saves of a job that resumes given up, the later safe points with them. -/
def State.savesTaken (s : State) (job : Nat) (sv : Save) : State :=
  { s with
    saves := s.saves.filter (fun x => x.job.id != job)
    safe := s.safe.filter (fun x => x.job.id != job || decide (x.id ≤ sv.id)) }

/-- The step limit of a replay, its thread's count from 0. -/
def State.limited (s : State) (limit : Option (Nat × Nat × Nat)) : State :=
  match limit with
  | some (c, t, n) => ({ s with stepLimit := some (c, t, n) }).onSlot c t (fun x => { x with icount := 0 })
  | none => s

theorem State.limited_facts (s : State) (limit : Option (Nat × Nat × Nat)) :
    (s.limited limit).jobs = s.jobs ∧
    (∀ l, limit = some l → (s.limited limit).stepLimit = some l) ∧ ∀ e k0 job, (s.core e).Resumes k0 job → ((s.limited limit).core e).Resumes k0 job := by
  match limit with
  | none => exact ⟨rfl, fun l h => (Option.some_ne_none l h.symm).elim, fun _ _ _ h => h⟩
  | some (c, t, n) =>
    refine ⟨rfl, fun l h => h ▸ rfl, fun e k0 job h => ?_⟩
    change ((s.onSlot c t (fun x => { x with icount := 0 })).core e).Resumes k0 job
    by_cases he : e = c
    · subst he
      rw [State.core_onSlot]
      refine ⟨h.job, h.phase, h.tlb, fun u => ?_⟩
      by_cases hu : u = t
      · subst hu
        rw [Core.slot_setSlot]
        exact h.slots u
      · rw [Core.slot_setSlot_ne _ _ _ _ hu]
        exact h.slots u
    · rw [State.core_onSlot_ne _ _ _ _ _ he]
      exact h

/-- A saved job restored and running. -/
def State.jobBack (s : State) (v : Save) (j : Job) (job : Nat) : State := (s.restore v j).onJob job (fun x => x.resumed (s.restore v j).rtime.toNat)

theorem jobResume_resumes {s : State} {job : Nat} {j : Job} {v : Save} {safe : Bool} {limit : Option (Nat × Nat × Nat)} (hj : s.job? job = some j)
    (hp : j.phase = .saved safe) (hv : s.resumeFrom j limit.isSome = some v) (hr : s.ready = true) (hm : s.movingIn (pkGrid j.pkt) = false)
    (hb : s.busyGrid (pkGrid j.pkt) = false) (hmap : s.remapped (pkGrid j.pkt) = true) (hbl : s.blocked j.prio (pkGrid j.pkt) = false)
    (hout : s.outranked j.prio (pkGrid j.pkt) = false) :
    ∃ f, exec (.jobResume job limit) s = .next ((((s.mapParked f).savesTaken job v).jobBack v j job).limited limit) := by
  refine ⟨fun c => if j.save.any (fun n => decide (n ≠ v.id ∧ c / noCore = 2 + n)) then none else some c, ?_⟩
  change execJobResume job limit s = _
  simp only [execJobResume, hj, hp, hv, hr, hm, hb, hmap, hbl, hout, Bool.true_eq_false, Bool.false_eq_true, or_self, if_false]
  rfl

/-- A saved job resumes on its cores as it was (R61, R349). -/
theorem jobResume_restores {s : State} {job : Nat} {j : Job} {v : Save} {safe : Bool} {limit : Option (Nat × Nat × Nat)} (hj : s.job? job = some j)
    (hp : j.phase = .saved safe) (hv : s.resumeFrom j limit.isSome = some v) (hr : s.ready = true) (hm : s.movingIn (pkGrid j.pkt) = false)
    (hq : s.noQueue) (ha : s.answers = []) (hb : s.busyGrid (pkGrid j.pkt) = false) (hmap : s.remapped (pkGrid j.pkt) = true)
    (hbl : s.blocked j.prio (pkGrid j.pkt) = false) (hout : s.outranked j.prio (pkGrid j.pkt) = false) (hn : (v.cores.map (·.1)).Nodup) :
    ∃ u, exec (.jobResume job limit) s = .next u ∧ (u.job? job).map (·.phase) = some .running ∧ (∀ p ∈ v.cores, (u.core p.1).Resumes p.2 job) ∧
      (∀ l, limit = some l → u.stepLimit = some l) := by
  obtain ⟨f, hx⟩ := jobResume_resumes hj hp hv hr hm hb hmap hbl hout
  obtain ⟨hjobs, hcores⟩ := State.restore_facts (s := (s.mapParked f).savesTaken job v) (sv := v) (j := j) (State.mapParked_noQueue hq f) ha hn
  obtain ⟨hlj, hls, hlc⟩ := (((s.mapParked f).savesTaken job v).jobBack v j job).limited_facts limit
  refine ⟨_, hx, ?_, fun p hp => hlc _ _ _ ?_, hls⟩
  · have hw : (((s.mapParked f).savesTaken job v).restore v j).job? job = some j := (State.job?_congr hjobs job).trans hj
    rw [State.job?_congr hlj, State.jobBack, State.job?_onJob _ _ (fun x => x.resumed _) (fun _ => rfl), hw]
    rfl
  · have hback := hcores p hp
    rw [State.job?_id hj] at hback
    exact hback

end Sys2Proof.Machine
end

section
/-! PROOFS. A trap delivered to a slot's handler; wait limits and completion traps (R353 to R355, R400, R401). -/

namespace Sys2Proof.Machine

open Sys2Proof Sys2Proof.Safety

/-! ## Delivery to a handler (R354, R355) -/

/-- What a slot has when a trap has been delivered to its handler. -/
structure Slot.Delivered (y x : Slot) (tr : Trap) : Prop where
  pc : y.pc = x.tvec &&& ~~~(3 : Word)
  hnd : y.hnd = true
  g : y.g = x.g
  acc : y.acc = x.acc
  traps : y.traps = x.traps
  tpc : y.tpc = x.pc
  tinfo : y.tinfo = tr.info
  taddr : y.taddr = tr.addr
  cause : y.tcause.toNat % 2 ^ 11 = tr.code.toNat + ofBool tr.defer * 2 ^ 8

theorem aligned_four (w : Word) : BitVec.ofNat 64 (w.toNat / 4 * 4) = w &&& ~~~(3 : Word) := by
  refine BitVec.eq_of_getLsbD_eq fun i hi => ?_
  have low : (3 : Word).getLsbD i = decide (i < 2) := Nat.testBit_two_pow_sub_one 2 i
  rw [BitVec.getLsbD_ofNat, BitVec.getLsbD_and, BitVec.getLsbD_not, low, show w.toNat / 4 * 4 = w.toNat / 2 ^ 2 * 2 ^ 2 from rfl,
    Nat.testBit_mul_two_pow, Nat.testBit_div_two_pow]
  by_cases h : i < 2
  · simp [h, hi]
  · simp [h, hi, Nat.not_lt.mp h, BitVec.getLsbD]

theorem Trap.cause_low (tr : Trap) {nest : Bool} (h : nest = false) : (BitVec.ofNat 64 (tr.cause false nest)).toNat % 2 ^ 11 = tr.code.toNat + ofBool tr.defer * 2 ^ 8 := by
  have hcode := tr.code.isLt
  have hdefer : ofBool tr.defer ≤ 1 := by cases tr.defer <;> decide
  rw [BitVec.toNat_ofNat, Nat.mod_mod_of_dvd _ (by decide), Trap.cause]
  simp only [h, show ofBool false = 0 from rfl]
  omega

/-- A slot in its handler. -/
def Slot.handled (x : Slot) (level : BitVec 2) (vec : Word) : Slot := { x with savedLevel := level, hnd := true, pc := vec }

theorem Slot.deliver_delivered {x : Slot} (hh : x.hnd = false) (now : Nat) (tr : Trap) :
    (x.undone.deliver now false tr (BitVec.ofNat 64 (x.tvec.toNat / 4 * 4))).Delivered x tr := by
  obtain ⟨p, u, hm⟩ := Slot.mark_eq ((((x.undone.trapRegs false tr).setLevel 3).handled x.level (BitVec.ofNat 64 (x.tvec.toNat / 4 * 4)))) now
  have hd : x.undone.deliver now false tr (BitVec.ofNat 64 (x.tvec.toNat / 4 * 4)) = _ := hm
  rw [hd]
  exact ⟨aligned_four x.tvec, rfl, rfl, rfl, rfl, rfl, rfl, rfl, tr.cause_low hh⟩

/-- A slot whose handler takes a trap: outside a call and the sweep thread, a handler armed and none running. -/
structure Slot.Armed (x : Slot) : Prop where
  calls : x.calls = []
  tvec : x.tvec.getLsbD 0 = true
  hnd : x.hnd = false

theorem State.takeTrap_delivers {s : State} {c t : Nat} (ht : t ≠ 11) (hx : (s.slot c t).Armed) (hg : t ≠ 0 ∨ (s.core c).gang = 0) (tr : Trap) :
    ((s.takeTrap c t tr).slot c t).Delivered (s.slot c t) tr ∧ ((s.takeTrap c t tr).core c).gangReq = (s.core c).gangReq := by
  obtain ⟨hcalls, htvec, hhnd⟩ := hx
  have hu : (s.undo c t).slot c t = (s.slot c t).undone := State.slot_onSlot ..
  have hgang : ¬(t = 0 ∧ (s.core c).gang ≠ 0) := fun ⟨h0, hn⟩ => hg.elim (· h0) hn
  have hroutine : ¬(t = 11 ∧ tr.code ≠ 0x17) := fun h => ht h.1
  have harmed : (bit (s.slot c t).undone.tvec 0 && !(s.slot c t).undone.hnd) = true := by
    rw [bit_eq_getLsbD]
    change ((s.slot c t).tvec.getLsbD 0 && !(s.slot c t).hnd) = true
    rw [htvec, hhnd]
    rfl
  have hk : s.takeTrap c t tr = (s.undo c t).setSlot c t ((s.slot c t).undone.deliver s.rtime.toNat false tr (BitVec.ofNat 64 ((s.slot c t).tvec.toNat / 4 * 4))) := by
    have hcalls' : (s.slot c t).undone.calls = [] := hcalls
    unfold State.takeTrap
    simp only [if_neg hgang, hu, if_neg hroutine, hcalls', harmed, if_true]
    rfl
  rw [hk]
  refine ⟨by rw [State.slot_setSlot]; exact Slot.deliver_delivered hhnd .., ?_⟩
  rw [State.setSlot_def, State.core_setCore]
  change ((s.undo c t).core c).gangReq = (s.core c).gangReq
  rw [State.undo, State.core_onSlot]
  rfl

/-! ## Completion traps (R353) -/

theorem completionTrapTake_delivers {s : State} {c t : Nat} {tr : Trap} (hm : (s.core c).vf.moving = none) (ha : (s.slot c t).abort = none)
    (hb : s.boundary c t = true) (hn : s.nextTrap c t = some tr) (ht : t ≠ 11) (hx : (s.slot c t).Armed) (hg : t ≠ 0 ∨ (s.core c).gang = 0) :
    ∃ u, exec (.completionTrapTake c t) s = .next u ∧ (u.slot c t).Delivered ((s.slot c t).without tr) tr ∧ u.mem = s.mem := by
  have hcores : (if t = 0 then s.gangOf c else [c]) = [c] := by
    split
    next h0 => rw [State.gangOf, if_pos (hg.resolve_left (· h0))]
    · rfl
  have hgang : ¬(t = 0 ∧ (s.core c).gang ≠ 0) := fun ⟨h0, hne⟩ => hg.elim (· h0) hne
  have hstep : exec (.completionTrapTake c t) s = .next ((s.onSlot c t (fun x => x.without tr)).takeTrap c t tr) := by
    change execCompletionTrapTake c t s = _
    simp only [execCompletionTrapTake, hcores, List.any_cons, List.any_nil, hm, Option.isSome_none, Bool.or_false, Bool.false_eq_true, if_false, ha, hb,
      if_true, hn, if_neg hgang]
  have hs : (s.onSlot c t (fun x => x.without tr)).slot c t = (s.slot c t).without tr := State.slot_onSlot ..
  have hd := State.takeTrap_delivers (s := s.onSlot c t (fun x => x.without tr)) (c := c) (t := t) ht (by rw [hs]; exact ⟨hx.calls, hx.tvec, hx.hnd⟩)
    (by rw [State.core_onSlot]; exact hg) tr
  rw [hs] at hd
  exact ⟨_, hstep, hd.1, State.takeTrap_mem ..⟩

/-! ## Wait limits (R400, R401) -/

/-- What stands of a slot whose limited wait has run out, as its trap comes. -/
structure Slot.TimedOut (y x : Slot) (k : WaitWord) : Prop where
  calls : y.calls = x.calls
  tvec : y.tvec = x.tvec
  hnd : y.hnd = x.hnd
  pc : k.kind ≠ 10 ∨ k.acc ≠ none → y.pc = x.pc
  kept : k.acc = none → y.g = x.g ∧ y.acc = x.acc
  dropped : ∀ a, k.acc = some a → y.acc = x.acc.filter (fun b => b.id != a.id)

theorem State.core_onSlot_gang (s : State) (c t : Nat) (f : Slot → Slot) :
    ((s.onSlot c t f).core c).gang = (s.core c).gang ∧ ((s.onSlot c t f).core c).gangReq = (s.core c).gangReq := by
  rw [State.core_onSlot]
  exact ⟨rfl, rfl⟩

/-- A slot whose wait is over. -/
def Slot.unwaiting (x : Slot) : Slot := { x with park := none }

/-- A slot without an access, the pending bit of its register given back. -/
def Slot.abandons (x : Slot) (a : Access) : Slot := if a.kind.returns then (x.dropAcc a.id).giveBack a.dest 0 0 else x.dropAcc a.id

theorem State.abandonAcc_eq (s : State) (c t : Nat) (a : Access) :
    s.abandonAcc c t a = ((s.unqueue c (.acc t a.id)).onSlot c t (fun x => x.abandons a)).endTlbPark c t a.id := rfl

theorem State.abandonAcc_timedOut (s : State) (c t : Nat) {k : WaitWord} {a : Access} (ha : k.acc = some a) :
    (((s.abandonAcc c t a).onSlot c t Slot.unwaiting).slot c t).TimedOut (s.slot c t) k ∧
    (((s.abandonAcc c t a).onSlot c t Slot.unwaiting).core c).gang = (s.core c).gang := by
  constructor
  · obtain ⟨p, u, hp⟩ := ((s.unqueue c (.acc t a.id)).onSlot c t (fun x => x.abandons a)).endTlbPark_slot c t a.id
    have hq : (s.unqueue c (.acc t a.id)).slot c t = s.slot c t := rfl
    have hacc : ∀ b, k.acc = some b → a = b := fun b hb => Option.some.inj (ha.symm.trans hb)
    have hsome : k.acc ≠ none := by rw [ha]; exact Option.some_ne_none a
    rw [State.slot_onSlot, State.abandonAcc_eq, hp, State.slot_onSlot, hq]
    unfold Slot.abandons
    split
    · exact ⟨rfl, rfl, rfl, fun _ => rfl, fun hn => (hsome hn).elim, fun b hb => hacc b hb ▸ rfl⟩
    · exact ⟨rfl, rfl, rfl, fun _ => rfl, fun hn => (hsome hn).elim, fun b hb => hacc b hb ▸ rfl⟩
  · rw [(State.core_onSlot_gang ..).1, State.abandonAcc_eq]
    exact (State.core_onSlot_gang ..).1.trans (State.core_onSlot_gang ..).1

/-- A request for a gang that has timed out withdrawn. -/
def State.gangWaitOver (s : State) (c : Nat) (k : WaitWord) : State := if k.kind = 6 then s.onCore c (fun k => { k with gangReq := 0 }) else s

/-- A SYNC that has timed out before its arrival given up. -/
def State.syncWaitOver (s : State) (c : Nat) (k : WaitWord) : State :=
  if k.kind = 1 ∧ k.arrived = false then s.onCore c (fun x => { x with sync := if x.sync.level = some k.arg then .none else x.sync }) else s

/-- An instruction whose block read has timed out passed over. -/
def State.readWaitOver (s : State) (c t n : Nat) (k : WaitWord) : State :=
  if k.kind = 10 then s.onSlot c t (fun x => { x with pc := x.pc + BitVec.ofNat 64 n }) else s

theorem State.gangWaitOver_facts (s : State) (c t : Nat) (k : WaitWord) : (s.gangWaitOver c k).slot c t = s.slot c t ∧
    ((s.gangWaitOver c k).core c).gang = (s.core c).gang ∧ (k.kind = 6 → ((s.gangWaitOver c k).core c).gangReq = 0) ∧ (s.gangWaitOver c k).mem = s.mem := by
  unfold State.gangWaitOver
  split
  · exact ⟨State.slot_onCore rfl t, by rw [State.core_onCore], fun _ => by rw [State.core_onCore], rfl⟩
  next h => exact ⟨rfl, rfl, fun h6 => (h h6).elim, rfl⟩

theorem State.syncWaitOver_facts (s : State) (c t : Nat) (k : WaitWord) : (s.syncWaitOver c k).slot c t = s.slot c t ∧
    ((s.syncWaitOver c k).core c).gang = (s.core c).gang ∧ ((s.syncWaitOver c k).core c).gangReq = (s.core c).gangReq ∧ (s.syncWaitOver c k).mem = s.mem := by
  unfold State.syncWaitOver
  split
  · exact ⟨State.slot_onCore rfl t, by rw [State.core_onCore], by rw [State.core_onCore], rfl⟩
  · exact ⟨rfl, rfl, rfl, rfl⟩

theorem State.readWaitOver_facts (s : State) (c t n : Nat) {k : WaitWord} (ha : k.acc = none) : ((s.readWaitOver c t n k).slot c t).TimedOut (s.slot c t) k ∧
    ((s.readWaitOver c t n k).core c).gang = (s.core c).gang ∧ ((s.readWaitOver c t n k).core c).gangReq = (s.core c).gangReq ∧
    (s.readWaitOver c t n k).mem = s.mem := by
  have hsome (P : Access → Prop) : ∀ a, k.acc = some a → P a := fun a h => (Option.some_ne_none a (h.symm.trans ha)).elim
  unfold State.readWaitOver
  split
  next h10 =>
    obtain ⟨hg, hr⟩ := s.core_onSlot_gang c t (fun x => { x with pc := x.pc + BitVec.ofNat 64 n })
    rw [State.slot_onSlot]
    exact ⟨⟨rfl, rfl, rfl, fun h => h.elim (fun h => (h h10).elim) (fun h => (h ha).elim), fun _ => ⟨rfl, rfl⟩, hsome _⟩, hg, hr, rfl⟩
  · exact ⟨⟨rfl, rfl, rfl, fun _ => rfl, fun _ => ⟨rfl, rfl⟩, hsome _⟩, rfl, rfl, rfl⟩

/-- WAITTIME of an instruction (R401). -/
def WaitWord.trap (k : WaitWord) (page op : Nat) (addr fpc : Word) (map : Option (List Nat)) : Trap :=
  { code := 0x10, defer := false, page := page, op := op, addr := addr, info := k.info, fpc := fpc, map := map }

/-- A wait's own undoing, then the trap. -/
theorem State.timeOut_takes (s : State) (c t : Nat) (k : WaitWord) : ∃ (w : State) (tr : Trap), s.timeOut c t k = w.takeTrap c t tr ∧ tr.code = 0x10 ∧
    tr.defer = false ∧ tr.info = k.info ∧ (w.slot c t).TimedOut (s.slot c t) k ∧ (w.core c).gang = (s.core c).gang ∧
    (k.kind = 6 → k.acc = none → (w.core c).gangReq = 0) ∧ w.mem = s.mem := by
  cases ha : k.acc with
  | some a =>
    obtain ⟨hx, hg⟩ := s.abandonAcc_timedOut c t ha
    refine ⟨(s.abandonAcc c t a).onSlot c t Slot.unwaiting, k.trap a.page a.op a.va a.fpc none, ?_, rfl, rfl, rfl, hx, hg, fun _ h => (Option.some_ne_none a h).elim, s.abandonAcc_mem c t a⟩
    unfold State.timeOut
    simp only [ha]
    rfl
  | none =>
    obtain ⟨h1s, h1g, h1r, h1m⟩ := s.gangWaitOver_facts c t k
    obtain ⟨h2s, h2g, h2r, h2m⟩ := (s.gangWaitOver c k).syncWaitOver_facts c t k
    obtain ⟨h3s, h3g, h3r, h3m⟩ := ((s.gangWaitOver c k).syncWaitOver c k).readWaitOver_facts c t (s.opAt c t).2.2 ha
    obtain ⟨hg, hr⟩ := (((s.gangWaitOver c k).syncWaitOver c k).readWaitOver c t (s.opAt c t).2.2 k).core_onSlot_gang c t Slot.unwaiting
    refine ⟨(((s.gangWaitOver c k).syncWaitOver c k).readWaitOver c t (s.opAt c t).2.2 k).onSlot c t Slot.unwaiting,
      k.trap (s.opAt c t).1 (s.opAt c t).2.1 k.addr (s.slot c t).pc (if k.kind ≤ 1 then some k.map else none), ?_, rfl, rfl, rfl, ?_,
      hg.trans (h3g.trans (h2g.trans h1g)), fun h6 _ => hr.trans (h3r.trans (h2r.trans (h1r h6))), h3m.trans (h2m.trans h1m)⟩
    · unfold State.timeOut
      simp only [ha]
      rfl
    · rw [h2s, h1s] at h3s
      rw [State.slot_onSlot]
      exact ⟨h3s.calls, h3s.tvec, h3s.hnd, h3s.pc, h3s.kept, h3s.dropped⟩

theorem waitTimeout_delivers {s : State} {c t : Nat} {w : Wait} {k : WaitWord} (hp : (s.slot c t).park = some w) (he : s.expired c t w = true)
    (hk : s.waitWord c t w = some k) (ht : t ≠ 11) (hx : (s.slot c t).Armed) (hg : t ≠ 0 ∨ (s.core c).gang = 0) :
    ∃ (u : State) (y : Slot) (tr : Trap), exec (.waitTimeout c t) s = .next u ∧ (u.slot c t).Delivered y tr ∧ y.TimedOut (s.slot c t) k ∧ tr.code = 0x10 ∧
      tr.defer = false ∧ tr.info = k.info ∧ (k.kind = 6 → k.acc = none → (u.core c).gangReq = 0) ∧ u.mem = s.mem := by
  obtain ⟨x, tr, hout, hcode, hdefer, hinfo, hy, hxg, hreq, hm⟩ := s.timeOut_takes c t k
  have hstep : exec (.waitTimeout c t) s = .next (x.takeTrap c t tr) := by
    change execWaitTimeout c t s = _
    simp only [execWaitTimeout, hp, he, if_true, hk, hout]
  obtain ⟨hd, hr⟩ := State.takeTrap_delivers (s := x) (c := c) (t := t) ht ⟨hy.calls.trans hx.calls, by rw [hy.tvec]; exact hx.tvec, hy.hnd.trans hx.hnd⟩
    (by rw [hxg]; exact hg) tr
  exact ⟨_, _, tr, hstep, hd, hy, hcode, hdefer, hinfo, fun h6 hn => hr.trans (hreq h6 hn), (State.takeTrap_mem ..).trans hm⟩

end Sys2Proof.Machine
end

section
/-! PROOFS. The host's side and a job's life (O59), from the rules of its steps. -/

namespace Sys2Proof.Proofs

open Sys2Proof Sys2Proof.Machine Sys2Proof.Safety

/-- Settles O59: each part is the rule of its step, in the order of a job's life. -/
theorem hostSideAndJobs : Obligations.HostSideAndJobs := by
  unfold Obligations.HostSideAndJobs
  refine ⟨?reset, ?config, fun s h => recovery_ignores h, ?descriptor, ?doorbell, fun s v hf hv => msixUnmask_sends hf hv,
    fun s n v hf hn => hostRegisterWrite_mask v hf hn, ?bar4, fun s ok h => firmwareUpdate_measures ok h, ?heads, fun s w q v hr hf hw => ?verdict,
    fun s w q h hr hp hn => schedulerStart_claims hr hp hn, ?placed, fun s job j hj hp => launchRelease_releases hj hp, fun s c h => coreEnd_ends h, ?ends,
    fun s job j hj h1 h7 => jobKill_stops hj h1 h7, fun s n j h => savedJobDiscard_discards h, fun s job j hj hp => runningJob_saves hj hp, ?resumed, ?timedOut,
    ?completed⟩
  case reset => exact fun s a b => ⟨_, rfl, rfl, rfl, rfl, rfl, rfl, rfl, rfl, rfl, rfl, rfl, rfl⟩
  case config =>
    intro s r
    obtain ⟨hkept, hon, hoff⟩ := s.priAfter_facts r
    exact ⟨configurationRequest_retries r, fun h => ⟨_, configurationRequest_writes r h, rfl, rfl, hkept, hon, hoff, rfl⟩⟩
  case descriptor =>
    intro s q w v hf hq
    obtain ⟨u, hu, hother, hm, h0, h2, h1⟩ := queueDescriptorWrite_writes s q w v hf hq
    exact ⟨u, hu, hother, hm, h0, h2, fun h => by rw [h1 h]; exact (s.queue q).controlled_facts v⟩
  case doorbell =>
    intro s q v hr hq he hri hwi
    refine ⟨fun hnew hfit => ⟨_, ?_, rfl⟩, fun hbad => ⟨_, writeIndexDoorbell_rings hr hq he, ?_⟩⟩
    · rw [writeIndexDoorbell_rings hr hq he, if_neg (Nat.not_le.mpr hnew), if_neg (Nat.not_lt.mpr hfit)]
    · split
      · exact s.queueError_facts q 1
      next h =>
        rw [if_pos (hbad.resolve_left h)]
        exact s.queueError_facts q 2
  case bar4 =>
    intro s off v hi hf hw ha ho
    exact ⟨hostBar4Access_write v hi hf hw ha ho, hostBar4Access_read v hf hw ha ho, fun w => hostBar4Access_parks v hf hw ha ho,
      fun w => hostBar4Access_faults v hf hw ha ho⟩
  case heads =>
    intro s q p hr he hi hh hv hk hp
    exact ⟨fun ho hd => State.readEntry_plain ho hd hp, fun h hc => launchHeadCheck_accepts hr he hi hh hv hk hp hc,
      fun st w hc hw => launchHeadCheck_rejects hr he hi hh hv hk hp hc hw, fun st va hc hw => launchHeadCheck_waits hr he hi hh hv hk hp hc hw⟩
  case verdict => exact launchHeadCheck_verdict hr hf hw
  case placed =>
    intro s job j img hj hp hm hi hn
    obtain ⟨u, hu, hph, hc⟩ := launchImagePlaced_starts hj hp hm hi hn
    refine ⟨u, hu, hph, fun p hpm => ?_⟩
    obtain ⟨hphase, hsmask, hsstep, hmode, hpc, harg, hregs, hfree⟩ := hc p hpm
    exact ⟨hphase, hsmask, hsstep, hmode, hpc, harg, hregs, hfree⟩
  case ends =>
    intro s job st j hm hj hc hf hi hb h7 hpv ha _ ho
    exact jobEnd_records hm hj hc hf hi hb h7 hpv ha ho
  case resumed =>
    intro s job j v safe limit hj hp hv hr hm hq ha hb hmap hbl hout hn
    obtain ⟨u, hu, hph, hc, hl⟩ := jobResume_restores hj hp hv hr hm hq ha hb hmap hbl hout hn
    refine ⟨u, hu, hph, fun p hpm => ?_, hl⟩
    obtain ⟨hjob, hphase, htlb, hslots⟩ := hc p hpm
    exact ⟨hjob, hphase, htlb, hslots⟩
  case timedOut =>
    intro s c t w k hp he hk ht hcalls htvec hhnd hg
    obtain ⟨u, y, tr, hu, hd, hy, hcode, hdefer, hinfo, hreq, hm⟩ := waitTimeout_delivers hp he hk ht ⟨hcalls, htvec, hhnd⟩ hg
    refine ⟨u, hu, ?_, hd.tinfo.trans hinfo, fun h => hd.tpc.trans (hy.pc h), ?_, hd.hnd, hm, fun h => ?_, hreq, fun a h => hd.acc.trans (hy.dropped a h)⟩
    · rw [hd.cause, hcode, hdefer]
      rfl
    · rw [hd.pc, hy.tvec]
    · obtain ⟨hg, hacc⟩ := hy.kept h
      exact ⟨hd.g.trans hg, hd.acc.trans hacc⟩
  case completed =>
    intro s c t tr hm ha hb hn ht hcalls htvec hhnd hg
    obtain ⟨u, hu, hd, hmem⟩ := completionTrapTake_delivers hm ha hb hn ht ⟨hcalls, htvec, hhnd⟩ hg
    have hcode := tr.code.isLt
    have hcause := hd.cause
    refine ⟨u, hu, by omega, hd.taddr, hd.tinfo, hd.tpc, hd.pc, hd.traps, hd.g, hmem⟩

end Sys2Proof.Proofs
end

section
/-! PROOFS. A joint command's completion among commands that share its id (R41, R198): why O44 fails. -/

namespace Sys2Proof.Machine

open Sys2Proof

/-! ## The completion of a joint command that has B to read (R198) -/

/-- What completes is the command that its core finds under the id once B has been passed on. -/
theorem engineCommandComplete_joint {s : State} {c i : Nat} {m : Cmd} (h : (tget (s.core c).exec 0 [])[i]? = some m) (hm : m.isMarker = false)
    (hd : m.dead = false) (hb : m.readsB = true) :
    exec (.engineCommandComplete c 0 i) s = .next ((s.passB c 0 m).settleCmd c 0 ((s.passB c 0 m).cmdNow c 0 m)
      ((s.passB c 0 m).cmdEffect c 0 ((s.passB c 0 m).cmdNow c 0 m))) := by
  change execEngineCommandComplete c 0 i s = _
  simp only [execEngineCommandComplete, h, hm, hd, hb, Bool.false_eq_true, if_false, if_true]

theorem cmdEffect_mst {s : State} {c : Nat} {m : Cmd} {t : TileNo} {b : Reg} {off : Word} {z : Bool} (h : m.instr = .mst t b off z) :
    s.cmdEffect c 0 m = s.mstEffect c t z m := by
  simp only [State.cmdEffect, State.matEffect, h]

/-! ## A drain under the id of a joint command -/

/-- A matrix command of slot 0 that names tile 0 and the own memory at 0x1000: depth 1, a joint width of one core, binary32 drains. -/
def aMatrix (id : Nat) (i : Instr) (args : List Word) : Cmd :=
  { id := id, num := 1, slot := 0, instr := i, args := args, ec := { EngCsr.reset with klen := 1, dfmt := 2 }, dom := 0, asid := 0, key := 0, fpc := 0, page := 3, op := 0,
    depth := 0, dead := false, joint := 1, srcs := [], shown := 0, brows := [], walk := Walk.none }

/-- A joint command that is the lowest member of its segment and has B to read. -/
def aJoint (id : Nat) : Cmd := aMatrix id (.mmaj 0 4 5) [0x0F00000000001000, 0x0F00000000001000]

/-- A drain under id 9. -/
def aDrain : Cmd := aMatrix 9 (.mst 0 4 0 false) [0x0F00000000001000]

/-- Core 0 executes the joint command of id 9 behind a drain of that id, and first of all another command of the same joint number: that one takes B in
place of the command of id 9. Every element of tile 0 is 1. -/
def sharedId : State :=
  { State.reset with cores := [(0, { Core.reset with
      exec := [(0, [aJoint 8, aDrain, aJoint 9])], tiles := [(0, { alloc := true, int := false, elems := List.replicate 1024 1 })] })] }

/-- B is read: nothing refuses or holds it. -/
theorem sharedId_jointB : ∃ t rows, sharedId.jointB 0 (aJoint 9) = .ok (t, rows) := by
  have h : (match sharedId.jointB 0 (aJoint 9) with | .ok _ => true | _ => false) = true := by decide +kernel
  split at h
  · next r hr => exact ⟨r.1, r.2, hr⟩
  · cases h

/-- The command found under the joint command's id is the drain. -/
theorem sharedId_now : ((sharedId.passB 0 0 (aJoint 9)).cmdNow 0 0 (aJoint 9)).instr = .mst 0 4 0 false := by decide +kernel

/-- So the completion writes the tile to memory. -/
theorem sharedId_written : ∃ u, exec (.engineCommandComplete 0 0 2) sharedId = .next u ∧ Memory.read u.mem (coreKey 0 0x1000) = 1 := by
  refine ⟨_, engineCommandComplete_joint (m := aJoint 9) rfl rfl rfl rfl, ?_⟩
  rw [cmdEffect_mst sharedId_now]
  decide +kernel

end Sys2Proof.Machine

namespace Sys2Proof.Proofs

open Sys2Proof Sys2Proof.Machine Sys2Proof.Safety

/-- Refutes O44: its clause on a joint command's B operand lacks the premise, which its clauses on untouched commands have, that no other command the core
executes has the command's id. In sharedId a drain has it too; the completion of the joint command performs that drain, and memory changes. R42 has the
matrix engine execute one command at a time, but the clause speaks of every state. -/
theorem not_matrixCommandsAct : ¬ Obligations.MatrixCommandsAct := by
  unfold Obligations.MatrixCommandsAct
  rintro ⟨-, -, joint, -⟩
  obtain ⟨t, rows, hB⟩ := sharedId_jointB
  obtain ⟨u, hu, hkept, -⟩ := joint sharedId t 0 2 (aJoint 9) rows rfl rfl rfl hB
  obtain ⟨v, hv, hwritten⟩ := sharedId_written
  rw [hu] at hv
  injection hv with huv
  rw [← huv, hkept] at hwritten
  exact absurd hwritten (by decide)

end Sys2Proof.Proofs
end

section
/-! PROOFS. Immediates in chains of prefixes (R85, R89, R90, R111): the payloads the encoder cuts a value into, and the value the decoder reads from them. -/

namespace Sys2Proof

/-! ## Signed values of few bits -/

/-- A value extended from m bits has those m bits below. -/
theorem setWidth_signExtend {m : Nat} (x : BitVec m) (hm : m ≤ 64) : (x.signExtend 64).setWidth m = x := by
  apply BitVec.eq_of_getLsbD_eq
  intro i hi
  have inWord : i < 64 := by omega
  rw [BitVec.getLsbD_setWidth, BitVec.getLsbD_signExtend]
  simp [hi, inWord]

/-- An extension from n bits is an extension from every larger number of bits. -/
theorem fitsS_signExtend {n m : Nat} (x : BitVec n) (hnm : n ≤ m) (hm : m ≤ 64) : fitsS m (x.signExtend 64) = true := by
  have twice : (x.signExtend m).signExtend 64 = x.signExtend 64 := by
    apply BitVec.eq_of_toInt_eq
    rw [BitVec.toInt_signExtend_of_le hm, BitVec.toInt_signExtend_of_le hnm, BitVec.toInt_signExtend_of_le (hnm.trans hm)]
  rw [fitsS, beq_iff_eq, ← twice, BitVec.truncate_eq_setWidth, setWidth_signExtend _ hm]

theorem eq_of_fitsS {n : Nat} {v : Word} (h : fitsS n v = true) : (BitVec.ofNat n v.toNat).signExtend 64 = v := by
  rw [fitsS, beq_iff_eq, BitVec.truncate_eq_setWidth] at h
  rw [BitVec.ofNat_toNat, h]

theorem fitsS_mono {n m : Nat} {v : Word} (h : fitsS n v = true) (hnm : n ≤ m) (hm : m ≤ 64) : fitsS m v = true := by
  rw [← eq_of_fitsS h]
  exact fitsS_signExtend _ hnm hm

theorem fitsS_zero {n : Nat} : fitsS n 0 = true := by
  have zero : (BitVec.ofNat n 0).signExtend 64 = 0#64 := BitVec.eq_of_toInt_eq (by simp [BitVec.toInt_signExtend])
  simp [fitsS, zero]

theorem eq_zero_of_fitsS_zero {v : Word} (h : fitsS 0 v = true) : v = 0 := by
  rw [← eq_of_fitsS h, BitVec.of_length_zero (x := BitVec.ofNat 0 v.toNat)]
  rfl

theorem sx_of_fitsS {n : Nat} {v : Word} (h : fitsS n v = true) : sx n (v.toNat % 2 ^ n) = v := by
  have low : BitVec.ofNat n (v.toNat % 2 ^ n) = BitVec.ofNat n v.toNat := by
    apply BitVec.eq_of_toNat_eq
    simp
  rw [sx, low, eq_of_fitsS h]

/-- What a signed immediate of n bits holds fits n bits (R89). -/
theorem fitsS_immS {imms : List (BitVec 8)} {w m : Nat} (f : Nat) (h : 8 * imms.length + w ≤ m) (hm : m ≤ 64) : fitsS m (immS imms w f) = true := by
  simp only [immS]
  split
  · exact fitsS_zero
  · exact fitsS_signExtend _ h hm

/-! ## Payloads -/

/-- The payloads of the IMM prefixes that hold v above its low w bits, highest first (R89). -/
def payloads (w k v : Nat) : List (BitVec 8) :=
  match k with
  | 0 => []
  | k + 1 => BitVec.ofNat 8 (v / 2 ^ (w + 8 * k)) :: payloads w k v

/-- The payloads of a natural value below 256 that stands in no base field: none for 0. -/
def bytePayloads (n : Nat) : List (BitVec 8) := if n = 0 then [] else [BitVec.ofNat 8 n]

/-- The IMM word of a payload (R85). -/
def immWord (p : BitVec 8) : Half := prefixWord 0 p.toNat

@[simp] theorem payloads_length (w k v : Nat) : (payloads w k v).length = k := by
  induction k with
  | zero => rfl
  | succ k ih => simp [payloads, ih]

theorem bytePayloads_length (n : Nat) : (bytePayloads n).length ≤ 1 := by
  unfold bytePayloads
  split <;> simp

theorem immWords_eq (w k v : Nat) : immWords w k v = (payloads w k v).map immWord := by
  induction k with
  | zero => rfl
  | succ k ih => simp [immWords, payloads, immWord, ih]

theorem byteWords_eq {n : Nat} (h : n < 256) : (if n = 0 then [] else [prefixWord 0 n]) = (bytePayloads n).map immWord := by
  unfold bytePayloads
  split
  · rfl
  · simp [immWord, Nat.mod_eq_of_lt h]

/-- The value that a chain of payloads holds, read from the highest on. -/
theorem foldl_payloads (w k v a : Nat) :
    (payloads w k v).foldl (fun a p => a * 256 + p.toNat) a = a * 256 ^ k + v / 2 ^ w % 256 ^ k := by
  induction k generalizing a with
  | zero => simp [payloads, Nat.mod_one]
  | succ k ih =>
    have power : (2 : Nat) ^ (w + 8 * k) = 2 ^ w * 256 ^ k := by rw [Nat.pow_add, Nat.pow_mul]
    have cut := Nat.mod_pow_succ (b := 256) (k := k) (x := v / 2 ^ w)
    simp only [payloads, List.foldl_cons, ih, BitVec.toNat_ofNat, power, ← Nat.div_div_eq_div_mul]
    rw [cut, Nat.pow_succ]
    ring

/-- Payloads and base field together hold the low bits of the value they were cut from (R89). -/
theorem immRaw_payloads (w k v : Nat) : immRaw (payloads w k v) w (v % 2 ^ w) = (v % 2 ^ (w + 8 * k), w + 8 * k) := by
  have value : v / 2 ^ w % 256 ^ k * 2 ^ w + v % 2 ^ w = v % 2 ^ (w + 8 * k) := by
    rw [Nat.pow_add, Nat.mod_mul, Nat.pow_mul]
    ring
  simp only [immRaw, foldl_payloads, payloads_length, Nat.zero_mul, Nat.zero_add, value]
  rw [Nat.add_comm]

theorem immS_payloads {w k : Nat} {v : Word} (h : fitsS (w + 8 * k) v = true) : immS (payloads w k v.toNat) w (v.toNat % 2 ^ w) = v := by
  simp only [immS, immRaw_payloads]
  split
  · next hz => rw [hz] at h; exact (eq_zero_of_fitsS_zero h).symm
  · exact sx_of_fitsS h

theorem immN_payloads {w k v : Nat} (h : v < 2 ^ (w + 8 * k)) : immN (payloads w k v) w (v % 2 ^ w) = v := by
  rw [immN, immRaw_payloads, Nat.mod_eq_of_lt h]

theorem immN_bytePayloads {n : Nat} (w f : Nat) (h : n < 256) : immN (bytePayloads n) w f = n * 2 ^ w + f := by
  unfold bytePayloads
  split
  · next hz => simp [immN, immRaw, hz]
  · simp [immN, immRaw, Nat.mod_eq_of_lt h]

/-! ## The fewest payloads (R111) -/

/-- Where k payloads hold the signed value, the encoder finds a number of them that does and is no larger. -/
theorem immCountS_fits {w k : Nat} {v : Word} (h : fitsS (w + 8 * k) v = true) (fuel lo : Nat) (hlo : lo ≤ k) (hk : k < lo + fuel) :
    fitsS (w + 8 * immCountS w v lo fuel) v = true ∧ lo ≤ immCountS w v lo fuel ∧ immCountS w v lo fuel ≤ k := by
  induction fuel generalizing lo with
  | zero => omega
  | succ fuel ih =>
    have later (hne : lo ≠ k) := ih (lo + 1) (by omega) (by omega)
    simp only [immCountS]
    split
    · next hz =>
      obtain ⟨rfl, rfl⟩ : lo = 0 ∧ w = 0 := by omega
      split
      · next hv => subst hv; exact ⟨fitsS_zero, le_rfl, hlo⟩
      · next hv =>
        have hne : 0 ≠ k := by rintro rfl; exact hv (eq_zero_of_fitsS_zero h)
        obtain ⟨fits, -, small⟩ := later hne
        exact ⟨fits, Nat.zero_le _, small⟩
    · split
      · next hf => exact ⟨hf, le_rfl, hlo⟩
      · next hf =>
        obtain ⟨fits, large, small⟩ := later (by rintro rfl; exact hf h)
        exact ⟨fits, by omega, small⟩

theorem immCountN_fits {w k v : Nat} (h : v < 2 ^ (w + 8 * k)) (fuel lo : Nat) (hlo : lo ≤ k) (hk : k < lo + fuel) :
    v < 2 ^ (w + 8 * immCountN w v lo fuel) ∧ immCountN w v lo fuel ≤ k := by
  induction fuel generalizing lo with
  | zero => omega
  | succ fuel ih =>
    simp only [immCountN]
    split
    · next hf => exact ⟨hf, hlo⟩
    · next hf => exact ih (lo + 1) (by rcases Nat.lt_or_eq_of_le hlo with hl | rfl; exacts [hl, absurd h hf]) (by omega)

end Sys2Proof
end

section
/-! PROOFS. Chains of prefixes (R83 to R88, R111): what the decoder makes of each word of a chain, and of a whole chain that the encoder writes. -/

namespace Sys2Proof

/-! ## Base words and their switch marker (R83, R84) -/

/-- A base word as the encoder writes it, with its S bit when the instruction is marked. -/
def markedWord (mk : Bool) (w : Half) : Half := if mk then w ||| 0x8000 else w

theorem baseWord_toNat {op a b : Nat} (hop : op < 32) (ha : a < 32) (hb : b < 32) : (baseWord op a b).toNat = op * 1024 + a * 32 + b := by
  rw [baseWord, BitVec.toNat_ofNat, Nat.mod_eq_of_lt (by omega)]

theorem markedWord_toNat {w : Half} (mk : Bool) (h : w.toNat < 32768) : (markedWord mk w).toNat = w.toNat + 32768 * mk.toNat := by
  cases mk with
  | false => rfl
  | true =>
    have disjoint := Nat.two_pow_add_eq_or_of_lt (i := 15) h 1
    rw [markedWord, if_pos rfl, BitVec.toNat_or, Nat.lor_comm]
    exact disjoint.symm.trans (Nat.add_comm _ _)

theorem markedWord_msb {w : Half} (mk : Bool) (h : w.toNat < 32768) : (markedWord mk w).msb = mk := by
  rw [BitVec.msb_eq_decide, markedWord_toNat mk h]
  cases mk <;> simp [h]

theorem markedWord_fields {op a b : Nat} (mk : Bool) (hop : op < 32) (ha : a < 32) (hb : b < 32) :
    fOP (markedWord mk (baseWord op a b)) = op ∧ fA (markedWord mk (baseWord op a b)) = a ∧ fB (markedWord mk (baseWord op a b)) = b := by
  have value := baseWord_toNat hop ha hb
  have marked := markedWord_toNat (w := baseWord op a b) mk (by omega)
  have bit := mk.toNat_lt
  simp only [fOP, fA, fB, bits, marked, value]
  refine ⟨?_, ?_, ?_⟩ <;> omega

/-- The decoder of a page, on the fields of a base word. -/
def decodePage (page : Nat) (c : Chain) (op a b : Nat) : Except Nat Instr :=
  match page with
  | 0 => decodePage0 c op a b
  | 1 => decodePage1 c op a b
  | 2 => decodePage2 c op a b
  | 3 => decodePage3 c op a b
  | 4 => decodePage4 c op a b
  | 5 => decodePage5 c op a b
  | 6 => decodePage6 c op a b
  | 7 => decodePage7 c op a b
  | _ => .error 0

theorem decodeBase_eq (c : Chain) (w : Half) : ∀ page, decodeBase page c w = decodePage page c (fOP w) (fA w) (fB w)
  | 0 => rfl
  | 1 => rfl
  | 2 => rfl
  | 3 => rfl
  | 4 => rfl
  | 5 => rfl
  | 6 => rfl
  | 7 => rfl
  | _ + 8 => rfl

/-- The word that ends a chain: a base word of a page other than 0, or one of page 0 that is none of the prefixes (R85, R86). -/
theorem decodeFrom_base {c : Chain} {n : Nat} {w : Half} {ws : List Half} {i : Instr} (h : c.pageNo ≠ 0 ∨ fOP w ≠ 31)
    (hi : decodePage c.pageNo c (fOP w) (fA w) (fB w) = .ok i) :
    decodeFrom c n (w :: ws) = .ok { instr := i, mark := w.msb, words := n + 1, page := c.pageNo, op := fOP w } := by
  rw [decodeFrom, if_pos h, decodeBase_eq, hi]

/-! ## Prefixes (R85, R86) -/

theorem prefixWord_facts {k p : Nat} (hk : k < 4) (hp : p < 256) :
    fOP (prefixWord k p) = 31 ∧ bits (prefixWord k p).toNat 9 8 = k ∧ (prefixWord k p).msb = false ∧
      (prefixWord k p).truncate 8 = BitVec.ofNat 8 p := by
  have value : (prefixWord k p).toNat = 0x7C00 + k * 256 + p := by rw [prefixWord, BitVec.toNat_ofNat, Nat.mod_eq_of_lt (by omega)]
  refine ⟨?_, ?_, ?_, ?_⟩
  · simp only [fOP, bits, value]; omega
  · simp only [bits, value]; omega
  · rw [BitVec.msb_eq_decide, value, decide_eq_false_iff_not]; omega
  · apply BitVec.eq_of_toNat_eq
    simp only [BitVec.truncate_eq_setWidth, BitVec.toNat_setWidth, BitVec.toNat_ofNat, value]
    omega

variable {c : Chain} {n : Nat} {ws : List Half}

theorem decodeFrom_imm (p : BitVec 8) (hc : c.page = none) (hn : n < 4) :
    decodeFrom c n (immWord p :: ws) = decodeFrom { c with imms := c.imms ++ [p] } (n + 1) ws := by
  obtain ⟨hop, hkind, hmsb, hp⟩ := prefixWord_facts (k := 0) (by omega) p.isLt
  have payload : BitVec.ofNat 8 p.toNat = p := by simp
  simp [decodeFrom, immWord, Chain.pageNo, hc, hop, hkind, hmsb, Nat.not_le.mpr hn, hp, payload, -BitVec.truncate_eq_setWidth]

theorem decodeFrom_reg {r x : Nat} (hr : r < 32) (hx : x < 8) (hc : c.page = none) (hreg : c.reg = none) (hn : n < 4) :
    decodeFrom c n (prefixWord 1 (r * 8 + x) :: ws) = decodeFrom { c with reg := some (gr r, BitVec.ofNat 3 x) } (n + 1) ws := by
  obtain ⟨hop, hkind, hmsb, hp⟩ := prefixWord_facts (k := 1) (p := r * 8 + x) (by omega) (by omega)
  have number : (r * 8 + x) % 256 / 8 = r := by omega
  have extra : BitVec.ofNat 3 (r * 8 + x) = BitVec.ofNat 3 x := BitVec.eq_of_toNat_eq (by simp only [BitVec.toNat_ofNat]; omega)
  have low : (BitVec.ofNat 8 (r * 8 + x)).truncate 3 = BitVec.ofNat 3 (r * 8 + x) := BitVec.eq_of_toNat_eq (by simp)
  simp [decodeFrom, Chain.pageNo, hc, hop, hkind, hmsb, Nat.not_le.mpr hn, hp, hreg, number, low, extra, -BitVec.truncate_eq_setWidth]

theorem decodeFrom_mod {m : Nat} (hm : m < 256) (hc : c.page = none) (hmod : c.mod = none) (hn : n < 4) :
    decodeFrom c n (prefixWord 3 m :: ws) = decodeFrom { c with mod := some (BitVec.ofNat 8 m) } (n + 1) ws := by
  obtain ⟨hop, hkind, hmsb, hp⟩ := prefixWord_facts (k := 3) (by omega) hm
  simp [decodeFrom, Chain.pageNo, hc, hop, hkind, hmsb, Nat.not_le.mpr hn, hp, hmod, -BitVec.truncate_eq_setWidth]

theorem decodeFrom_page {p : Nat} (hp8 : p < 8) (hc : c.page = none) (hn : n < 4) :
    decodeFrom c n (prefixWord 2 p :: ws) = decodeFrom { c with page := some (BitVec.ofNat 8 p) } (n + 1) ws := by
  obtain ⟨hop, hkind, hmsb, hp⟩ := prefixWord_facts (k := 2) (p := p) (by omega) (by omega)
  have small : ¬ 7 < p % 256 := by omega
  simp [decodeFrom, Chain.pageNo, hc, hop, hkind, hmsb, Nat.not_le.mpr hn, hp, small, -BitVec.truncate_eq_setWidth]

theorem decodeFrom_imms (ps : List (BitVec 8)) (hc : c.page = none) (hn : n + ps.length ≤ 4) :
    decodeFrom c n (ps.map immWord ++ ws) = decodeFrom { c with imms := c.imms ++ ps } (n + ps.length) ws := by
  induction ps generalizing c n with
  | nil => simp
  | cons p ps ih =>
    rw [List.length_cons] at hn
    rw [List.map_cons, List.cons_append, decodeFrom_imm p hc (by omega), ih (c := { c with imms := c.imms ++ [p] }) hc (by omega)]
    simp only [List.append_assoc, List.cons_append, List.nil_append, List.length_cons]
    congr 1
    omega

/-! ## Chains -/

/-- The REG word of a chain, if it has one. -/
def regWords (reg : Option (Nat × Nat)) : List Half := reg.elim [] (fun p => [prefixWord 1 (p.1 * 8 + p.2)])

/-- The chain of prefixes that the encoder writes. -/
def encChain (reg : Option (Nat × Nat)) (mod : Nat) (ps : List (BitVec 8)) (page : Nat) : Chain :=
  { imms := ps, reg := reg.map (fun p => (gr p.1, BitVec.ofNat 3 p.2)),
    page := if page = 0 then none else some (BitVec.ofNat 8 page), mod := if mod = 0 then none else some (BitVec.ofNat 8 mod) }

/-- A chain that exists: its fields are in range and its prefixes are at most four (R87). -/
structure ChainFits (reg : Option (Nat × Nat)) (mod : Nat) (ps : List (BitVec 8)) (page : Nat) : Prop where
  regLt : ∀ p ∈ reg, p.1 < 32 ∧ p.2 < 8
  modLt : mod < 256
  pageLt : page < 8
  count : regLen reg.isSome + modLen mod + ps.length + modLen page ≤ 4

theorem chainOf_eq (mk : Bool) (reg : Option (Nat × Nat)) (mod : Nat) (imm : List Half) (page : Nat) (w : Half) :
    chainOf mk reg mod imm page w = regWords reg ++ (if mod = 0 then [] else [prefixWord 3 mod]) ++ imm ++
      (if page = 0 then [] else [prefixWord 2 page]) ++ [markedWord mk w] := by
  cases reg <;> rfl

variable {reg : Option (Nat × Nat)} {mod page : Nat} {ps : List (BitVec 8)}

theorem chainOf_length (mk : Bool) (w : Half) :
    (chainOf mk reg mod (ps.map immWord) page w).length = regLen reg.isSome + modLen mod + ps.length + modLen page + 1 := by
  have single (m : Nat) (x : Half) : (if m = 0 then [] else [x]).length = modLen m := by
    unfold modLen
    split <;> rfl
  have first : (regWords reg).length = regLen reg.isSome := by cases reg <;> rfl
  simp only [chainOf_eq, List.length_append, List.length_map, List.length_singleton, single, first]

theorem decodeFrom_regWords (h : ∀ p ∈ reg, p.1 < 32 ∧ p.2 < 8) (hc : c.page = none) (hreg : c.reg = none) (hn : n < 4) :
    decodeFrom c n (regWords reg ++ ws) =
      decodeFrom { c with reg := reg.map (fun p => (gr p.1, BitVec.ofNat 3 p.2)) } (n + regLen reg.isSome) ws := by
  cases reg with
  | none => rw [Option.map_none, ← hreg]; rfl
  | some p =>
    obtain ⟨hr, hx⟩ := h p rfl
    exact decodeFrom_reg hr hx hc hreg hn

theorem decodeFrom_modWords (h : mod < 256) (hc : c.page = none) (hmod : c.mod = none) (hn : n + modLen mod ≤ 4) :
    decodeFrom c n ((if mod = 0 then [] else [prefixWord 3 mod]) ++ ws) =
      decodeFrom { c with mod := if mod = 0 then none else some (BitVec.ofNat 8 mod) } (n + modLen mod) ws := by
  unfold modLen at hn ⊢
  split at hn
  · next hz => simp only [hz, if_true, ← hmod]; rfl
  · next hz => simp only [hz, if_false]; exact decodeFrom_mod h hc hmod (by omega)

theorem decodeFrom_pageWords (h : page < 8) (hc : c.page = none) (hn : n + modLen page ≤ 4) :
    decodeFrom c n ((if page = 0 then [] else [prefixWord 2 page]) ++ ws) =
      decodeFrom { c with page := if page = 0 then none else some (BitVec.ofNat 8 page) } (n + modLen page) ws := by
  unfold modLen at hn ⊢
  split at hn
  · next hz => simp only [hz, if_true, ← hc]; rfl
  · next hz => simp only [hz, if_false]; exact decodeFrom_page h hc (by omega)

/-- The decoder has read the whole chain when it comes to the base word. -/
theorem decode_chainOf (fits : ChainFits reg mod ps page) (mk : Bool) (w : Half) (rest : List Half) :
    decode (chainOf mk reg mod (ps.map immWord) page w ++ rest) =
      decodeFrom (encChain reg mod ps page) (regLen reg.isSome + modLen mod + ps.length + modLen page) (markedWord mk w :: rest) := by
  obtain ⟨hreg, hmod, hpage, hcount⟩ := fits
  simp only [decode, chainOf_eq, List.append_assoc]
  rw [decodeFrom_regWords hreg rfl rfl (by omega), decodeFrom_modWords hmod rfl rfl (by omega), decodeFrom_imms ps rfl (by omega),
    decodeFrom_pageWords hpage rfl (by omega)]
  simp [encChain]

theorem encChain_pageNo (h : page < 8) : (encChain reg mod ps page).pageNo = page := by
  by_cases hz : page = 0
  · simp [encChain, Chain.pageNo, hz]
  · have small : page % 256 = page := by omega
    simp [encChain, Chain.pageNo, hz, small]

/-- Decoding gives i, its mark, and the number of the words, whatever words follow. -/
def Decodes (mk : Bool) (ws : List Half) (i : Instr) : Prop :=
  ∀ rest, ∃ d, decode (ws ++ rest) = .ok d ∧ d.instr = i ∧ d.mark = mk ∧ d.words = ws.length ∧ d.words ≤ 5

/-- A chain decodes to what its page's decoder makes of the base word's fields. -/
theorem decodes_chainOf {op a b : Nat} {i : Instr} (mk : Bool) (fits : ChainFits reg mod ps page) (hop : op < 32) (ha : a < 32) (hb : b < 32)
    (hlast : page ≠ 0 ∨ op ≠ 31) (h : decodePage page (encChain reg mod ps page) op a b = .ok i) :
    Decodes mk (chainOf mk reg mod (ps.map immWord) page (baseWord op a b)) i := by
  intro rest
  obtain ⟨fieldOp, fieldA, fieldB⟩ := markedWord_fields mk hop ha hb
  have hpage := encChain_pageNo (reg := reg) (mod := mod) (ps := ps) fits.pageLt
  have small : (baseWord op a b).toNat < 32768 := by rw [baseWord_toNat hop ha hb]; omega
  have count := fits.count
  refine ⟨_, (decode_chainOf fits mk _ rest).trans (decodeFrom_base (i := i) ?_ ?_), rfl, markedWord_msb mk small, (chainOf_length mk _).symm,
    Nat.succ_le_succ count⟩
  · rwa [hpage, fieldOp]
  · rwa [hpage, fieldOp, fieldA, fieldB]

end Sys2Proof
end

section
/-! PROOFS. The arms of the page decoders (R88 to R105): the shapes that several instructions share, and how each reads the chain of an encoding. -/

namespace Sys2Proof

variable {reg : Option (Nat × Nat)} {mod page : Nat} {ps : List (BitVec 8)} {k : Except Nat Instr}

/-! ## What an encoding's chain holds -/

@[simp] theorem gr_toNat (r : Reg) : gr r.toNat = r := by simp [gr]
@[simp] theorem vr_toNat (r : VReg) : vr r.toNat = r := by simp [vr]
@[simp] theorem regLen_true : regLen true = 1 := rfl
@[simp] theorem regLen_false : regLen false = 0 := rfl

/-- A check passes exactly where its condition holds and the rest of the arm does. -/
@[simp] theorem ck_eq_ok {ok : Bool} {r : Nat} {i : Instr} : ck ok r k = .ok i ↔ ok = true ∧ k = .ok i := by cases ok <;> simp [ck]

@[simp] theorem encChain_imms : (encChain reg mod ps page).imms = ps := rfl
@[simp] theorem encChain_reg_isSome : (encChain reg mod ps page).reg.isSome = reg.isSome := Option.isSome_map ..
@[simp] theorem encChain_reg_isNone : (encChain reg mod ps page).reg.isNone = reg.isNone := Option.isNone_map ..
@[simp] theorem encChain_mod_isNone : (encChain reg mod ps page).mod.isNone = decide (mod = 0) := by by_cases h : mod = 0 <;> simp [encChain, h]
@[simp] theorem encChain_mod_isSome : (encChain reg mod ps page).mod.isSome = decide (mod ≠ 0) := by by_cases h : mod = 0 <;> simp [encChain, h]
theorem encChain_reg : (encChain reg mod ps page).reg = reg.map (fun p => (gr p.1, BitVec.ofNat 3 p.2)) := rfl
@[simp] theorem encChain_x3_none : (encChain none mod ps page).x3 = 0 := rfl
@[simp] theorem encChain_c_none (dflt : Nat) : (encChain none mod ps page).c dflt = dflt := rfl

theorem encChain_m (h : mod < 256) : (encChain reg mod ps page).m = mod := by
  by_cases hz : mod = 0
  · simp [encChain, Chain.m, hz]
  · simp [encChain, Chain.m, hz, Nat.mod_eq_of_lt h]

theorem encChain_x3_some {r x : Nat} (h : x < 8) : (encChain (some (r, x)) mod ps page).x3 = x := by
  simp [encChain, Chain.x3, Nat.mod_eq_of_lt h]

theorem encChain_c_some {r x : Nat} (h : r < 32) (dflt : Nat) : (encChain (some (r, x)) mod ps page).c dflt = r := by
  simp [encChain, Chain.c, gr, Nat.mod_eq_of_lt h]

/-! ## A REG word that is left out where its fields are the default ones (R91, R111) -/

/-- What a chain gives to an instruction: its payloads, the third register where dflt stands for an absent one, the bits X3, the MOD payload, and
whether it has a REG and a MOD word (R89, R91, R92). -/
structure Chain.Holds (c : Chain) (ps : List (BitVec 8)) (dflt r x mod : Nat) (given : Bool) : Prop where
  imms : c.imms = ps
  third : c.c dflt = r
  extra : c.x3 = x
  payload : c.m = mod
  reg : c.reg.isSome = given
  noMod : c.mod.isNone = decide (mod = 0)

variable {P : Prop} [Decidable P] {r x : Nat}

theorem encChain_holds {dflt : Nat} (hr : r < 32) (hx : x < 8) (hmod : mod < 256) (dr : P → r = dflt) (dx : P → x = 0) :
    (encChain (if P then none else some (r, x)) mod ps page).Holds ps dflt r x mod (!decide P) := by
  by_cases hp : P
  · have third := (dr hp).symm
    have extra := (dx hp).symm
    simp only [if_pos hp]
    exact ⟨rfl, third, extra, encChain_m hmod, by simp [hp], encChain_mod_isNone⟩
  · simp only [if_neg hp]
    exact ⟨rfl, encChain_c_some hr dflt, encChain_x3_some hx, encChain_m hmod, by simp [hp], encChain_mod_isNone⟩

theorem regLt_none : ∀ p ∈ (none : Option (Nat × Nat)), p.1 < 32 ∧ p.2 < 8 := nofun

theorem regLt_some (hr : r < 32) (hx : x < 8) : ∀ p ∈ some (r, x), p.1 < 32 ∧ p.2 < 8 := by
  rintro p ⟨⟩
  exact ⟨hr, hx⟩

theorem regLt_unless (hr : r < 32) (hx : x < 8) : ∀ p ∈ (if P then none else some (r, x)), p.1 < 32 ∧ p.2 < 8 := by
  split
  · exact regLt_none
  · exact regLt_some hr hx

theorem isSome_unless (p : Nat × Nat) : (if P then none else some p).isSome = !decide P := by by_cases h : P <;> simp [h]

theorem regLen_le_one (b : Bool) : regLen b ≤ 1 := by cases b <;> decide

theorem modLen_le_one (n : Nat) : modLen n ≤ 1 := by
  unfold modLen
  split <;> omega

/-- A chain with at most one IMM word has at most four prefixes. -/
theorem chainFits_short (hreg : ∀ p ∈ reg, p.1 < 32 ∧ p.2 < 8) (hmod : mod < 256) (hpage : page < 8) (hps : ps.length ≤ 1) :
    ChainFits reg mod ps page := by
  have one := regLen_le_one reg.isSome
  have two := modLen_le_one mod
  have three := modLen_le_one page
  exact ⟨hreg, hmod, hpage, by omega⟩

/-! ## Chains that decode -/

variable {mk : Bool} {op a b : Nat} {i : Instr}

/-- A page and an OP of it: OP 31 of page 0 is that of the prefixes (R85). -/
abbrev RowFits (page op : Nat) : Prop := page < 8 ∧ op < 32 ∧ (page ≠ 0 ∨ op ≠ 31)

theorem rowFits_of (hpage : 0 < page ∧ page < 8) (hop : op < 32) : RowFits page op := ⟨hpage.2, hop, .inl (by omega)⟩

/-- The encoding whose chain has at most one IMM word. -/
theorem decodes_short (row : RowFits page op) (hab : a < 32 ∧ b < 32) (hreg : ∀ p ∈ reg, p.1 < 32 ∧ p.2 < 8) (hmod : mod < 256) (hps : ps.length ≤ 1)
    (h : decodePage page (encChain reg mod ps page) op a b = .ok i) : Decodes mk (chainOf mk reg mod (ps.map immWord) page (baseWord op a b)) i := by
  obtain ⟨hpage, hop, hlast⟩ := row
  exact decodes_chainOf mk (chainFits_short hreg hmod hpage hps) hop hab.1 hab.2 hlast h

/-- The encoding whose chain has no IMM word. -/
theorem decodes_bare (row : RowFits page op) (hab : a < 32 ∧ b < 32) (hreg : ∀ p ∈ reg, p.1 < 32 ∧ p.2 < 8) (hmod : mod < 256)
    (h : decodePage page (encChain reg mod [] page) op a b = .ok i) : Decodes mk (chainOf mk reg mod [] page (baseWord op a b)) i :=
  decodes_short (ps := []) row hab hreg hmod (Nat.zero_le _) h

/-- The encoding whose chain has no prefixes but PAGE. -/
theorem decodes_plain (row : RowFits page op) (hab : a < 32 ∧ b < 32) (h : decodePage page (encChain none 0 [] page) op a b = .ok i) :
    Decodes mk (chainOf mk none 0 [] page (baseWord op a b)) i :=
  decodes_bare row hab regLt_none (by decide) h

/-- The encoding that leaves its REG word out where P holds: it decodes to what the page makes of every chain that holds its fields. -/
theorem decodes_unless {dflt : Nat} (row : RowFits page op) (hab : a < 32 ∧ b < 32) (hrx : r < 32 ∧ x < 8) (hmod : mod < 256) (dr : P → r = dflt)
    (dx : P → x = 0) (hcount : regLen (!decide P) + modLen mod + ps.length + modLen page ≤ 4)
    (h : ∀ c : Chain, c.Holds ps dflt r x mod (!decide P) → decodePage page c op a b = .ok i) :
    Decodes mk (chainOf mk (if P then none else some (r, x)) mod (ps.map immWord) page (baseWord op a b)) i := by
  obtain ⟨hpage, hop, hlast⟩ := row
  obtain ⟨hr, hx⟩ := hrx
  refine decodes_chainOf mk ⟨regLt_unless hr hx, hmod, hpage, ?_⟩ hop hab.1 hab.2 hlast (h _ (encChain_holds hr hx hmod dr dx))
  rwa [isSome_unless]

theorem count_le_four (g : Bool) (h : ps.length ≤ 1) : regLen g + modLen mod + ps.length + modLen page ≤ 4 := by
  have one := regLen_le_one g
  have two := modLen_le_one mod
  have three := modLen_le_one page
  omega

/-- The same for a chain that has no IMM word. -/
theorem decodes_bare_unless {dflt : Nat} (row : RowFits page op) (hab : a < 32 ∧ b < 32) (hrx : r < 32 ∧ x < 8) (hmod : mod < 256) (dr : P → r = dflt)
    (dx : P → x = 0) (h : ∀ c : Chain, c.Holds [] dflt r x mod (!decide P) → decodePage page c op a b = .ok i) :
    Decodes mk (chainOf mk (if P then none else some (r, x)) mod [] page (baseWord op a b)) i :=
  decodes_unless (ps := []) row hab hrx hmod dr dx (count_le_four _ (Nat.zero_le _)) h

/-! ## Immediates as the encoder writes them -/

/-- The payloads of a signed immediate over a base field of w bits, of which there are at least lo (R89, R111). -/
theorem immWords_spec {w hi : Nat} {v : Word} (h : fitsS (w + 8 * hi) v = true) {lo fuel : Nat} (hlo : lo ≤ hi) (hhi : hi < lo + fuel) :
    ∃ ps, immWords w (immCountS w v lo fuel) v.toNat = ps.map immWord ∧ lo ≤ ps.length ∧ ps.length ≤ hi ∧ immS ps w (v.toNat % 2 ^ w) = v := by
  obtain ⟨fits, large, small⟩ := immCountS_fits h fuel lo hlo hhi
  refine ⟨_, immWords_eq _ _ _, ?_, ?_, immS_payloads fits⟩ <;> rwa [payloads_length]

/-- The payloads of an offset that stands in no base field (R89, R144). -/
theorem encOff_spec {hi : Nat} {v : Word} (h : fitsS (8 * hi) v = true) (hhi : hi < 5) :
    ∃ ps, encOff v = ps.map immWord ∧ ps.length ≤ hi ∧ immS ps 0 0 = v := by
  rw [← Nat.zero_add (8 * hi)] at h
  obtain ⟨ps, words, -, small, value⟩ := immWords_spec h (lo := 0) (fuel := 5) (by omega) (by omega)
  rw [Nat.pow_zero, Nat.mod_one] at value
  exact ⟨ps, words, small, value⟩

/-- The payload of a natural value below 256. -/
theorem byteWords_spec {n : Nat} (h : n < 256) :
    ∃ ps, (if n = 0 then [] else [prefixWord 0 n]) = ps.map immWord ∧ ps.length ≤ 1 ∧ ∀ w f, immN ps w f = n * 2 ^ w + f :=
  ⟨_, byteWords_eq h, bytePayloads_length n, fun w f => immN_bytePayloads w f h⟩

end Sys2Proof
end

section
/-! PROOFS. Encodings of page 0 (R96, R97, R110 to R121). -/

namespace Sys2Proof

/-! ## Arms of page 0 -/

/-- OP 1 to 18 (R112). -/
def aluArm (c : Chain) (a b : Nat) (f : Reg → Reg → Src → Instr) : Except Nat Instr :=
  c.only true true false (ck (c.x3 = 0) 2 (.ok (f (gr a) (gr (c.c a)) (c.src b))))

/-- A register and a signed immediate (R90). -/
def brArm (c : Chain) (a b : Nat) (f : Reg → Word → Instr) : Except Nat Instr := c.only true false false (.ok (f (gr a) (immS c.imms 5 b)))

/-- A jump (R90). -/
def jumpArm (c : Chain) (a b : Nat) (f : Word → Instr) : Except Nat Instr := c.only true false false (.ok (f (immS c.imms 10 (a * 32 + b))))

variable {mk : Bool} {op : Nat}

theorem encAlu_decodes {f : Reg → Reg → Src → Instr} {d a : Reg} {b : Src} (harm : ∀ c x y, decodePage0 c op x y = aluArm c x y f)
    (h : b.wf (a != d) = true) (hop : op < 31) : Decodes mk (encAlu mk op d a b) (f d a b) := by
  have dr : a = d → a.toNat = d.toNat := congrArg _
  have row : RowFits 0 op := ⟨by decide, by omega, .inr (by omega)⟩
  cases b with
  | reg b =>
    refine decodes_bare_unless row (by omega) (by omega) (by decide) dr (fun _ => rfl) fun c hc => ?_
    simp [decodePage, harm, aluArm, Chain.only, hc.extra, hc.third, hc.noMod, Chain.src, hc.imms]
  | imm v =>
    have one := regLen_le_one (a != d)
    obtain ⟨ps, words, many, few, value⟩ := immWords_spec h (lo := 1) (fuel := 4) (by omega) (by omega)
    have present : ps ≠ [] := by rintro rfl; simp at many
    have count : regLen (a != d) + 0 + ps.length + 0 ≤ 4 := by omega
    change immS ps 5 (v.toNat % 32) = v at value
    rw [encAlu, words]
    refine decodes_unless row (by omega) (by omega) (by decide) dr (fun _ => rfl) count fun c hc => ?_
    simp [decodePage, harm, aluArm, Chain.only, hc.extra, hc.third, hc.noMod, Chain.src, hc.imms, present, value]

theorem encBr_decodes {f : Reg → Word → Instr} {a : Reg} {v : Word} (harm : ∀ c x y, decodePage0 c op x y = brArm c x y f)
    (h : fitsS 37 v = true) (hop : op < 31) : Decodes mk (encBr mk op a v) (f a v) := by
  obtain ⟨ps, words, -, few, value⟩ := immWords_spec (w := 5) (hi := 4) h (lo := 0) (fuel := 5) (by decide) (by decide)
  change immS ps 5 (v.toNat % 32) = v at value
  rw [encBr, words]
  refine decodes_chainOf mk ⟨regLt_none, by decide, by decide, ?_⟩ (by omega) a.isLt (by omega) (.inr (by omega)) ?_
  · simpa [regLen, modLen] using few
  · simp [decodePage, harm, brArm, Chain.only, value]

theorem encJ_decodes {f : Word → Instr} {v : Word} (harm : ∀ c x y, decodePage0 c op x y = jumpArm c x y f)
    (h : fitsS 42 v = true) (hop : op < 31) : Decodes mk (encJ mk op v) (f v) := by
  obtain ⟨ps, words, -, few, value⟩ := immWords_spec (w := 10) (hi := 4) h (lo := 0) (fuel := 5) (by decide) (by decide)
  have fields : op * 1024 + 0 * 32 + v.toNat % 1024 = op * 1024 + v.toNat % 1024 / 32 * 32 + v.toNat % 32 := by omega
  have split : baseWord op 0 (v.toNat % 1024) = baseWord op (v.toNat % 1024 / 32) (v.toNat % 32) := congrArg (BitVec.ofNat 16) fields
  have joined : v.toNat % 1024 / 32 * 32 + v.toNat % 32 = v.toNat % 1024 := by omega
  change immS ps 10 (v.toNat % 1024) = v at value
  rw [encJ, words, split]
  refine decodes_chainOf mk ⟨regLt_none, by decide, by decide, ?_⟩ (by omega) (by omega) (by omega) (.inr (by omega)) ?_
  · simpa [regLen, modLen] using few
  · simp only [decodePage, harm, jumpArm, Chain.only, joined, encChain_imms, value]
    simp

end Sys2Proof
end

section
/-! PROOFS. Encodings of page 1 (R93, R98, R143 to R145). -/

namespace Sys2Proof

/-- A memory instruction that takes no X3 bit (R143). -/
def memArm (c : Chain) (a b : Nat) (f : Reg → MemOp → Instr) : Except Nat Instr :=
  c.only true true true (ck (c.x3 = 0) 2 (ck ((c.memOp b).order != 3) 3 (.ok (f (gr a) (c.memOp b)))))

/-- An atomic of either width (R143, R154). -/
def atomArm (c : Chain) (a b : Nat) (f : Reg → MemOp → Bool → Instr) : Except Nat Instr :=
  c.only true true true (ck (c.x3 < 2) 2 (ck ((c.memOp b).order != 3) 3 (.ok (f (gr a) (c.memOp b) (c.x3 = 1)))))

theorem MemOp.modPayload_lt (m : MemOp) : m.modPayload < 256 := by
  unfold MemOp.modPayload
  omega

/-- The operand that a chain and a base register give, field by field (R93, R144). -/
theorem memOp_eq {c : Chain} {m : MemOp} (hidx : c.c 0 = m.idx.toNat) (hoff : immS c.imms 0 0 = m.off) (hm : c.m = m.modPayload) :
    c.memOp m.base.toNat = m := by
  have hx : BitVec.ofNat 4 (c.m / 16) = m.x := BitVec.eq_of_toNat_eq (by rw [hm, MemOp.modPayload, BitVec.toNat_ofNat]; omega)
  have hs : BitVec.ofNat 2 (c.m / 4) = m.scope := BitVec.eq_of_toNat_eq (by rw [hm, MemOp.modPayload, BitVec.toNat_ofNat]; omega)
  have ho : BitVec.ofNat 2 c.m = m.order := BitVec.eq_of_toNat_eq (by rw [hm, MemOp.modPayload, BitVec.toNat_ofNat]; omega)
  rw [Chain.memOp, hidx, hoff, hx, hs, ho, gr_toNat, gr_toNat]

variable {mk : Bool} {op : Nat}

/-- The encoding of a memory operand decodes to what the page makes of a chain that holds that operand. -/
theorem encMem_decodes_of {a x3 : Nat} {force : Bool} {m : MemOp} {i : Instr} (h : m.wf x3 force = true)
    (harm : ∀ c : Chain, c.memOp m.base.toNat = m → c.x3 = x3 → (m.order != 3) = true → (force = true → c.reg.isSome = true) →
      decodePage1 c op a m.base.toNat = .ok i)
    (hop : op < 32) (ha : a < 32) (hx : x3 < 8) : Decodes mk (encMem mk op a m x3 force) i := by
  obtain ⟨order, offset⟩ := Bool.and_eq_true_iff.mp h
  obtain ⟨ps, words, few, value⟩ := encOff_spec offset (by omega)
  have one := regLen_le_one (force || m.idx != 0 || x3 != 0)
  have two := modLen_le_one m.modPayload
  have three : modLen 1 = 1 := rfl
  have bare (hb : ¬ (force || m.idx != 0 || x3 != 0) = true) : m.idx.toNat = 0 ∧ x3 = 0 := by
    simp only [Bool.or_eq_true, not_or, bne_iff_ne, not_not] at hb
    obtain ⟨⟨-, hi⟩, hx⟩ := hb
    exact ⟨by rw [hi]; rfl, hx⟩
  have given : (!decide (¬ (force || m.idx != 0 || x3 != 0) = true)) = (force || m.idx != 0 || x3 != 0) := by
    rw [decide_not, Bool.decide_eq_true, Bool.not_not]
  rw [encMem, words, ← ite_not]
  refine decodes_unless (rowFits_of (by decide) hop) (by omega) (by omega) m.modPayload_lt (fun hb => (bare hb).1) (fun hb => (bare hb).2)
    (by rw [given]; omega) fun c hc => harm c (memOp_eq hc.third (by rw [hc.imms, value]) hc.payload) hc.extra order ?_
  rintro rfl
  exact hc.reg.trans (by simp)

theorem memArm_decodes {f : Reg → MemOp → Instr} {d : Reg} {m : MemOp} (harm : ∀ c x y, decodePage1 c op x y = memArm c x y f)
    (h : m.wf 0 false = true) (hop : op < 32) : Decodes mk (encMem mk op d.toNat m 0 false) (f d m) := by
  refine encMem_decodes_of h (fun c hm hx order _ => ?_) hop (by omega) (by decide)
  simpa [harm, memArm, Chain.only, hm, hx] using order

theorem atomArm_decodes {f : Reg → MemOp → Bool → Instr} {d : Reg} {m : MemOp} {w : Bool} (harm : ∀ c x y, decodePage1 c op x y = atomArm c x y f)
    (h : m.wf (if w then 1 else 0) false = true) (hop : op < 32) : Decodes mk (encMem mk op d.toNat m w.toNat false) (f d m w) := by
  refine encMem_decodes_of (by cases w <;> exact h) (fun c hm hx order _ => ?_) hop (by omega) (by have := w.toNat_lt; omega)
  cases w <;> simpa [harm, atomArm, Chain.only, hm, hx] using order

theorem vamo_decodes {v : VReg} {m : MemOp} {o : BitVec 3} (h : m.wf 0 true = true) (ho : (o != 7) = true) :
    Decodes mk (encMem mk 28 v.toNat m o.toNat true) (.vamo v m o) := by
  have small : o.toNat < 7 := by
    have : o.toNat ≠ 7 := fun h7 => bne_iff_ne.mp ho (BitVec.eq_of_toNat_eq h7)
    omega
  refine encMem_decodes_of (by simpa [MemOp.wf] using h) (fun c hm hx order hreg => ?_) (by decide) (by omega) (by omega)
  simpa [decodePage1, Chain.needReg, hm, hx, hreg, small, v.isLt] using order

/-- PREF, VLD and VST: an index register, 0 by default, and an offset (R91, R144). -/
theorem indexed_decodes {page a b : Nat} {idx : Reg} {off : Word} {i : Instr} (h : fitsS (8 * (3 - regLen (idx != 0))) off = true)
    (harm : ∀ c : Chain, c.c 0 = idx.toNat → c.x3 = 0 → c.mod.isNone = true → immS c.imms 0 0 = off → decodePage page c op a b = .ok i)
    (hpage : 0 < page ∧ page < 8) (hop : op < 32) (hab : a < 32 ∧ b < 32) :
    Decodes mk (chainOf mk (if idx = 0 then none else some (idx.toNat, 0)) 0 (encOff off) page (baseWord op a b)) i := by
  obtain ⟨ps, words, few, value⟩ := encOff_spec h (by omega)
  rw [words]
  have one := modLen_le_one page
  have two : modLen 0 = 0 := rfl
  have three := regLen_le_one (idx != 0)
  have count : regLen (idx != 0) + modLen 0 + ps.length + modLen page ≤ 4 := by omega
  exact decodes_unless (rowFits_of hpage hop) hab (by omega) (by decide) (by rintro rfl; rfl) (fun _ => rfl) count
    fun c hc => harm c hc.third hc.extra hc.noMod (by rw [hc.imms, value])

theorem pref_decodes {b idx : Reg} {off : Word} (h : fitsS (8 * (3 - regLen (idx != 0))) off = true) :
    Decodes mk (chainOf mk (if idx = 0 then none else some (idx.toNat, 0)) 0 (encOff off) 1 (baseWord 27 0 b.toNat)) (.pref b idx off) :=
  indexed_decodes h (fun c hidx hx hmod hoff => by simp [decodePage, decodePage1, Chain.only, Chain.memOp, hidx, hx, hmod, hoff])
    (by decide) (by decide) (by omega)

theorem fence_decodes {o s : BitVec 2} (h : (o == 1 || o == 2) = true) :
    Decodes mk (chainOf mk none (s.toNat * 4 + o.toNat) [] 1 (baseWord 23 0 0)) (.fence o s) := by
  have payload : s.toNat * 4 + o.toNat < 256 := by omega
  have none : (s.toNat * 4 + o.toNat) / 16 = 0 := by omega
  have scope : BitVec.ofNat 2 ((s.toNat * 4 + o.toNat) / 4) = s := BitVec.eq_of_toNat_eq (by rw [BitVec.toNat_ofNat]; omega)
  have order : BitVec.ofNat 2 (s.toNat * 4 + o.toNat) = o := BitVec.eq_of_toNat_eq (by rw [BitVec.toNat_ofNat]; omega)
  refine decodes_bare (by decide) (by decide) regLt_none payload ?_
  simp [decodePage, decodePage1, Chain.only, Chain.memOp, encChain_m payload, none, scope, order]
  simpa using h

end Sys2Proof
end

section
/-! PROOFS. Encodings of page 2 (R63, R94, R99, R171 to R187). -/

namespace Sys2Proof

/-! ## Element type and flags (R94) -/

/-- The SAT flag of the MOD payload (R94). -/
def satBit (c : Chain) : Bool := bits c.m 0 0 = 1

/-- The HI flag of the MOD payload (R94). -/
def hiBit (c : Chain) : Bool := bits c.m 1 1 = 1

/-- The element type, with the flags that the instruction takes. -/
def typedArm (c : Chain) (okT okSat okHi : VType → Bool) (k : VType → Except Nat Instr) : Except Nat Instr :=
  match VType.ofCode (c.m / 16) with
  | none => .error 3
  | some t => ck (okT t && bits c.m 3 2 = 0 && (!satBit c || okSat t) && (!hiBit c || okHi t) && !(hiBit c && satBit c)) 3 (k t)

theorem VType.code_lt (t : VType) : t.code < 10 := by cases t <;> decide

@[simp] theorem VType.ofCode_code (t : VType) : VType.ofCode t.code = some t := by cases t <;> rfl

theorem vmodPayload_lt (t : VType) (hi sat : Bool) : vmodPayload t hi sat < 256 := by
  have code := t.code_lt
  unfold vmodPayload
  cases hi <;> cases sat <;> simp <;> omega

theorem vmodPayload_type (t : VType) (hi sat : Bool) : vmodPayload t hi sat / 16 = t.code := by
  unfold vmodPayload
  cases hi <;> cases sat <;> simp <;> omega

theorem vmodPayload_flags (t : VType) (hi sat : Bool) :
    bits (vmodPayload t hi sat) 3 2 = 0 ∧ decide (bits (vmodPayload t hi sat) 1 1 = 1) = hi ∧ decide (bits (vmodPayload t hi sat) 0 0 = 1) = sat := by
  unfold vmodPayload bits
  cases hi <;> cases sat <;> simp <;> omega

variable {c : Chain} {t : VType} {hi sat : Bool}

theorem satBit_eq (hm : c.m = vmodPayload t hi sat) : satBit c = sat := by rw [satBit, hm, (vmodPayload_flags t hi sat).2.2]

theorem hiBit_eq (hm : c.m = vmodPayload t hi sat) : hiBit c = hi := by rw [hiBit, hm, (vmodPayload_flags t hi sat).2.1]

theorem typedArm_eq (hm : c.m = vmodPayload t hi sat) (okT okSat okHi : VType → Bool) (k : VType → Except Nat Instr) :
    typedArm c okT okSat okHi k = ck (okT t && (!sat || okSat t) && (!hi || okHi t) && !(hi && sat)) 3 (k t) := by
  rw [typedArm, satBit_eq hm, hiBit_eq hm, hm, vmodPayload_type, VType.ofCode_code, (vmodPayload_flags t hi sat).1]
  simp

/-! ## A vector instruction's second source (R172, R173) -/

variable {mk : Bool} {op : Nat}

/-- Instructions of two sources decode to what the page makes of a chain that holds them. -/
theorem encVec_decodes_of {mod : Nat} {d a : VReg} {b : VSrc} {i : Instr} (h : b.wf (a != d) mod = true) (hmod : mod < 256)
    (harm : ∀ (c : Chain) (y : Nat), c.x3 = 0 → c.c d.toNat = a.toNat → c.m = mod → c.mod.isNone = decide (mod = 0) → c.vsrc y = b →
      c.imms.isEmpty = false ∨ y < 16 → decodePage2 c op d.toNat y = .ok i)
    (hop : op < 32) : Decodes mk (encVec mk op mod d a b) i := by
  have dr : a = d → a.toNat = d.toNat := congrArg _
  cases b with
  | reg b =>
    exact decodes_bare_unless (rowFits_of (by decide) hop) (by omega) (by omega) hmod dr (fun _ => rfl)
      fun c hc => harm c _ hc.extra hc.third hc.payload hc.noMod (by simp [Chain.vsrc, hc.imms]) (.inr b.isLt)
  | imm v =>
    have one := regLen_le_one (a != d)
    have two := modLen_le_one mod
    have three : modLen 2 = 1 := rfl
    obtain ⟨ps, words, many, few, value⟩ := immWords_spec h (lo := 1) (fuel := 4) (by omega) (by omega)
    have present : ps ≠ [] := by rintro rfl; simp at many
    have count : regLen (a != d) + modLen mod + ps.length + modLen 2 ≤ 4 := by omega
    change immS ps 5 (v.toNat % 32) = v at value
    rw [encVec, words]
    exact decodes_unless (rowFits_of (by decide) hop) (by omega) (by omega) hmod dr (fun _ => rfl) count fun c hc =>
      harm c _ hc.extra hc.third hc.payload hc.noMod (by simp [Chain.vsrc, hc.imms, present, value]) (.inl (by simp [hc.imms, present]))

/-- OP 10 to 15 and 21 to 23: an immediate is not accepted with a float type (R172). -/
def arithArm (c : Chain) (a b : Nat) (okT okSat okHi : VType → Bool) (f : VType → Bool → Bool → VReg → VReg → VSrc → Instr) : Except Nat Instr :=
  ck (c.imms.isEmpty || !((VType.ofCode (c.m / 16)).elim false VType.isFloat)) 1 (ck (c.x3 = 0) 2 (typedArm c okT okSat okHi fun t =>
    ck (a < 16 && c.c a < 16 && (!c.imms.isEmpty || b < 16)) 4 (.ok (f t (satBit c) (hiBit c) (vr a) (vr (c.c a)) (c.vsrc b)))))

/-- OP 18 to 20 (R172). -/
def bitwArm (c : Chain) (a b : Nat) (f : VReg → VReg → VSrc → Instr) : Except Nat Instr :=
  c.only true true false (ck (c.x3 = 0) 2 (ck (a < 16 && c.c a < 16 && (!c.imms.isEmpty || b < 16)) 4 (.ok (f (vr a) (vr (c.c a)) (c.vsrc b)))))

theorem arithArm_decodes {okT okSat okHi : VType → Bool} {f : VType → Bool → Bool → VReg → VReg → VSrc → Instr} {d a : VReg} {b : VSrc}
    (harm : ∀ c x y, decodePage2 c op x y = arithArm c x y okT okSat okHi f) (h : vArithWf t sat hi d a b = true) (hT : okT t = true)
    (hSat : sat = true → t.isFloat = false → okSat t = true) (hHi : hi = true → t.isFloat = false → okHi t = true) (hop : op < 32) :
    Decodes mk (encVec mk op (vmodPayload t hi sat) d a b) (f t sat hi d a b) := by
  simp only [vArithWf, Bool.and_eq_true, Bool.or_eq_true, Bool.not_eq_true'] at h
  obtain ⟨⟨⟨⟨satInt, hiInt⟩, one⟩, immInt⟩, wf⟩ := h
  refine encVec_decodes_of wf (vmodPayload_lt t hi sat) (fun c y hx hc hm _ hsrc hy => ?_) hop
  have satOk : sat = false ∨ okSat t = true := by
    cases sat with
    | false => exact .inl rfl
    | true => exact .inr (hSat rfl (satInt.resolve_left (by simp)))
  have hiOk : hi = false ∨ okHi t = true := by
    cases hi with
    | false => exact .inl rfl
    | true => exact .inr (hHi rfl (hiInt.resolve_left (by simp)))
  have isInt : c.imms.isEmpty = true ∨ t.isFloat = false := by
    cases hp : c.imms.isEmpty with
    | true => exact .inl rfl
    | false =>
      subst hsrc
      simp [Chain.vsrc, hp] at immInt
      exact .inr immInt
  rw [harm, arithArm, typedArm_eq hm, satBit_eq hm, hiBit_eq hm, hm, vmodPayload_type, VType.ofCode_code, hc, hsrc]
  simp only [ck_eq_ok, Bool.and_eq_true, Bool.or_eq_true, Bool.not_eq_true', decide_eq_true_eq, Option.elim_some, vr_toNat, and_true, hx, true_and]
  exact ⟨isInt, ⟨⟨⟨hT, satOk⟩, hiOk⟩, one⟩, ⟨d.isLt, a.isLt⟩, hy⟩

/-- VADD, VSUB, VFMA, VMIN and VMAX: SAT on integer types, no HI (R172). -/
theorem satArm_decodes {f : VType → Bool → VReg → VReg → VSrc → Instr} {d a : VReg} {b : VSrc}
    (harm : ∀ c x y, decodePage2 c op x y = arithArm c x y (fun _ => true) (fun t => !t.isFloat) (fun _ => false) (fun t s _ => f t s))
    (h : vArithWf t sat false d a b = true) (hop : op < 32) : Decodes mk (encVec mk op (vmodPayload t false sat) d a b) (f t sat d a b) :=
  arithArm_decodes (hi := false) (f := fun t s _ => f t s) harm h rfl (fun _ int => by simp [int]) nofun hop

theorem bitwArm_decodes {f : VReg → VReg → VSrc → Instr} {d a : VReg} {b : VSrc} (harm : ∀ c x y, decodePage2 c op x y = bitwArm c x y f)
    (h : b.wf (a != d) 0 = true) (hop : op < 32) : Decodes mk (encVec mk op 0 d a b) (f d a b) := by
  refine encVec_decodes_of h (by decide) (fun c y hx hc _ hmod hsrc hy => ?_) hop
  simp only [harm, bitwArm, Chain.only, ck_eq_ok, hx, hc, hsrc, hmod, Bool.and_eq_true, Bool.or_eq_true, Bool.not_eq_true', decide_eq_true_eq, vr_toNat,
    and_true, true_and]
  exact ⟨⟨⟨.inl trivial, .inl trivial⟩, .inr trivial⟩, ⟨d.isLt, a.isLt⟩, hy⟩

/-! ## Lanes (R173) -/

/-- The lane of VEXT and VINS: the REG word or the immediate, not both (R173). -/
def laneArm (c : Chain) (t : VType) (k : Lane → Except Nat Instr) : Except Nat Instr :=
  ck (c.reg.isNone || c.imms.isEmpty) 3 (
    if c.reg.isSome then k (.reg (gr (c.c 0)))
    else ck (immN c.imms 0 0 < t.lanes) 3 (k (.imm (BitVec.ofNat 6 (immN c.imms 0 0)))))

theorem encLane_decodes_of {a b : Nat} {l : Lane} {i : Instr} (h : l.wf t = true)
    (harm : ∀ c : Chain, c.x3 = 0 → c.m = vmodPayload t false false → (∀ k, laneArm c t k = k l) → decodePage2 c op a b = .ok i)
    (hop : op < 32) (ha : a < 32) (hb : b < 32) : Decodes mk (encLane mk op t a b l) i := by
  have hmod := vmodPayload_lt t false false
  cases l with
  | reg r =>
    refine decodes_chainOf (ps := []) mk (chainFits_short (regLt_some r.isLt (by decide)) hmod (by decide) (by decide)) hop ha hb (.inl (by decide))
      (harm _ (encChain_x3_some (by decide)) (encChain_m hmod) fun k => ?_)
    simp [laneArm, encChain_c_some r.isLt, ck]
  | imm n =>
    obtain ⟨ps, words, few, value⟩ := byteWords_spec (n := n.toNat) (by omega)
    have zero : n = 0 ↔ n.toNat = 0 := BitVec.toNat_inj.symm
    simp only [encLane, zero, words]
    refine decodes_chainOf mk (chainFits_short regLt_none hmod (by decide) few) hop ha hb (.inl (by decide)) (harm _ rfl (encChain_m hmod) fun k => ?_)
    have lane : n.toNat < t.lanes := by simpa [Lane.wf] using h
    simp [laneArm, value, lane, ck]

/-! ## Scans and reductions (R186) -/

/-- VSCAN and VRED (R186). -/
def redArm (c : Chain) (a b : Nat) (f : VType → Bool → BitVec 2 → VReg → VReg → Option VReg → Instr) : Except Nat Instr :=
  c.only false true true (typedArm c (fun _ => true) (fun t => !t.isFloat && c.x3 % 4 = 0) (fun _ => false) fun t =>
    ck (c.x3 % 4 < 3 && (decide (c.x3 ≥ 4) || c.c 0 = 0)) 3 (ck (a < 16 && b < 16 && c.c 0 < 16) 4
      (.ok (f t (satBit c) (BitVec.ofNat 2 (c.x3 % 4)) (vr a) (vr b) (if decide (c.x3 ≥ 4) then some (vr (c.c 0)) else none)))))

theorem redArm_eq {f : VType → Bool → BitVec 2 → VReg → VReg → Option VReg → Instr} {o : BitVec 2} {d b : VReg} {y : Option VReg}
    (h : (o != 3 && (!sat || (!t.isFloat && o == 0))) = true) (himm : c.imms = []) (hm : c.m = vmodPayload t false sat)
    (hx : c.x3 = (if y.isSome then 4 else 0) + o.toNat) (hc : c.c 0 = y.elim 0 BitVec.toNat) :
    redArm c d.toNat b.toNat f = .ok (f t sat o d b y) := by
  simp only [Bool.and_eq_true, bne_iff_ne, Bool.or_eq_true, Bool.not_eq_true', beq_iff_eq] at h
  obtain ⟨ne, flag⟩ := h
  have small : o.toNat < 3 := by
    have : o.toNat ≠ 3 := fun h3 => ne (BitVec.eq_of_toNat_eq h3)
    omega
  have function : c.x3 % 4 = o.toNat := by cases y <;> simp at hx <;> omega
  have carry : decide (c.x3 ≥ 4) = y.isSome := by cases y <;> simp at hx ⊢ <;> omega
  have reg : (if y.isSome = true then some (vr (c.c 0)) else none) = y := by cases y <;> simp [hc]
  have number : (y.isSome || decide (c.c 0 = 0)) = true ∧ c.c 0 < 16 := by
    cases y with
    | none => simp [hc]
    | some r => exact ⟨rfl, by rw [hc]; exact r.isLt⟩
  have flags : (!sat || !t.isFloat && decide (o.toNat = 0)) = true := by
    rcases flag with rfl | ⟨int, rfl⟩
    · rfl
    · simp [int]
  obtain ⟨given, inRange⟩ := number
  simp only [redArm, Chain.only, himm, typedArm_eq hm, satBit_eq hm, function, carry, reg, vr_toNat, BitVec.ofNat_toNat, BitVec.setWidth_eq, flags,
    given]
  simp [small, inRange, d.isLt, b.isLt]

theorem redArm_decodes {f : VType → Bool → BitVec 2 → VReg → VReg → Option VReg → Instr} {o : BitVec 2} {d b : VReg} {y : Option VReg}
    (harm : ∀ c x y, decodePage2 c op x y = redArm c x y f) (h : (o != 3 && (!sat || (!t.isFloat && o == 0))) = true) (hop : op < 32) :
    Decodes mk (encRed mk op t sat o d b y) (f t sat o d b y) := by
  have hmod := vmodPayload_lt t false sat
  cases y with
  | some r =>
    exact decodes_bare (rowFits_of (by decide) hop) (by omega) (regLt_some (by omega) (by omega)) hmod
      ((harm ..).trans (redArm_eq h rfl (encChain_m hmod) (encChain_x3_some (by omega)) (encChain_c_some (by omega) 0)))
  | none =>
    have zero : o = 0 → o.toNat = 0 := by rintro rfl; rfl
    exact decodes_bare_unless (rowFits_of (by decide) hop) (by omega) (by omega) hmod (fun _ => rfl) zero
      fun c hc => (harm ..).trans (redArm_eq h hc.imms hc.payload (hc.extra.trans (Nat.zero_add _).symm) hc.third)

/-! ## The other arms -/

/-- VLDS and VSTS: a stride register and an offset (R174). -/
def stridedArm (c : Chain) (a b : Nat) (f : VType → VReg → Reg → Reg → Word → Instr) : Except Nat Instr :=
  c.needReg (ck (c.x3 = 0) 2 (typedArm c (fun _ => true) (fun _ => false) (fun _ => false) fun t =>
    ck (a < 16) 4 (.ok (f t (vr a) (gr b) (gr (c.c 0)) (immS c.imms 0 0)))))

/-- VLD and VST: an index register and an offset (R174). -/
def vecMemArm (c : Chain) (a b : Nat) (f : VReg → Reg → Reg → Word → Instr) : Except Nat Instr :=
  c.only true true false (ck (c.x3 = 0) 2 (ck (a < 16) 4 (.ok (f (vr a) (gr b) (gr (c.c 0)) (immS c.imms 0 0)))))

theorem vecMemArm_decodes {f : VReg → Reg → Reg → Word → Instr} {d : VReg} {b idx : Reg} {off : Word}
    (harm : ∀ c x y, decodePage2 c op x y = vecMemArm c x y f) (h : fitsS (8 * (3 - regLen (idx != 0))) off = true) (hop : op < 32) :
    Decodes mk (chainOf mk (if idx = 0 then none else some (idx.toNat, 0)) 0 (encOff off) 2 (baseWord op d.toNat b.toNat)) (f d b idx off) :=
  indexed_decodes h (fun c hidx hx hmod hoff => by simp [decodePage, harm, vecMemArm, Chain.only, hidx, hx, hmod, hoff, d.isLt])
    (by decide) hop (by omega)

theorem stridedArm_decodes {f : VType → VReg → Reg → Reg → Word → Instr} {d : VReg} {b stride : Reg} {off : Word}
    (harm : ∀ c x y, decodePage2 c op x y = stridedArm c x y f) (h : fitsS (8 * (2 - modLen (vmodPayload t false false))) off = true)
    (hop : op < 32) :
    Decodes mk (chainOf mk (some (stride.toNat, 0)) (vmodPayload t false false) (encOff off) 2 (baseWord op d.toNat b.toNat)) (f t d b stride off) := by
  have hmod := vmodPayload_lt t false false
  obtain ⟨ps, words, few, value⟩ := encOff_spec h (by omega)
  rw [words]
  refine decodes_chainOf mk ⟨regLt_some stride.isLt (by decide), hmod, by decide, ?_⟩ hop (by omega) b.isLt (.inl (by decide)) ?_
  · have one := modLen_le_one (vmodPayload t false false)
    have two : modLen 2 = 1 := rfl
    rw [Option.isSome_some, regLen_true]
    omega
  · simp [decodePage, harm, stridedArm, Chain.needReg, typedArm_eq (encChain_m hmod), encChain_x3_some, encChain_c_some stride.isLt, value, d.isLt]

/-- VGATL and VSCTL (R175). -/
def gatherArm (c : Chain) (a b : Nat) (f : VType → VReg → VReg → Reg → Instr) : Except Nat Instr :=
  c.only false true true (c.needReg (ck (c.x3 = 0) 2 (typedArm c (fun _ => true) (fun _ => false) (fun _ => false) fun t =>
    ck (a < 16 && b < 16) 4 (.ok (f t (vr a) (vr b) (gr (c.c 0)))))))

/-- VSEL and VPERM (R184). -/
def chooseArm (c : Chain) (a b : Nat) (f : VType → VReg → VReg → VReg → Instr) : Except Nat Instr :=
  c.only false true true (c.needReg (ck (c.x3 = 0) 2 (typedArm c (fun _ => true) (fun _ => false) (fun _ => false) fun t =>
    ck (a < 16 && b < 16 && c.c 0 < 16) 4 (.ok (f t (vr a) (vr b) (vr (c.c 0)))))))

/-- VBCST (R178). -/
def broadcastArm (c : Chain) (a b : Nat) : Except Nat Instr :=
  c.only false false true (typedArm c (fun _ => true) (fun _ => false) (fun _ => false) fun t => ck (a < 16) 4 (.ok (.vbcst t (vr a) (gr b))))

/-- VABS and VNEG (R181). -/
def unaryArm (c : Chain) (a b : Nat) (f : VType → Bool → VReg → VReg → Instr) : Except Nat Instr :=
  c.only false false true (typedArm c (fun _ => true) VType.isSigned (fun _ => false) fun t =>
    ck (a < 16 && b < 16) 4 (.ok (f t (satBit c) (vr a) (vr b))))

/-- VCMP (R183). -/
def compareArm (c : Chain) (a b : Nat) : Except Nat Instr :=
  c.only false true true (c.needReg (typedArm c (fun _ => true) (fun _ => false) (fun _ => false) fun t => ck (c.x3 < 5) 3
    (ck (a < 16 && b < 16 && c.c 0 < 16) 4 (.ok (.vcmp t (BitVec.ofNat 3 c.x3) (vr a) (vr b) (vr (c.c 0)))))))

/-- VWADD (R182). -/
def widenArm (c : Chain) (a b : Nat) : Except Nat Instr :=
  c.only false true true (typedArm c (fun t => 0 < vwaddParts t) (fun t => !t.isFloat) (fun _ => false) fun t => ck (c.x3 < vwaddParts t) 3
    (ck (a < 16 && b < 16 && c.c a < 16) 4 (.ok (.vwadd t (satBit c) (BitVec.ofNat 3 c.x3) (vr a) (vr (c.c a)) (vr b)))))

/-- VMATH (R187). -/
def mathArm (c : Chain) (a b : Nat) : Except Nat Instr :=
  c.only false true true (typedArm c VType.isFloat (fun _ => false) (fun _ => false) fun t => ck (c.c 0 = 0 && c.x3 < 5) 3
    (ck (a < 16 && b < 16) 4 (.ok (.vmath t (BitVec.ofNat 3 c.x3) (vr a) (vr b)))))

theorem gatherArm_decodes {f : VType → VReg → VReg → Reg → Instr} {d b : VReg} {g : Reg} (harm : ∀ c x y, decodePage2 c op x y = gatherArm c x y f)
    (hop : op < 32) : Decodes mk (chainOf mk (some (g.toNat, 0)) (vmodPayload t false false) [] 2 (baseWord op d.toNat b.toNat)) (f t d b g) := by
  have hmod := vmodPayload_lt t false false
  refine decodes_bare (rowFits_of (by decide) hop) (by omega) (regLt_some g.isLt (by decide)) hmod ?_
  simp [decodePage, harm, gatherArm, Chain.only, Chain.needReg, typedArm_eq (encChain_m hmod), encChain_x3_some, encChain_c_some g.isLt, d.isLt, b.isLt]

theorem chooseArm_decodes {f : VType → VReg → VReg → VReg → Instr} {d b e : VReg} (harm : ∀ c x y, decodePage2 c op x y = chooseArm c x y f)
    (hop : op < 32) : Decodes mk (chainOf mk (some (e.toNat, 0)) (vmodPayload t false false) [] 2 (baseWord op d.toNat b.toNat)) (f t d b e) := by
  have hmod := vmodPayload_lt t false false
  have he : e.toNat < 32 := by omega
  refine decodes_bare (rowFits_of (by decide) hop) (by omega) (regLt_some he (by decide)) hmod ?_
  simp [decodePage, harm, chooseArm, Chain.only, Chain.needReg, typedArm_eq (encChain_m hmod), encChain_x3_some, encChain_c_some he, d.isLt, b.isLt, e.isLt]

theorem unaryArm_decodes {f : VType → Bool → VReg → VReg → Instr} {d b : VReg} (harm : ∀ c x y, decodePage2 c op x y = unaryArm c x y f)
    (h : (!sat || t.isSigned) = true) (hop : op < 32) :
    Decodes mk (chainOf mk none (vmodPayload t false sat) [] 2 (baseWord op d.toNat b.toNat)) (f t sat d b) := by
  have hmod := vmodPayload_lt t false sat
  have hm := encChain_m (reg := none) (ps := []) (page := 2) hmod
  refine decodes_bare (rowFits_of (by decide) hop) (by omega) regLt_none hmod ?_
  simpa [decodePage, harm, unaryArm, Chain.only, typedArm_eq hm, satBit_eq hm, d.isLt, b.isLt] using h

theorem vbcst_decodes {d : VReg} {b : Reg} : Decodes mk (chainOf mk none (vmodPayload t false false) [] 2 (baseWord 6 d.toNat b.toNat)) (.vbcst t d b) := by
  have hmod := vmodPayload_lt t false false
  refine decodes_bare (by decide) (by omega) regLt_none hmod ?_
  change broadcastArm _ _ _ = _
  simp [broadcastArm, Chain.only, typedArm_eq (encChain_m hmod), d.isLt]

theorem vcmp_decodes {d b e : VReg} {cond : BitVec 3} (h : cond.toNat < 5) :
    Decodes mk (chainOf mk (some (e.toNat, cond.toNat)) (vmodPayload t false false) [] 2 (baseWord 24 d.toNat b.toNat)) (.vcmp t cond d b e) := by
  have hmod := vmodPayload_lt t false false
  have he : e.toNat < 32 := by omega
  refine decodes_bare (by decide) (by omega) (regLt_some he cond.isLt) hmod ?_
  change compareArm _ _ _ = _
  simp [compareArm, Chain.only, Chain.needReg, typedArm_eq (encChain_m hmod), encChain_x3_some cond.isLt, encChain_c_some he, d.isLt, b.isLt, e.isLt, h]

theorem vwadd_decodes {d a b : VReg} {part : BitVec 3} (h : (decide (part.toNat < vwaddParts t) && (!sat || !t.isFloat)) = true) :
    Decodes mk (chainOf mk (if a = d && part = 0 then none else some (a.toNat, part.toNat)) (vmodPayload t false sat) [] 2 (baseWord 27 d.toNat b.toNat))
      (.vwadd t sat part d a b) := by
  have hmod := vmodPayload_lt t false sat
  obtain ⟨inRange, flag⟩ := Bool.and_eq_true_iff.mp h
  have some := Nat.zero_lt_of_lt (of_decide_eq_true inRange)
  refine decodes_bare_unless (dflt := d.toNat) (by decide) (by omega) (by omega) hmod
    (by simp only [Bool.and_eq_true, decide_eq_true_eq]; rintro ⟨rfl, -⟩; rfl)
    (by simp only [Bool.and_eq_true, decide_eq_true_eq]; rintro ⟨-, rfl⟩; rfl) fun c hc => ?_
  change widenArm c _ _ = _
  rw [widenArm, typedArm_eq hc.payload, satBit_eq hc.payload, hc.third, hc.extra]
  simpa [Chain.only, hc.imms, d.isLt, b.isLt, a.isLt, some, of_decide_eq_true inRange] using flag

theorem vmath_decodes {d b : VReg} {fn : BitVec 3} (h : (t.isFloat && decide (fn.toNat < 5)) = true) :
    Decodes mk (chainOf mk (if fn = 0 then none else some (0, fn.toNat)) (vmodPayload t false false) [] 2 (baseWord 31 d.toNat b.toNat)) (.vmath t fn d b) := by
  have hmod := vmodPayload_lt t false false
  refine decodes_bare_unless (dflt := 0) (by decide) (by omega) (by omega) hmod (fun _ => rfl) (by rintro rfl; rfl) fun c hc => ?_
  change mathArm c _ _ = _
  rw [mathArm, typedArm_eq hc.payload, hc.third, hc.extra]
  simpa [Chain.only, hc.imms, d.isLt, b.isLt] using h

theorem vcvt_decodes {s t : VType} {k : BitVec 3} {d b : VReg} (h : vcvtWf s t k = true) :
    Decodes mk (chainOf mk (if k = 0 then none else some (0, k.toNat)) (s.code * 16 + t.code) [] 2 (baseWord 26 d.toNat b.toNat)) (.vcvt s t k d b) := by
  have source := s.code_lt
  have target := t.code_lt
  have hmod : s.code * 16 + t.code < 256 := by omega
  have hs : (s.code * 16 + t.code) / 16 = s.code := by omega
  have ht : (s.code * 16 + t.code) % 16 = t.code := by omega
  refine decodes_bare_unless (dflt := 0) (by decide) (by omega) (by omega) hmod (fun _ => rfl) (by rintro rfl; rfl) fun c hc => ?_
  simp [decodePage, decodePage2, hc.payload, hs, ht, hc.third, hc.extra, hc.imms, Chain.only, d.isLt, b.isLt, h]

end Sys2Proof
end

section
/-! PROOFS. Encodings that stand apart on pages 1 to 3, and those of pages 4 to 7 (R98 to R104, R131, R139, R192, R204, R217, R229, R250, R264, R278). -/

namespace Sys2Proof

variable {mk : Bool} {op a b : Nat}

/-! ## Natural immediates (R89) -/

/-- An encoding with a natural value below 256 as its only word beside PAGE and base. -/
theorem byteImm_decodes {page n : Nat} {i : Instr}
    (h : ∀ c : Chain, c.imms.length < 2 → c.reg = none → c.mod = none → (∀ w f, immN c.imms w f = n * 2 ^ w + f) → decodePage page c op a b = .ok i)
    (hn : n < 256) (hpage : 0 < page ∧ page < 8) (hop : op < 32) (hab : a < 32 ∧ b < 32) :
    Decodes mk (chainOf mk none 0 (if n = 0 then [] else [prefixWord 0 n]) page (baseWord op a b)) i := by
  obtain ⟨ps, words, few, value⟩ := byteWords_spec hn
  rw [words]
  exact decodes_short (rowFits_of hpage hop) hab regLt_none (by decide) few (h _ (Nat.lt_succ_of_le few) rfl rfl value)

/-- CSRW, CSRS and CSRC (R131). -/
def csrArm (c : Chain) (a b : Nat) (f : BitVec 12 → Reg → Reg → Instr) : Except Nat Instr :=
  c.only true true false (ck (c.x3 = 0) 2 (ck (immN c.imms 5 b < 0x1000) 3 (.ok (f (BitVec.ofNat 12 (immN c.imms 5 b)) (gr a) (gr (c.c 0))))))

theorem encCsr_decodes_of {n : BitVec 12} {a c : Reg} {i : Instr}
    (h : ∀ (x : Chain) (y : Nat), immN x.imms 5 y = n.toNat → x.c 0 = c.toNat → x.x3 = 0 → x.mod.isNone = true →
      x.reg.isSome = !decide (c = 0) → decodePage7 x op a.toNat y = .ok i)
    (hop : op < 32) : Decodes mk (encCsr mk op n a c) i := by
  have fits : n.toNat < 2 ^ (5 + 8 * 1) := by omega
  obtain ⟨enough, few⟩ := immCountN_fits fits 4 0 (by decide) (by decide)
  rw [encCsr, immWords_eq]
  exact decodes_unless (dflt := 0) (rowFits_of (by decide) hop) (by omega) (by omega) (by decide) (by rintro rfl; rfl) (fun _ => rfl)
    (count_le_four _ (by rw [payloads_length]; exact few))
    fun x hx => h x _ (by rw [hx.imms]; exact immN_payloads enough) hx.third hx.extra hx.noMod hx.reg

theorem csrArm_decodes {f : BitVec 12 → Reg → Reg → Instr} {n : BitVec 12} {a c : Reg} (harm : ∀ x y z, decodePage7 x op y z = csrArm x y z f)
    (hop : op < 32) : Decodes mk (encCsr mk op n a c) (f n a c) := by
  refine encCsr_decodes_of (fun x y hn hc hx hmod _ => ?_) hop
  simp [harm, csrArm, Chain.only, hn, hc, hx, hmod, n.isLt]

theorem csrr_decodes {d : Reg} {n : BitVec 12} : Decodes mk (encCsr mk 0 n d 0) (.csrr d n) := by
  refine encCsr_decodes_of (fun x y hn hc hx hmod hreg => ?_) (by decide)
  have none : x.reg.isNone = true := by simpa using hreg
  simp [decodePage7, Chain.only, hn, hmod, none, n.isLt]

/-! ## Pages 1 to 3 -/

theorem ewait_decodes {e f : BitVec 2} {b : Reg} : Decodes mk (chainOf mk none 0 [] 1 (baseWord 26 (f.toNat * 4 + e.toNat) b.toNat)) (.ewait e f b) := by
  have engine : BitVec.ofNat 2 (f.toNat * 4 + e.toNat) = e := BitVec.eq_of_toNat_eq (by rw [BitVec.toNat_ofNat]; omega)
  have field : BitVec.ofNat 2 ((f.toNat * 4 + e.toNat) / 4) = f := BitVec.eq_of_toNat_eq (by rw [BitVec.toNat_ofNat]; omega)
  have small : f.toNat * 4 + e.toNat < 16 := by omega
  exact decodes_plain (by decide) (by omega) (by simp [decodePage, decodePage1, Chain.only, engine, field, small])

theorem vext_decodes {t : VType} {d : Reg} {b : VReg} {l : Lane} (h : l.wf t = true) : Decodes mk (encLane mk 7 t d.toNat b.toNat l) (.vext t d b l) := by
  refine encLane_decodes_of h (fun c hx hm hlane => ?_) (by decide) (by omega) (by omega)
  change ck (c.x3 = 0) 2 (typedArm c (fun _ => true) (fun _ => false) (fun _ => false) fun t =>
    laneArm c t fun l => ck (b.toNat < 16) 4 (.ok (.vext t (gr d.toNat) (vr b.toNat) l))) = _
  simp [typedArm_eq hm, hlane, hx, b.isLt]

theorem vins_decodes {t : VType} {d : VReg} {b : Reg} {l : Lane} (h : l.wf t = true) : Decodes mk (encLane mk 8 t d.toNat b.toNat l) (.vins t d b l) := by
  refine encLane_decodes_of h (fun c hx hm hlane => ?_) (by decide) (by omega) (by omega)
  change ck (c.x3 = 0) 2 (typedArm c (fun _ => true) (fun _ => false) (fun _ => false) fun t =>
    laneArm c t fun l => ck (d.toNat < 16) 4 (.ok (.vins t (vr d.toNat) (gr b.toNat) l))) = _
  simp [typedArm_eq hm, hlane, hx, d.isLt]

theorem tileMem_decodes {f : TileNo → Reg → Word → Instr} {t : TileNo} {b : Reg} {off : Word}
    (harm : ∀ c x y, decodePage3 c op x y = c.only true false false (ck (x < 16) 4 (.ok (f (vr x) (gr y) (immS c.imms 0 0)))))
    (h : fitsS 24 off = true) (hop : op < 32) : Decodes mk (chainOf mk none 0 (encOff off) 3 (baseWord op t.toNat b.toNat)) (f t b off) := by
  obtain ⟨ps, words, few, value⟩ := encOff_spec (hi := 3) h (by decide)
  rw [words]
  refine decodes_chainOf mk ⟨regLt_none, by decide, by decide, Nat.add_le_add_right (by simpa [modLen] using few) 1⟩ hop (by omega) b.isLt
    (.inl (by decide)) ?_
  simp [decodePage, harm, Chain.only, value, t.isLt]

theorem mmaArm_decodes {f : TileNo → Reg → Reg → Instr} {t : TileNo} {a c : Reg}
    (harm : ∀ c x y, decodePage3 c op x y = c.only false true false (c.needReg (ck (c.x3 = 0) 2 (ck (x < 16) 4 (.ok (f (vr x) (gr y) (gr (c.c 0))))))))
    (hop : op < 32) : Decodes mk (chainOf mk (some (c.toNat, 0)) 0 [] 3 (baseWord op t.toNat a.toNat)) (f t a c) := by
  refine decodes_bare (rowFits_of (by decide) hop) (by omega) (regLt_some c.isLt (by decide)) (by decide) ?_
  simp [decodePage, harm, Chain.only, Chain.needReg, encChain_x3_some, encChain_c_some c.isLt, t.isLt]

theorem mst_decodes {t : TileNo} {b : Reg} {off : Word} {z : Bool} (h : fitsS (8 * (3 - regLen z)) off = true) :
    Decodes mk (chainOf mk (if z then some (0, 1) else none) 0 (encOff off) 3 (baseWord 4 t.toNat b.toNat)) (.mst t b off z) := by
  obtain ⟨ps, words, few, value⟩ := encOff_spec h (by omega)
  have one : modLen 0 = 0 := rfl
  have two : modLen 3 = 1 := rfl
  rw [words]
  cases z with
  | false =>
    refine decodes_chainOf mk ⟨regLt_none, by decide, by decide, ?_⟩ (by decide) (by omega) b.isLt (.inl (by decide)) ?_
    · simp at few ⊢; omega
    · simp [decodePage, decodePage3, Chain.only, value, t.isLt]
  | true =>
    refine decodes_chainOf mk ⟨regLt_some (by decide) (by decide), by decide, by decide, ?_⟩ (by decide) (by omega) b.isLt (.inl (by decide)) ?_
    · simp at few ⊢; omega
    · simp [decodePage, decodePage3, Chain.only, value, t.isLt, encChain_x3_some, encChain_c_some]

theorem mrow_decodes {put : Bool} {v : VReg} {t : TileNo} {m : BitVec 5} (h : (v.toNat % 2 == 0) = true) :
    Decodes mk (chainOf mk (if put then some (0, 1) else none) 0 (if m = 0 then [] else [prefixWord 0 m.toNat]) 3 (baseWord 6 v.toNat t.toNat))
      (.mrow put v t m) := by
  obtain ⟨ps, words, few, value⟩ := byteWords_spec (n := m.toNat) (by omega)
  have zero : m = 0 ↔ m.toNat = 0 := BitVec.toNat_inj.symm
  have even : v.toNat % 2 = 0 := beq_iff_eq.mp h
  simp only [zero, words]
  cases put with
  | false =>
    exact decodes_short (by decide) (by omega) regLt_none (by decide) few
      (by simp [decodePage, decodePage3, Chain.only, value, even, v.isLt, t.isLt, m.isLt])
  | true =>
    exact decodes_short (by decide) (by omega) (regLt_some (by decide) (by decide)) (by decide) few
      (by simp [decodePage, decodePage3, Chain.only, value, even, v.isLt, t.isLt, m.isLt, encChain_x3_some, encChain_c_some])

/-! ## Page 4 -/

/-- CPY, CPYM and CFILL (R204). -/
def copyArm (c : Chain) (a b : Nat) (f : Reg → Reg → Reg → Instr) : Except Nat Instr :=
  c.only false true false (c.needReg (ck (c.x3 = 0) 2 (.ok (f (gr a) (gr b) (gr (c.c 0))))))

/-- MSEND and MRECV (R229). -/
def portArm (c : Chain) (a b : Nat) (f : Reg → Reg → Reg → Instr) : Except Nat Instr :=
  c.only false true false (ck (c.x3 = 0) 2 (.ok (f (gr a) (gr b) (gr (c.c 0)))))

theorem copyArm_decodes {f : Reg → Reg → Reg → Instr} {a b c : Reg} (harm : ∀ c x y, decodePage4 c op x y = copyArm c x y f)
    (hop : op < 32) :
    Decodes mk (chainOf mk (some (c.toNat, 0)) 0 [] 4 (baseWord op a.toNat b.toNat)) (f a b c) := by
  refine decodes_bare (rowFits_of (by decide) hop) (by omega) (regLt_some c.isLt (by decide)) (by decide) ?_
  simp [decodePage, harm, copyArm, Chain.only, Chain.needReg, encChain_x3_some, encChain_c_some c.isLt]

theorem portArm_decodes {f : Reg → Reg → Reg → Instr} {a b c : Reg} (harm : ∀ c x y, decodePage4 c op x y = portArm c x y f)
    (hop : op < 32) :
    Decodes mk (chainOf mk (if c = 0 then none else some (c.toNat, 0)) 0 [] 4 (baseWord op a.toNat b.toNat)) (f a b c) := by
  refine decodes_bare_unless (dflt := 0) (rowFits_of (by decide) hop) (by omega) (by omega) (by decide) (by rintro rfl; rfl) (fun _ => rfl) fun x hx => ?_
  simp [decodePage, harm, portArm, Chain.only, hx.imms, hx.extra, hx.third, hx.noMod]

theorem cpy2_decodes {a b : Reg} {tr : Bool} {es : BitVec 2} (h : (tr || es == 0) = true) :
    Decodes mk (chainOf mk (if es.toNat * 2 + tr.toNat = 0 then none else some (0, es.toNat * 2 + tr.toNat)) 0 [] 4 (baseWord 1 a.toNat b.toNat))
      (.cpy2 a b tr es) := by
  have bit := tr.toNat_lt
  refine decodes_bare_unless (dflt := 0) (by decide) (by omega) (by omega) (by decide) (fun _ => rfl) id fun c hc => ?_
  have element : BitVec.ofNat 2 ((es.toNat * 2 + tr.toNat) / 2) = es := BitVec.eq_of_toNat_eq (by rw [BitVec.toNat_ofNat]; omega)
  have shape : (es.toNat * 2 + tr.toNat) % 2 = tr.toNat := by omega
  cases tr with
  | false =>
    obtain rfl : es = 0 := by simpa using h
    simp [decodePage, decodePage4, Chain.only, hc.imms, hc.third, hc.extra, hc.noMod]
  | true =>
    simp only [Bool.toNat_true] at element shape
    simp [decodePage, decodePage4, Chain.only, hc.imms, hc.third, hc.extra, hc.noMod, shape, element]

theorem rxopen_decodes {n : BitVec 2} {w r : Bool} {a b : Reg} (h : (w || r) = true) :
    Decodes mk (chainOf mk (some (n.toNat, r.toNat * 2 + w.toNat)) 0 [] 4 (baseWord 5 a.toNat b.toNat)) (.rxopen n w r a b) := by
  have number : n.toNat < 32 := by omega
  have bits := w.toNat_lt
  have bits' := r.toNat_lt
  refine decodes_bare (by decide) (by omega) (regLt_some number (by omega)) (by decide) ?_
  cases w <;> cases r <;> simp [decodePage, decodePage4, Chain.only, Chain.needReg, encChain_x3_some, encChain_c_some number, n.isLt] at h ⊢

theorem xputr_decodes {a b : Reg} {idx : BitVec 5} {l : BitVec 2} :
    Decodes mk (chainOf mk (if l = 0 then none else some (0, l.toNat)) 0 (if idx = 0 then [] else [prefixWord 0 idx.toNat]) 4 (baseWord 16 a.toNat b.toNat))
      (.xputr a b idx l) := by
  obtain ⟨ps, words, few, value⟩ := byteWords_spec (n := idx.toNat) (by omega)
  have zero : idx = 0 ↔ idx.toNat = 0 := BitVec.toNat_inj.symm
  simp only [zero, words]
  refine decodes_unless (dflt := 0) (by decide) (by omega) (by omega) (by decide) (fun _ => rfl) (by rintro rfl; rfl) (count_le_four _ few) fun c hc => ?_
  simp [decodePage, decodePage4, Chain.only, hc.imms, hc.third, hc.extra, hc.noMod, value, idx.isLt, l.isLt]

theorem loopb_decodes {a b c : Reg} {e : Bool} : Decodes mk (chainOf mk (some (c.toNat, e.toNat)) 0 [] 4 (baseWord 14 a.toNat b.toNat)) (.loopb a b c e) := by
  refine decodes_bare (by decide) (by omega) (regLt_some c.isLt (by have := e.toNat_lt; omega)) (by decide) ?_
  cases e <;> simp [decodePage, decodePage4, Chain.only, Chain.needReg, encChain_x3_some, encChain_c_some c.isLt]

theorem xput_decodes {v : VReg} {b c : Reg} {l : BitVec 2} :
    Decodes mk (chainOf mk (some (c.toNat, l.toNat)) 0 [] 4 (baseWord 15 v.toNat b.toNat)) (.xput v b c l) := by
  have level : l.toNat < 8 := by omega
  refine decodes_bare (by decide) (by omega) (regLt_some c.isLt level) (by decide) ?_
  simp [decodePage, decodePage4, Chain.only, Chain.needReg, encChain_x3_some level, encChain_c_some c.isLt, v.isLt, l.isLt]

/-! ## Pages 5 and 6 -/

theorem bred_decodes {d : Reg} {ch : BitVec 5} {item : BitVec 3} (h : item.toNat < 5) :
    Decodes mk (chainOf mk (if item.toNat = 0 then none else some (0, item.toNat)) 0 [] 5 (baseWord 4 d.toNat ch.toNat)) (.bred d ch item) := by
  refine decodes_bare_unless (dflt := 0) (by decide) (by omega) (by omega) (by decide) (fun _ => rfl) id fun c hc => ?_
  simp [decodePage, decodePage5, Chain.only, hc.imms, hc.third, hc.extra, hc.noMod, h]

theorem stx_decodes {x : BitVec 4} {a b : Reg} {c : Option Reg} (h : (x != 0) = true) :
    Decodes mk (chainOf mk (c.map (fun r => (r.toNat, 0))) (x.toNat * 16) [] 6 (baseWord 2 a.toNat b.toNat)) (.stx x a b c) := by
  have hmod : x.toNat * 16 < 256 := by omega
  have present : x.toNat ≠ 0 := fun hz => bne_iff_ne.mp h (BitVec.eq_of_toNat_eq hz)
  have quotient : x.toNat * 16 / 16 = x.toNat := by omega
  cases c with
  | none =>
    refine decodes_bare (by decide) (by omega) regLt_none hmod ?_
    simp [decodePage, decodePage6, Chain.only, encChain_m hmod, quotient, present, encChain_reg]
  | some r =>
    refine decodes_bare (by decide) (by omega) (regLt_some r.isLt (by decide)) hmod ?_
    simp [decodePage, decodePage6, Chain.only, encChain_m hmod, encChain_x3_some, quotient, present, encChain_reg]

theorem stget_decodes {d b : Reg} {tag : Bool} :
    Decodes mk (chainOf mk (if tag.toNat = 0 then none else some (0, tag.toNat)) 0 [] 6 (baseWord 3 d.toNat b.toNat)) (.stget d b tag) := by
  have bit := tag.toNat_lt
  refine decodes_bare_unless (dflt := 0) (by decide) (by omega) (by omega) (by decide) (fun _ => rfl) id fun c hc => ?_
  cases tag <;> simp [decodePage, decodePage6, Chain.only, hc.imms, hc.third, hc.extra, hc.noMod]

theorem fldsnap_decodes {a b : Reg} {c : Option Reg} :
    Decodes mk (chainOf mk (c.map (fun r => (r.toNat, 0))) 0 [] 6 (baseWord 10 a.toNat b.toNat)) (.fldsnap a b c) := by
  cases c with
  | none => exact decodes_plain (by decide) (by omega) (by simp [decodePage, decodePage6, Chain.only, encChain_reg])
  | some r =>
    refine decodes_bare (by decide) (by omega) (regLt_some r.isLt (by decide)) (by decide) ?_
    simp [decodePage, decodePage6, Chain.only, encChain_x3_some, encChain_reg]

end Sys2Proof
end

section
/-! PROOFS. Every instruction's encoding decodes to it (R86, R87, R111). -/

namespace Sys2Proof

/-- The encoding of a well-formed instruction decodes to it: row by row of the opcode table, by the arm of the page decoder that the row's words reach. -/
theorem encode_decodes {mk : Bool} (i : Instr) (hs : i.isStep = false) (hw : i.wf = true) : Decodes mk (encode mk i) i := by
  cases i with dsimp only [encode]
  | nop | yield | stop | brk | eret | fret => exact decodes_plain (by decide) (by decide) rfl
  | pause b | trap b | mix32 d b | clz d b | popc d b | jr a | jalr a => exact decodes_plain (by decide) (by omega) (by simp [decodePage, decodePage0, Chain.only])
  | mov d b => exact encAlu_decodes (f := fun d _ s => .mov d s) (fun _ _ _ => rfl) (by rw [bne_self_eq_false]; exact hw) (by decide)
  | add d a b | sub d a b | and d a b | or d a b | xor d a b | shl d a b | shr d a b | sar d a b | mul d a b | mulhs d a b | mulhn d a b
  | divs d a b | divn d a b | rems d a b | remn d a b | slt d a b | sltn d a b => exact encAlu_decodes (fun _ _ _ => rfl) hw (by decide)
  | addi d v | li d v | bz d v | bnz d v | bltz d v | bgez d v => exact encBr_decodes (fun _ _ _ => rfl) hw (by decide)
  | j v | jal v => exact encJ_decodes (fun _ _ _ => rfl) hw (by decide)
  | ld8s d m | ld8n d m | ld16s d m | ld16n d m | ld32s d m | ld32n d m | ld64 d m | st8 d m | st16 d m | st32 d m | st64 d m | afadd d m | afmaxa d m =>
    exact memArm_decodes (fun _ _ _ => rfl) hw (by decide)
  | aadd d m w | aand d m w | aor d m w | axor d m w | amins d m w | amaxs d m w | aminn d m w | amaxn d m w | aswp d m w | acas d m w =>
    exact atomArm_decodes (fun _ _ _ => rfl) hw (by decide)
  | fence o s => exact fence_decodes hw
  | tlget d e | tlwait e b => exact decodes_plain (by decide) (by omega) (by simp [decodePage, decodePage1, Chain.only]; omega)
  | ewait e f b => exact ewait_decodes
  | pref b idx off => exact pref_decodes hw
  | vamo v m o =>
    obtain ⟨hm, ho⟩ := Bool.and_eq_true_iff.mp hw
    exact vamo_decodes hm ho
  | vld d b idx off | vst d b idx off => exact vecMemArm_decodes (fun _ _ _ => rfl) hw (by decide)
  | vlds t d b stride off | vsts t d b stride off => exact stridedArm_decodes (fun _ _ _ => rfl) hw (by decide)
  | vgatl t d b g | vsctl t d b g => exact gatherArm_decodes (fun _ _ _ => rfl) (by decide)
  | vbcst t d b => exact vbcst_decodes
  | vext t d b l => exact vext_decodes hw
  | vins t d b l => exact vins_decodes hw
  | vmov d b => exact decodes_plain (by decide) (by omega) (by simp [decodePage, decodePage2, Chain.only]; omega)
  | vadd t sat d a b | vsub t sat d a b | vfma t sat d a b | vmin t sat d a b | vmax t sat d a b => exact satArm_decodes (fun _ _ _ => rfl) hw (by decide)
  | vmul t sat hi d a b => exact arithArm_decodes (fun _ _ _ => rfl) hw rfl (fun _ h => by simp [h]) (fun _ h => by simp [h]) (by decide)
  | vabs t sat d b | vneg t sat d b => exact unaryArm_decodes (fun _ _ _ => rfl) hw (by decide)
  | vand d a b | vor d a b | vxor d a b => exact bitwArm_decodes (fun _ _ _ => rfl) hw (by decide)
  | vshl t sat d a b =>
    obtain ⟨int, arith⟩ := Bool.and_eq_true_iff.mp hw
    exact arithArm_decodes (hi := false) (f := fun t s _ => .vshl t s) (fun _ _ _ => rfl) arith int (fun _ h => by simp [h]) nofun (by decide)
  | vshr t d a b =>
    obtain ⟨int, arith⟩ := Bool.and_eq_true_iff.mp hw
    exact arithArm_decodes (hi := false) (sat := false) (f := fun t _ _ => .vshr t) (fun _ _ _ => rfl) arith int nofun nofun (by decide)
  | vsar t d a b =>
    obtain ⟨int, arith⟩ := Bool.and_eq_true_iff.mp hw
    exact arithArm_decodes (hi := false) (sat := false) (f := fun t _ _ => .vsar t) (fun _ _ _ => rfl) arith int nofun nofun (by decide)
  | vcmp t cond d b e => exact vcmp_decodes (of_decide_eq_true hw)
  | vsel t d b e | vperm t d b e => exact chooseArm_decodes (fun _ _ _ => rfl) (by decide)
  | vcvt s t k d b => exact vcvt_decodes hw
  | vwadd t sat part d a b => exact vwadd_decodes hw
  | vscan t sat o d b c | vred t sat o d b c => exact redArm_decodes (fun _ _ _ => rfl) hw (by decide)
  | vmath t fn d b => exact vmath_decodes hw
  | mma t a c | mmaj t a c => exact mmaArm_decodes (fun _ _ _ => rfl) (by decide)
  | mld t b off | mldt t b off => exact tileMem_decodes (fun _ _ _ => rfl) hw (by decide)
  | mst t b off z => exact mst_decodes hw
  | mrow put v t m => exact mrow_decodes hw
  | mprog d => exact decodes_plain (by decide) (by omega) (by simp [decodePage, decodePage3, Chain.only])
  | mzero t | tfree t => exact decodes_plain (by decide) (by omega) (by simp [decodePage, decodePage3, Chain.only, t.isLt])
  | talloc t k => exact decodes_plain (by decide) (by have := k.toNat_lt; omega) (by cases k <;> simp [decodePage, decodePage3, Chain.only, t.isLt])
  | mstat d k => exact decodes_plain (by decide) (by have := k.toNat_lt; omega) (by cases k <;> simp [decodePage, decodePage3, Chain.only])
  | cpy a b c | cpym a b c | cfill a b c => exact copyArm_decodes (fun _ _ _ => rfl) (by decide)
  | cpy2 a b tr es => exact cpy2_decodes hw
  | cprog d b | rpeek d | mpoll d => exact decodes_plain (by decide) (by omega) (by simp [decodePage, decodePage4, Chain.only])
  | rxclose n | rxcnt d n => exact decodes_plain (by decide) (by omega) (by simp [decodePage, decodePage4, Chain.only, n.isLt])
  | xcnt d l => exact decodes_plain (by decide) (by omega) (by simp [decodePage, decodePage4, Chain.only]; omega)
  | rxopen n w r a b => exact rxopen_decodes hw
  | rput a b idx | rtake a idx =>
    exact byteImm_decodes (fun c _ hr hm value => by simp [decodePage, decodePage4, Chain.only, hr, hm, value, idx.isLt]) (by omega) (by decide)
      (by decide) (by omega)
  | msend a b c | mrecv a b c => exact portArm_decodes (fun _ _ _ => rfl) (by decide)
  | loopb a b c e => exact loopb_decodes
  | xput v b c l => exact xput_decodes
  | xputr a b idx l => exact xputr_decodes
  | arv ch b | waitp ch b | bphase d ch | gang b | split | start a b | hjoin b | hstat d | freq d b | boost d b =>
    exact decodes_plain (by decide) (by omega) (by simp [decodePage, decodePage5, Chain.only])
  | sync l => exact decodes_plain (by decide) (by omega) (by simp [decodePage, decodePage5, Chain.only]; omega)
  | bred d ch item => exact bred_decodes (of_decide_eq_true hw)
  | stbind a b | stdrop a | stload a b | gret | flddef d b | fldrun a b | fldhold a b | fldstat a b | flddrop a =>
    exact decodes_plain (by decide) (by omega) (by simp [decodePage, decodePage6, Chain.only])
  | stx x a b c => exact stx_decodes hw
  | stget d b tag => exact stget_decodes
  | gate n =>
    exact byteImm_decodes (fun c hl hr hm value => by simp [decodePage, decodePage6, Chain.only, hl, hr, hm, value, Nat.div_add_mod', n.isLt]) (by omega)
      (by decide) (by decide) (by omega)
  | fldsnap a b c => exact fldsnap_decodes
  | csrr d n => exact csrr_decodes
  | csrw n a c | csrs n a c | csrc n a c => exact csrArm_decodes (fun _ _ _ => rfl) (by decide)
  | tlbfill a b | tlbinv a b | replay a b | gtwrite a b | domsw b => exact decodes_plain (by decide) (by omega) (by simp [decodePage, decodePage7, Chain.only])
  | spill n b | fill b n =>
    exact byteImm_decodes (fun c hl hr hm value => by simp [decodePage, decodePage7, Chain.only, hl, hr, hm, value, Nat.div_add_mod', n.isLt]) (by omega)
      (by decide) (by decide) (by omega)
  | _ => cases hs

end Sys2Proof

namespace Sys2Proof.Proofs

open Sys2Proof

/-- Settles O4, row by row of the opcode table: the decoder reads the chain of prefixes back (decode_chainOf), and each arm of a page decoder rebuilds
the instruction from the chain's fields. -/
theorem encodeThenDecodeGivesBack : Obligations.EncodeThenDecodeGivesBack := by
  unfold Obligations.EncodeThenDecodeGivesBack
  intro i mk rest hs hw
  exact encode_decodes i hs hw rest

end Sys2Proof.Proofs
end

section
/-! PROOFS. What a page decoder accepts is well-formed (R86 to R95, R105): the bounds that the prefixes of a chain leave to its immediates. -/

namespace Sys2Proof

/-! ## Checks -/

/-- Whatever an arm gives is a well-formed LXA instruction. -/
def Sound (e : Except Nat Instr) : Prop := ∀ i, e = .ok i → i.isStep = false ∧ i.wf = true

variable {c : Chain} {k : Except Nat Instr} {cond : Bool} {r : Nat} {i : Instr}

theorem Sound.ok (hs : i.isStep = false) (hw : i.wf = true) : Sound (.ok i) := by
  rintro _ ⟨⟩
  exact ⟨hs, hw⟩

theorem Sound.error : Sound (.error r) := nofun

/-- A check leaves its condition to what follows. -/
theorem Sound.given (h : cond = true → Sound k) : Sound (ck cond r k) := fun i hi => by
  obtain ⟨pass, rest⟩ := ck_eq_ok.mp hi
  exact h pass i rest

theorem Sound.ck (h : Sound k) : Sound (ck cond r k) := .given fun _ => h

/-- What a flag requires, as the conditions of well-formedness write it. -/
theorem not_or_of_imp {p q : Bool} (h : p = true → q = true) : (!p || q) = true := by
  cases p with
  | false => rfl
  | true => exact h rfl

theorem Sound.needReg (h : c.reg.isSome = true → Sound k) : Sound (c.needReg k) := .given h

theorem Sound.only {imm reg mod : Bool} (h : Sound k) : Sound (c.only imm reg mod k) := .ck h

/-! ## Prefixes -/

/-- The prefixes of a chain beside PAGE. -/
def Chain.prefixes (c : Chain) : Nat := c.imms.length + regLen c.reg.isSome + regLen c.mod.isSome

theorem regLen_mono {p q : Bool} (h : p = true → q = true) : regLen p ≤ regLen q := by cases p <;> cases q <;> simp_all

/-- A third register that is not the default one has been named (R91). -/
theorem reg_given_of_ne {n d : Nat} (g : Nat → BitVec n) (h : (g (c.c d) != g d) = true) : c.reg.isSome = true := by
  cases hr : c.reg with
  | none => simp [Chain.c, hr] at h
  | some p => rfl

theorem reg_given_of_x3 (h : (c.x3 != 0) = true) : c.reg.isSome = true := by
  cases hr : c.reg with
  | none => simp [Chain.x3, hr] at h
  | some p => rfl

theorem m_eq_zero (h : c.mod.isSome = false) : c.m = 0 := by
  cases hm : c.mod with
  | none => simp [Chain.m, hm]
  | some p => simp [hm] at h

/-- A payload that is not 0 has come in a MOD word (R92). -/
theorem modLen_le_mod {p : Nat} (h : c.m = 0 → p = 0) : modLen p ≤ regLen c.mod.isSome := by
  cases hm : c.mod.isSome with
  | true => exact modLen_le_one p
  | false => rw [h (m_eq_zero hm)]; decide

theorem src_wf {needed : Bool} (b : Nat) (hc : c.prefixes ≤ 4) (h : needed = true → c.reg.isSome = true) : (c.src b).wf needed = true := by
  have reg := regLen_mono h
  have one := regLen_le_one needed
  unfold Chain.prefixes at hc
  unfold Chain.src
  split
  · rfl
  · exact fitsS_immS b (by omega) (by omega)

theorem vsrc_wf {needed : Bool} {p : Nat} (b : Nat) (hc : c.prefixes ≤ 3) (h : needed = true → c.reg.isSome = true)
    (hm : modLen p ≤ regLen c.mod.isSome) :
    (c.vsrc b).wf needed p = true := by
  have reg := regLen_mono h
  have one := regLen_le_one needed
  have two := modLen_le_one p
  unfold Chain.prefixes at hc
  unfold Chain.vsrc
  split
  · rfl
  · exact fitsS_immS b (by omega) (by omega)

/-- An offset of at most n bytes' payloads (R89). -/
theorem offset_fits {n : Nat} (h : c.imms.length ≤ n) (hn : n ≤ 8) : fitsS (8 * n) (immS c.imms 0 0) = true :=
  fitsS_immS 0 (by omega) (by omega)

theorem memOp_wf {force : Bool} (b : Nat) (hc : c.prefixes ≤ 3) (order : ((c.memOp b).order != 3) = true) (hforce : force = true → c.reg.isSome = true) :
    (c.memOp b).wf c.x3 force = true := by
  have reg : regLen (force || (c.memOp b).idx != 0 || c.x3 != 0) ≤ regLen c.reg.isSome := by
    refine regLen_mono fun h => ?_
    rcases Bool.or_eq_true_iff.mp h with h | h
    · rcases Bool.or_eq_true_iff.mp h with h | h
      · exact hforce h
      · exact reg_given_of_ne (d := 0) gr h
    · exact reg_given_of_x3 h
  have mod : modLen (c.memOp b).modPayload ≤ regLen c.mod.isSome := modLen_le_mod fun hm => by simp [MemOp.modPayload, Chain.memOp, hm]
  unfold Chain.prefixes at hc
  rw [MemOp.wf, order, Bool.true_and]
  exact offset_fits (by omega) (by omega)

/-! ## Page 0 -/

theorem aluArm_sound {a b : Nat} {f : Reg → Reg → Src → Instr} (hc : c.prefixes ≤ 4)
    (hf : ∀ d a s, s.wf (a != d) = true → (f d a s).isStep = false ∧ (f d a s).wf = true) : Sound (aluArm c a b f) := by
  obtain ⟨hs, hw⟩ := hf (gr a) (gr (c.c a)) (c.src b) (src_wf b hc (reg_given_of_ne gr))
  exact .only (.ck (.ok hs hw))

theorem brArm_sound {a b : Nat} {f : Reg → Word → Instr} (hc : c.prefixes ≤ 4)
    (hf : ∀ d v, fitsS 37 v = true → (f d v).isStep = false ∧ (f d v).wf = true) : Sound (brArm c a b f) := by
  unfold Chain.prefixes at hc
  obtain ⟨hs, hw⟩ := hf (gr a) (immS c.imms 5 b) (fitsS_immS b (by omega) (by decide))
  exact .only (.ok hs hw)

theorem jumpArm_sound {a b : Nat} {f : Word → Instr} (hc : c.prefixes ≤ 4)
    (hf : ∀ v, fitsS 42 v = true → (f v).isStep = false ∧ (f v).wf = true) : Sound (jumpArm c a b f) := by
  unfold Chain.prefixes at hc
  obtain ⟨hs, hw⟩ := hf (immS c.imms 10 (a * 32 + b)) (fitsS_immS (a * 32 + b) (by omega) (by decide))
  exact .only (.ok hs hw)

theorem src_wf_false {needed : Bool} {s : Src} (h : s.wf needed = true) : s.wf false = true := by
  cases s with
  | reg r => rfl
  | imm v => exact fitsS_mono h (by rw [regLen_false]; omega) (by decide)

theorem decodePage0_sound (hc : c.prefixes ≤ 4) : ∀ op a b, Sound (decodePage0 c op a b)
  | 0, 0, _ | 0, 1, _ | 0, 2, _ | 0, 3, _ | 0, 6, _ | 0, 7, _ => .only (.ck (.ok rfl rfl))
  | 0, 4, _ | 0, 5, _ => .only (.ok rfl rfl)
  | 0, _ + 8, _ => .error
  | 1, _, _ => aluArm_sound (f := fun d _ s => .mov d s) hc fun _ _ _ h => ⟨rfl, src_wf_false h⟩
  | 2, _, _ | 3, _, _ | 4, _, _ | 5, _, _ | 6, _, _ | 7, _, _ | 8, _, _ | 9, _, _ | 10, _, _ | 11, _, _ | 12, _, _ | 13, _, _ | 14, _, _ | 15, _, _
  | 16, _, _ | 17, _, _ | 18, _, _ => aluArm_sound hc fun _ _ _ h => ⟨rfl, h⟩
  | 19, _, _ | 20, _, _ | 24, _, _ | 25, _, _ | 26, _, _ | 27, _, _ => brArm_sound hc fun _ _ h => ⟨rfl, h⟩
  | 21, _, _ | 22, _, _ | 23, _, _ => .only (.ok rfl rfl)
  | 28, _, _ | 29, _, _ => jumpArm_sound hc fun _ h => ⟨rfl, h⟩
  | 30, _, 0 | 30, _, 1 => .only (.ok rfl rfl)
  | 30, _, _ + 2 => .error
  | _ + 31, _, _ => .error

/-! ## Page 1 -/

theorem memArm_sound {a b : Nat} {f : Reg → MemOp → Instr} (hc : c.prefixes ≤ 3)
    (hf : ∀ d m, m.wf 0 false = true → (f d m).isStep = false ∧ (f d m).wf = true) : Sound (memArm c a b f) :=
  .only (.given fun hx => .given fun order => by
    have operand := memOp_wf (force := false) b hc order nofun
    rw [of_decide_eq_true hx] at operand
    obtain ⟨hs, hw⟩ := hf (gr a) _ operand
    exact .ok hs hw)

theorem atomArm_sound {a b : Nat} {f : Reg → MemOp → Bool → Instr} (hc : c.prefixes ≤ 3)
    (hf : ∀ d m w, m.wf (if w then 1 else 0) false = true → (f d m w).isStep = false ∧ (f d m w).wf = true) : Sound (atomArm c a b f) :=
  .only (.given fun hx => .given fun order => by
    have bit : c.x3 = if decide (c.x3 = 1) then 1 else 0 := by
      have small := of_decide_eq_true hx
      by_cases one : c.x3 = 1
      · simp [one]
      · simp only [one, decide_false, Bool.false_eq_true, if_false]
        omega
    have operand := memOp_wf (force := false) b hc order nofun
    rw [bit] at operand
    obtain ⟨hs, hw⟩ := hf (gr a) _ _ operand
    exact .ok hs hw)

theorem ofNat_ne_of_lt {n k x : Nat} (h : x < k) (hk : k < 2 ^ n) : (BitVec.ofNat n x != BitVec.ofNat n k) = true := by
  rw [bne_iff_ne]
  intro he
  have value := congrArg BitVec.toNat he
  rw [BitVec.toNat_ofNat, BitVec.toNat_ofNat, Nat.mod_eq_of_lt (h.trans hk), Nat.mod_eq_of_lt hk] at value
  omega

theorem index_given : (gr (c.c 0) != 0) = true → c.reg.isSome = true := reg_given_of_ne (d := 0) gr

/-- An offset beside an index register, as PREF, VLD and VST have it. -/
theorem indexed_fits (hc : c.prefixes ≤ 3) : fitsS (8 * (3 - regLen (gr (c.c 0) != 0))) (immS c.imms 0 0) = true := by
  have reg := regLen_mono (index_given (c := c))
  unfold Chain.prefixes at hc
  exact offset_fits (by omega) (by omega)

theorem decodePage1_sound (hc : c.prefixes ≤ 3) : ∀ op a b, Sound (decodePage1 c op a b)
  | 0, _, _ | 1, _, _ | 2, _, _ | 3, _, _ | 4, _, _ | 5, _, _ | 6, _, _ | 7, _, _ | 8, _, _ | 9, _, _ | 10, _, _ | 21, _, _ | 22, _, _ =>
    memArm_sound hc fun _ _ h => ⟨rfl, h⟩
  | 11, _, _ | 12, _, _ | 13, _, _ | 14, _, _ | 15, _, _ | 16, _, _ | 17, _, _ | 18, _, _ | 19, _, _ | 20, _, _ => atomArm_sound hc fun _ _ _ h => ⟨rfl, h⟩
  | 23, _, _ => .only (.given fun h => .ok rfl (Bool.and_eq_true_iff.mp h).2)
  | 24, _, _ | 25, _, _ | 26, _, _ => .only (.ck (.ok rfl rfl))
  | 27, _, _ => .only (.ck (.ck (.ok rfl (indexed_fits hc))))
  | 28, _, b => .needReg fun reg => .given fun h => .ck (.ok rfl (by
      obtain ⟨hx, order⟩ := Bool.and_eq_true_iff.mp h
      have operand := memOp_wf (force := true) b hc order fun _ => reg
      have op := ofNat_ne_of_lt (n := 3) (k := 7) (of_decide_eq_true hx) (by decide)
      exact Bool.and_eq_true_iff.mpr ⟨by simpa [MemOp.wf] using operand, op⟩))
  | _ + 29, _, _ => .error

/-! ## Page 2 -/

variable {okT okSat okHi : VType → Bool}

/-- What an element type and its flags have passed (R94). -/
theorem Sound.typed {k : VType → Except Nat Instr}
    (h : ∀ t, VType.ofCode (c.m / 16) = some t → okT t = true → (satBit c = true → okSat t = true) → (hiBit c = true → okHi t = true) →
      (!(hiBit c && satBit c)) = true → Sound (k t)) : Sound (typedArm c okT okSat okHi k) := by
  unfold typedArm
  split
  · exact .error
  · next t ht =>
    refine .given fun pass => ?_
    obtain ⟨flags, one⟩ := Bool.and_eq_true_iff.mp pass
    simp only [Bool.and_eq_true, Bool.or_eq_true, Bool.not_eq_true'] at flags
    obtain ⟨⟨⟨type, -⟩, sat⟩, hi⟩ := flags
    exact h t ht type (fun hs => sat.resolve_left (by simp [hs])) (fun hh => hi.resolve_left (by simp [hh])) one

/-- A type and flags that are not all 0 have come in a MOD word (R92, R94). -/
theorem modLen_payload {t : VType} {sat hi : Bool} (ht : VType.ofCode (c.m / 16) = some t) (hsat : sat = true → satBit c = true)
    (hhi : hi = true → hiBit c = true) : modLen (vmodPayload t hi sat) ≤ regLen c.mod.isSome := by
  refine modLen_le_mod fun hm => ?_
  have type : t = .i8 := by
    rw [hm] at ht
    exact (Option.some.inj ht).symm
  have noSat : sat = false := by
    cases sat with
    | false => rfl
    | true => simpa [satBit, hm, bits] using hsat rfl
  have noHi : hi = false := by
    cases hi with
    | false => rfl
    | true => simpa [hiBit, hm, bits] using hhi rfl
  rw [type, noSat, noHi]
  rfl

theorem arithArm_sound {a b : Nat} {f : VType → Bool → Bool → VReg → VReg → VSrc → Instr} (hc : c.prefixes ≤ 3)
    (int : ∀ t, okSat t = true ∨ okHi t = true → t.isFloat = false)
    (hf : ∀ t sat hi d a b, okT t = true → (sat = true → okSat t = true) → (hi = true → okHi t = true) → vArithWf t sat hi d a b = true →
      (f t sat hi d a b).isStep = false ∧ (f t sat hi d a b).wf = true) : Sound (arithArm c a b okT okSat okHi f) :=
  .given fun imm => .ck (.typed fun t ht type sat hi one => .ck (by
    have source := vsrc_wf (needed := vr (c.c a) != vr a) b hc (reg_given_of_ne vr) (modLen_payload ht id id)
    have immInt : (match c.vsrc b with | .reg _ => true | .imm _ => !t.isFloat) = true := by
      cases hp : c.imms.isEmpty with
      | true => simp [Chain.vsrc, hp]
      | false => simpa [Chain.vsrc, hp, ht] using imm
    have satInt : (!satBit c || !t.isFloat) = true := not_or_of_imp fun hs => by simp [int t (.inl (sat hs))]
    have hiInt : (!hiBit c || !t.isFloat) = true := not_or_of_imp fun hh => by simp [int t (.inr (hi hh))]
    have wf : vArithWf t (satBit c) (hiBit c) (vr a) (vr (c.c a)) (c.vsrc b) = true := by
      simp only [vArithWf, satInt, hiInt, one, source, Bool.and_true, Bool.true_and]
      exact immInt
    obtain ⟨hs, hw⟩ := hf t _ _ _ _ _ type sat hi wf
    exact .ok hs hw))

theorem bitwArm_sound {a b : Nat} {f : VReg → VReg → VSrc → Instr} (hc : c.prefixes ≤ 3)
    (hf : ∀ d a b, b.wf (a != d) 0 = true → (f d a b).isStep = false ∧ (f d a b).wf = true) : Sound (bitwArm c a b f) := by
  obtain ⟨hs, hw⟩ := hf (vr a) (vr (c.c a)) (c.vsrc b) (vsrc_wf b hc (reg_given_of_ne vr) (Nat.zero_le _))
  exact .only (.ck (.ck (.ok hs hw)))

theorem VType.lanes_le (t : VType) : t.lanes ≤ 64 := by cases t <;> decide

theorem laneArm_sound {t : VType} {k : Lane → Except Nat Instr} (h : ∀ l, l.wf t = true → Sound (k l)) : Sound (laneArm c t k) :=
  .ck (by
    split
    · exact h _ rfl
    · refine .given fun lane => h _ ?_
      have small := of_decide_eq_true lane
      have lanes := t.lanes_le
      simp only [Lane.wf, BitVec.toNat_ofNat, decide_eq_true_eq]
      omega)

theorem redArm_sound {a b : Nat} {f : VType → Bool → BitVec 2 → VReg → VReg → Option VReg → Instr}
    (hf : ∀ t sat o d b y, (o != 3 && (!sat || (!t.isFloat && o == 0))) = true → (f t sat o d b y).isStep = false ∧ (f t sat o d b y).wf = true) :
    Sound (redArm c a b f) :=
  .only (.typed fun t _ _ sat _ _ => .given fun function => .ck (by
    have small := of_decide_eq_true (Bool.and_eq_true_iff.mp function).1
    have noThree := ofNat_ne_of_lt (n := 2) (k := 3) small (by decide)
    have sum : (!satBit c || (!t.isFloat && BitVec.ofNat 2 (c.x3 % 4) == 0)) = true := not_or_of_imp fun hs => by
      obtain ⟨int, zero⟩ := Bool.and_eq_true_iff.mp (sat hs)
      rw [int, of_decide_eq_true zero]
      rfl
    obtain ⟨hs, hw⟩ := hf t (satBit c) (BitVec.ofNat 2 (c.x3 % 4)) (vr a) (vr b) (if decide (c.x3 ≥ 4) then some (vr (c.c 0)) else none)
      (Bool.and_eq_true_iff.mpr ⟨noThree, sum⟩)
    exact .ok hs hw))

theorem vecMemArm_sound {a b : Nat} {f : VReg → Reg → Reg → Word → Instr} (hc : c.prefixes ≤ 3)
    (hf : ∀ d b idx off, fitsS (8 * (3 - regLen (idx != 0))) off = true → (f d b idx off).isStep = false ∧ (f d b idx off).wf = true) :
    Sound (vecMemArm c a b f) := by
  obtain ⟨hs, hw⟩ := hf (vr a) (gr b) (gr (c.c 0)) (immS c.imms 0 0) (indexed_fits hc)
  exact .only (.ck (.ck (.ok hs hw)))

theorem stridedArm_sound {a b : Nat} {f : VType → VReg → Reg → Reg → Word → Instr} (hc : c.prefixes ≤ 3)
    (hf : ∀ t d b s off, fitsS (8 * (2 - modLen (vmodPayload t false false))) off = true → (f t d b s off).isStep = false ∧ (f t d b s off).wf = true) :
    Sound (stridedArm c a b f) :=
  .needReg fun reg => .ck (.typed fun t ht _ _ _ _ => .ck (by
    have mod := modLen_payload (sat := false) (hi := false) ht nofun nofun
    unfold Chain.prefixes at hc
    rw [reg, regLen_true] at hc
    obtain ⟨hs, hw⟩ := hf t (vr a) (gr b) (gr (c.c 0)) (immS c.imms 0 0) (offset_fits (by omega) (by omega))
    exact .ok hs hw))

theorem unaryArm_sound {a b : Nat} {f : VType → Bool → VReg → VReg → Instr}
    (hf : ∀ t sat d b, (!sat || t.isSigned) = true → (f t sat d b).isStep = false ∧ (f t sat d b).wf = true) : Sound (unaryArm c a b f) :=
  .only (.typed fun t _ _ sat _ _ => .ck (by
    obtain ⟨hs, hw⟩ := hf t (satBit c) (vr a) (vr b) (not_or_of_imp sat)
    exact .ok hs hw))

/-- A number below k, cut to n bits, stays below k. -/
theorem ofNat_lt {n k x : Nat} (h : x < k) : (BitVec.ofNat n x).toNat < k := by
  rw [BitVec.toNat_ofNat]
  exact (Nat.mod_le _ _).trans_lt h

theorem compareArm_sound {a b : Nat} : Sound (compareArm c a b) :=
  .only (.needReg fun _ => .typed fun _ _ _ _ _ _ => .given fun cond => .ck (.ok rfl (decide_eq_true (ofNat_lt (of_decide_eq_true cond)))))

theorem widenArm_sound {a b : Nat} : Sound (widenArm c a b) :=
  .only (.typed fun _ _ _ sat _ _ => .given fun part => .ck (.ok rfl
    (Bool.and_eq_true_iff.mpr ⟨decide_eq_true (ofNat_lt (of_decide_eq_true part)), not_or_of_imp sat⟩)))

theorem mathArm_sound {a b : Nat} : Sound (mathArm c a b) :=
  .only (.typed fun _ _ float _ _ _ => .given fun function => .ck (.ok rfl (by
    have small := of_decide_eq_true (Bool.and_eq_true_iff.mp function).2
    exact Bool.and_eq_true_iff.mpr ⟨float, decide_eq_true (ofNat_lt small)⟩)))

/-- VCVT (R185). -/
theorem vcvt_sound {a b : Nat} : Sound (decodePage2 c 26 a b) := by
  refine .only ?_
  split
  · exact .given fun h => .ck (.ok rfl (Bool.and_eq_true_iff.mp h).2)
  · exact .error

/-- The operations that have SAT on integer types and no HI (R172). -/
theorem satArm_sound {a b : Nat} {f : VType → Bool → VReg → VReg → VSrc → Instr} (hc : c.prefixes ≤ 3)
    (hf : ∀ t sat d a b, okT t = true → vArithWf t sat false d a b = true → (f t sat d a b).isStep = false ∧ (f t sat d a b).wf = true) :
    Sound (arithArm c a b okT (fun t => !t.isFloat) (fun _ => false) (fun t s _ => f t s)) :=
  arithArm_sound hc (fun t h => by simpa using h) fun t sat hi d a b type _ noHi h => by
    obtain rfl : hi = false := Bool.eq_false_iff.mpr fun hh => Bool.false_ne_true (noHi hh)
    exact hf t sat d a b type h

/-- The shifts without flags, on integer types (R181). -/
theorem shiftArm_sound {a b : Nat} {f : VType → VReg → VReg → VSrc → Instr} (hc : c.prefixes ≤ 3)
    (hf : ∀ t d a b, (!t.isFloat && vArithWf t false false d a b) = true → (f t d a b).isStep = false ∧ (f t d a b).wf = true) :
    Sound (arithArm c a b (fun t => !t.isFloat) (fun _ => false) (fun _ => false) (fun t _ _ => f t)) :=
  arithArm_sound hc (fun t h => by simp at h) fun t sat hi d a b type noSat noHi h => by
    obtain rfl : hi = false := Bool.eq_false_iff.mpr fun hh => Bool.false_ne_true (noHi hh)
    obtain rfl : sat = false := Bool.eq_false_iff.mpr fun hs => Bool.false_ne_true (noSat hs)
    exact hf t d a b (Bool.and_eq_true_iff.mpr ⟨type, h⟩)

theorem decodePage2_sound (hc : c.prefixes ≤ 3) : ∀ op a b, Sound (decodePage2 c op a b)
  | 0, _, _ | 1, _, _ => vecMemArm_sound hc fun _ _ _ _ h => ⟨rfl, h⟩
  | 2, _, _ | 3, _, _ => stridedArm_sound hc fun _ _ _ _ _ h => ⟨rfl, h⟩
  | 4, _, _ | 5, _, _ | 25, _, _ | 30, _, _ => .only (.needReg fun _ => .ck (Sound.typed fun _ _ _ _ _ _ => .ck (.ok rfl rfl)))
  | 6, _, _ => .only (Sound.typed fun _ _ _ _ _ _ => .ck (.ok rfl rfl))
  | 7, a, b => .ck (Sound.typed fun t _ _ _ _ _ => laneArm_sound (k := fun l => ck (b < 16) 4 (.ok (.vext t (gr a) (vr b) l))) fun _ h => .ck (.ok rfl h))
  | 8, a, b => .ck (Sound.typed fun t _ _ _ _ _ => laneArm_sound (k := fun l => ck (a < 16) 4 (.ok (.vins t (vr a) (gr b) l))) fun _ h => .ck (.ok rfl h))
  | 9, _, _ => .only (.ck (.ok rfl rfl))
  | 10, _, _ | 11, _, _ | 13, _, _ | 14, _, _ | 15, _, _ => satArm_sound hc fun _ _ _ _ _ _ h => ⟨rfl, h⟩
  | 12, _, _ => arithArm_sound hc (fun t h => by simpa using h) fun _ _ _ _ _ _ _ _ _ h => ⟨rfl, h⟩
  | 16, _, _ | 17, _, _ => unaryArm_sound fun _ _ _ _ h => ⟨rfl, h⟩
  | 18, _, _ | 19, _, _ | 20, _, _ => bitwArm_sound hc fun _ _ _ h => ⟨rfl, h⟩
  | 21, _, _ => satArm_sound hc fun _ _ _ _ _ int h => ⟨rfl, Bool.and_eq_true_iff.mpr ⟨int, h⟩⟩
  | 22, _, _ | 23, _, _ => shiftArm_sound hc fun _ _ _ _ h => ⟨rfl, h⟩
  | 24, _, _ => compareArm_sound
  | 26, _, _ => vcvt_sound
  | 27, _, _ => widenArm_sound
  | 28, _, _ | 29, _, _ => redArm_sound fun _ _ _ _ _ _ h => ⟨rfl, h⟩
  | 31, _, _ => mathArm_sound
  | _ + 32, _, _ => .error

/-! ## Pages 3 and 4 -/

theorem decodePage3_sound (hc : c.prefixes ≤ 3) : ∀ op a b, Sound (decodePage3 c op a b)
  | 0, _, _ | 1, _, _ => .only (.needReg fun _ => .ck (.ck (.ok rfl rfl)))
  | 2, _, _ | 3, _, _ => .only (.ck (.ok rfl (by
      unfold Chain.prefixes at hc
      exact offset_fits (n := 3) (by omega) (by decide))))
  | 4, _, _ => .only (.ck (.ck (.ck (.ok rfl (by
      have reg := regLen_mono (p := decide (c.x3 = 1)) (q := c.reg.isSome) fun h => reg_given_of_x3 (by rw [of_decide_eq_true h]; rfl)
      unfold Chain.prefixes at hc
      exact offset_fits (by omega) (by omega))))))
  | 5, _, _ | 8, _, _ | 9, _, _ => .only (.ck (.ck (.ok rfl rfl)))
  | 6, a, _ => .only (.ck (.ck (.given fun h => .ok rfl (by
      have even := of_decide_eq_true (Bool.and_eq_true_iff.mp h).2
      have number : (vr a).toNat % 2 = 0 := by
        rw [vr, BitVec.toNat_ofNat]
        omega
      exact beq_iff_eq.mpr number))))
  | 7, _, _ | 10, _, _ => .only (.ck (.ok rfl rfl))
  | _ + 11, _, _ => .error

theorem decodePage4_sound : ∀ op a b, Sound (decodePage4 c op a b)
  | 0, _, _ | 2, _, _ | 3, _, _ | 14, _, _ => .only (.needReg fun _ => .ck (.ok rfl rfl))
  | 1, _, _ => .only (.given fun h => .ok rfl (by
      rcases Bool.or_eq_true_iff.mp (Bool.and_eq_true_iff.mp h).2 with odd | zero
      · exact Bool.or_eq_true_iff.mpr (.inl odd)
      · rw [of_decide_eq_true zero]
        rfl))
  | 4, _, _ => .only (.ok rfl rfl)
  | 5, _, _ => .only (.needReg fun _ => .given fun small => .given fun h => .ok rfl (by
      have bound := of_decide_eq_true small
      have some := bne_iff_ne.mp (Bool.and_eq_true_iff.mp h).2
      have one : c.x3 % 2 = 1 ∨ c.x3 / 2 = 1 := by omega
      exact Bool.or_eq_true_iff.mpr (one.imp decide_eq_true decide_eq_true)))
  | 6, _, _ | 7, _, _ | 8, _, _ | 9, _, _ | 10, _, _ | 11, _, _ | 12, _, _ | 13, _, _ | 17, _, _ => .only (.ck (.ok rfl rfl))
  | 15, _, _ => .only (.needReg fun _ => .ck (.ck (.ok rfl rfl)))
  | 16, _, _ => .only (.ck (.ck (.ok rfl rfl)))
  | _ + 18, _, _ => .error

/-! ## Pages 5 to 7 -/

theorem decodePage5_sound : ∀ op a b, Sound (decodePage5 c op a b)
  | 4, _, _ => .only (.given fun h => .ok rfl (decide_eq_true (ofNat_lt (of_decide_eq_true (Bool.and_eq_true_iff.mp h).2))))
  | 0, _, _ | 1, _, _ | 2, _, _ | 3, _, _ | 5, _, _ | 6, _, _ | 7, _, _ | 8, _, _ | 9, _, _ | 10, _, _ | 11, _, _ => .only (.ck (.ok rfl rfl))
  | _ + 12, _, _ => .error

theorem decodePage6_sound : ∀ op a b, Sound (decodePage6 c op a b)
  | 2, _, _ => .only (.ck (.ck (.given fun h => .ok rfl (by
      obtain ⟨low, some⟩ := Bool.and_eq_true_iff.mp h
      have zero := of_decide_eq_true low
      have nonzero := bne_iff_ne.mp some
      have small : c.m < 256 := by
        unfold Chain.m
        split
        · exact BitVec.isLt _
        · decide
      refine bne_iff_ne.mpr fun he => ?_
      have value := congrArg BitVec.toNat he
      rw [BitVec.toNat_ofNat] at value
      change c.m / 16 % 16 = 0 at value
      omega))))
  | 3, _, _ | 5, _, _ => .only (.ck (.ck (.ok rfl rfl)))
  | 0, _, _ | 1, _, _ | 4, _, _ | 6, _, _ | 7, _, _ | 8, _, _ | 9, _, _ | 10, _, _ | 11, _, _ | 12, _, _ => .only (.ck (.ok rfl rfl))
  | _ + 13, _, _ => .error

theorem decodePage7_sound : ∀ op a b, Sound (decodePage7 c op a b)
  | 1, _, _ | 2, _, _ | 3, _, _ | 9, _, _ | 10, _, _ => .only (.ck (.ck (.ok rfl rfl)))
  | 0, _, _ | 4, _, _ | 5, _, _ | 6, _, _ | 7, _, _ | 8, _, _ => .only (.ck (.ok rfl rfl))
  | _ + 11, _, _ => .error

/-- Whatever a page's decoder accepts is well-formed, where the chain has at most four prefixes, the PAGE word of a page other than 0 among them. -/
theorem decodePage_sound {page : Nat} (h0 : c.prefixes ≤ 4) (h3 : page ≠ 0 → c.prefixes ≤ 3) (op a b : Nat) : Sound (decodePage page c op a b) := by
  match page with
  | 0 => exact decodePage0_sound h0 op a b
  | 1 => exact decodePage1_sound (h3 (by decide)) op a b
  | 2 => exact decodePage2_sound (h3 (by decide)) op a b
  | 3 => exact decodePage3_sound (h3 (by decide)) op a b
  | 4 => exact decodePage4_sound op a b
  | 5 => exact decodePage5_sound op a b
  | 6 => exact decodePage6_sound op a b
  | 7 => exact decodePage7_sound op a b
  | _ + 8 => exact .error

/-! ## The chain (R85 to R87) -/

/-- All prefixes of a chain. -/
def Chain.count (c : Chain) : Nat := c.prefixes + regLen c.page.isSome

/-- A chain word by word: its base word gives the instruction, or it is one of the prefixes, of which a chain has at most four. -/
theorem decodeFrom_cases {n : Nat} {w : Half} {ws : List Half} {d : Decoded} (h : decodeFrom c n (w :: ws) = .ok d) :
    (decodePage c.pageNo c (fOP w) (fA w) (fB w) = .ok d.instr ∧ d.words = n + 1) ∨
      (∃ c' : Chain, decodeFrom c' (n + 1) ws = .ok d ∧ n < 4 ∧ c'.count = c.count + 1) := by
  rw [decodeFrom] at h
  split at h
  · rw [decodeBase_eq] at h
    split at h
    · next i hi =>
      obtain rfl := Except.ok.inj h
      exact .inl ⟨hi, rfl⟩
    · cases h
  · right
    split at h
    · cases h
    · split at h
      · cases h
      · next hn =>
        have room : n < 4 := by omega
        split at h
        · exact ⟨_, h, room, by simp only [Chain.count, Chain.prefixes, List.length_append, List.length_singleton]; omega⟩
        · split at h
          · cases h
          · next hr => exact ⟨_, h, room, by simp only [Chain.count, Chain.prefixes, Option.isSome_some, hr, regLen_true, regLen_false]; omega⟩
        · split at h
          · cases h
          · next hp =>
            dsimp only at h
            split at h
            · cases h
            · exact ⟨_, h, room, by simp only [Chain.count, Option.isSome_some, hp, regLen_true, regLen_false]; rfl⟩
        · split at h
          · cases h
          · next hm => exact ⟨_, h, room, by simp only [Chain.count, Chain.prefixes, Option.isSome_some, hm, regLen_true, regLen_false]; omega⟩

theorem page_given (h : c.pageNo ≠ 0) : c.page.isSome = true := by
  cases hp : c.page with
  | none => simp [Chain.pageNo, hp] at h
  | some p => rfl

/-- What decodes after n prefixes is well-formed, and its words are those prefixes and some of the words that follow, at most five in all. -/
theorem decodeFrom_sound {ws : List Half} {n : Nat} {d : Decoded} (h : decodeFrom c n ws = .ok d) (hcount : c.count = n) (hn : n ≤ 4) :
    d.instr.isStep = false ∧ d.instr.wf = true ∧ 1 ≤ d.words ∧ d.words ≤ 5 ∧ d.words ≤ n + ws.length := by
  induction ws generalizing c n with
  | nil => cases h
  | cons w ws ih =>
    rw [List.length_cons]
    rcases decodeFrom_cases h with ⟨base, words⟩ | ⟨c', rest, room, count⟩
    · unfold Chain.count at hcount
      have three (hp : c.pageNo ≠ 0) : c.prefixes ≤ 3 := by
        rw [page_given hp, regLen_true] at hcount
        omega
      obtain ⟨hs, hw⟩ := decodePage_sound (by omega) three _ _ _ _ base
      exact ⟨hs, hw, by omega, by omega, by omega⟩
    · obtain ⟨hs, hw, one, five, given⟩ := ih rest (by omega) (by omega)
      exact ⟨hs, hw, one, five, by omega⟩

end Sys2Proof

namespace Sys2Proof.Proofs

open Sys2Proof

/-- Settles O5, by induction on the words: the chain has at most four prefixes, and the base word reaches an arm of its page's
decoder, whose checks and the room that the prefixes leave to the immediates are the conditions of well-formedness. -/
theorem decodedInstructionIsWellFormed : Obligations.DecodedInstructionIsWellFormed := by
  unfold Obligations.DecodedInstructionIsWellFormed
  intro ws d h
  obtain ⟨hs, hw, one, five, given⟩ := decodeFrom_sound h rfl (by decide)
  exact ⟨hs, hw, one, five, by rwa [Nat.zero_add] at given⟩

end Sys2Proof.Proofs
end

section
/-! PROOFS. Fetching and issuing the instruction at the pc (R50, R83, R86, R87, R149). -/

namespace Sys2Proof.Machine

open Sys2Proof Sys2Proof.Safety

/-! ## Words fetched from an instruction buffer that agrees with memory (R149) -/

/-- The words at a pc up to a limit, as memory holds them. -/
def State.memWords (s : State) (c : Nat) (lim pc : Word) (n : Nat) : List Half :=
  (((List.range n).map (fun i => pc + BitVec.ofNat 64 (2 * i))).takeWhile (fun a => decide (a.toNat < lim.toNat))).map (fun a => s.coreHalf c (codeOff a))

theorem fetchHalf_fresh {s : State} {c off : Nat} (h : tget (s.core c).ibuf off (s.coreHalf c off) = s.coreHalf c off) :
    s.fetchHalf c off = (s.coreHalf c off, s) := by
  simp only [State.fetchHalf, h, if_true]

/-- The address of the word after that of offset i. -/
theorem next_address (pc : Word) (i : Nat) : pc + 2 + BitVec.ofNat 64 (2 * i) = pc + BitVec.ofNat 64 (2 * (i + 1)) := by
  rw [Nat.mul_add, BitVec.ofNat_add, BitVec.add_assoc, BitVec.add_comm (2 : Word)]
  rfl

theorem memWords_succ (s : State) (c : Nat) (lim pc : Word) (n : Nat) :
    s.memWords c lim pc (n + 1) = if lim.toNat ≤ pc.toNat then [] else s.coreHalf c (codeOff pc) :: s.memWords c lim (pc + 2) n := by
  have addresses : (List.range (n + 1)).map (fun i => pc + BitVec.ofNat 64 (2 * i)) = pc :: (List.range n).map (fun i => pc + 2 + BitVec.ofNat 64 (2 * i)) := by
    rw [List.range_succ_eq_map, List.map_cons, List.map_map]
    simp only [next_address]
    simp [Function.comp_def]
  simp only [State.memWords, addresses, List.takeWhile_cons, ← Nat.not_lt]
  split <;> simp_all

/-- A fetch from a buffer that agrees with memory brings memory's words and changes nothing. -/
theorem fetchWords_fresh {s : State} {c : Nat} (lim : Word) (n : Nat) (pc : Word)
    (h : ∀ i, i < n → tget (s.core c).ibuf (codeOff (pc + BitVec.ofNat 64 (2 * i))) (s.coreHalf c (codeOff (pc + BitVec.ofNat 64 (2 * i)))) =
      s.coreHalf c (codeOff (pc + BitVec.ofNat 64 (2 * i)))) :
    State.fetchWords c lim n pc s = (s.memWords c lim pc n, s) := by
  induction n generalizing pc with
  | zero => rfl
  | succ n ih =>
    have first := fetchHalf_fresh (h 0 (by omega))
    rw [Nat.mul_zero, BitVec.add_zero] at first
    have rest := ih (pc + 2) fun i hi => by
      rw [next_address]
      exact h (i + 1) (by omega)
    simp only [State.fetchWords, memWords_succ, first, rest]
    split <;> rfl

/-! ## The fetch -/

/-- What the state notes of an instruction that core c has fetched for the issuing core: that it is the one at hand, and its words in c's buffer. -/
def State.noted (s : State) (c : Nat) (x : Slot) (ws : List Half) (d : Decoded) : State :=
  { s.onCore c (fun k => { k with ibuf := bufferWords (codeOff x.pc) k.ibuf (ws.take d.words) }) with
    cur := { s.cur with pc := x.pc, len := 2 * d.words, page := d.page, op := d.op, mark := d.mark, held := false } }

theorem fetch_decoded {s : State} {d : Decoded} (fresh : bufferFresh s s.cur.core s.me.pc) (lo : s.me.codebase.toNat ≤ s.me.pc.toNat)
    (hi : s.me.pc.toNat < s.me.codelim.toNat) (even : s.me.pc.toNat % 2 = 0)
    (hd : decode (s.memWords s.cur.core s.me.codelim s.me.pc 5) = .ok d)
    (hp : s.poisoned (coreKey s.cur.core (codeOff s.me.pc)) (2 * wordsRead (s.memWords s.cur.core s.me.codelim s.me.pc 5)) = none) :
    s.fetch = .ok d.instr (s.noted s.cur.core s.me (s.memWords s.cur.core s.me.codelim s.me.pc 5) d) := by
  have inside : (decide (s.me.pc.toNat < s.me.codebase.toNat ∨ s.me.codelim.toNat ≤ s.me.pc.toNat) || s.me.pc.toNat % 2 == 1) = false := by
    rw [even, decide_eq_false (by omega)]
    rfl
  simp only [State.fetch, fetchWords_fresh _ _ _ fresh, inside, hd, hp]
  rfl

/-- The fetch for the issuing slot, or by its gang's leader for the gang (R50). -/
theorem fetchLead_decoded {s : State} {c : Nat} {x : Slot} {d : Decoded} (hg : s.inGang = true → s.gangStep = none)
    (hc : c = if s.inGang then (s.gangOf s.cur.core).headD s.cur.core else s.cur.core) (hx : x = s.slot c s.cur.slot)
    (fresh : bufferFresh s c x.pc) (lo : x.codebase.toNat ≤ x.pc.toNat) (hi : x.pc.toNat < x.codelim.toNat) (even : x.pc.toNat % 2 = 0)
    (hd : decode (s.memWords c x.codelim x.pc 5) = .ok d) (hp : s.poisoned (coreKey c (codeOff x.pc)) (2 * wordsRead (s.memWords c x.codelim x.pc 5)) = none) :
    s.fetchLead = .ok d.instr (s.noted c x (s.memWords c x.codelim x.pc 5) d) := by
  subst hx
  cases gang : s.inGang with
  | false =>
    rw [gang, if_neg Bool.false_ne_true] at hc
    subst hc
    rw [State.fetchLead, gang]
    exact fetch_decoded fresh lo hi even hd hp
  | true =>
    rw [gang, if_pos rfl] at hc
    have fetched := fetch_decoded (s := { s with cur := { s.cur with core := c } }) fresh lo hi even hd hp
    simp only [State.fetchLead, gang, hg gang, if_true, ← hc, fetched]
    rfl

/-- What some members of a gang have issued, the others issue unfetched (R50). -/
theorem fetchLead_following {s : State} {g : GangStep} (gang : s.inGang = true) (h : s.gangStep = some g) :
    s.fetchLead = .ok g.instr { s with cur := { s.cur with pc := s.me.pc, len := g.len, page := g.page, op := g.op, mark := g.mark, held := false } } := by
  simp only [State.fetchLead, gang, if_true, h]

/-! ## What the fetch leaves -/

variable {s : State} {c : Nat} {x : Slot} {ws : List Half} {d : Decoded}

theorem noted_core_same : (s.noted c x ws d).core c = { s.core c with ibuf := bufferWords (codeOff x.pc) (s.core c).ibuf (ws.take d.words) } :=
  s.core_onCore c (fun k => { k with ibuf := bufferWords (codeOff x.pc) k.ibuf (ws.take d.words) })

theorem noted_core_ne {e : Nat} (h : e ≠ c) : (s.noted c x ws d).core e = s.core e :=
  s.core_onCore_ne c e (fun k => { k with ibuf := bufferWords (codeOff x.pc) k.ibuf (ws.take d.words) }) h

/-- No core's part in a gang is touched. -/
theorem noted_gang (e : Nat) : ((s.noted c x ws d).core e).gang = (s.core e).gang ∧ ((s.noted c x ws d).core e).gangDone = (s.core e).gangDone := by
  by_cases he : e = c
  · subst he
    rw [noted_core_same]
    exact ⟨rfl, rfl⟩
  · rw [noted_core_ne he]
    exact ⟨rfl, rfl⟩

theorem noted_gangOf (e : Nat) : (s.noted c x ws d).gangOf e = s.gangOf e := by simp only [State.gangOf, (noted_gang e).1]

theorem noted_inGang : (s.noted c x ws d).inGang = s.inGang := by
  have gang : (s.noted c x ws d).mine.gang = s.mine.gang := (noted_gang s.cur.core).1
  rw [State.inGang, gang]
  rfl

theorem noted_eq : s.noted c x ws d =
    ({ s with cur := (s.noted c x ws d).cur } : State).setCore c { s.core c with ibuf := ((s.noted c x ws d).core c).ibuf } := by
  rw [noted_core_same]
  rfl

/-! ## The issue -/

theorem issueStep_fetched {s t : State} {i : Instr} (h : ({ s with issuing := false } : State).fetchLead = .ok i t) : issueStep s = gangRun i t := by
  simp only [issueStep, h]

theorem step_issuing {s : State} (h : s.issuing = true) : step s = issueStep s := if_pos h

theorem gangRun_alone {s : State} {i : Instr} (h : s.inGang = false) : gangRun i s = exec i s := by rw [gangRun, h]; rfl

/-- A member that takes no trap with the waiting members of its gang issues the instruction and then does its part of the gang's going on (R50, R357). -/
theorem gangRun_member {s u : State} {i : Instr} (h : s.inGang = true)
    (quiet : ownTraps i s ((s.gangOf s.cur.core).filter (fun e => (s.core e).gangDone.isNone)) = []) (hu : exec i s = .next u) :
    gangRun i s = .next ((u.memberDone s i).gangNext (s.gangOf s.cur.core)) := by
  simp only [gangRun, h, if_true, quiet, hu, andThen]

theorem gangRun_noted {u : State} {i : Instr} (h : s.inGang = true)
    (quiet : ownTraps i (s.noted c x ws d) ((s.gangOf s.cur.core).filter (fun e => (s.core e).gangDone.isNone)) = [])
    (hu : exec i (s.noted c x ws d) = .next u) :
    gangRun i (s.noted c x ws d) = .next ((u.memberDone (s.noted c x ws d) i).gangNext (s.gangOf s.cur.core)) := by
  have members : (s.noted c x ws d).gangOf (s.noted c x ws d).cur.core = s.gangOf s.cur.core := noted_gangOf s.cur.core
  rw [← members]
  refine gangRun_member (noted_inGang.trans h) ?_ hu
  simp only [members, (noted_gang _).2, quiet]

end Sys2Proof.Machine

namespace Sys2Proof.Proofs

open Sys2Proof Sys2Proof.Machine Sys2Proof.Safety

/-- Settles O2: a buffer that agrees with memory gives memory's words (fetchWords_fresh), so the fetch gives the decoded instruction and notes it, and
what it notes leaves the gang as it was. -/
theorem stepRunsTheFetchedInstruction : Obligations.StepRunsTheFetchedInstruction := by
  unfold Obligations.StepRunsTheFetchedInstruction
  refine ⟨fun s d issuing hg => ?_, fun s g issuing gang hstep => ?_⟩
  · intro c x ws fresh lo hi even hd hp
    have fetched := fetchLead_decoded (s := { s with issuing := false }) hg (c := c) (x := x) rfl rfl fresh lo hi even hd hp
    have run := (step_issuing issuing).trans (issueStep_fetched fetched)
    exact ⟨_, run, fun alone => run.trans (gangRun_alone (noted_inGang.trans alone)),
      fun gang quiet u hu => run.trans (gangRun_noted gang quiet hu), rfl, noted_eq⟩
  · rw [step_issuing issuing]
    exact issueStep_fetched (fetchLead_following gang hstep)

end Sys2Proof.Proofs
end

section
/-! PROOFS. Which slots may issue an instruction (R289, R358). -/

namespace Sys2Proof.Machine

open Sys2Proof Sys2Proof.Safety

/-- The rule of the slots that may issue an instruction. -/
def issuers (i : Instr) : Who :=
  match i with
  | .sync _ | .gang _ => .control
  | .fret => .sweep
  | .loopb _ _ _ _ => .retriever
  | i => if threadsOnly i then .threads else if inRoutine i then .any else .noSweep

/-- Every arm of the instruction table is one issue, under the rule of its instruction; the moulds in which arms are cast are opened to show it. -/
theorem exec_issuers {i : Instr} (h : i.isStep = false) (s : State) : ∃ n f, exec i s = issue n f s ∧ n.who = issuers i := by
  cases i
  all_goals
    first
    | exact Bool.noConfusion h
    | dsimp only [exec, execAdd, execSub, execAnd, execOr, execXor, execShl, execShr, execSar, execMul, execMulhs, execMulhn, execDivs, execDivn,
        execRems, execRemn, execSlt, execSltn, aluOp, execAddi, execLi, execMix32, execClz, execPopc, fixedOp, execBz, execBnz, execBltz, execBgez, branchOp,
        execLd8s, execLd8n, execLd16s, execLd16n, execLd32s, execLd32n, execLd64, loadOp, execSt8, execSt16, execSt32, execSt64, storeOp,
        execAadd, execAand, execAor, execAxor, execAmins, execAmaxs, execAminn, execAmaxn, execAswp, execAcas, execAfadd, execAfmaxa, atomicOp, access,
        execVld, execVst, vecLine, execVlds, execVsts, vecStride, execVgatl, execVsctl, vecIndexed, execMld, execMldt, loadTile, execCpy, execCfill, copyCmd,
        execRtake, execStload, execGate, execFlddef, execFldrun, execFldhold, execFlddrop, fieldCmd, execCsrw, execCsrs, execCsrc, csrUpdate, execGtwrite]
      exact ⟨_, _, rfl, rfl⟩

/-- The rule of an instruction allows exactly the slots of R289. -/
theorem issuers_allows (i : Instr) (t : Nat) : (issuers i).allows t = slotMay i t := by
  unfold issuers
  split
  · change (t == 0) = ((t != 11 || false) && (decide (t ≤ 10) || true) && t == 0)
    by_cases h : t = 0 <;> simp [h]
  · change (t == 0) = ((t != 11 || false) && (decide (t ≤ 10) || true) && t == 0)
    by_cases h : t = 0 <;> simp [h]
  · change (t == 11) = ((t != 11 || true) && (decide (t ≤ 10) || true) && t == 11)
    simp
  · change (t == 12) = ((t != 11 || false) && (decide (t ≤ 10) || true) && t == 12)
    by_cases h : t = 12 <;> simp [h]
  · unfold slotMay
    split
    · simp only [Who.allows, *, Bool.not_true, Bool.or_false, Bool.and_true]
      by_cases h : t ≤ 10
      · simp [h, show t ≠ 11 by omega]
      · simp [h]
    · split <;> simp [Who.allows, *]

/-- An instruction that its slot may not issue takes SLOT, whatever else is wrong with it (R358). -/
theorem exec_wrongSlot {i : Instr} {s : State} (h : i.isStep = false) (hslot : slotMay i s.cur.slot = false) (hb : s.me.branches = []) :
    traps i s 0x0F 0 (BitVec.ofNat 64 s.cur.slot) := by
  obtain ⟨n, f, hx, hw⟩ := exec_issuers h s
  have refused : n.who.allows s.cur.slot = false := by rw [hw, issuers_allows, hslot]
  exact hx.trans (issue_fault (by rw [issueFault, refused]; rfl) hb)

theorem slotMay_threadsOnly {i : Instr} {t : Nat} (h : threadsOnly i = true) (ht : 11 ≤ t) : slotMay i t = false := by
  simp [slotMay, h, show ¬ t ≤ 10 by omega]

theorem slotMay_routine {i : Instr} (h : inRoutine i = false) : slotMay i 11 = false := by
  simp [slotMay, h]

/-- What threads alone may issue are instructions. -/
theorem isStep_threadsOnly {i : Instr} (h : threadsOnly i = true) : i.isStep = false := by
  unfold threadsOnly at h
  split at h <;> first | rfl | exact Bool.noConfusion h

end Sys2Proof.Machine

namespace Sys2Proof.Proofs

open Sys2Proof Sys2Proof.Machine Sys2Proof.Safety

/-- Settles O18: SLOT is the first check of every issue, and each clause names slots outside the instruction's rule. -/
theorem wrongSlotTraps : Obligations.WrongSlotTraps := by
  unfold Obligations.WrongSlotTraps
  refine ⟨fun i s hi ht hb => ?_, fun i s l b hi h0 hb => ?_, fun s h11 hb => ?_, fun s h11 hb => ?_, fun s a b c fin h12 hb => ?_,
    fun i s hi hr h11 hb => ?_⟩
  · exact exec_wrongSlot (isStep_threadsOnly hi) (slotMay_threadsOnly hi ht) hb
  · rcases List.mem_pair.mp hi with rfl | rfl <;> exact exec_wrongSlot rfl (by simp [slotMay, h0]) hb
  · exact exec_wrongSlot rfl (by simp [slotMay, h11]) hb
  · have refused := exec_wrongSlot (i := .gret) rfl (h11 ▸ slotMay_routine rfl) hb
    rwa [h11] at refused
  · exact exec_wrongSlot rfl (by simp [slotMay, h12]) hb
  · have refused := exec_wrongSlot hi (h11 ▸ slotMay_routine hr) hb
    rwa [h11] at refused

end Sys2Proof.Proofs
end

section
/-! PROOFS. The plain instructions of page 0: results of one register, NOP and PAUSE, traps, branches and jumps (R112 to R127). -/

namespace Sys2Proof.Machine

open Sys2Proof Sys2Proof.Safety

/-! ## Results of one register (R113, R114, R116 to R118) -/

theorem length_takeWhile_range {p : Nat → Bool} {n k : Nat} (hk : k < n) (hlt : ∀ i, i < k → p i = true) (hat : p k = false) :
    ((List.range n).takeWhile p).length = k := by
  have parts : List.range n = List.range k ++ k :: (List.range (n - k - 1)).map (fun i => k + (i + 1)) := by
    conv_lhs => rw [show n = k + ((n - k - 1) + 1) by omega, List.range_add, List.range_succ_eq_map]
    simp [Function.comp_def]
  rw [parts, List.takeWhile_append_of_pos (fun i hi => hlt i (List.mem_range.mp hi)), List.takeWhile_cons_of_neg (by simp [hat])]
  simp

/-- The zero bits before the highest one bit (R118). -/
theorem clzW_eq (b : Word) : clzW b = if b = 0 then 64 else BitVec.ofNat 64 (63 - Nat.log2 b.toNat) := by
  unfold clzW
  split
  · next h => subst h; decide
  · next h =>
    have nonzero : b.toNat ≠ 0 := fun h0 => h (BitVec.eq_of_toNat_eq h0)
    have top : Nat.log2 b.toNat < 64 := (Nat.log2_lt nonzero).mpr b.isLt
    congr 1
    refine length_takeWhile_range (by omega) (fun i hi => ?_) ?_
    · have above : b.toNat < 2 ^ (63 - i) := (Nat.log2_lt nonzero).mp (by omega)
      simp [bit_eq_getLsbD, BitVec.getLsbD, Nat.testBit_lt_two_pow above]
    · rw [show 63 - (63 - Nat.log2 b.toNat) = Nat.log2 b.toNat by omega, bit_eq_getLsbD, BitVec.getLsbD, Nat.testBit_log2 nonzero]
      rfl

theorem popcW_eq (b : Word) : popcW b = BitVec.ofNat 64 ((List.range 64).countP (fun i => b.getLsbD i)) := by
  rw [popcW, List.countP_eq_length_filter, show bit b = fun i => b.getLsbD i from funext (bit_eq_getLsbD b)]

/-- The instructions that write one register at fixed latency are one operation (R112, R116 to R118). -/
theorem exec_regForm {i : Instr} {d : Reg} {rs : List Reg} {f : Slot → Word} (h : regForm i = some (d, rs, f)) (s : State) :
    exec i s = fixedOp rs d f s := by
  cases i <;> cases h
  case shl a b => exact congrArg (fun g => fixedOp (a :: srcRegs b) d g s) (funext fun x => congrArg (x.rd a <<< ·) (fld_low _ 6))
  case shr a b => exact congrArg (fun g => fixedOp (a :: srcRegs b) d g s) (funext fun x => congrArg (x.rd a >>> ·) (fld_low _ 6))
  case sar a b => exact congrArg (fun g => fixedOp (a :: srcRegs b) d g s) (funext fun x => congrArg (x.rd a).sshiftRight (fld_low _ 6))
  case clz b => exact congrArg (fun g => fixedOp [b] d g s) (funext fun x => clzW_eq (x.rd b))
  case popc b => exact congrArg (fun g => fixedOp [b] d g s) (funext fun x => popcW_eq (x.rd b))
  all_goals rfl

/-- A result does not depend on the wait that its instruction ends. -/
theorem regForm_unparked {i : Instr} {d : Reg} {rs : List Reg} {f : Slot → Word} (h : regForm i = some (d, rs, f)) (x : Slot) :
    f { x with park := none } = f x := by
  cases i <;> cases h <;> rfl

/-! ## PAUSE (R126) -/

/-- The slot with the window that PAUSE sets from register b. -/
def Slot.paused (x : Slot) (b : Reg) : Slot := if fld (x.rd b) 0 32 = 0 then x else { x with pauseLeft := fld (x.rd b) 0 32 }

theorem Slot.paused_calm (x : Slot) (b : Reg) : x.Calm (({ x with park := none } : Slot).paused b) := by
  unfold Slot.paused
  split
  · exact ⟨rfl, rfl, rfl, rfl, rfl, rfl⟩
  · exact ⟨rfl, rfl, rfl, rfl, rfl, rfl⟩

theorem Slot.paused_window (x : Slot) (b : Reg) :
    (x.paused b).pauseLeft = if (x.rd b).toNat % 2 ^ 32 = 0 then x.pauseLeft else (x.rd b).toNat % 2 ^ 32 := by
  rw [Slot.paused, fld_low]
  split
  · rfl
  · rfl

/-! ## Branches and jumps (R119 to R121) -/

theorem State.cleared_slot_rd (s : State) (c t : Nat) (r : Reg) : (s.cleared.slot c t).rd r = (s.slot c t).rd r := by
  rw [State.slot, State.cleared_core]
  split
  · next hc =>
    subst hc
    by_cases ht : t = s.cur.slot
    · subst ht
      rw [Core.slot_setSlot]
      rfl
    · rw [Core.slot_setSlot_ne _ _ _ _ ht]
      rfl
  · rfl

/-- The registers that decide a branch are not changed by the end of a wait (R50). -/
theorem State.cleared_leadRd (s : State) (r : Reg) : s.cleared.lead.rd r = s.lead.rd r := by
  unfold State.lead
  rw [State.cleared_gangOf, State.cleared_cur]
  split
  · exact State.cleared_slot_rd s _ _ r
  · exact State.cleared_slot_rd s _ _ r

/-- A jump that resolves at issue goes on at its target (R39, R50). -/
theorem predicted_resolved {s : State} (h : resolvesNow s = true) (actual other : Word) (useGuess : Bool) :
    predicted s actual other useGuess = .go s actual := by
  unfold predicted
  split
  · rfl
  · next hp =>
    rw [if_pos]
    simpa [resolvesNow, hp] using h

theorem State.cleared_resolvesNow (s : State) : resolvesNow s.cleared = resolvesNow s := by
  rw [resolvesNow, State.cleared_inGang]
  rfl

/-- An instruction whose only effect is where its slot goes on. -/
theorem issue_goesOn {n : Need} {f : State → Act} {s : State} {pc : Word} (h : mayIssue n s = true) (hn : n.var = false)
    (hf : f s.cleared = .go s.cleared pc) : ∃ t, issue n f s = .next t ∧ leftAs s t pc ∧ regsKeep s t ∧ onlyMe s t ∧ onlyRegs s t := by
  have hme := s.cleared_me
  exact ⟨_, issue_go h hf, leftAs_retire _ hn rfl (by rw [hme]) (by rw [hme]) (by rw [hme]) (by rw [hme]),
    regsKeep_retire _ _ (by rw [hme]) (by rw [hme]), onlyMe_retire _ _ (onlyMe_cleared s), onlyRegs_retire _ hn ⟨_, _, hme⟩⟩

/-- A jump that leaves a value in its link register (R120, R121). -/
theorem issue_links {n : Need} {f : State → Act} {s : State} {d : Reg} {v pc : Word} (h : mayIssue n s = true) (hn : n.var = false)
    (hf : f s.cleared = .go (s.cleared.onMe (fun x => x.wr d v)) pc) : ∃ t, issue n f s = .next t ∧ leftAs s t pc ∧ t.me.rd d = written d v ∧
      othersKeep s t d ∧ t.me.v = s.me.v ∧ onlyMe s t ∧ onlyRegs s t := by
  rw [State.cleared_onMe] at hf
  have hme : (s.setMe (({ s.me with park := none } : Slot).wr d v)).me = ({ s.me with park := none } : Slot).wr d v := State.me_setMe _ _
  refine ⟨_, issue_go h hf, leftAs_retire _ hn rfl (by rw [hme, Slot.wr_park]) (by rw [hme, Slot.wr_icount]) (by rw [hme, Slot.wr_pend])
    (by rw [hme, Slot.wr_unsync]), ?_, fun r hr => ?_, ?_, onlyMe_retire _ _ (onlyMe_setMe s _), onlyRegs_retire _ hn ⟨_, none, hme.trans (Slot.wr_file _ _ _)⟩⟩
  · rw [State.retire_me, Slot.rd_congr (Slot.retired_g _ _ _ _ _), hme, Slot.rd_wr]
  · rw [State.retire_me, Slot.rd_congr (Slot.retired_g _ _ _ _ _), hme, Slot.rd_wr_ne _ _ _ _ hr]
    rfl
  · rw [State.retire_me, Slot.retired_v, hme, Slot.wr_v]

end Sys2Proof.Machine

namespace Sys2Proof.Proofs

open Sys2Proof Sys2Proof.Machine Sys2Proof.Safety

/-- Settles O21: the twenty-three instructions are one operation, which writes one register. -/
theorem registerResults : Obligations.RegisterResults := by
  unfold Obligations.RegisterResults
  intro i d rs f s hi h
  rw [exec_regForm hi]
  refine issue_writes h rfl ?_
  rw [State.cleared_onMe, State.cleared_onMe, regForm_unparked hi]

/-- Settles O23: the four branches are one operation, which goes on by its test of the leader's register. -/
theorem conditionalBranches : Obligations.ConditionalBranches := by
  unfold Obligations.ConditionalBranches
  intro i a off test s hi h hr
  have now : resolvesNow s.cleared = true := s.cleared_resolvesNow.trans hr
  rw [exec_branchForm hi]
  refine issue_goesOn h rfl ?_
  rw [predicted_resolved now, predicted_resolved now, State.cleared_leadRd]
  split <;> rfl

/-- Settles O15: TRAP goes past itself before its trap is taken, BRK does not. -/
theorem trapAndBreakInstructions : Obligations.TrapAndBreakInstructions := by
  unfold Obligations.TrapAndBreakInstructions
  refine ⟨fun s n h => ?_, fun s h => ?_⟩
  · have past : s.cleared.onMe (fun x => { x with pc := s.nextPc, icount := x.icount + 1 }) =
        s.onMe (fun x => { x with park := none, pc := s.nextPc, icount := x.icount + 1 }) := State.cleared_onMe _ _
    have hx : exec (.trap n) s = execTrap n s := rfl
    rw [hx, ← past]
    exact issue_stay h rfl
  · have hx : exec .brk s = execBrk s := rfl
    rw [traps, hx]
    exact issue_traps h (mayIssue_branches h rfl) rfl

/-- Settles O22: of the four, YIELD and PAUSE write one field of their slot, NOP and PREF none. -/
theorem plainIssue : Obligations.PlainIssue := by
  unfold Obligations.PlainIssue
  refine ⟨fun s h => issue_plain h rfl rfl, fun s b x off h => issue_plain h rfl rfl, fun s h => ?_, fun s b h => ?_⟩
  · have hx : exec .yield s = execYield s := rfl
    rw [hx]
    obtain ⟨t, ht, hme, hl, -, hr, hom⟩ := issue_setMe (f := fun s => .done (s.onMe (fun x => { x with yielded := true }))) h
      (congrArg Act.done (State.cleared_onMe _ _)) ⟨rfl, rfl, rfl, rfl, rfl, rfl⟩
    obtain ⟨p, u, m, k, hret⟩ := Slot.retired_eq { s.me with park := none, yielded := true } { late := false, who := .any } s.rtime.toNat s.cur.mark s.nextPc
    rw [hret] at hme
    exact ⟨t, ht, hl rfl, hr, hom, by rw [hme], by rw [hme], by rw [hme], by rw [hme]⟩
  · have hx : exec (.pause b) s = execPause b s := rfl
    rw [hx]
    obtain ⟨t, ht, hme, hl, -, hr, hom⟩ := issue_setMe (f := fun s => .done (s.onMe (fun x => x.paused b))) h
      (congrArg Act.done (State.cleared_onMe _ _)) (Slot.paused_calm _ b)
    obtain ⟨p, u, m, k, hret⟩ := Slot.retired_eq (({ s.me with park := none } : Slot).paused b) { rs := [b], who := .any } s.rtime.toNat s.cur.mark s.nextPc
    rw [hret] at hme
    exact ⟨t, ht, hl rfl, hr, hom, by rw [hme]; exact Slot.paused_window _ b⟩

/-- Settles O24: J and JR only go on elsewhere; JAL and JALR write g31 besides, JALR after it has read its target. -/
theorem jumpsAndLinks : Obligations.JumpsAndLinks := by
  unfold Obligations.JumpsAndLinks
  refine ⟨fun s off h => ?_, fun s off h => ?_, fun s a h hr => ?_, fun s a h => ?_⟩
  · have hx : exec (.j off) s = execJ off s := rfl
    rw [hx]
    exact issue_goesOn h rfl rfl
  · have hx : exec (.jal off) s = execJal off s := rfl
    rw [hx]
    exact issue_links h rfl rfl
  · have hx : exec (.jr a) s = execJr a s := rfl
    rw [hx]
    refine issue_goesOn h rfl ?_
    rw [predicted_resolved (s.cleared_resolvesNow.trans hr), State.cleared_leadRd]
  · have hx : exec (.jalr a) s = execJalr a s := rfl
    rw [hx]
    refine issue_links h rfl ?_
    rw [State.cleared_leadRd]
    rfl

/-- Settles O3: the decoder gives each instruction. -/
theorem specEncodingsDecode : Obligations.SpecEncodingsDecode := by
  unfold Obligations.SpecEncodingsDecode
  refine ⟨⟨_, rfl, rfl, rfl⟩, ⟨_, rfl, rfl, rfl⟩, ⟨_, rfl, rfl, rfl⟩, ⟨_, rfl, rfl, rfl⟩, ⟨_, rfl, rfl, rfl⟩, ⟨_, rfl, rfl, rfl⟩, ⟨_, rfl, rfl, rfl⟩,
    ⟨_, rfl, rfl, rfl⟩, ⟨_, rfl, rfl, rfl⟩, ⟨_, rfl, rfl, rfl⟩, ⟨_, rfl, rfl, rfl, rfl⟩, ⟨_, rfl, rfl, rfl⟩, ⟨_, rfl, rfl, rfl⟩, ⟨_, rfl, rfl, rfl⟩,
    ⟨_, rfl, rfl, rfl⟩, ⟨_, rfl, rfl, rfl⟩⟩

end Sys2Proof.Proofs
end

section
/-! PROOFS. Control registers (R131 to R138, R191, R223, R258). -/

namespace Sys2Proof.Machine

open Sys2Proof Sys2Proof.Safety

/-! ## Reading -/

theorem engIndex_none {n : Nat} (h : 0x065 ≤ n) : engIndex n = none := by
  rw [engIndex, if_neg (by omega), if_neg (by omega)]

/-- No control register has a number from 0x0D8 on. -/
theorem csrRead_none (s : State) {n : Nat} (h : 0x0D8 ≤ n) : s.csrRead n = none := by
  unfold State.csrRead
  rw [engIndex_none (by omega)]
  dsimp only
  split
  all_goals first | omega | rfl

theorem csrValue_none (s : State) {n : Nat} (h : 0x0D8 ≤ n) : csrValue s n = none := by
  rw [csrValue, List.lookup_eq_none_iff]
  simp only [List.forall_mem_cons, List.not_mem_nil, false_implies, implies_true, and_true, bne_iff_ne]
  omega

/-- Reading a control register gives what the table of R133 to R138 says. -/
theorem csrRead_eq (s : State) (n : Nat) : s.csrRead n = csrValue s n := by
  rcases Nat.lt_or_ge n 0x0D8 with h | h
  · interval_cases n <;> rfl
  · rw [csrRead_none s h, csrValue_none s h]

/-- What the control registers show of a slot. -/
def Slot.shown (x : Slot) : Slot :=
  { Slot.reset with
    tvec := x.tvec, tcause := x.tcause, taddr := x.taddr, tpc := x.tpc, tinfo := x.tinfo, prio := x.prio, waitlim := x.waitlim, asid := x.asid,
    dom := x.dom, key := x.key, codebase := x.codebase, codelim := x.codelim, ec := x.ec }

/-- A change of what no control register shows changes no control register. -/
theorem csrValue_setMe {s : State} {y : Slot} (h : y.shown = s.me.shown) (n : Nat) : csrValue (s.setMe y) n = csrValue s n := by
  simp only [Slot.shown, Slot.mk.injEq] at h
  simp only [csrValue, State.me_setMe, State.mine_setMe, Core.setSlot_jobgrid, Core.setSlot_sstep, Core.setSlot_cycle, Core.setSlot_hdone,
    Core.setSlot_spillbase, Core.setSlot_tiles, Core.setSlot_det, Core.setSlot_smask, Core.setSlot_domch, Core.setSlot_xarea, Core.setSlot_profctl,
    Core.setSlot_profbase, Core.setSlot_bkpt, State.setMe_cur, State.setMe_rtime, State.setMe_remapix, State.setMe_remap, h]

theorem csrValue_cleared (s : State) (n : Nat) : csrValue s.cleared n = csrValue s n := csrValue_setMe (y := { s.me with park := none }) rfl n

theorem csrValue_onMe_wr (s : State) (r : Reg) (v : Word) (n : Nat) : csrValue (s.onMe (fun x => x.wr r v)) n = csrValue s n := by
  refine csrValue_setMe (y := s.me.wr r v) ?_ n
  rw [Slot.wr_file]
  rfl

theorem csrValue_retire (s : State) {need : Need} (hn : need.var = false) (pc : Word) (n : Nat) : csrValue (s.retire need pc) n = csrValue s n := by
  obtain ⟨u, k, h⟩ := s.me.retired_fixed s.rtime.toNat s.cur.mark pc hn
  refine csrValue_setMe (y := s.me.retired need s.rtime.toNat s.cur.mark pc) ?_ n
  rw [h]
  rfl

/-- A register below 0x0C0, or domain 0, passes the check of privilege (R132). -/
theorem csrPriv_passes {s : State} {n : BitVec 12} (h : n.toNat < 0x0C0 ∨ s.me.dom = 0) : s.cleared.csrPriv n.toNat = false := by
  rw [State.csrPriv, State.cleared_me]
  rcases h with h | h
  · simp [show ¬ 0x0C0 ≤ n.toNat by omega]
  · simp [h]

theorem csrr_reads {s : State} {d : Reg} {n : BitVec 12} {v : Word} (h : mayIssue { ws := [d], late := false, who := .any } s = true)
    (hp : n.toNat < 0x0C0 ∨ s.me.dom = 0) (hv : csrValue s n.toNat = some v) : ∃ t, execCsrr d n s = .next t ∧ wroteReg s t d v := by
  refine issue_writes h rfl ?_
  simp only [csrPriv_passes hp, csrRead_eq, csrValue_cleared, hv]
  rfl

theorem csrr_illegal {s : State} {d : Reg} {n : BitVec 12} (h : mayIssue { ws := [d], late := false, who := .any } s = true)
    (hp : n.toNat < 0x0C0 ∨ s.me.dom = 0) (hb : s.me.branches = []) (hv : csrValue s n.toNat = none) : traps (.csrr d n) s 0x01 0 5 := by
  have hx : exec (.csrr d n) s = execCsrr d n s := rfl
  rw [traps, hx]
  refine issue_traps h hb ?_
  simp only [csrPriv_passes hp, csrRead_eq, csrValue_cleared, hv]
  rfl

/-! ## Writing -/

/-- A write of a control register leaves the machine's position, memory, the other cores and, of the issuing slot, all but four of its fields. -/
structure CsrKeeps (s t : State) : Prop where
  cur : t.cur = s.cur
  mem : t.mem = s.mem
  others : ∀ k, k ≠ s.cur.core → t.core k = s.core k
  me : ∃ a b c e, t.me = { s.me with tvec := a, prio := b, waitlim := c, ec := e }

theorem csrKeeps_setMe (s : State) {y : Slot} (hy : ∃ a b c e, y = { s.me with tvec := a, prio := b, waitlim := c, ec := e }) : CsrKeeps s (s.setMe y) :=
  ⟨rfl, rfl, fun k hk => (s.core_setMe y k).trans (if_neg hk), by rw [State.me_setMe]; exact hy⟩

theorem csrKeeps_onMine (s : State) {f : Core → Core} (hf : ∀ k, (f k).slots = k.slots) : CsrKeeps s (s.onMine f) :=
  ⟨rfl, rfl, fun k hk => State.core_onCore_ne s _ k f hk, ⟨_, _, _, _, State.me_onMine (hf _)⟩⟩

/-- The registers of the engines read back as they were written (R191). -/
theorem EngCsr.words_ofWords {l : List Word} (h : l.length = 20) : (EngCsr.ofWords l).words = l := by
  match l, h with
  | [_, _, _, _, _, _, _, _, _, _, _, _, _, _, _, _, _, _, _, _], _ => rfl

theorem engIndex_lt {n i : Nat} (h : engIndex n = some i) : i < 20 := by
  unfold engIndex at h
  split at h
  · cases h; omega
  · split at h
    · cases h; omega
    · cases h

theorem engIndex_writable : ∀ p ∈ csrWritable, ∀ i ∈ engIndex p.1, p.2 = engMask i := by decide

theorem csrWrite_engine {s : State} {n i : Nat} (v : Word) (h : engIndex n = some i) :
    ∃ t, s.csrWrite n v = .ok t ∧ csrValue t n = some (v &&& engMask i) ∧ CsrKeeps s t ∧ t.remapix = s.remapix ∧ t.remap = s.remap := by
  have hw : s.csrWrite n v = .ok (s.setMe { s.me with ec := EngCsr.ofWords (s.me.ec.words.set i (v &&& engMask i)) }) := by
    unfold State.csrWrite
    rw [h]
  refine ⟨_, hw, ?_, csrKeeps_setMe s ⟨_, _, _, _, rfl⟩, rfl, rfl⟩
  have len : (s.me.ec.words.set i (v &&& engMask i)).length = 20 := List.length_set
  rw [← csrRead_eq]
  unfold State.csrRead
  rw [h]
  dsimp only
  rw [State.me_setMe, EngCsr.words_ofWords len, List.getD_eq_getElem _ _ (by rw [len]; exact engIndex_lt h), List.getElem_set_self]

/-- The registers of R133 outside the engines' that a slot may write whatever the value. -/
theorem csrWritable_plain : ∀ p ∈ csrWritable, engIndex p.1 = none → p ∈ ([(0x010, BitVec.allOnes 64), (0x020, 0x3), (0x021, 0xFFFFFFFF),
    (0x023, BitVec.allOnes 64), (0x080, 0x1F), (0x081, BitVec.allOnes 64), (0x0D4, BitVec.allOnes 64), (0x0D5, BitVec.allOnes 64),
    (0x0D6, BitVec.allOnes 64), (0x0D7, BitVec.allOnes 64)] : List (Nat × Word)) := by decide

/-- A writable register takes the writable bits of the value; PROFCTL keeps its others (R131). -/
theorem csrWrite_writable {s : State} {n : Nat} {m old : Word} (v : Word) (h : (n, m) ∈ csrWritable) (ho : csrValue s n = some old) :
    ∃ t, s.csrWrite n v = .ok t ∧ csrValue t n = some ((v &&& m) ||| (if n = 0x080 then old &&& ~~~m else 0)) ∧ CsrKeeps s t ∧
      t.remapix = s.remapix ∧ t.remap = s.remap := by
  cases he : engIndex n with
  | some i =>
    have other : n ≠ 0x080 := by rintro rfl; cases he
    obtain rfl : m = engMask i := engIndex_writable _ h i he
    rw [if_neg other]
    exact (csrWrite_engine v he).imp (fun t ⟨ht, hv, rest⟩ => ⟨ht, hv.trans (congrArg some BitVec.or_zero.symm), rest⟩)
  | none =>
    have cases := csrWritable_plain _ h he
    simp only [List.mem_cons, Prod.mk.injEq, List.not_mem_nil, or_false] at cases
    rcases cases with ⟨rfl, rfl⟩ | ⟨rfl, rfl⟩ | ⟨rfl, rfl⟩ | ⟨rfl, rfl⟩ | ⟨rfl, rfl⟩ | ⟨rfl, rfl⟩ | ⟨rfl, rfl⟩ | ⟨rfl, rfl⟩ | ⟨rfl, rfl⟩ | ⟨rfl, rfl⟩
    · exact ⟨_, rfl, (congrArg (fun x : Slot => some x.tvec) (State.me_setMe s _)).trans (by rw [BitVec.and_allOnes]; simp), csrKeeps_setMe s ⟨_, _, _, _, rfl⟩, rfl, rfl⟩
    · exact ⟨_, rfl, (congrArg (fun x : Slot => some x.prio) (State.me_setMe s _)).trans (by simp), csrKeeps_setMe s ⟨_, _, _, _, rfl⟩, rfl, rfl⟩
    · exact ⟨_, rfl, (congrArg (fun x : Slot => some x.waitlim) (State.me_setMe s _)).trans (by simp), csrKeeps_setMe s ⟨_, _, _, _, rfl⟩, rfl, rfl⟩
    · exact ⟨_, rfl, (congrArg (fun k : Core => some k.spillbase) (State.mine_onMine s _)).trans (by rw [BitVec.and_allOnes]; simp), csrKeeps_onMine s (fun _ => rfl), rfl, rfl⟩
    · obtain rfl : s.mine.profctl = old := Option.some.inj ho
      exact ⟨_, rfl, (congrArg (fun k : Core => some k.profctl) (State.mine_onMine s _)).trans (congrArg some (BitVec.or_comm _ _)),
        csrKeeps_onMine s (fun _ => rfl), rfl, rfl⟩
    · exact ⟨_, rfl, (congrArg (fun k : Core => some k.profbase) (State.mine_onMine s _)).trans (by rw [BitVec.and_allOnes]; simp), csrKeeps_onMine s (fun _ => rfl), rfl, rfl⟩
    · exact ⟨_, rfl, (congrArg (fun k : Core => some k.bkpt[0]) (State.mine_onMine s _)).trans (by rw [BitVec.and_allOnes]; simp), csrKeeps_onMine s (fun _ => rfl), rfl, rfl⟩
    · exact ⟨_, rfl, (congrArg (fun k : Core => some k.bkpt[1]) (State.mine_onMine s _)).trans (by rw [BitVec.and_allOnes]; simp), csrKeeps_onMine s (fun _ => rfl), rfl, rfl⟩
    · exact ⟨_, rfl, (congrArg (fun k : Core => some k.bkpt[2]) (State.mine_onMine s _)).trans (by rw [BitVec.and_allOnes]; simp), csrKeeps_onMine s (fun _ => rfl), rfl, rfl⟩
    · exact ⟨_, rfl, (congrArg (fun k : Core => some k.bkpt[3]) (State.mine_onMine s _)).trans (by rw [BitVec.and_allOnes]; simp), csrKeeps_onMine s (fun _ => rfl), rfl, rfl⟩

/-- Registers that only the hardware writes (R133). -/
theorem csrWrite_readOnly {n : BitVec 12} (s : State) (v : Word)
    (h : n ∈ ([0x000, 0x001, 0x002, 0x003, 0x004, 0x005, 0x006, 0x007, 0x008, 0x009, 0x00A, 0x011, 0x012, 0x013, 0x014, 0x022, 0x024, 0x030, 0x031, 0x032,
      0x033, 0x034, 0x050, 0x051] : List (BitVec 12))) : s.csrWrite n.toNat v = .readOnly ∧ n.toNat < 0x0C0 := by
  simp only [List.mem_cons, List.not_mem_nil, or_false] at h
  rcases h with rfl | rfl | rfl | rfl | rfl | rfl | rfl | rfl | rfl | rfl | rfl | rfl | rfl | rfl | rfl | rfl | rfl | rfl | rfl | rfl | rfl | rfl | rfl | rfl
  all_goals exact ⟨rfl, by decide⟩

/-! ## CSRW, CSRS and CSRC (R131) -/

/-- The three writes of a control register are one operation. -/
theorem exec_csrForm {i : Instr} {n : BitVec 12} {a c : Reg} {f : Word → Word → Word} (h : csrForm i = some (n, a, c, f)) (s : State) :
    exec i s = csrUpdate f n a c s := by
  unfold csrForm at h
  split at h <;> cases h <;> rfl

/-- What a control register write leaves, from the state t in which the register is written: gC takes the old value, and the slot goes on. -/
structure CsrDone (s t u : State) (c : Reg) (old : Word) : Prop where
  shows : ∀ n, csrValue u n = csrValue t n
  taken : u.me.rd c = written c old
  keep : othersKeep s u c
  vectors : u.me.v = s.me.v
  mem : u.mem = s.mem
  after : leftAs s u s.nextPc
  others : ∀ k, k ≠ s.cur.core → u.core k = s.core k
  remapix : u.remapix = t.remapix
  remap : u.remap = t.remap
  area : u.mine.xarea = t.mine.xarea
  areaNow : u.mine.xareaNow = t.mine.xareaNow

theorem csrUpdate_done {f : Word → Word → Word} {n : BitVec 12} {a c : Reg} {s t : State} {old : Word} (h : mayIssue { rs := [a], ws := [c] } s = true)
    (hp : n.toNat < 0x0C0 ∨ s.me.dom = 0) (ho : csrValue s n.toNat = some old) (hw : s.cleared.csrWrite n.toNat (f old (s.me.rd a)) = .ok t)
    (ht : CsrKeeps s.cleared t) : ∃ u, csrUpdate f n a c s = .next u ∧ CsrDone s t u c old := by
  have done : csrUpdate f n a c s = .next ((t.onMe (fun x => x.wr c old)).retire { rs := [a], ws := [c] } s.nextPc) := by
    refine issue_done h ?_
    simp only [csrPriv_passes hp, csrRead_eq, csrValue_cleared, ho, State.cleared_rd, hw]
    rfl
  obtain ⟨tv, pr, wl, ec, hme⟩ := ht.me
  rw [State.cleared_me] at hme
  have written : (t.onMe (fun x => x.wr c old)).me = t.me.wr c old := State.me_onMe _ _
  have cur : (t.onMe (fun x => x.wr c old)).cur = s.cur := ht.cur
  refine ⟨_, done, ?_⟩
  constructor
  case shows => exact fun k => (csrValue_retire _ rfl _ k).trans (csrValue_onMe_wr _ _ _ k)
  case taken => rw [State.retire_me, Slot.rd_congr (Slot.retired_g _ _ _ _ _), written, Slot.rd_wr]
  case keep =>
    intro r hr
    rw [State.retire_me, Slot.rd_congr (Slot.retired_g _ _ _ _ _), written, Slot.rd_wr_ne _ _ _ _ hr, hme]
    rfl
  case vectors => rw [State.retire_me, Slot.retired_v, written, Slot.wr_v, hme]
  case mem => exact ht.mem
  case after =>
    exact leftAs_retire _ rfl cur (by rw [written, Slot.wr_park, hme]) (by rw [written, Slot.wr_icount, hme])
      (by rw [written, Slot.wr_pend, hme]) (by rw [written, Slot.wr_unsync, hme])
  case others =>
    intro k hk
    have apart : k ≠ (t.onMe (fun x => x.wr c old)).cur.core := by rw [cur]; exact hk
    calc ((t.onMe (fun x => x.wr c old)).retire { rs := [a], ws := [c] } s.nextPc).core k
      _ = (t.onMe (fun x => x.wr c old)).core k := State.retire_core_ne _ _ _ apart
      _ = t.core k := (t.core_setMe _ k).trans (if_neg apart)
      _ = s.cleared.core k := ht.others k hk
      _ = s.core k := (s.cleared_core k).trans (if_neg hk)
  case remapix => rfl
  case remap => rfl
  case area => rw [State.retire_setMe, State.mine_setMe, Core.setSlot_xarea, State.onMe_def, State.mine_setMe, Core.setSlot_xarea]
  case areaNow => rw [State.retire_setMe, State.mine_setMe, Core.setSlot_xareaNow, State.onMe_def, State.mine_setMe, Core.setSlot_xareaNow]

theorem csrUpdate_unnamed {i : Instr} {f : Word → Word → Word} {n : BitVec 12} {a c : Reg} {s : State} (hi : csrForm i = some (n, a, c, f))
    (h : mayIssue { rs := [a], ws := [c] } s = true) (hp : n.toNat < 0x0C0 ∨ s.me.dom = 0) (hv : csrValue s n.toNat = none) : traps i s 0x01 0 5 := by
  rw [traps, exec_csrForm hi]
  refine issue_traps h (mayIssue_branches h rfl) ?_
  simp only [csrPriv_passes hp, csrRead_eq, csrValue_cleared, hv]
  rfl

/-- A refused value and a register that cannot be written: ILLEGAL, with its reason (R132, R223, R358). -/
theorem csrUpdate_refused {i : Instr} {f : Word → Word → Word} {n : BitVec 12} {a c : Reg} {s : State} {old : Word} {r : Nat}
    (hi : csrForm i = some (n, a, c, f)) (h : mayIssue { rs := [a], ws := [c] } s = true) (hp : n.toNat < 0x0C0 ∨ s.me.dom = 0)
    (ho : csrValue s n.toNat = some old)
    (hw : s.cleared.csrWrite n.toNat (f old (s.me.rd a)) = .bad ∧ r = 3 ∨ s.cleared.csrWrite n.toNat (f old (s.me.rd a)) = .readOnly ∧ r = 5) :
    traps i s 0x01 0 (BitVec.ofNat 64 r) := by
  rw [traps, exec_csrForm hi]
  refine issue_traps h (mayIssue_branches h rfl) ?_
  simp only [csrPriv_passes hp, csrRead_eq, csrValue_cleared, State.cleared_rd, ho]
  rcases hw with ⟨hw, rfl⟩ | ⟨hw, rfl⟩
  · simp only [hw]
    rfl
  · simp only [hw]
    rfl

/-! ## XAREA (R223) -/

/-- SIZE of XAREA among its writable bits. -/
theorem xarea_size (w : Word) : fld (w &&& 0x000FFFFF0007FFC0) 32 20 = w.toNat / 2 ^ 32 % 2 ^ 20 := by
  have mask : (0x000FFFFF0007FFC0 >>> 32) % 2 ^ 20 = 2 ^ 20 - 1 := by decide
  rw [fld, BitVec.toNat_and, Nat.shiftRight_and_distrib, Nat.and_mod_two_pow]
  change _ &&& ((0x000FFFFF0007FFC0 >>> 32) % 2 ^ 20) = _
  rw [mask, Nat.and_two_pow_sub_one_eq_mod, Nat.mod_mod, Nat.shiftRight_eq_div_pow]

/-- OFF of XAREA among its writable bits: its low six bits read 0. -/
theorem xarea_off (w : Word) : fld (w &&& 0x000FFFFF0007FFC0) 0 19 = w.toNat / 2 ^ 6 % 2 ^ 13 * 64 := by
  have mask : 0x000FFFFF0007FFC0 % 2 ^ 19 = (2 ^ 13 - 1) <<< 6 := by decide
  rw [fld_low, BitVec.toNat_and, Nat.and_mod_two_pow]
  change w.toNat % 2 ^ 19 &&& (0x000FFFFF0007FFC0 % 2 ^ 19) = _
  rw [mask, ← Nat.shiftRight_eq_div_pow]
  change _ = (w.toNat >>> 6) % 2 ^ 13 * 2 ^ 6
  rw [← Nat.shiftLeft_eq]
  refine Nat.eq_of_testBit_eq (fun i => ?_)
  rw [Nat.testBit_and, Nat.testBit_mod_two_pow, Nat.testBit_shiftLeft, Nat.testBit_two_pow_sub_one, Nat.testBit_shiftLeft, Nat.testBit_mod_two_pow,
    Nat.testBit_shiftRight]
  by_cases h6 : 6 ≤ i
  · rw [show 6 + (i - 6) = i by omega]
    by_cases h19 : i < 19
    · simp [h6, h19, show i - 6 < 13 by omega]
    · simp [h19, show ¬ i - 6 < 13 by omega]
  · simp [h6]

theorem xareaOk_iff (w : Word) : xareaOk (w &&& 0x000FFFFF0007FFC0) = true ↔
    w.toNat / 2 ^ 32 % 2 ^ 20 % 64 = 0 ∧ w.toNat / 2 ^ 6 % 2 ^ 13 * 64 + w.toNat / 2 ^ 32 % 2 ^ 20 ≤ 0x80000 := by
  rw [xareaOk, xarea_size, xarea_off, Bool.and_eq_true, beq_iff_eq, decide_eq_true_iff, Config.coreBytes]

end Sys2Proof.Machine

namespace Sys2Proof.Proofs

open Sys2Proof Sys2Proof.Machine Sys2Proof.Safety

/-- Settles O27: what CSRR reads is the table's value, which the end of a wait does not change. -/
theorem controlRegisterReads : Obligations.ControlRegisterReads := by
  unfold Obligations.ControlRegisterReads
  exact ⟨fun s d n v hv hp h => csrr_reads h hp hv, fun s d n hv hp hb h => csrr_illegal h hp hb hv⟩

/-- Settles O28: what a write comes to is decided by its number alone but for XAREA, and every accepted write ends alike. -/
theorem controlRegisterWrites : Obligations.ControlRegisterWrites := by
  unfold Obligations.ControlRegisterWrites
  refine ⟨fun i n a c f m old s hi hm h hp ho => ?_, fun i n a c f old s hi hn h ho => ?_, fun i n a c f s hi ho hp h => ?_, fun i a c f s hi h hx => ?_,
    fun i a c f s hi h hsize hfit => ?_, fun i n a c f s hi hn h hd => ?_⟩
  · obtain ⟨t, hw, hv, keeps, hix, hre⟩ := csrWrite_writable (s := s.cleared) (f old (s.me.rd a)) hm ((csrValue_cleared s _).trans ho)
    obtain ⟨u, hu, done⟩ := csrUpdate_done h hp ho hw keeps
    have number : (n.toNat = 0x080) ↔ (n = 0x080) := BitVec.toNat_inj (y := (0x080 : BitVec 12))
    simp only [number] at hv
    exact ⟨u, (exec_csrForm hi s).trans hu, (done.shows _).trans hv, done.taken, done.keep, done.vectors, done.mem, done.after, done.others,
      done.remapix.trans hix, done.remap.trans hre⟩
  · obtain ⟨hw, hlow⟩ := csrWrite_readOnly s.cleared (f old (s.me.rd a)) hn
    exact csrUpdate_refused hi h (.inl hlow) ho (.inr ⟨hw, rfl⟩)
  · exact csrUpdate_unnamed hi h hp ho
  · refine csrUpdate_refused (r := 3) hi h (.inl (by decide)) rfl (.inl ⟨?_, rfl⟩)
    have refused : xareaOk (f s.mine.xarea (s.me.rd a) &&& 0x000FFFFF0007FFC0) = false := by
      rw [Bool.eq_false_iff, ne_eq, xareaOk_iff]
      omega
    exact if_neg (Bool.not_eq_true _ ▸ refused)
  · have accepted : xareaOk (f s.mine.xarea (s.me.rd a) &&& 0x000FFFFF0007FFC0) = true := (xareaOk_iff _).mpr ⟨hsize, hfit⟩
    obtain ⟨u, hu, done⟩ := csrUpdate_done (n := 0x052) (f := f) h (.inl (by decide)) rfl (if_pos accepted) (csrKeeps_onMine _ (fun _ => rfl))
    refine ⟨u, (exec_csrForm hi s).trans hu, ?_, done.taken, done.keep, done.mem, ?_, done.after⟩
    · rw [done.area, State.mine_onMine]
    · rw [done.areaNow, State.mine_onMine, State.cleared_mine, Core.setSlot_xareaNow]
  · rcases hn with rfl | rfl
    · obtain ⟨u, hu, done⟩ := csrUpdate_done (n := 0x0D0) (f := f) (c := c) h (.inr hd) rfl rfl ⟨rfl, rfl, fun _ _ => rfl, _, _, _, _, rfl⟩
      exact ⟨u, (exec_csrForm hi s).trans hu, done.taken, done.keep, fun _ => ⟨done.remapix, done.remap⟩, fun h => absurd h (by decide)⟩
    · obtain ⟨u, hu, done⟩ := csrUpdate_done (n := 0x0D1) (f := f) (c := c) h (.inr hd) rfl rfl ⟨rfl, rfl, fun _ _ => rfl, _, _, _, _, rfl⟩
      refine ⟨u, (exec_csrForm hi s).trans hu, done.taken, done.keep, fun h => absurd h (by decide), fun _ => ⟨?_, done.remapix⟩⟩
      rw [done.remap]
      exact tget_tset _ _ _ _

end Sys2Proof.Proofs
end

section
/-! PROOFS. The thread's field instructions at issue (R277 to R283, R292, R396). -/

namespace Sys2Proof.Machine

open Sys2Proof Sys2Proof.Safety

/-! ## Fields of a core -/

/-- The end of a wait changes no field of the core. -/
theorem State.cleared_field? (s : State) (id : Nat) : s.cleared.mine.field? id = s.mine.field? id := by
  rw [State.cleared_mine]
  rfl

theorem Core.field?_tset {k : Core} {id : Nat} {f : Field} {l : Tbl Field} (h : k.fields = tset l id f) : k.field? id = some f := by
  rw [Core.field?, h, find_tset, if_pos rfl]
  rfl

/-- A change of the fields with an id changes the field that the id names. -/
theorem find?_update (l : Tbl Field) (id : Nat) (g : Field → Field) :
    (l.map (fun p => if p.1 = id then (p.1, g p.2) else p)).find? (fun p => p.1 == id) = (l.find? (fun p => p.1 == id)).map (fun p => (p.1, g p.2)) := by
  induction l with
  | nil => rfl
  | cons p r ih =>
    rw [List.map_cons]
    by_cases h : p.1 = id
    · rw [if_pos h, List.find?_cons_of_pos (by simp [h]), List.find?_cons_of_pos (by simp [h])]
      rfl
    · rw [if_neg h, List.find?_cons_of_neg (by simp [h]), List.find?_cons_of_neg (by simp [h]), ih]

theorem State.onField_core (s : State) (c id : Nat) (g : Field → Field) :
    (s.onField c id g).core c = { s.core c with fields := (s.core c).fields.map (fun p => if p.1 = id then (p.1, g p.2) else p) } :=
  State.core_onCore _ _ _

theorem State.onField_field? {s : State} {c id : Nat} {f : Field} (g : Field → Field) (h : (s.core c).field? id = some f) :
    ((s.onField c id g).core c).field? id = some (g f) := by
  obtain ⟨p, hp, rfl⟩ := Option.map_eq_some_iff.mp h
  rw [State.onField_core, Core.field?, find?_update, hp]
  rfl

/-! ## Commands for the Herder (R277, R278) -/

/-- A command for the Herder enters its queue whatever fence stands (R13). -/
theorem enter_herder {s : State} (h : (tget s.mine.queue 3 []).length < 2) (i : Instr) (args : List Word) :
    enter 3 i args s.cleared = .done (s.cleared.putCmd 3 i args) := by
  have room : ¬ Config.queueDepth ≤ (tget s.cleared.mine.queue 3 []).length := by
    rw [State.cleared_mine, Core.setSlot_queue]
    exact Nat.not_le.mpr h
  rw [enter, if_neg (by simp), if_neg room]

/-- FLDRUN, FLDHOLD and FLDDROP are one operation. -/
theorem exec_fieldCmd {i : Instr} {a : Reg} {rs : List Reg}
    (h : (∃ b, (i = .fldrun a b ∨ i = .fldhold a b) ∧ rs = [a, b]) ∨ (i = .flddrop a ∧ rs = [a])) :
    ∃ r, rs = a :: r ∧ ∀ s, exec i s = fieldCmd i a r s := by
  rcases h with ⟨b, rfl | rfl, rfl⟩ | ⟨rfl, rfl⟩
  · exact ⟨[b], rfl, fun _ => rfl⟩
  · exact ⟨[b], rfl, fun _ => rfl⟩
  · exact ⟨[], rfl, fun _ => rfl⟩

theorem fieldCmd_enters {s : State} {i : Instr} {a : Reg} {r : List Reg} {f : Field} (h : mayIssue { rs := a :: r, who := .threads } s = true)
    (hq : (tget s.mine.queue 3 []).length < 2) (hf : s.mine.field? (s.me.rd a).toNat = some f) :
    ∃ u, fieldCmd i a r s = .next u ∧ entered s u 3 i ((a :: r).map s.me.rd) ∧ leftAs s u s.nextPc := by
  refine issue_puts h ?_ rfl
  simp only [State.cleared_field?, State.cleared_rd, hf]
  exact enter_herder hq i _

/-- FIELD with reason 0 names the id of a field that is not defined (R396). -/
theorem fieldInfo_undefined (n : Nat) : fieldInfo 0 (n % 4) 0 0 0 0 = BitVec.ofNat 64 (n % 4 * 2 ^ 4) := by simp [fieldInfo]

theorem fieldCmd_undefined {s : State} {i : Instr} {a : Reg} {r : List Reg} (h : mayIssue { rs := a :: r, who := .threads } s = true)
    (hf : s.mine.field? (s.me.rd a).toNat = none) :
    fieldCmd i a r s = .next (s.issueTrap 0x13 0 (BitVec.ofNat 64 ((s.me.rd a).toNat % 4 * 2 ^ 4))) := by
  refine issue_traps h (mayIssue_branches h rfl) ?_
  simp only [State.cleared_field?, State.cleared_rd, hf, Act.field, fieldInfo_undefined]

/-- FLDSNAP to a place of its own (R292). -/
theorem fldsnap_enters {s : State} {a b c : Reg} {f : Field} (h : mayIssue { rs := [a, b, c], who := .threads } s = true)
    (hq : (tget s.mine.queue 3 []).length < 2) (hf : s.mine.field? (s.me.rd a).toNat = some f) (hc : (s.me.rd c).toNat % 64 = 0) :
    ∃ u, exec (.fldsnap a b (some c)) s = .next u ∧
      entered s u 3 (.fldsnap a b (some c)) [s.me.rd a, BitVec.ofNat 64 ((s.me.rd b).toNat % 2 ^ 32), s.me.rd c] ∧ leftAs s u s.nextPc := by
  have hx : exec (.fldsnap a b (some c)) s = execFldsnap a b (some c) s := rfl
  rw [hx]
  refine issue_puts h ?_ rfl
  simp only [State.cleared_field?, State.cleared_rd, hf, aligned, hc, fld_low, Option.isNone_some, Bool.false_and, Bool.false_or, beq_self_eq_true,
    Bool.not_true, Bool.false_eq_true, if_false]
  exact enter_herder hq _ _

theorem fldsnap_undefined {s : State} {a b : Reg} (h : mayIssue { rs := [a, b], who := .threads } s = true)
    (hf : s.mine.field? (s.me.rd a).toNat = none) :
    exec (.fldsnap a b none) s = .next (s.issueTrap 0x13 0 (BitVec.ofNat 64 ((s.me.rd a).toNat % 4 * 2 ^ 4))) := by
  have hx : exec (.fldsnap a b none) s = execFldsnap a b none s := rfl
  rw [hx]
  refine issue_traps h (mayIssue_branches h rfl) ?_
  simp only [State.cleared_field?, State.cleared_rd, hf, Act.field, fieldInfo_undefined]

/-- FLDSTAT reads the field as it stands (R282). -/
theorem fldstat_reads {s : State} {d b : Reg} (h : mayIssue { rs := [b], ws := [d], late := false, who := .threads } s = true) :
    ∃ u, exec (.fldstat d b) s = .next u ∧
      wroteReg s u d (match s.mine.field? (s.me.rd b).toNat with | some f => fieldWord f (s.liveAt1 f) | none => 0) := by
  have hx : exec (.fldstat d b) s = execFldstat d b s := rfl
  rw [hx]
  refine issue_writes h rfl ?_
  rw [State.cleared_onMe, State.cleared_onMe, State.cleared_field?]
  rfl

/-! ## FRET (R129, R284) -/

/-- The state in which the routine of a field's site l has returned: its site has taken g2, and slot 11 is Free. -/
def State.returned (s : State) (id l : Nat) (f : Field) : State :=
  (((s.writeAt (.plain (coreKey s.cur.core (fPATCH f.desc + l * fW f.desc))) (bytesOf (fW f.desc) (s.me.rd 2).toNat)).onField s.cur.core id
    (fun f => { f with stage := .sites })).onMe (fun x => { x with icount := x.icount + 1 })).freeSlot s.cur.core 11

theorem State.returned_mem (s : State) (id l : Nat) (f : Field) : (s.returned id l f).mem =
    Memory.writeBytes s.mem (coreKey s.cur.core (fPATCH f.desc + l * fW f.desc)) (bytesOf (fW f.desc) (s.me.rd 2).toNat) := by
  rw [State.returned, State.freeSlot_mem]
  exact State.writeAt_mem _ _ _

theorem State.writeAt_cur (s : State) (p : Place) (bs : List Byte) : (s.writeAt p bs).cur = s.cur := by
  unfold State.writeAt
  dsimp only
  split
  · rfl
  · rfl

theorem State.freeSlot_cur (s : State) (c t : Nat) : (s.freeSlot c t).cur = s.cur := by
  unfold State.freeSlot
  dsimp only
  split
  · rfl
  · rfl

/-- FRET once the routine's accesses and vector commands are done. -/
theorem fret_returns {s : State} {id l : Nat} {f : Field} (h : mayIssue { who := .sweep } s = true)
    (hr : s.mine.fields.findSome? (fun p => match p.2.stage with | .routine l => some (p.1, p.2, l) | _ => none) = some (id, f, l))
    (hp : s.me.pend = 0) (ha : s.me.acc = []) (hv : ∀ m ∈ s.mine.cmds 1, m.slot ≠ 11) :
    exec .fret s = .next (s.cleared.returned id l f) ∧ (s.cleared.returned id l f).me.mode = .free := by
  have slot11 : s.cur.slot = 11 := by
    simp only [mayIssue, Bool.and_eq_true] at h
    obtain ⟨⟨⟨⟨who, -⟩, -⟩, -⟩, -⟩ := h
    simpa [Who.allows] using who
  have fields : s.cleared.mine.fields = s.mine.fields := by rw [State.cleared_mine, Core.setSlot_fields]
  have drained : (s.cleared.me.pend != 0 || !s.cleared.me.acc.isEmpty || (s.cleared.mine.cmds 1).any (fun m => m.slot == 11)) = false := by
    have cmds : (s.mine.cmds 1).any (fun m => m.slot == 11) = false := List.any_eq_false.mpr (fun m hm => by simpa using hv m hm)
    rw [State.cleared_me, hp, ha, State.cleared_mine]
    exact cmds
  have hx : exec .fret s = execFret s := rfl
  rw [hx]
  refine ⟨issue_stay h ?_, ?_⟩
  · dsimp only
    split
    · next none_ => cases (none_.symm.trans (congrArg _ fields)).trans hr
    · next some_ =>
      cases (some_.symm.trans (congrArg _ fields)).trans hr
      rw [if_neg (by rw [drained]; exact Bool.false_ne_true)]
      rfl
  · have place : (s.cleared.returned id l f).cur = s.cur := (State.freeSlot_cur _ _ _).trans (State.writeAt_cur _ _ _)
    rw [State.me, place, slot11, State.returned, State.cleared_cur, State.freeSlot_slot]
    rfl

end Sys2Proof.Machine
end

section
/-! PROOFS. FLDDEF (R273, R279, R293, R296). -/

namespace Sys2Proof.Machine

open Sys2Proof Sys2Proof.Safety

/-! ## Couplings copied (R296) -/

theorem EngRes.bind_ok {α β : Type} {r : EngRes α} {f : α → EngRes β} {b : β} (h : r.bind f = .ok b) : ∃ a, r = .ok a ∧ f a = .ok b := by
  cases r with
  | ok a => exact ⟨a, rfl, h⟩
  | wait => cases h
  | park o q => cases h
  | miss v w => cases h
  | port p => cases h
  | deny t v a d => cases h

/-- The machine's position and every core stand as they were. -/
def State.SameCores (s t : State) : Prop := t.cur = s.cur ∧ ∀ d, t.core d = s.core d

theorem State.sameCores_writeAt (s : State) (p : Place) (bs : List Byte) : s.SameCores (s.writeAt p bs) :=
  ⟨s.writeAt_cur p bs, s.writeAt_core p bs⟩

theorem State.SameCores.trans {s t u : State} (h : s.SameCores t) (h' : t.SameCores u) : s.SameCores u :=
  ⟨h'.1.trans h.1, fun d => (h'.2 d).trans (h.2 d)⟩

theorem State.sameCores_foldl {α : Type} {F : State → α → State} (hF : ∀ (s : State) a, s.SameCores (F s a)) (l : List α) (s : State) : s.SameCores (l.foldl F s) := by
  induction l generalizing s with
  | nil => exact ⟨rfl, fun _ => rfl⟩
  | cons a r ih => exact (hF s a).trans (ih (F s a))

/-- What the Herder copies of a coupling table goes to core memory alone. -/
theorem State.sameCores_copyRecords {s t : State} {c : Nat} {g : Agent} {base : Word} {size buf : Nat} {l : List (Nat × Nat)}
    (h : s.copyRecords c g base size buf l = .ok t) : s.SameCores t := by
  induction l generalizing t with
  | nil =>
    cases h
    exact ⟨rfl, fun _ => rfl⟩
  | cons q r ih =>
    obtain ⟨b, -, rest⟩ := EngRes.bind_ok h
    obtain ⟨w, hw, put⟩ := EngRes.bind_ok rest
    cases put
    exact (ih hw).trans (w.sameCores_writeAt _ _)

theorem State.sameCores_coupleCopy {s t : State} {c : Nat} {g : Agent} {d : List Word} {live1 : Bool} (h : s.coupleCopy c g d live1 = .ok t) :
    s.SameCores t := State.sameCores_copyRecords h

theorem State.sameCores_clearHalo (s : State) (c : Nat) (d : List Word) : s.SameCores (s.clearHalo c d) := by
  unfold State.clearHalo
  split
  · exact s.sameCores_writeAt _ _
  · refine State.sameCores_foldl (fun t i => ?_) _ s
    split
    · exact ⟨rfl, fun _ => rfl⟩
    · exact t.sameCores_writeAt _ _

/-- The part of FLDDEF that reads the coupling objects writes core memory alone. -/
theorem State.sameCores_couple {s w : State} {c : Nat} {g : Agent} {d : List Word} {keys : List Nat} {live1 : Bool}
    (h : s.couple c g d = .ok (w, keys, live1)) : s.SameCores w := by
  obtain ⟨k0, -, h0⟩ := EngRes.bind_ok h
  obtain ⟨k1, -, h1⟩ := EngRes.bind_ok h0
  split at h1
  · cases h1
  · obtain ⟨t, copied, last⟩ := EngRes.bind_ok h1
    cases last
    exact (s.sameCores_clearHalo c d).trans (State.sameCores_coupleCopy copied)

/-! ## What FLDDEF checks (R272, R273) -/

theorem State.cleared_startHeld (s : State) : s.cleared.startHeld s.cleared.me = s.startHeld s.me := by
  simp only [State.startHeld, State.cleared_me, State.cleared_mine, Core.setSlot_slots]
  congr 1
  funext q
  exact any_tset (fun y : Slot => y.acc.any (fun a => a.id == q.2)) _ _ _ Slot.reset rfl rfl

theorem State.cleared_fieldReach (s : State) (dom : BitVec 6) (off : Nat) (d : List Word) :
    s.cleared.fieldReach s.cur.core dom off d = s.fieldReach s.cur.core dom off d := by
  simp only [State.fieldReach, State.cleared_foreign]

/-- The end of a wait changes of every core its slots alone. -/
theorem State.cleared_tables (s : State) (e : Nat) : ∃ l, s.cleared.core e = { s.core e with slots := l } := by
  rw [State.cleared_core]
  split
  · next h => exact ⟨_, by subst h; rfl⟩
  · exact ⟨_, rfl⟩

theorem State.cleared_memberOf (s : State) (e ch : Nat) : (s.cleared.core e).member ch = (s.core e).member ch := by
  obtain ⟨l, hl⟩ := s.cleared_tables e
  rw [hl]
  rfl

theorem State.cleared_halo (s : State) (c : Nat) (d : List Word) : s.cleared.halo c d = s.halo c d := by
  obtain ⟨l, hl⟩ := s.cleared_tables c
  rw [State.halo, State.jobOf, hl]
  rfl

theorem State.cleared_descPlace (s : State) (c : Nat) (d : List Word) : s.cleared.descPlace c d = s.descPlace c d := by
  obtain ⟨l, hl⟩ := s.cleared_tables c
  simp only [State.descPlace, State.cleared_memberOf, State.cleared_halo, hl]
  rfl

theorem State.cleared_descRanges (s : State) (d : List Word) : descRanges s.cleared.mine d = descRanges s.mine d := by
  rw [State.cleared_mine]
  rfl

theorem find?_lowest {l : List Nat} {n id : Nat} (hid : id < n) (hn : id ∉ l) (hl : ∀ j, j < id → j ∈ l) :
    (List.range n).find? (fun i => !l.contains i) = some id := by
  rw [List.find?_range_eq_some]
  exact ⟨by simpa using hn, List.mem_range.mpr hid, fun j hj => by simpa using hl j hj⟩

/-- The field that FLDDEF puts into the core's table (R279). -/
def State.newField (s : State) (desc : List Word) (keys : List Nat) (live1 : Bool) : Field :=
  { desc := desc, slot := s.cur.slot, dom := s.me.dom, asid := s.me.asid, key := s.me.key, codebase := s.me.codebase, codelim := s.me.codelim, next := 0,
    colour := 0, todo := [], e := 0xFFFFFFFF, run := false, stage := .stopped, asked := false, live1 := live1, cts := keys, walk := Walk.none,
    fault := none, failed := false }

/-- The state w of a definition's coupling part once the field f is in the core's table and its id in register d. -/
def State.defines (w : State) (d : Reg) (id : Nat) (f : Field) : State :=
  (w.onMine (fun k => { k with fields := tset k.fields id f })).onMe (fun x => x.wr d (BitVec.ofNat 64 id))

theorem State.defines_field? (w : State) (d : Reg) (id : Nat) (f : Field) (n : Need) (pc : Word) :
    ((w.defines d id f).retire n pc).mine.field? id = some f := by
  refine Core.field?_tset (l := w.mine.fields) ?_
  rw [State.retire_setMe, State.mine_setMe, Core.setSlot_fields, State.defines, State.onMe_def, State.mine_setMe, Core.setSlot_fields, State.mine_onMine]

theorem State.defines_me (w : State) (d : Reg) (id : Nat) (f : Field) : (w.defines d id f).me = w.me.wr d (BitVec.ofNat 64 id) := by
  have kept : (w.onMine (fun k => { k with fields := tset k.fields id f })).me = w.me := State.me_onMine rfl
  rw [State.defines, State.me_onMe, kept]

/-- FLDDEF of a descriptor that every check passes, with its couplings read (R279). -/
theorem flddef_defines {s w : State} {d b : Reg} {id off : Nat} {desc : List Word} {keys : List Nat} {live1 : Bool}
    (h : mayIssue { rs := [b], ws := [d], who := .threads } s = true) (ha : s.me.acc = []) (hs : s.startHeld s.me = false)
    (free : (List.range 4).find? (fun i => !(tkeys s.mine.fields).contains i) = some id) (hsp : spaceOf (s.me.rd b) = .self off) (hoff : off % 64 = 0)
    (hfit : off + 128 ≤ 0x80000) (hd : desc = (List.range 16).map (fun i => s.coreWord s.cur.core (off + 8 * i)))
    (passes : (s.fieldReach s.cur.core s.me.dom off desc && descReserved desc && descShape desc && descColours desc && descRanges s.mine desc &&
      s.descPlace s.cur.core desc &&
      decide (s.me.codebase.toNat ≤ (fENTRY desc).toNat ∧ (fENTRY desc).toNat < s.me.codelim.toNat)) = true)
    (hcl : clash desc = none) (hc : s.cleared.couple s.cur.core (s.cleared.slotAgent s.cur.core s.cur.slot) desc = .ok (w, keys, live1)) :
    execFlddef d b s =
      .next ((w.defines d id (s.newField desc keys live1)).retire { rs := [b], ws := [d], who := .threads } s.nextPc) := by
  unfold execFlddef
  refine issue_done h ?_
  have idle : (!s.cleared.me.acc.isEmpty || s.cleared.startHeld s.cleared.me) = false := by
    rw [State.cleared_startHeld, hs, State.cleared_me, ha]
    rfl
  have fields : s.cleared.mine.fields = s.mine.fields := by rw [State.cleared_mine, Core.setSlot_fields]
  have words : (List.range 16).map (fun i => s.cleared.coreWord s.cur.core (off + 8 * i)) = desc := hd.symm
  have dom : s.cleared.me.dom = s.me.dom := by rw [State.cleared_me]
  have base : s.cleared.me.codebase = s.me.codebase := by rw [State.cleared_me]
  have asid : s.cleared.me.asid = s.me.asid := by rw [State.cleared_me]
  have key : s.cleared.me.key = s.me.key := by rw [State.cleared_me]
  have lim : s.cleared.me.codelim = s.me.codelim := by rw [State.cleared_me]
  have inside : ¬ (off % 64 ≠ 0 ∨ Config.coreBytes < off + 128) := by
    rw [Config.coreBytes]
    omega
  simp only [idle, fields, free, State.cleared_rd, hsp, inside, State.cleared_cur, words, dom, asid, key, base, lim, State.cleared_fieldReach, State.cleared_descRanges,
    State.cleared_descPlace, passes, hcl, hc, Bool.false_eq_true, if_false, Bool.not_true]
  rfl

/-- What a definition leaves: its id in register d, every other register, and the memory of its coupling part. -/
theorem State.defines_leaves {s w : State} (hw : s.cleared.SameCores w) (d : Reg) (id : Nat) (f : Field) (n : Need) (pc : Word) :
    ((w.defines d id f).retire n pc).mem = w.mem ∧ ((w.defines d id f).retire n pc).me.rd d = written d (BitVec.ofNat 64 id) ∧
      othersKeep s ((w.defines d id f).retire n pc) d := by
  obtain ⟨cur, cores⟩ := hw
  have me : w.me = { s.me with park := none } := by rw [State.me, State.slot, cur, cores, ← s.cleared_me, State.me, State.slot]
  refine ⟨rfl, ?_, fun r hr => ?_⟩
  · rw [State.retire_me, Slot.rd_congr (Slot.retired_g _ _ _ _ _), State.defines_me, Slot.rd_wr]
  · rw [State.retire_me, Slot.rd_congr (Slot.retired_g _ _ _ _ _), State.defines_me, Slot.rd_wr_ne _ _ _ _ hr, me]
    rfl

end Sys2Proof.Machine
end

section
/-! PROOFS. The Herder's steps: site routines, sweeps, half-steps and snapshots (R284, R287, R288, R292, R296). -/

namespace Sys2Proof.Machine

open Sys2Proof Sys2Proof.Safety

/-! ## Registers of a site routine (R287, R288) -/

theorem Slot.rd_foldl_wr {α : Type} {F : Slot → α → Slot} {r : Reg} (l : List α) (hF : ∀ a ∈ l, ∀ x, (F x a).rd r = x.rd r) (x : Slot) :
    (l.foldl F x).rd r = x.rd r := by
  induction l generalizing x with
  | nil => rfl
  | cons a l ih =>
    rw [List.foldl_cons, ih (fun b hb => hF b (List.mem_cons_of_mem a hb)), hF a List.mem_cons_self]

theorem fNeighbours_length (d : List Word) (p : Nat × Nat × Nat) : (fNeighbours d p).length ≤ 8 := by
  rw [fNeighbours, List.length_map, fOffsets]
  split
  · decide
  · split <;> decide

/-- The values of the neighbours go to g3 to g10 alone. -/
theorem neighbour_reg {j : Nat} {r : Reg} (hj : j < 8) (hr : r.toNat < 3 ∨ 11 ≤ r.toNat) : r ≠ BitVec.ofNat 5 (3 + j) := by
  intro h
  rw [h, BitVec.toNat_ofNat, Nat.mod_eq_of_lt (by omega)] at hr
  omega

/-- What a change of general registers alone leaves. -/
def Slot.OnlyG (x y : Slot) : Prop := y = { x with g := y.g }

theorem Slot.onlyG_wr (x : Slot) (r : Reg) (v : Word) : x.OnlyG (x.wr r v) := x.wr_file r v

theorem Slot.OnlyG.trans {x y z : Slot} (h : x.OnlyG y) (h' : y.OnlyG z) : x.OnlyG z := by
  rw [Slot.OnlyG] at h h' ⊢
  rw [h', h]

theorem Slot.onlyG_foldl {α : Type} {F : Slot → α → Slot} (hF : ∀ x a, Slot.OnlyG x (F x a)) (l : List α) (x : Slot) : x.OnlyG (l.foldl F x) := by
  induction l generalizing x with
  | nil => rfl
  | cons a l ih => exact (hF x a).trans (ih (F x a))

/-- The slot with the values of a site's neighbours in g3 to g10. -/
def State.neighbourRegs (s : State) (c : Nat) (d : List Word) (nb : List (Option (Nat × Nat × Nat))) (x : Slot) : Slot :=
  (List.range nb.length).foldl (fun x j => match nb.getD j none with
    | some q => x.wr (BitVec.ofNat 5 (3 + j)) (s.siteVal c d q)
    | none => x) x

theorem State.neighbourRegs_rd {s : State} {c : Nat} {d : List Word} {nb : List (Option (Nat × Nat × Nat))} {x : Slot} {r : Reg} (hn : nb.length ≤ 8)
    (hr : r.toNat < 3 ∨ 11 ≤ r.toNat) : (s.neighbourRegs c d nb x).rd r = x.rd r := by
  refine Slot.rd_foldl_wr _ (fun j hj x => ?_) x
  have low : j < 8 := Nat.lt_of_lt_of_le (List.mem_range.mp hj) hn
  split
  · exact Slot.rd_wr_ne _ _ _ _ (neighbour_reg low hr)
  · rfl

theorem State.neighbourRegs_onlyG (s : State) (c : Nat) (d : List Word) (nb : List (Option (Nat × Nat × Nat))) (x : Slot) :
    x.OnlyG (s.neighbourRegs c d nb x) := by
  refine Slot.onlyG_foldl (fun x j => ?_) _ x
  split
  · exact x.onlyG_wr _ _
  · rfl

section
variable (s : State) (c : Nat) (f : Field) (l : Nat) (x : Slot)

theorem State.routineRegs_eq : s.routineRegs c f l x =
    (((((s.neighbourRegs c f.desc (fNeighbours f.desc (fCoord f.desc c l)) ((x.wr 1 (BitVec.ofNat 64 (fGlobal f.desc (fCoord f.desc c l)))).wr 2
      (s.siteVal c f.desc (fCoord f.desc c l)))).wr 11 (BitVec.ofNat 64 ((fNeighbours f.desc (fCoord f.desc c l)).filter (·.isSome)).length)).wr 12
      (fieldDraw f.desc f.next (fGlobal f.desc (fCoord f.desc c l)))).wr 13
      (selfAddr (fCBUF f.desc + (if fCMODE f.desc then 0 else l * fRECSZ f.desc)))).wr 14 (BitVec.ofNat 64 f.next)).wr 15 (BitVec.ofNat 64 f.colour) := rfl

theorem State.routineRegs_onlyG : x.OnlyG (s.routineRegs c f l x) := by
  rw [State.routineRegs_eq]
  exact ((((((((x.onlyG_wr _ _).trans (Slot.onlyG_wr _ _ _)).trans (s.neighbourRegs_onlyG _ _ _ _)).trans (Slot.onlyG_wr _ _ _)).trans
    (Slot.onlyG_wr _ _ _)).trans (Slot.onlyG_wr _ _ _)).trans (Slot.onlyG_wr _ _ _)).trans (Slot.onlyG_wr _ _ _))

/-- What a routine finds in its registers beside its neighbours' values (R287). -/
theorem State.routineRegs_rd :
    (s.routineRegs c f l x).rd 1 = BitVec.ofNat 64 (fGlobal f.desc (fCoord f.desc c l)) ∧
    (s.routineRegs c f l x).rd 2 = s.siteVal c f.desc (fCoord f.desc c l) ∧
    (s.routineRegs c f l x).rd 11 = BitVec.ofNat 64 ((fNeighbours f.desc (fCoord f.desc c l)).filter (·.isSome)).length ∧
    (s.routineRegs c f l x).rd 12 = fieldDraw f.desc f.next (fGlobal f.desc (fCoord f.desc c l)) ∧
    (s.routineRegs c f l x).rd 14 = BitVec.ofNat 64 f.next ∧ (s.routineRegs c f l x).rd 15 = BitVec.ofNat 64 f.colour ∧
    (∀ q : Reg, 16 ≤ q.toNat → (s.routineRegs c f l x).rd q = x.rd q) := by
  have few := fNeighbours_length f.desc (fCoord f.desc c l)
  rw [State.routineRegs_eq]
  refine ⟨?_, ?_, ?_, ?_, ?_, ?_, fun q hq => ?_⟩
  · rw [Slot.rd_wr_ne _ _ _ _ (by decide), Slot.rd_wr_ne _ _ _ _ (by decide), Slot.rd_wr_ne _ _ _ _ (by decide), Slot.rd_wr_ne _ _ _ _ (by decide),
      Slot.rd_wr_ne _ _ _ _ (by decide), State.neighbourRegs_rd few (.inl (by decide)), Slot.rd_wr_ne _ _ _ _ (by decide), Slot.rd_wr_same _ _ _ (by decide)]
  · rw [Slot.rd_wr_ne _ _ _ _ (by decide), Slot.rd_wr_ne _ _ _ _ (by decide), Slot.rd_wr_ne _ _ _ _ (by decide), Slot.rd_wr_ne _ _ _ _ (by decide),
      Slot.rd_wr_ne _ _ _ _ (by decide), State.neighbourRegs_rd few (.inl (by decide)), Slot.rd_wr_same _ _ _ (by decide)]
  · rw [Slot.rd_wr_ne _ _ _ _ (by decide), Slot.rd_wr_ne _ _ _ _ (by decide), Slot.rd_wr_ne _ _ _ _ (by decide), Slot.rd_wr_ne _ _ _ _ (by decide),
      Slot.rd_wr_same _ _ _ (by decide)]
  · rw [Slot.rd_wr_ne _ _ _ _ (by decide), Slot.rd_wr_ne _ _ _ _ (by decide), Slot.rd_wr_ne _ _ _ _ (by decide), Slot.rd_wr_same _ _ _ (by decide)]
  · rw [Slot.rd_wr_ne _ _ _ _ (by decide), Slot.rd_wr_same _ _ _ (by decide)]
  · exact Slot.rd_wr_same _ _ _ (by decide)
  · have apart (n : Reg) (hn : n.toNat < 16) : q ≠ n := by
      rintro rfl
      omega
    rw [Slot.rd_wr_ne _ _ _ _ (apart _ (by decide)), Slot.rd_wr_ne _ _ _ _ (apart _ (by decide)), Slot.rd_wr_ne _ _ _ _ (apart _ (by decide)),
      Slot.rd_wr_ne _ _ _ _ (apart _ (by decide)), Slot.rd_wr_ne _ _ _ _ (apart _ (by decide)), State.neighbourRegs_rd few (.inr (by omega)),
      Slot.rd_wr_ne _ _ _ _ (apart _ (by decide)), Slot.rd_wr_ne _ _ _ _ (apart _ (by decide))]

end

/-! ## SITE_ROUTINE_START (R287) -/

/-- Slot 11 before the registers of a field's routine are set. -/
def Slot.routine (x : Slot) (f : Field) : Slot :=
  { x.freed with
    mode := .live, pc := fENTRY f.desc, dom := f.dom, asid := f.asid, key := f.key, codebase := f.codebase, codelim := f.codelim, eff := fLEVEL f.desc }

theorem Slot.freed_vrd (x : Slot) (q : VReg) : x.freed.vrd q = 0 := by simp [Slot.vrd, Slot.freed, Slot.reset]

/-- The state in which field id stands in the routine of site l, with the sites r left. -/
def State.takesSite (s : State) (c id l : Nat) (r : List Nat) : State := s.onField c id (fun f => { f with todo := r, stage := .routine l })

/-- The state in which the routine of a field's next site l has started, with the sites r left. -/
def State.startsSite (s : State) (c id l : Nat) (f : Field) (r : List Nat) : State :=
  (s.takesSite c id l r).onSlot c 11 (fun x => (s.takesSite c id l r).routineRegs c f l (x.routine f))

theorem siteRoutineStart_starts {s : State} {c id l : Nat} {f : Field} {r : List Nat} (hf : (s.core c).field? id = some f) (ht : f.todo = l :: r)
    (hs : f.stage = .sites) (hn : f.failed = false) (free : (s.slot c 11).mode = .free) (hh : s.herds c = true) :
    exec (.siteRoutineStart c id) s = .next (s.startsSite c id l f r) := by
  have hx : exec (.siteRoutineStart c id) s = execSiteRoutineStart c id s := rfl
  rw [hx, execSiteRoutineStart]
  simp only [hf, ht]
  rw [if_pos ⟨hs, hn, free, hh⟩]
  rfl

theorem State.startsSite_slot (s : State) (c id l : Nat) (f : Field) (r : List Nat) : (s.startsSite c id l f r).slot c 11 =
    (s.takesSite c id l r).routineRegs c f l ((s.slot c 11).routine f) := by
  have kept : (s.takesSite c id l r).slot c 11 = s.slot c 11 := by
    rw [State.slot, State.takesSite, State.onField_core]
    rfl
  rw [State.startsSite, State.slot_onSlot, kept]

theorem State.startsSite_field? {s : State} {c id : Nat} {f : Field} (l : Nat) (r : List Nat) (hf : (s.core c).field? id = some f) :
    ((s.startsSite c id l f r).core c).field? id = some { f with todo := r, stage := .routine l } := by
  rw [State.startsSite, State.onSlot_def, State.setSlot_def, State.core_setCore]
  exact State.onField_field? _ hf

/-! ## HALF_STEP_ARRIVAL (R284) -/

/-- The state in which the Herder has arrived for a half-step whose sites are done. -/
def State.arrives (s : State) (c id : Nat) (f : Field) : State :=
  ((s.onField c id (fun f => { f with stage := .wait, todo := [] })).onCore c (fun k => k.countArrival (fCHAN f.desc))).enterArrival c (fCHAN f.desc)
    (if f.failed then 0 else BitVec.ofNat 32 f.e) false (some (digestOf f.desc))

theorem halfStepArrival_arrives {s : State} {c id : Nat} {f : Field} (hf : (s.core c).field? id = some f) (hs : f.stage = .sites) (ht : f.todo = [])
    (hh : s.herds c = true) : exec (.halfStepArrival c id) s = .next (s.arrives c id f) := by
  have hx : exec (.halfStepArrival c id) s = execHalfStepArrival c id s := rfl
  rw [hx, execHalfStepArrival]
  simp only [hf]
  rw [if_pos ⟨.inr ⟨hs, .inl ht⟩, hh⟩]
  rfl

theorem State.arrives_core (s : State) (c id : Nat) (f : Field) : (s.arrives c id f).core c =
    ((s.onField c id (fun f => { f with stage := .wait, todo := [] })).core c).countArrival (fCHAN f.desc) := by
  change ((s.onField c id _).onCore c (fun k => k.countArrival (fCHAN f.desc))).core c = _
  exact State.core_onCore _ _ _

theorem State.arrives_field? {s : State} {c id : Nat} {f : Field} (hf : (s.core c).field? id = some f) :
    ((s.arrives c id f).core c).field? id = some { f with stage := .wait, todo := [] } := by
  rw [State.arrives_core]
  exact State.onField_field? (fun f => { f with stage := .wait, todo := [] }) hf

theorem State.arrives_count (s : State) (c id : Nat) (f : Field) :
    (((s.arrives c id f).core c).chan (fCHAN f.desc)).ac = ((s.core c).chan (fCHAN f.desc)).ac + 1 := by
  rw [State.arrives_core, State.onField_core, Core.chan, Core.countArrival, Core.setChan]
  rw [tget_tset]
  rfl

/-! ## HERDER_SWEEP_START (R284, R296) -/

/-- The state in which a sweep's first half-step begins. -/
def State.sweeps (s : State) (c id : Nat) (live1 : Bool) : State :=
  s.onField c id (fun f => { f with live1 := live1, walk := Walk.none, colour := 0, todo := sitesOf f.desc c 0, stage := .sites })

theorem herderSweepStart_copied {s t : State} {c id : Nat} {f : Field} (hf : (s.core c).field? id = some f) (hs : f.stage = .sweep) (hq : f.asked = true)
    (hh : s.herds c = true) (ha : s.adoptedAt f = true) (hc : s.coupleCopy c (s.fieldAgent c id f) f.desc (!f.live1) = .ok t) :
    exec (.herderSweepStart c id) s = .next (t.sweeps c id (!f.live1)) := by
  have hx : exec (.herderSweepStart c id) s = execHerderSweepStart c id s := rfl
  rw [hx, execHerderSweepStart]
  simp only [hf]
  rw [if_pos ⟨hs, hq, hh⟩, if_pos ha, hc]
  rfl

theorem herderSweepStart_plain {s : State} {c id : Nat} {f : Field} (hf : (s.core c).field? id = some f) (hs : f.stage = .sweep) (hq : f.asked = true)
    (hh : s.herds c = true) (ha : s.adoptedAt f = false) : exec (.herderSweepStart c id) s = .next (s.sweeps c id f.live1) := by
  have hx : exec (.herderSweepStart c id) s = execHerderSweepStart c id s := rfl
  rw [hx, execHerderSweepStart]
  simp only [hf]
  rw [if_pos ⟨hs, hq, hh⟩, if_neg (by rw [ha]; exact Bool.false_ne_true)]
  rfl

theorem State.sweeps_field? {s : State} {c id : Nat} {f : Field} (live1 : Bool) (hf : (s.core c).field? id = some f) :
    ((s.sweeps c id live1).core c).field? id = some { f with live1 := live1, walk := Walk.none, colour := 0, todo := sitesOf f.desc c 0, stage := .sites } :=
  State.onField_field? _ hf

/-! ## SNAPSHOT_COPY (R292) -/

/-- The units of n bytes lie in them, in order. -/
theorem pieces_inside {fuel : Nat} {a : Word} {n : Nat} (h : a.toNat + n < 2 ^ 64) : ∀ u ∈ pieces fuel a n, a.toNat ≤ u.1.toNat ∧ u.1.toNat + u.2 ≤ a.toNat + n := by
  induction fuel generalizing a n with
  | zero => intro u hu; cases hu
  | succ fuel ih =>
    intro u hu
    unfold pieces at hu
    split at hu
    · cases hu
    · rcases List.mem_cons.mp hu with rfl | hu
      · dsimp only
        omega
      · have next : (a + BitVec.ofNat 64 (min n (64 - a.toNat % 64))).toNat = a.toNat + min n (64 - a.toNat % 64) := by
          rw [BitVec.toNat_add, BitVec.toNat_ofNat]
          omega
        have := ih (a := a + BitVec.ofNat 64 (min n (64 - a.toNat % 64))) (n := n - min n (64 - a.toNat % 64)) (by omega) u hu
        omega

/-- Bytes of a run without poison are without poison. -/
theorem State.poisoned_none {s : State} {k n j m : Nat} (h : s.poisoned k n = none) (hj : k ≤ j) (hm : j + m ≤ k + n) : s.poisoned j m = none := by
  unfold State.poisoned at h ⊢
  split
  · rfl
  · next hm0 =>
    rw [if_neg (by omega), Option.map_eq_none_iff, List.find?_eq_none] at h
    rw [Option.map_eq_none_iff, List.find?_eq_none]
    intro p hp hit
    have miss := h p hp
    simp only [decide_eq_true_eq] at hit miss
    have low : k / 64 ≤ j / 64 := Nat.div_le_div_right hj
    have high : (j + m - 1) / 64 ≤ (k + n - 1) / 64 := Nat.div_le_div_right (by omega)
    omega

theorem fld_lt (w : Word) (lo n : Nat) : fld w lo n < 2 ^ n := Nat.mod_lt _ (by positivity)

/-- A patch is smaller than the address space. -/
theorem fSites_le (d : List Word) : fSites d * fW d ≤ 2 ^ 49 := by
  have hx : fpx d ≤ 2 ^ 16 := by
    rw [fpx]
    split
    · exact Nat.zero_le _
    · exact (Nat.div_le_self _ _).trans (fld_lt _ 0 16).le
  have hy : fpy d ≤ 2 ^ 16 := by
    rw [fpy]
    split
    · exact Nat.zero_le _
    · exact (Nat.div_le_self _ _).trans (fld_lt _ 16 16).le
  have hz : fNZ d ≤ 2 ^ 16 := (fld_lt _ 32 16).le
  have hw : fW d ≤ 2 := by
    rw [fW]
    split <;> decide
  calc fSites d * fW d ≤ 2 ^ 16 * 2 ^ 16 * 2 ^ 16 * 2 := Nat.mul_le_mul (Nat.mul_le_mul (Nat.mul_le_mul hx hy) hz) hw
    _ = 2 ^ 49 := by norm_num

/-- A patch without poison does not refuse its snapshot (R292). -/
theorem State.snapFault_none {s : State} {c : Nat} {m : Cmd} {f : Field} (hf : (s.core c).field? (m.args.getD 0 0).toNat = some f)
    (hp : s.poisoned (coreKey c (fPATCH f.desc)) (fSites f.desc * fW f.desc) = none) : s.snapFault c m = none := by
  unfold State.snapFault
  rw [hf]
  dsimp only
  split
  · rw [List.findSome?_eq_none_iff]
    intro u hu
    have patch : fPATCH f.desc < 2 ^ 19 := fld_lt _ 0 19
    have size := fSites_le f.desc
    have place (n : Nat) (hn : n < 2 ^ 19) : (selfAddr n).toNat = 0x0F00000000000000 + n := by
      rw [selfAddr, Config.selfBase, BitVec.toNat_ofNat]
      omega
    have inside := pieces_inside (by rw [place _ patch]; omega) u hu
    rw [place _ patch] at inside
    have clean : s.poisoned (coreKey c (u.1.toNat - (selfAddr 0).toNat)) u.2 = none := by
      refine State.poisoned_none hp ?_ ?_ <;> rw [place 0 (by decide), coreKey, coreKey] <;> omega
    rw [clean]
    rfl
  · rfl

theorem snapshotCopy_copies {s w : State} {c : Nat} {m : Cmd} {f : Field}
    (hm : (tget (s.core c).exec 3 []).find? (fun m => match m.instr with | .fldsnap _ _ _ => true | _ => false) = some m)
    (hf : (s.core c).field? (m.args.getD 0 0).toNat = some f) (he : f.atEnd (m.args.getD 1 0).toNat = true)
    (hp : s.poisoned (coreKey c (fPATCH f.desc)) (fSites f.desc * fW f.desc) = none)
    (hw : s.engWrites (s.cmdAgent c 3 m) 0 ((s.snapUnits c f.desc (m.args.getD 2 0)).map .run) = .ok w) :
    exec (.snapshotCopy c) s = .next (w.finishCmd c 3 m) := by
  have effect : s.snapEffect c m = .ok w := by
    have units : s.snapWrites c m = some (s.snapUnits c f.desc (m.args.getD 2 0)) := by
      unfold State.snapWrites
      rw [hf]
      exact if_pos he
    rw [State.snapEffect, State.snapFault_none hf hp, units]
    exact hw
  have hx : exec (.snapshotCopy c) s = execSnapshotCopy c s := rfl
  rw [hx, execSnapshotCopy]
  split
  · next k hk =>
    cases hk.symm.trans hm
    rw [effect]
    rfl
  · next hk => cases hk.symm.trans hm

end Sys2Proof.Machine
end

section
/-! PROOFS. The Herder's adoption of a coupling object, and what the rechecks after it leave (R248, R295). -/

namespace Sys2Proof.Machine

open Sys2Proof Sys2Proof.Safety

/-! ## What a recheck leaves (R248)

Performing what is parked touches every part of the machine, but of a field only the walk of its coupling copy, and of an object neither its id nor M. -/

/-- A field apart from the walk of its coupling copy. -/
def Field.still (f : Field) : Field := { f with walk := Walk.none }

/-- The fields of every core apart from their walks, and the id and M of every object. -/
def State.coupling (s : State) : (Nat → Tbl Field) × List (Nat × Option Nat) :=
  (fun d => (s.core d).fields.map (fun p => (p.1, p.2.still)), s.objs.map (fun o => (o.id, o.m)))

theorem State.coupling_of_parts {s u : State} (hc : u.cores = s.cores) (ho : u.objs = s.objs) : u.coupling = s.coupling := by
  simp only [State.coupling, State.core, hc, ho]

theorem State.onCore_coupling {s : State} {c : Nat} {f : Core → Core}
    (h : (f (s.core c)).fields.map (fun p => (p.1, p.2.still)) = (s.core c).fields.map (fun p => (p.1, p.2.still))) :
    (s.onCore c f).coupling = s.coupling := by
  refine Prod.ext (funext fun d => ?_) rfl
  by_cases hd : d = c
  · subst hd
    dsimp only [State.coupling]
    rw [State.core_onCore, h]
  · dsimp only [State.coupling]
    rw [State.core_onCore_ne _ _ _ _ hd]

@[simp] theorem State.onSlot_coupling (s : State) (c t : Nat) (f : Slot → Slot) : (s.onSlot c t f).coupling = s.coupling :=
  State.onCore_coupling (s := s) (c := c) (f := fun k => k.setSlot t (f (s.slot c t))) rfl

theorem State.objs_coupling {s : State} {F : Obj → Obj} (h : ∀ o, (F o).id = o.id ∧ (F o).m = o.m) :
    { s with objs := s.objs.map F }.coupling = s.coupling := by
  refine Prod.ext rfl ?_
  simp only [State.coupling, List.map_map]
  exact List.map_congr_left (fun o _ => Prod.ext (h o).1 (h o).2)

@[simp] theorem State.unqueue_coupling (s : State) (c : Nat) (who : Parker) : (s.unqueue c who).coupling = s.coupling :=
  State.objs_coupling (fun _ => ⟨rfl, rfl⟩)

theorem State.onObj_coupling {s : State} {id : Nat} {f : Obj → Obj} (h : ∀ o, (f o).id = o.id ∧ (f o).m = o.m) :
    (s.onObj id f).coupling = s.coupling := by
  refine State.objs_coupling (fun o => ?_)
  split
  · exact h o
  · exact ⟨rfl, rfl⟩

@[simp] theorem State.enqueue_coupling (s : State) (id : Nat) (q : Parked) : (s.enqueue id q).coupling = s.coupling := by
  refine State.onObj_coupling (fun o => ?_)
  split
  · exact ⟨rfl, rfl⟩
  · exact ⟨rfl, rfl⟩

theorem Obj.move_mark (o : Obj) (e c : Nat) (k : AccKind) (tag : Nat) : (o.move e c k tag).id = o.id ∧ (o.move e c k tag).m = o.m := by
  unfold Obj.move
  dsimp only
  split <;> split <;> exact ⟨rfl, rfl⟩

/-! ### Bytes -/

@[simp] theorem State.writeAt_coupling (s : State) (p : Place) (bs : List Byte) : (s.writeAt p bs).coupling = s.coupling := by
  unfold State.writeAt
  dsimp only
  split
  · rfl
  · rfl

@[simp] theorem State.countLanding_coupling (s : State) (d o n : Nat) : (s.countLanding d o n).coupling = s.coupling := by
  refine foldl_keeps (P := State.coupling) (fun s i => ?_) _ s
  split
  · exact State.onCore_coupling rfl
  · rfl

@[simp] theorem State.writeThrough_coupling (s : State) (a : Word) (p : Place) (bs : List Byte) : (s.writeThrough a p bs).coupling = s.coupling := by
  unfold State.writeThrough
  dsimp only
  split
  · rw [State.countLanding_coupling, State.writeAt_coupling]
  · rw [State.writeAt_coupling]

@[simp] theorem State.dataPart_coupling (s : State) (a : Access) (p : Place) : (s.dataPart a p).1.coupling = s.coupling := by
  unfold State.dataPart
  dsimp only
  split
  · rw [State.writeThrough_coupling]
  · rfl

@[simp] theorem State.unitWrite_coupling (s : State) (need : Nat) (parts : List (Word × Place × List Byte)) :
    (s.unitWrite need parts).coupling = s.coupling := by
  have bytes := foldl_keeps (P := State.coupling)
    (F := fun (s : State) (r : Word × Place × List Byte) =>
      s.writeThrough r.1 r.2.1 (if need = 3 then bytesOf 4 (atomicFn 22 32 (ofBytes (s.readAt r.2.1 4)) (ofBytes r.2.2) 0) else r.2.2))
    (fun s r => s.writeThrough_coupling _ _ _) parts s
  unfold State.unitWrite
  dsimp only
  split
  · split
    · exact bytes
    · exact bytes
  · exact bytes

/-! ### Accesses of threads -/

@[simp] theorem State.queueTrap_coupling (s : State) (c t : Nat) (tr : Trap) : (s.queueTrap c t tr).coupling = s.coupling :=
  State.onSlot_coupling _ _ _ _

@[simp] theorem State.endTlbPark_coupling (s : State) (c t id : Nat) : (s.endTlbPark c t id).coupling = s.coupling := State.onSlot_coupling _ _ _ _

@[simp] theorem State.finishAcc_coupling (s : State) (c t : Nat) (a : Access) (v : Word) : (s.finishAcc c t a v).coupling = s.coupling := by
  rw [State.finishAcc, State.endTlbPark_coupling, State.onSlot_coupling]

@[simp] theorem State.abandonAcc_coupling (s : State) (c t : Nat) (a : Access) : (s.abandonAcc c t a).coupling = s.coupling := by
  rw [State.abandonAcc, State.endTlbPark_coupling, State.onSlot_coupling, State.unqueue_coupling]

theorem State.performAt_coupling (s : State) (o : Obj) (c t : Nat) (a : Access) (e : Nat) : (s.performAt o c t a e).coupling = s.coupling := by
  have moved (w : State) (id : Nat) :
      (w.onObj id (fun o => if a.x != 0 then o.move e c a.kind a.data else o)).coupling = w.coupling := by
    refine State.onObj_coupling (fun o => ?_)
    split
    · exact o.move_mark _ _ _ _
    · exact ⟨rfl, rfl⟩
  unfold State.performAt
  dsimp only
  rw [State.finishAcc_coupling, moved, State.unqueue_coupling]
  split
  · exact s.dataPart_coupling _ _
  · rfl

@[simp] theorem State.performOrLate_coupling (s : State) (o : Obj) (c t : Nat) (a : Access) (e : Nat) : (s.performOrLate o c t a e).coupling = s.coupling := by
  unfold State.performOrLate
  split
  · rw [State.fieldFault, State.queueTrap_coupling, State.abandonAcc_coupling]
  · split
    · rw [State.fieldFault, State.queueTrap_coupling, State.abandonAcc_coupling]
    · rw [State.refuseAcc, State.queueTrap_coupling, State.abandonAcc_coupling]
    · exact s.performAt_coupling o c t a e

/-! ### Units of engines -/

@[simp] theorem State.onWalk_coupling (s : State) (c : Nat) (who : Parker) (f : Walk → Walk) : (s.onWalk c who f).coupling = s.coupling := by
  cases who with
  | acc t id => rfl
  | host id => rfl
  | peer p => rfl
  | device l => rfl
  | cmd id => exact State.onCore_coupling rfl
  | field id =>
    refine State.onCore_coupling ?_
    rw [List.map_map]
    refine List.map_congr_left (fun p _ => ?_)
    rw [Function.comp_apply]
    split
    · rfl
    · rfl
  | block t => exact State.onSlot_coupling _ _ _ _

@[simp] theorem State.stick_coupling (s : State) (c : Nat) (who : Parker) (nan ovf : Bool) : (s.stick c who nan ovf).coupling = s.coupling := by
  unfold State.stick
  split
  · split
    · exact State.onSlot_coupling _ _ _ _
    · rfl
  · rfl

theorem State.performUnit_coupling (s : State) (q : Parked) : (s.performUnit q).coupling = s.coupling := by
  unfold State.performUnit
  split
  · rfl
  · split
    · split
      · exact s.onWalk_coupling _ _ _
      · rfl
    · rw [State.onWalk_coupling, State.stick_coupling, State.unitWrite_coupling]

/-! ### Accesses that no core makes -/

@[simp] theorem State.parkOther_coupling (s : State) (who : Parker) (key : Nat) (w : Bool) : (s.parkOther who key w).coupling = s.coupling := by
  unfold State.parkOther
  split
  · split
    · rfl
    · rw [State.enqueue_coupling]
  · rfl

theorem State.hostPerform_coupling (s : State) (a : HostAccess) : (s.hostPerform a).coupling = s.coupling := by
  unfold State.hostPerform
  split
  · exact s.writeAt_coupling _ _
  · rfl

theorem State.hostArrive_coupling (s : State) (a : HostAccess) : (s.hostArrive a).coupling = s.coupling := by
  unfold State.hostArrive
  dsimp only
  split
  · rfl
  · split
    · exact s.hostPerform_coupling a
    · split
      · rfl
      · exact State.parkOther_coupling _ _ _ _

theorem State.hostServe_coupling (s : State) (l : List HostAccess) : (s.hostServe l).coupling = s.coupling := by
  induction l generalizing s with
  | nil => rfl
  | cons a r ih =>
    rw [State.hostServe, ih]
    split
    · rfl
    · exact s.hostArrive_coupling a

theorem State.hostParked_coupling (s : State) (id : Nat) : (s.hostParked id).coupling = s.coupling := by
  unfold State.hostParked
  split
  · rw [State.hostServe_coupling, State.hostPerform_coupling]
    rfl
  · rfl

theorem State.peerOp_coupling (s : State) (port : Nat) (op : FabricOp) : (s.peerOp port op).coupling = s.coupling := by
  cases op with
  | read loc n =>
    unfold State.peerOp
    dsimp only
    split
    · rfl
    · rfl
  | write loc bs =>
    unfold State.peerOp
    dsimp only
    split
    · exact s.writeAt_coupling _ _
    · rfl
  | atomic loc o w64 x e =>
    unfold State.peerOp
    dsimp only
    generalize (if w64 then 8 else 4) = n
    split
    · rfl
    · exact s.writeAt_coupling _ _

theorem State.peerPark_coupling (s : State) (port : Nat) (op : FabricOp) : (s.peerPark port op).coupling = s.coupling := by
  unfold State.peerPark
  split
  · exact s.parkOther_coupling _ _ _
  · rfl

theorem State.peerOps_coupling (s : State) (port : Nat) (l : List FabricOp) : (s.peerOps port l).1.coupling = s.coupling := by
  induction l generalizing s with
  | nil => rfl
  | cons op r ih =>
    unfold State.peerOps
    split
    · rw [ih, State.peerOp_coupling, State.unqueue_coupling]
    · split
      · rfl
      · split
        · exact ih s
        · exact s.peerPark_coupling port op

theorem State.peerParked_coupling (s : State) (port : Nat) : (s.peerParked port).coupling = s.coupling := s.peerOps_coupling port _

/-! ### The recheck -/

theorem State.performParked_coupling (s : State) (o : Obj) (q : Parked) (e : Nat) : (s.performParked o q e).coupling = s.coupling := by
  have left : (s.onObj o.id (fun o => { o with queue := o.queue.filter (fun k => k != q) })).coupling = s.coupling :=
    State.onObj_coupling (fun _ => ⟨rfl, rfl⟩)
  unfold State.performParked
  dsimp only
  rw [← left]
  generalize s.onObj o.id _ = w
  split
  · exact w.performOrLate_coupling _ _ _ _ _
  · split
    · rfl
    · exact w.hostParked_coupling _
    · exact w.peerParked_coupling _
    · exact foldl_keeps (P := State.coupling) (F := fun s (r : Word × Place × List Byte) => s.devLatch _ r.2.1.key) (fun _ _ => rfl) _ w
    · exact w.performUnit_coupling q

theorem State.recheck_coupling (n : Nat) (s : State) (id : Nat) : (State.recheck n s id).coupling = s.coupling := by
  induction n generalizing s with
  | zero => rfl
  | succ n ih =>
    unfold State.recheck
    split
    · rfl
    · split
      · rfl
      · rw [ih, State.performParked_coupling]

@[simp] theorem State.recheckObj_coupling (s : State) (id : Nat) : (s.recheckObj id).coupling = s.coupling := by
  unfold State.recheckObj
  split
  · rfl
  · exact State.recheck_coupling _ _ _

/-- A field found in one of two states of equal couplings is found in the other, apart from its walk. -/
theorem State.field?_of_coupling {s u : State} (h : u.coupling = s.coupling) {c id : Nat} {f : Field} (hf : (s.core c).field? id = some f) :
    ∃ g, (u.core c).field? id = some g ∧ g.still = f.still := by
  have aside (w : State) : ((w.core c).field? id).map Field.still = ((w.coupling.1 c).find? (fun p => p.1 == id)).map (·.2) := by
    simp only [State.coupling, Core.field?, List.find?_map, Option.map_map]
    rfl
  have same := aside u
  rw [h, ← aside s, hf] at same
  exact Option.map_eq_some_iff.mp same

/-- An object's id and M stand in every state of the same couplings. -/
theorem State.obj_of_coupling {s u : State} (h : u.coupling = s.coupling) {o : Obj} (ho : o ∈ s.objs) : ∃ y ∈ u.objs, y.id = o.id ∧ y.m = o.m := by
  have marks : u.objs.map (fun o => (o.id, o.m)) = s.objs.map (fun o => (o.id, o.m)) := congrArg Prod.snd h
  have mark : (o.id, o.m) ∈ u.objs.map (fun o => (o.id, o.m)) := by
    rw [marks]
    exact List.mem_map_of_mem ho
  obtain ⟨y, hy, eq⟩ := List.mem_map.mp mark
  exact ⟨y, hy, congrArg Prod.fst eq, congrArg Prod.snd eq⟩

/-! ## COUPLING_ADOPTION_REQUEST (R295) -/

/-- The state in which M of the objects of two ids has risen to m. -/
def State.raises (s : State) (a b : Nat) (m : Option Nat) : State :=
  (s.onObj a (fun o => { o with m := m })).onObj b (fun o => { o with m := m })

theorem State.mem_onObj {s : State} {id : Nat} {f : Obj → Obj} {o : Obj} (h : o ∈ s.objs) : (if o.id = id then f o else o) ∈ (s.onObj id f).objs :=
  List.mem_map_of_mem h

theorem State.raises_marked {s : State} {o : Obj} (b : Nat) (m : Option Nat) (ho : o ∈ s.objs) : ∃ y ∈ (s.raises o.id b m).objs, y.id = o.id ∧ y.m = m := by
  have first : ({ o with m := m } : Obj) ∈ (s.onObj o.id (fun o => { o with m := m })).objs := by
    have := State.mem_onObj (id := o.id) (f := fun o => { o with m := m }) ho
    rwa [if_pos rfl] at this
  refine ⟨_, State.mem_onObj (id := b) (f := fun o => { o with m := m }) first, ?_⟩
  split
  · exact ⟨rfl, rfl⟩
  · exact ⟨rfl, rfl⟩

/-- The state in which the object of id a is adopted at sweep k and that of id b retired. -/
def State.adopts (s : State) (a b k : Nat) : State :=
  (s.onObj a (fun o => { o with state := 3, adopted := some k })).onObj b (fun o => { o with state := 4 })

/-- Whether or not the objects are adopted and their queues rechecked, ids and M stay. -/
theorem State.adopts_coupling (s : State) (a b k : Nat) (adopt : Bool) :
    (if adopt then ((s.adopts a b k).recheckObj a).recheckObj b else s).coupling = s.coupling := by
  have adopted : (s.adopts a b k).coupling = s.coupling :=
    (State.onObj_coupling (f := fun o => { o with state := 4 }) (fun _ => ⟨rfl, rfl⟩)).trans
      (State.onObj_coupling (f := fun o => { o with state := 3, adopted := some k }) (fun _ => ⟨rfl, rfl⟩))
  split
  · rw [State.recheckObj_coupling, State.recheckObj_coupling, adopted]
  · rfl

/-- What the Herder's request leaves once both coupling objects are found: those of the raised state, whether or not one is adopted. -/
theorem couplingAdoptionRequest_raises {s : State} {c id : Nat} {f : Field} {o l : Obj} (hf : (s.core c).field? id = some f) (hs : f.stage = .sweep)
    (ha : f.asked = false) (hn : (s.core c).snapping id f = false) (hh : s.herds c = true)
    (ho : s.objWithBase (f.cts.getD (ofBool (!f.live1)) 0) = some o) (hl : s.objWithBase (f.cts.getD (ofBool f.live1) 0) = some l) :
    ∃ u, exec (.couplingAdoptionRequest c id) s = .next u ∧
      u.coupling = ((s.onField c id (fun f => { f with asked := true })).raises o.id l.id (some (match o.m with | some m => max m f.next | none => f.next))).coupling := by
  have hx : exec (.couplingAdoptionRequest c id) s = execCouplingAdoptionRequest c id s := rfl
  have found (key : Nat) : (s.onField c id (fun f => { f with asked := true })).objWithBase key = s.objWithBase key := rfl
  rw [hx, execCouplingAdoptionRequest, hf]
  dsimp only
  rw [if_pos ⟨hs, ha, hn, hh⟩, found, found, ho, hl]
  exact ⟨_, rfl, State.adopts_coupling _ _ _ _ _⟩

theorem couplingAdoptionRequest_asks {s : State} {c id : Nat} {f : Field} (hf : (s.core c).field? id = some f) (hs : f.stage = .sweep)
    (ha : f.asked = false) (hn : (s.core c).snapping id f = false) (hh : s.herds c = true)
    (ho : s.objWithBase (f.cts.getD (ofBool (!f.live1)) 0) = none ∨ s.objWithBase (f.cts.getD (ofBool f.live1) 0) = none) :
    exec (.couplingAdoptionRequest c id) s = .next (s.onField c id (fun f => { f with asked := true })) := by
  have hx : exec (.couplingAdoptionRequest c id) s = execCouplingAdoptionRequest c id s := rfl
  have found (key : Nat) : (s.onField c id (fun f => { f with asked := true })).objWithBase key = s.objWithBase key := rfl
  rw [hx, execCouplingAdoptionRequest, hf]
  dsimp only
  rw [if_pos ⟨hs, ha, hn, hh⟩, found, found]
  rcases ho with ho | ho
  · rw [ho]
  · rw [ho]
    split
    · next h => cases h
    · rfl

/-- The request of a field at the start of its sweep: the field has asked, and M of its coupling object that is not LIVE has risen to the sweep. -/
theorem couplingAdoptionRequest_leaves {s : State} {c id : Nat} {f : Field} (hf : (s.core c).field? id = some f) (hs : f.stage = .sweep)
    (ha : f.asked = false) (hn : (s.core c).snapping id f = false) (hh : s.herds c = true) :
    ∃ u f', exec (.couplingAdoptionRequest c id) s = .next u ∧ (u.core c).field? id = some f' ∧ f'.asked = true ∧ f'.next = f.next ∧
      (∀ o l, s.objWithBase (f.cts.getD (ofBool (!f.live1)) 0) = some o → s.objWithBase (f.cts.getD (ofBool f.live1) 0) = some l →
        ∃ y ∈ u.objs, y.id = o.id ∧ y.m = some (match o.m with | some m => max m f.next | none => f.next)) := by
  have asked := State.onField_field? (fun f => { f with asked := true }) hf
  by_cases none_ : s.objWithBase (f.cts.getD (ofBool (!f.live1)) 0) = none ∨ s.objWithBase (f.cts.getD (ofBool f.live1) 0) = none
  · refine ⟨_, _, couplingAdoptionRequest_asks hf hs ha hn hh none_, asked, rfl, rfl, fun o l ho hl => ?_⟩
    rw [ho, hl] at none_
    rcases none_ with h | h <;> cases h
  · obtain ⟨ho, hl⟩ := not_or.mp none_
    obtain ⟨o, ho⟩ := Option.ne_none_iff_exists'.mp ho
    obtain ⟨l, hl⟩ := Option.ne_none_iff_exists'.mp hl
    obtain ⟨u, step, same⟩ := couplingAdoptionRequest_raises hf hs ha hn hh ho hl
    obtain ⟨g, found, still⟩ := State.field?_of_coupling same asked
    have asks : g.asked = true := (congrArg Field.asked still :)
    have next : g.next = f.next := (congrArg Field.next still :)
    refine ⟨u, g, step, found, asks, next, fun o' l' ho' _ => ?_⟩
    cases ho.symm.trans ho'
    have mem : o ∈ (s.onField c id (fun f => { f with asked := true })).objs := List.mem_of_find?_eq_some ho
    obtain ⟨x, hx, xid, xm⟩ := State.raises_marked l.id (some (match o.m with | some m => max m f.next | none => f.next)) mem
    obtain ⟨y, hy, yid, ym⟩ := State.obj_of_coupling same hx
    exact ⟨y, hy, yid.trans xid, ym.trans xm⟩

end Sys2Proof.Machine
end

section
/-! PROOFS. O58: the field commands, FRET and the Herder's steps, assembled. -/

namespace Sys2Proof.Proofs

open Sys2Proof Sys2Proof.Machine Sys2Proof.Safety

/-- Settles O58: each field instruction by its form at issue, each Herder step by the state it leaves; the recheck after an adoption keeps of fields and
objects what the statement reads (`State.recheckObj_coupling`). -/
theorem fieldsAndTheHerder : Obligations.FieldsAndTheHerder := by
  unfold Obligations.FieldsAndTheHerder
  refine ⟨fun s i a rs f hi h hq hf => ?_, fun s a b c f h hq hf hc => fldsnap_enters h hq hf hc, fun s i a rs hi h hf => ?_, fun s d b h => ?_,
    fun s d b id off desc keys live1 w h ha hs hid hn hl hsp hoff hfit reach hd res shape col ranges place base lim hcl hc => ?_,
    fun s id l f h hr hp ha hv hm => ?_, fun s c id l f r hf ht hs hn free hh => ?_,
    fun s c id f hf hs ha hn hh => couplingAdoptionRequest_leaves hf hs ha hn hh, fun s c id f hf hs hq hh => ⟨fun t ha hc => ?_, fun ha => ?_⟩,
    fun s c id f hf hs ht hh => ?_, fun s c m f w hm hf he hp hw => ?_⟩
  · obtain ⟨r, rfl, op⟩ := exec_fieldCmd hi
    rw [op]
    exact fieldCmd_enters h hq hf
  · rcases hi with ⟨b, rfl | rfl | rfl, rfl⟩ | ⟨rfl, rfl⟩
    · exact fieldCmd_undefined h hf
    · exact fieldCmd_undefined h hf
    · exact fldsnap_undefined h hf
    · exact fieldCmd_undefined h hf
  · obtain ⟨u, step, wrote⟩ := fldstat_reads h
    refine ⟨u, step, ?_⟩
    cases hf : s.mine.field? (s.me.rd b).toNat with
    | none =>
      rw [hf] at wrote
      exact wrote
    | some f =>
      rw [hf] at wrote
      exact wrote
  · have passes : (s.fieldReach s.cur.core s.me.dom off desc && descReserved desc && descShape desc && descColours desc && descRanges s.mine desc &&
        s.descPlace s.cur.core desc && decide (s.me.codebase.toNat ≤ (fENTRY desc).toNat ∧ (fENTRY desc).toNat < s.me.codelim.toNat)) = true := by
      simp only [reach, res, shape, col, ranges, place, base, lim, and_self, decide_true, Bool.and_self]
    have step := flddef_defines h ha hs (find?_lowest hid hn hl) hsp hoff hfit hd passes hcl hc
    obtain ⟨mem, dest, others⟩ := State.defines_leaves (State.sameCores_couple hc) d id (s.newField desc keys live1)
      { rs := [b], ws := [d], who := .threads } s.nextPc
    exact ⟨_, _, step, State.defines_field? _ _ _ _ _ _, rfl, rfl, rfl, rfl, rfl, rfl, rfl, rfl, mem, dest, others⟩
  · obtain ⟨step, free⟩ := fret_returns h hr hp ha hv
    have mem := s.cleared.returned_mem id l f
    rw [State.cleared_rd, State.cleared_cur, State.cleared_mem] at mem
    have bytes := bytesOf_length (fW f.desc) (s.me.rd 2).toNat
    refine ⟨_, step, free, ?_, fun k hk => ?_⟩
    · have read := Memory.readBytes_writeBytes (bytesOf (fW f.desc) (s.me.rd 2).toNat) s.mem (coreKey s.cur.core (fPATCH f.desc + l * fW f.desc)) hm
      rw [bytes] at read
      rw [mem, read]
    · rw [mem]
      exact Memory.read_writeBytes_out _ _ _ _ (by rw [bytes]; exact hk)
  · obtain ⟨r1, r2, r11, r12, r14, r15, above⟩ := (s.takesSite c id l r).routineRegs_rd c f l ((s.slot c 11).routine f)
    have fixed := (s.takesSite c id l r).routineRegs_onlyG c f l ((s.slot c 11).routine f)
    refine ⟨_, _, siteRoutineStart_starts hf ht hs hn free hh, rfl, State.startsSite_field? l r hf, rfl, rfl, ?_⟩
    rw [State.startsSite_slot]
    refine ⟨congrArg Slot.mode fixed, congrArg Slot.pc fixed, congrArg Slot.dom fixed, congrArg Slot.eff fixed, r1, r2, r11, r12, r14, r15,
      fun q hq => (above q hq).trans (Slot.freed_rd (s.slot c 11) q), fun q => ?_⟩
    rw [fixed]
    exact (s.slot c 11).freed_vrd q
  · have same := State.sameCores_coupleCopy hc
    refine ⟨_, _, herderSweepStart_copied hf hs hq hh ha hc, State.sweeps_field? _ (by rw [same.2]; exact hf), rfl, rfl, rfl, rfl⟩
  · exact ⟨_, _, herderSweepStart_plain hf hs hq hh ha, State.sweeps_field? _ hf, rfl, rfl, rfl, rfl, rfl⟩
  · exact ⟨_, _, _, halfStepArrival_arrives hf hs ht hh, State.arrives_field? hf, rfl, rfl, rfl, rfl, rfl, State.arrives_count s c id f, rfl⟩
  · exact ⟨_, snapshotCopy_copies hm hf he hp hw, State.finishCmd_mem w c 3 m, State.leave_exec w c 3 m _, State.leave_counter w c 3 m _ (by decide)⟩

end Sys2Proof.Proofs
end

section
/-! PROOFS. The rules of an access at issue that loads, stores and atomics share: ALIGN, the sweep thread's SLOT, and what stays pending (R145, R289, R358). -/

namespace Sys2Proof.Machine

open Sys2Proof Sys2Proof.Safety

/-! ## Accesses refused -/

/-- The access sizes of page 1 whose logarithm ALIGN reports (R145). -/
theorem lg_eq_log2 : ∀ n ∈ [1, 2, 4, 8], lg n = Nat.log2 n := by decide +kernel

/-- A misaligned access takes ALIGN before anything else is asked of its address (R145, R358). -/
theorem access_misaligned {need : Need} {f : Slot → Req} {s : State} {q : Req} (h : mayIssue need s = true) (hq : f s.cleared.me = q)
    (hn : q.size ∈ [1, 2, 4, 8]) (ha : q.va.toNat % q.size ≠ 0) (hbr : s.me.branches = []) :
    access need f s = .next (s.issueTrap 0x06 q.va (BitVec.ofNat 64 (Nat.log2 q.size))) := by
  refine issue_traps h hbr ?_
  have misaligned : aligned q.va q.size = false := beq_false_of_ne ha
  simp only [hq, misaligned, Bool.not_false, if_true, Act.misaligned, lg_eq_log2 _ hn]

/-- The wait that an instruction ends is no part of the sweep thread's reach (R289). -/
theorem State.cleared_sweepStoreBad (s : State) (q : Req) : s.cleared.sweepStoreBad q = s.sweepStoreBad q := by
  rw [State.sweepStoreBad, State.cleared_mine]
  rfl

/-- The sweep thread's store outside its reach takes SLOT (R289). -/
theorem access_swept {need : Need} {f : Slot → Req} {s : State} {q : Req} (h : mayIssue need s = true) (hq : f s.cleared.me = q)
    (ha : q.va.toNat % q.size = 0) (hb : s.sweepStoreBad q = true) (hbr : s.me.branches = []) :
    access need f s = .next (s.issueTrap 0x0F q.va (BitVec.ofNat 64 s.cur.slot)) := by
  refine issue_traps h hbr ?_
  simp only [hq, aligned, ha, beq_self_eq_true, Bool.not_true, Bool.false_eq_true, if_false, State.cleared_sweepStoreBad, hb, if_true, State.cleared_cur]

/-- What a store of the sweep thread may reach: its self window outside every field's ranges (R289, R398). -/
def State.sweepReach (s : State) (a : Word) (n : Nat) : Prop :=
  ∃ off, spaceOf a = .self off ∧ ∀ p ∈ s.mine.fields, ∀ q ∈ fRanges p.2.desc, meets off n q.1 q.2 = false

theorem State.sweepStoreBad_of_not_store (s : State) {q : Req} (h : (q.kind == .store) = false) : s.sweepStoreBad q = false := by
  rw [State.sweepStoreBad, h, Bool.and_false, Bool.false_and]

theorem State.sweepStoreBad_of_store {s : State} {q : Req} (hk : q.kind = .store) :
    s.sweepStoreBad q = true ↔ s.cur.slot = 11 ∧ ¬s.sweepReach q.va q.size := by
  have hstore : (q.kind == AccKind.store) = true := by rw [hk]; rfl
  unfold State.sweepStoreBad State.sweepReach
  rw [hstore, Bool.and_true, Bool.and_eq_true, beq_iff_eq]
  refine and_congr_right fun _ => ?_
  split
  · next off hs => simp [hs]
  · next hs => exact iff_of_true rfl fun ⟨off, hself, _⟩ => hs off hself

/-! ## What an access leaves pending -/

/-- An access that returns nothing leaves nothing new pending (R36). -/
theorem State.putAccess_retire_pend (s : State) (a : Access) {need : Need} (pc : Word) (hv : need.var = false) :
    ((s.cleared.putAccess a).retire need pc).me.pend = s.me.pend := by
  rw [State.retire_me, Slot.retired_pend, Slot.pended_of_fixed hv, State.putAccess_pend, State.cleared_me]

/-- An access that returns a value leaves its destination pending (R36). -/
theorem State.putAccess_retire_pend_waits (s : State) (a : Access) {need : Need} {d : Reg} (pc : Word) (hv : need.var = true) (hw : need.ws = [d]) :
    ((s.cleared.putAccess a).retire need pc).me.pend = setBit s.me.pend d := by
  rw [State.retire_me, Slot.retired_pend, Slot.pended_one hv hw]
  simp only [Slot.wait, State.putAccess_pend, State.cleared_me]

/-- An access that returns nothing and whose translation stands begins no park (R36, R147). -/
theorem State.putAccess_leftAs (s : State) {a : Access} {need : Need} (hv : need.var = false) (ha : a.phase ≠ .miss) :
    leftAs s ((s.cleared.putAccess a).retire need s.nextPc) s.nextPc := by
  have hme := s.cleared.putAccess_translated ha
  rw [State.cleared_me] at hme
  exact leftAs_retire _ hv (by simp) (by rw [hme]) (by rw [hme]) (by rw [hme]) (by rw [hme])

/-! ## Loads -/

theorem loadForm_size {i : Instr} {sg : Bool} {n : Nat} {d : Reg} {m : MemOp} (h : loadForm i = some (sg, n, d, m)) : n ∈ [1, 2, 4, 8] := by
  unfold loadForm at h
  split at h <;> cases h <;> decide

theorem loadReq_cleared (sg : Bool) (n : Nat) (d : Reg) (m : MemOp) (s : State) : loadReq sg n d m s.cleared.me = loadReq sg n d m s.me := by
  simp only [loadReq, memAddr_cleared]

end Sys2Proof.Machine
end

section
/-! PROOFS. The issue of stores (R144, R147, R150, R289, R398). -/

namespace Sys2Proof.Machine

open Sys2Proof Sys2Proof.Safety

/-- The request of a store (R150). -/
def storeReq (n : Nat) (d : Reg) (m : MemOp) (x : Slot) : Req :=
  { kind := .store, va := memAddr m x n, size := n, x := m.x, scope := m.scope, order := m.order, data := (x.rd d).toNat % 2 ^ (8 * n) }

/-- What a store asks of the issue stage. -/
def storeNeed (d : Reg) (m : MemOp) : Need := { rs := [d, m.base, m.idx], who := .any }

theorem exec_store {i : Instr} {n : Nat} {d : Reg} {m : MemOp} (h : storeForm i = some (n, d, m)) (s : State) :
    exec i s = access (storeNeed d m) (storeReq n d m) s := by
  unfold storeForm at h
  split at h <;> cases h <;> rfl

theorem storeForm_size {i : Instr} {n : Nat} {d : Reg} {m : MemOp} (h : storeForm i = some (n, d, m)) : n ∈ [1, 2, 4, 8] := by
  unfold storeForm at h
  split at h <;> cases h <;> decide

theorem storeReq_cleared (n : Nat) (d : Reg) (m : MemOp) (s : State) : storeReq n d m s.cleared.me = storeReq n d m s.me := by
  simp only [storeReq, memAddr_cleared, State.cleared_rd]

end Sys2Proof.Machine

namespace Sys2Proof.Proofs

open Sys2Proof Sys2Proof.Machine Sys2Proof.Safety

/-- Settles O31: a store is one access at issue that returns nothing; the sweep thread's reach is asked before the space. -/
theorem storesIssue : Obligations.StoresIssue := by
  unfold Obligations.StoresIssue
  intro i n d m s hi h ha a free
  have hq := storeReq_cleared n d m s
  have bad := State.sweepStoreBad_of_store (s := s) (q := storeReq n d m s.me) rfl
  have hbr := mayIssue_branches h rfl
  rw [traps, traps, exec_store hi]
  refine ⟨fun hs hm reach => ?_, fun hs ht => ?_, fun ht out => ?_⟩
  · have hb : s.sweepStoreBad (storeReq n d m s.me) = false :=
      Bool.eq_false_iff.mpr fun hb => (bad.mp hb).2 (reach (bad.mp hb).1)
    refine ⟨_, s.mkAccess (storeReq n d m s.me), access_begins (q := storeReq n d m s.me) h hq ha hb hs hm, beganAccess_retire s _ (storeReq n d m s.me), rfl,
      s.putAccess_retire_pend _ _ rfl, fun p hp hl => s.putAccess_leftAs rfl ?_⟩
    simp [(s.mkAccess_ready (storeReq n d m s.me) hs hp hl).1]
  · have hb : s.sweepStoreBad (storeReq n d m s.me) = false := Bool.eq_false_iff.mpr fun hb => ht (bad.mp hb).1
    exact access_reserved (q := storeReq n d m s.me) h hq ha hb hs hbr
  · have trap := access_swept h hq ha (bad.mpr ⟨ht, out⟩) hbr
    rwa [ht] at trap

end Sys2Proof.Proofs
end

section
/-! PROOFS. The issue of scalar atomics and VAMO (R144, R154, R155, R161). -/

namespace Sys2Proof.Machine

open Sys2Proof Sys2Proof.Safety

/-! ## Scalar atomics -/

/-- The request of a scalar atomic; only ACAS has an expected value (R154, R155). -/
def atomicReq (o n : Nat) (d : Reg) (m : MemOp) (x : Slot) : Req :=
  { kind := .atomic o, va := atomicAddr o m x n, size := n, x := m.x, scope := m.scope, order := m.order, data := (x.rd d).toNat % 2 ^ (8 * n),
    exp := if o = 20 then BitVec.ofNat 64 ((x.rd m.idx).toNat % 2 ^ (8 * n)) else 0, dest := d }

/-- What a scalar atomic asks of the issue stage. -/
def atomicNeed (d : Reg) (m : MemOp) : Need := { rs := [d, m.base, m.idx], ws := [d], var := true }

theorem exec_atomic {i : Instr} {o n : Nat} {d : Reg} {m : MemOp} (h : atomicForm i = some (o, n, d, m)) (s : State) :
    exec i s = access (atomicNeed d m) (atomicReq o n d m) s := by
  unfold atomicForm at h
  split at h <;> cases h <;> rfl

/-- Scalar atomics are of 32 or 64 bits (R154). -/
theorem atomicForm_size {i : Instr} {o n : Nat} {d : Reg} {m : MemOp} (h : atomicForm i = some (o, n, d, m)) : n = 4 ∨ n = 8 := by
  unfold atomicForm at h
  split at h <;> cases h <;> grind

theorem atomicReq_cleared (o n : Nat) (d : Reg) (m : MemOp) (s : State) : atomicReq o n d m s.cleared.me = atomicReq o n d m s.me := by
  simp only [atomicReq, atomicAddr, State.cleared_rd]

/-- The expected value is what ACAS reads from its index register (R155). -/
theorem atomicReq_exp (o n : Nat) (d : Reg) (m : MemOp) (x : Slot) :
    (atomicReq o n d m x).exp.toNat = if o = 20 then (x.rd m.idx).toNat % 2 ^ (8 * n) else 0 := by
  have fits : (x.rd m.idx).toNat % 2 ^ (8 * n) < 2 ^ 64 := (Nat.mod_le _ _).trans_lt (x.rd m.idx).isLt
  simp only [atomicReq]
  split
  · rw [BitVec.toNat_ofNat, Nat.mod_eq_of_lt fits]
  · rfl

/-! ## VAMO -/

/-- The request of VAMO: the 64 bytes of its vector register (R161). -/
def vamoReq (v : VReg) (m : MemOp) (op : BitVec 3) (x : Slot) : Req :=
  { kind := .vamo op, va := memAddr m x 64, size := 64, x := m.x, scope := m.scope, order := m.order, data := (x.vrd v).toNat }

theorem State.cleared_vrd (s : State) : s.cleared.me.vrd = s.me.vrd := by
  funext v
  exact Slot.vrd_congr (by rw [State.cleared_me]) v

theorem vamoReq_cleared (v : VReg) (m : MemOp) (op : BitVec 3) (s : State) : vamoReq v m op s.cleared.me = vamoReq v m op s.me := by
  simp only [vamoReq, memAddr_cleared, State.cleared_vrd]

theorem State.cleared_vecBusy (s : State) (t : Nat) (v : VReg) : s.cleared.mine.vecBusy t v = s.mine.vecBusy t v := by
  rw [State.cleared_mine]
  rfl

theorem exec_vamo (v : VReg) (m : MemOp) (op : BitVec 3) (s : State) : exec (.vamo v m op) s = execVamo v m op s := rfl

/-- An aligned VAMO that nothing holds enters its slot's list once its vector register is final (R161). -/
theorem vamo_begins {s : State} {v : VReg} {m : MemOp} (op : BitVec 3) (h : mayIssue { rs := [m.base, m.idx] } s = true)
    (ha : (memAddr m s.me 64).toNat % 64 = 0) (hs : spaceOf (memAddr m s.me 64) ≠ .reserved) (hm : s.memHeld s.me = false)
    (hv : s.mine.vecBusy s.cur.slot v = false) :
    exec (.vamo v m op) s = .next ((s.cleared.putAccess (s.mkAccess (vamoReq v m op s.me))).retire { rs := [m.base, m.idx] } s.nextPc) := by
  rw [exec_vamo]
  refine issue_done h ?_
  rw [← vamoReq_cleared]
  simp only [memAddr_cleared, aligned, ha, beq_self_eq_true, Bool.not_true, Bool.false_eq_true, if_false, hs, State.cleared_memHeld, hm,
    State.cleared_cur, State.cleared_vecBusy, hv, State.cleared_mkAccess, vamoReq]

/-- In a reserved space VAMO takes WINDOW at issue (R367, R369). -/
theorem vamo_reserved {s : State} (v : VReg) {m : MemOp} (op : BitVec 3) (h : mayIssue { rs := [m.base, m.idx] } s = true)
    (ha : (memAddr m s.me 64).toNat % 64 = 0) (hs : spaceOf (memAddr m s.me 64) = .reserved) :
    traps (.vamo v m op) s 0x07 (memAddr m s.me 64) (memInfo 6 3 5 s.me.asid 0 false) := by
  rw [traps, exec_vamo]
  refine issue_traps h (mayIssue_branches h rfl) ?_
  simp only [memAddr_cleared, aligned, ha, beq_self_eq_true, Bool.not_true, Bool.false_eq_true, if_false, hs, if_true]
  simp only [State.cleared_me]

end Sys2Proof.Machine

namespace Sys2Proof.Proofs

open Sys2Proof Sys2Proof.Machine Sys2Proof.Safety

/-- Settles O32: a scalar atomic is one access at issue whose destination waits; VAMO is one that returns nothing. -/
theorem atomicsIssue : Obligations.AtomicsIssue := by
  unfold Obligations.AtomicsIssue
  refine ⟨fun i o n d m s hi h ha => ?_, fun s v m op h ha => ⟨fun hs hm hv => ?_, vamo_reserved v op h ha⟩⟩
  · have hq := atomicReq_cleared o n d m s
    have hb := s.sweepStoreBad_of_not_store (q := atomicReq o n d m s.me) rfl
    rw [traps, exec_atomic hi]
    refine ⟨fun hs hm => ?_, fun hs => access_reserved (q := atomicReq o n d m s.me) h hq ha hb hs (mayIssue_branches h rfl)⟩
    exact ⟨_, s.mkAccess (atomicReq o n d m s.me), access_begins (q := atomicReq o n d m s.me) h hq ha hb hs hm, beganAccess_retire s _ (atomicReq o n d m s.me), rfl, rfl,
      atomicReq_exp o n d m s.me, s.putAccess_retire_pend_waits _ _ rfl rfl⟩
  · exact ⟨_, s.mkAccess (vamoReq v m op s.me), vamo_begins op h ha hs hm hv, beganAccess_retire s _ (vamoReq v m op s.me), rfl,
      s.putAccess_retire_pend _ _ rfl⟩

end Sys2Proof.Proofs
end

section
/-! PROOFS. ALIGN of the loads, stores and scalar atomics of page 1 (R145, R358). -/

namespace Sys2Proof.Proofs

open Sys2Proof Sys2Proof.Machine Sys2Proof.Safety

/-- Settles O19: each form makes one request, whose misaligned address is refused before its space, reach and order are asked. -/
theorem misalignedAccessTraps : Obligations.MisalignedAccessTraps := by
  unfold Obligations.MisalignedAccessTraps
  refine ⟨fun i sg n d m s hi h ha => ?_, fun i n d m s hi h ha => ?_, fun i o n d m s hi h ha => ?_⟩
  · rw [traps, exec_load hi]
    exact access_misaligned (q := loadReq sg n d m s.me) h (loadReq_cleared sg n d m s) (loadForm_size hi) ha (mayIssue_branches h rfl)
  · rw [traps, exec_store hi]
    exact access_misaligned (q := storeReq n d m s.me) h (storeReq_cleared n d m s) (storeForm_size hi) ha (mayIssue_branches h rfl)
  · have size : n ∈ [1, 2, 4, 8] := by rcases atomicForm_size hi with rfl | rfl <;> decide
    rw [traps, exec_atomic hi]
    exact access_misaligned (q := atomicReq o n d m s.me) h (atomicReq_cleared o n d m s) size ha (mayIssue_branches h rfl)

end Sys2Proof.Proofs
end

section
/-! PROOFS. Lanes: what the integer and moving vector commands compute, lane by lane (R63, R64, R173, R178 to R184). -/

namespace Sys2Proof.Machine

open Sys2Proof Sys2Proof.Safety

/-! ## The lanes of a vector (R63) -/

section
variable (t : VType)

theorem laneBits_pos : 0 < laneBits t := by cases t <;> decide

theorem vec_div_laneBits : 512 / laneBits t = t.lanes := by cases t <;> decide

theorem lanes_mul_laneBits : t.lanes * laneBits t = 512 := by cases t <;> decide

theorem laneAt_lt (v : Vec) (i : Nat) : laneAt t v i < 2 ^ laneBits t := Nat.mod_lt _ (by positivity)

@[simp] theorem lanesOf_length (v : Vec) : (lanesOf (laneBits t) v).length = t.lanes := by simp [lanesOf, vec_div_laneBits]

variable {t} {i : Nat} (h : i < t.lanes)
include h

theorem lanesOf_getElem? (v : Vec) : (lanesOf (laneBits t) v)[i]? = some (laneAt t v i) := by
  simp [lanesOf, laneAt, vec_div_laneBits, h]

end

theorem joinLanes_lane (w : Nat) (l : List Nat) (i : Nat) : joinLanes w l / 2 ^ (i * w) % 2 ^ w = l.getD i 0 % 2 ^ w := by
  induction l generalizing i with
  | nil => simp [joinLanes]
  | cons x r ih =>
    cases i with
    | zero => simp [joinLanes]
    | succ i =>
      have power : (2 : Nat) ^ ((i + 1) * w) = 2 ^ w * 2 ^ (i * w) := by rw [Nat.succ_mul, Nat.pow_add, Nat.mul_comm]
      have rest : joinLanes w (x :: r) / 2 ^ w = joinLanes w r := by
        rw [joinLanes, Nat.add_mul_div_left _ _ (by positivity), Nat.div_eq_of_lt (Nat.mod_lt _ (by positivity)), Nat.zero_add]
      rw [power, ← Nat.div_div_eq_div_mul, rest, ih, List.getD_cons_succ]

/-- A field that lies within n bits is not touched by cutting a number down to them. -/
theorem field_ofNat {lo w n : Nat} (fits : lo + w ≤ n) (x : Nat) : (BitVec.ofNat n x).toNat / 2 ^ lo % 2 ^ w = x / 2 ^ lo % 2 ^ w := by
  have power : (2 : Nat) ^ n = 2 ^ lo * 2 ^ (n - lo) := by rw [← Nat.pow_add, Nat.add_sub_cancel' (by omega)]
  rw [BitVec.toNat_ofNat, power, Nat.mod_mul_right_div_self, Nat.mod_mod_of_dvd _ (Nat.pow_dvd_pow 2 (by omega))]

section
variable {t : VType} {i : Nat} (h : i < t.lanes)
include h

/-- A vector made of lanes has them; what lies above its 512 bits does not reach a lane of the type. -/
theorem laneAt_ofLanes (l : List Nat) : laneAt t (ofLanes (laneBits t) l) i = l.getD i 0 % 2 ^ laneBits t := by
  have fits : i * laneBits t + laneBits t ≤ 512 := by
    have := Nat.mul_le_mul_right (laneBits t) h
    rwa [Nat.succ_mul, lanes_mul_laneBits] at this
  rw [laneAt, ofLanes, field_ofNat fits, joinLanes_lane]

theorem laneAt_ofLanes_of {l : List Nat} {x : Nat} (hl : l[i]? = some x) (hx : x < 2 ^ laneBits t) : laneAt t (ofLanes (laneBits t) l) i = x := by
  rw [laneAt_ofLanes h, List.getD_eq_getElem?_getD, hl, Option.getD_some, Nat.mod_eq_of_lt hx]

theorem laneAt_immVec (v : Word) : laneAt t (immVec (laneBits t) v) i = v.toNat % 2 ^ laneBits t :=
  laneAt_ofLanes_of h (by simp [vec_div_laneBits, h]) (Nat.mod_lt _ (by positivity))

/-- The second source, lane by lane (R173). -/
theorem laneAt_second (m : Cmd) (b : VSrc) : laneAt t (m.second (laneBits t) b) i = laneArg t m b i := by
  cases b with
  | reg r => rfl
  | imm v => exact laneAt_immVec h v

/-! ## Lanes moved, chosen and compared (R178, R179, R183, R184) -/

theorem laneAt_putLane (n x : Nat) (v : Vec) :
    laneAt t (putLane (laneBits t) n (x % 2 ^ laneBits t) v) i = if i = n then x % 2 ^ laneBits t else laneAt t v i := by
  have put : ((lanesOf (laneBits t) v).set n (x % 2 ^ laneBits t))[i]? = some (if i = n then x % 2 ^ laneBits t else laneAt t v i) := by
    split
    next same => subst same; simp [h]
    next other => rw [List.getElem?_set_ne (Ne.symm other), lanesOf_getElem? h]
  refine laneAt_ofLanes_of h put ?_
  split
  · exact Nat.mod_lt _ (by positivity)
  · exact laneAt_lt t v i

theorem laneAt_vecPerm (b c : Vec) :
    laneAt t (vecPerm t b c) i = if 2 ^ (laneBits t - 1) ≤ laneAt t c i then 0 else laneAt t b (laneAt t c i % t.lanes) := by
  have top : laneAt t c i / 2 ^ (laneBits t - 1) % 2 = 1 ↔ 2 ^ (laneBits t - 1) ≤ laneAt t c i := by
    have small : laneAt t c i / 2 ^ (laneBits t - 1) < 2 := by
      rw [Nat.div_lt_iff_lt_mul (by positivity), ← Nat.pow_succ', Nat.succ_eq_add_one, Nat.sub_add_cancel (laneBits_pos t)]
      exact laneAt_lt t c i
    rw [Nat.mod_eq_of_lt small, ← Nat.one_le_div_iff (by positivity)]
    exact ⟨Nat.le_of_eq ∘ Eq.symm, Nat.le_antisymm (Nat.le_of_lt_succ small)⟩
  have named : (lanesOf (laneBits t) b).getD (laneAt t c i % t.lanes) 0 = laneAt t b (laneAt t c i % t.lanes) := by
    rw [List.getD_eq_getElem?_getD, lanesOf_getElem? (Nat.mod_lt _ (by omega)), Option.getD_some]
  refine laneAt_ofLanes_of h ?_ ?_
  · simp only [List.getElem?_map, lanesOf_getElem? h, Option.map_some, lanesOf_length, named, top]
  · split
    · positivity
    · exact laneAt_lt t b _

/-- Three vectors combined lane by lane. -/
theorem lanesOf_zip_getElem? (a b c : Vec) :
    ((lanesOf (laneBits t) a).zip ((lanesOf (laneBits t) b).zip (lanesOf (laneBits t) c)))[i]? =
      some (laneAt t a i, laneAt t b i, laneAt t c i) := by
  simp only [List.getElem?_zip_eq_some, lanesOf_getElem? h, and_self]

theorem laneAt_vecSel (old b c : Vec) : laneAt t (vecSel t old b c) i = if laneAt t c i ≠ 0 then laneAt t b i else laneAt t old i := by
  refine laneAt_ofLanes_of h ?_ ?_
  · simp only [List.getElem?_map, lanesOf_zip_getElem? h, Option.map_some, bne_iff_ne]
  · split
    · exact laneAt_lt t b i
    · exact laneAt_lt t old i

/-- VCMP but for its condition 4, which looks at every lane of the second source. -/
theorem laneAt_vecCmp {cond : Nat} (hc : cond ≠ 4) (b c : Vec) :
    laneAt t (vecCmp t cond b c) i = if laneCmp t cond (laneAt t b i) (laneAt t c i) = true then 2 ^ laneBits t - 1 else 0 := by
  have pair : ((lanesOf (laneBits t) b).zip (lanesOf (laneBits t) c))[i]? = some (laneAt t b i, laneAt t c i) := by
    simp only [List.getElem?_zip_eq_some, lanesOf_getElem? h, and_self]
  refine laneAt_ofLanes_of h ?_ ?_
  · simp only [List.getElem?_map, pair, Option.map_some, if_neg hc]
  · have := Nat.two_pow_pos (laneBits t)
    split <;> omega

/-- The value of a VCMP whose condition means p on the lanes of its sources. -/
theorem laneAt_vcmp {m : Cmd} {cond : BitVec 3} {d b c : VReg} (hi : m.instr = .vcmp t cond d b c) (hc : cond.toNat ≠ 4) {p : Prop} [Decidable p]
    (hp : laneCmp t cond.toNat (laneAt t (m.src 0) i) (laneAt t (m.src 1) i) = true ↔ p) :
    laneAt t (vecValue m) i = if p then 2 ^ laneBits t - 1 else 0 := by
  rw [vecValue, hi]
  exact (laneAt_vecCmp h hc _ _).trans (if_congr hp rfl rfl)

end

/-! ## Integer lanes (R64, R181) -/

section
variable {t : VType}

/-- Reading a lane as a signed or natural integer loses nothing. -/
theorem laneInt_inj {x y : Nat} (hx : x < 2 ^ laneBits t) (hy : y < 2 ^ laneBits t) : laneInt t x = laneInt t y ↔ x = y := by
  refine ⟨fun same => ?_, congrArg _⟩
  unfold laneInt signed at same
  rw [Nat.mod_eq_of_lt hx, Nat.mod_eq_of_lt hy] at same
  split at same
  · split at same <;> split at same <;> omega
  · exact Int.ofNat_inj.mp same

theorem wrap_lt (w : Nat) (z : Int) : wrap w z < 2 ^ w := by
  have pos : (0 : Int) < ((2 ^ w : Nat) : Int) := by positivity
  have low := Int.emod_nonneg z pos.ne'
  have high := Int.emod_lt_of_pos z pos
  unfold wrap
  omega

/-- The model's narrowing is R64's: since the low bound is not above the high one, clamping picks the nearest bound. -/
theorem narrow_eq_narrowed (t : VType) (sat : Bool) (z : Int) : narrow t.isSigned sat (laneBits t) z = narrowed t sat z := by
  have bounds : intLo t.isSigned (laneBits t) ≤ intHi t.isSigned (laneBits t) := by
    have half := Nat.two_pow_pos (laneBits t - 1)
    have full := Nat.two_pow_pos (laneBits t)
    unfold intLo intHi
    split <;> omega
  have high : intHi t.isSigned (laneBits t) =
      (if t.isSigned then ((2 ^ (laneBits t - 1) : Nat) : Int) else ((2 ^ laneBits t : Nat) : Int)) - 1 := by unfold intHi; split <;> rfl
  have nearest (lo hi : Int) (hb : lo ≤ hi) : max lo (min hi z) = if z < lo then lo else if hi < z then hi else z := by
    split
    · omega
    · split <;> omega
  rw [narrow, narrowed, nearest _ _ bounds, high, intLo, wrap]

theorem narrowed_lt (t : VType) (sat : Bool) (z : Int) : narrowed t sat z < 2 ^ laneBits t := by
  rw [← narrow_eq_narrowed]
  exact wrap_lt _ _

/-- A result of R181 fits its lane. -/
theorem laneIntOp_lt (op : VOp) (sat hi : Bool) {x y : Nat} (z : Nat) (hx : x < 2 ^ laneBits t) (hy : y < 2 ^ laneBits t) :
    laneIntOp op t sat hi x y z < 2 ^ laneBits t := by
  cases op with
  | add | sub | fma | shl | sar => exact wrap_lt _ _
  | mul => cases hi <;> exact wrap_lt _ _
  | min | max => unfold laneIntOp; dsimp only; split <;> assumption
  | shr => exact (Nat.div_le_self _ _).trans_lt hx

/-- The two-source arithmetic commands: operation, type, SAT, HI and second source (R180). -/
def arithForm : Instr → Option (VOp × VType × Bool × Bool × VSrc)
  | .vadd t sat _ _ b => some (.add, t, sat, false, b)
  | .vsub t sat _ _ b => some (.sub, t, sat, false, b)
  | .vmul t sat hi _ _ b => some (.mul, t, sat, hi, b)
  | .vfma t sat _ _ b => some (.fma, t, sat, false, b)
  | .vmin t sat _ _ b => some (.min, t, sat, false, b)
  | .vmax t sat _ _ b => some (.max, t, sat, false, b)
  | .vshl t sat _ _ b => some (.shl, t, sat, false, b)
  | .vshr t _ _ b => some (.shr, t, false, false, b)
  | .vsar t _ _ b => some (.sar, t, false, false, b)
  | _ => none

theorem vecValue_arith {m : Cmd} {op : VOp} {sat hi : Bool} {b : VSrc} (hv : arithForm m.instr = some (op, t, sat, hi, b)) :
    vecValue m = vecOp op t sat hi (m.src 0) (m.second (laneBits t) b) (m.src 1) := by
  unfold arithForm at hv
  split at hv <;> cases hv <;> rw [vecValue, ‹m.instr = _›]

variable {i : Nat} (hf : t.isFloat = false)
include hf

theorem laneAt_vecOp (h : i < t.lanes) (op : VOp) (sat hi : Bool) (a b z : Vec) :
    laneAt t (vecOp op t sat hi a b z) i = laneIntOp op t sat hi (laneAt t a i) (laneAt t b i) (laneAt t z i) := by
  refine laneAt_ofLanes_of h ?_ (laneIntOp_lt op sat hi _ (laneAt_lt t a i) (laneAt_lt t b i))
  simp only [List.getElem?_map, lanesOf_zip_getElem? h, Option.map_some, laneOp, hf, Bool.false_eq_true, if_false]

theorem laneAt_arith (h : i < t.lanes) {m : Cmd} {op : VOp} {sat hi : Bool} {b : VSrc} (hv : arithForm m.instr = some (op, t, sat, hi, b)) :
    laneAt t (vecValue m) i = laneIntOp op t sat hi (laneAt t (m.src 0) i) (laneArg t m b i) (laneAt t (m.src 1) i) := by
  rw [vecValue_arith hv, laneAt_vecOp hf h, laneAt_second h]

/-- A two-source command whose exact result z R64 narrows. -/
theorem laneAt_arith_narrowed (h : i < t.lanes) {m : Cmd} {op : VOp} {sat hi : Bool} {b : VSrc} {z : Int}
    (hv : arithForm m.instr = some (op, t, sat, hi, b))
    (hz : laneIntOp op t sat hi (laneAt t (m.src 0) i) (laneArg t m b i) (laneAt t (m.src 1) i) = narrow t.isSigned sat (laneBits t) z) :
    laneAt t (vecValue m) i = narrowed t sat z := by
  rw [laneAt_arith hf h hv, hz, narrow_eq_narrowed]

theorem laneAt_vneg (h : i < t.lanes) (sat : Bool) (b : Vec) :
    laneAt t (vecMap (laneBits t) (laneNeg t sat) b) i = narrowed t sat (-laneInt t (laneAt t b i)) := by
  refine laneAt_ofLanes_of h ?_ (narrowed_lt _ _ _)
  simp only [List.getElem?_map, lanesOf_getElem? h, Option.map_some, laneNeg, hf, Bool.false_eq_true, if_false, narrow_eq_narrowed]

/-- The conditions 0 to 3 of VCMP, on the lanes' integer values (R183). -/
theorem laneCmp_int {x y : Nat} (hx : x < 2 ^ laneBits t) (hy : y < 2 ^ laneBits t) :
    (laneCmp t 0 x y = true ↔ laneInt t x = laneInt t y) ∧ (laneCmp t 1 x y = true ↔ ¬ laneInt t x = laneInt t y) ∧
    (laneCmp t 2 x y = true ↔ laneInt t x < laneInt t y) ∧ (laneCmp t 3 x y = true ↔ laneInt t x ≤ laneInt t y) := by
  simp only [laneCmp, hf, Bool.false_eq_true, if_false, laneInt_inj hx hy, Int.le_iff_lt_or_eq, Bool.or_eq_true, decide_eq_true_eq,
    beq_iff_eq, Bool.not_eq_true', beq_eq_false_iff_ne, ne_eq, and_self]

end

end Sys2Proof.Machine

namespace Sys2Proof.Proofs

open Sys2Proof Sys2Proof.Machine Sys2Proof.Safety

/-- Settles O42: a result vector is made of its lanes, each of which fits the type, so each lane reads back as R178 to R184 compute it. -/
theorem integerLanes : Obligations.IntegerLanes := by
  unfold Obligations.IntegerLanes
  intro m t sat d a b i h w x y
  refine ⟨fun hf => ?ints, fun g l e => ?ins, fun c g e => ?perm, fun c g e => ?sel, fun c e => ?bcst, fun c e => ?mov, fun r => ?bits⟩
  case ints =>
    obtain ⟨eq, ne, lt, le⟩ := laneCmp_int hf (laneAt_lt t (m.src 0) i) (laneAt_lt t (m.src 1) i)
    refine ⟨fun e => ?add, fun e => ?sub, fun e => ?mul, fun e => ?mulHi, fun e => ?fma, fun e => ?shl, fun e => ?min, fun e => ?max, fun e => ?shr,
      fun e => ?sar, fun c e => ?neg, fun c g => ⟨fun e => ?eq, fun e => ?ne, fun e => ?lt, fun e => ?le⟩⟩
    case add => exact laneAt_arith_narrowed hf h (congrArg arithForm e) rfl
    case sub => exact laneAt_arith_narrowed hf h (congrArg arithForm e) rfl
    case mul => exact laneAt_arith_narrowed hf h (congrArg arithForm e) rfl
    case fma => exact laneAt_arith_narrowed hf h (congrArg arithForm e) rfl
    case shl => exact laneAt_arith_narrowed hf h (congrArg arithForm e) rfl
    case mulHi => exact laneAt_arith hf h (congrArg arithForm e)
    case min => exact laneAt_arith hf h (congrArg arithForm e)
    case max => exact laneAt_arith hf h (congrArg arithForm e)
    case shr => exact laneAt_arith hf h (congrArg arithForm e)
    case sar => exact laneAt_arith hf h (congrArg arithForm e)
    case neg => rw [vecValue, e]; exact laneAt_vneg hf h sat (m.src 0)
    case eq => exact laneAt_vcmp h e (by decide) eq
    case ne => exact (laneAt_vcmp h e (by decide) ne).trans (ite_not _ _ _)
    case lt => exact laneAt_vcmp h e (by decide) lt
    case le => exact laneAt_vcmp h e (by decide) le
  case ins => rw [vecValue, e]; exact laneAt_putLane h _ _ _
  case perm => rw [vecValue, e]; exact laneAt_vecPerm h _ _
  case sel => rw [vecValue, e]; exact laneAt_vecSel h _ _ _
  case bcst => rw [vecValue, e]; exact laneAt_immVec h _
  case mov => rw [vecValue, e]
  case bits => exact ⟨fun e => by rw [vecValue, e]; rfl, fun e => by rw [vecValue, e]; rfl, fun e => by rw [vecValue, e]; rfl⟩

end Sys2Proof.Proofs
end

section
/-! PROOFS. Spill values that leave their places for core memory (R46, R47, R260). -/

namespace Sys2Proof.Machine

open Sys2Proof Sys2Proof.Safety

/-! ## Spill values that leave their places (R47) -/

/-- Two states in which the same core memory may be written and spill values have the same words of it. -/
def samePlaces (s u : State) : Prop := u.domRange = s.domRange ∧ ∀ d, ∃ l, u.core d = { s.core d with slots := l }

theorem samePlaces_refl (s : State) : samePlaces s s := ⟨rfl, fun _ => ⟨_, rfl⟩⟩

theorem samePlaces_trans {s u w : State} (h : samePlaces s u) (h' : samePlaces u w) : samePlaces s w := by
  refine ⟨h'.1.trans h.1, fun d => ?_⟩
  obtain ⟨l, hl⟩ := h.2 d
  obtain ⟨r, hr⟩ := h'.2 d
  exact ⟨r, by rw [hr, hl]⟩

theorem samePlaces_onSlot (s : State) (c t : Nat) (f : Slot → Slot) : samePlaces s (s.onSlot c t f) := by
  refine ⟨rfl, fun d => ?_⟩
  by_cases hd : d = c
  · subst hd
    rw [State.core_onSlot]
    exact ⟨_, rfl⟩
  · exact ⟨_, State.core_onSlot_ne _ _ _ _ _ hd⟩

theorem samePlaces_ownWord (s : State) (c : Nat) (dom : BitVec 6) (off : Nat) (v : Word) : samePlaces s (s.ownWord c dom off v) := by
  refine ⟨?_, fun d => ⟨_, State.core_ownWord _ _ _ _ _ _⟩⟩
  unfold State.ownWord
  split <;> rfl

theorem samePlaces_cleared (s : State) : samePlaces s s.cleared :=
  samePlaces_onSlot s s.cur.core s.cur.slot (fun x => { x with park := none })

section
variable {s u : State} (h : samePlaces s u)
include h

theorem spillOff_of_samePlaces (c t n : Nat) : u.spillOff c t n = s.spillOff c t n := by
  obtain ⟨l, hl⟩ := h.2 c
  rw [State.spillOff, hl, State.spillOff]

theorem foreign_of_samePlaces (d : Nat) (dom : BitVec 6) (off n : Nat) : u.foreign d dom off n = s.foreign d dom off n := by
  obtain ⟨l, hl⟩ := h.2 d
  rw [State.foreign, hl, h.1, State.foreign]

theorem fieldGuard_of_samePlaces (d off n : Nat) : u.fieldGuard d off n = s.fieldGuard d off n := by
  obtain ⟨l, hl⟩ := h.2 d
  rw [State.fieldGuard, hl, State.fieldGuard]

end

/-- Words of core c's memory, each with the spill value that goes there, of the values of slot t at places p (R46). -/
def State.movedWords (s : State) (c : Nat) (p : SpillPlace → Bool) (t : Nat) : List (Nat × SpillEntry) :=
  ((s.slot c t).spill.filter (fun e => p e.2.place)).map (fun e => (s.spillOff c t e.1, e.2))

theorem State.mem_movedWords {s : State} {c t : Nat} {p : SpillPlace → Bool} {w : Nat × SpillEntry} :
    w ∈ s.movedWords c p t ↔ ∃ e ∈ (s.slot c t).spill, p e.2.place = true ∧ w = (s.spillOff c t e.1, e.2) := by
  simp only [State.movedWords, List.mem_map, List.mem_filter]
  exact ⟨fun ⟨e, ⟨he, hp⟩, hw⟩ => ⟨e, he, hp, hw.symm⟩, fun ⟨e, he, hp, hw⟩ => ⟨e, ⟨he, hp⟩, hw.symm⟩⟩

/-- Memory with one such word, where it may be written (log entry 74). -/
def State.putWord (s : State) (c : Nat) (m : List Host.Cell) (w : Nat × SpillEntry) : List Host.Cell :=
  if s.foreign c w.2.dom w.1 8 || s.fieldGuard c w.1 8 then m else Memory.writeN m (coreKey c w.1) 8 w.2.val.toNat

theorem State.ownWord_mem (s : State) (c : Nat) (w : Nat × SpillEntry) : (s.ownWord c w.2.dom w.1 w.2.val).mem = s.putWord c s.mem w := by
  unfold State.ownWord State.putWord
  split <;> rfl

theorem State.putWord_of_samePlaces {s u : State} (h : samePlaces s u) (c : Nat) : u.putWord c = s.putWord c := by
  funext m w
  rw [State.putWord, foreign_of_samePlaces h, fieldGuard_of_samePlaces h, State.putWord]

/-- The spill values of one slot that move, entry by entry. -/
theorem foldl_ownWord {s u : State} (h : samePlaces s u) (c t : Nat) (p : SpillPlace → Bool) (l : Tbl SpillEntry) :
    let v := l.foldl (fun s e => if p e.2.place then s.ownWord c e.2.dom (s.spillOff c t e.1) e.2.val else s) u
    samePlaces s v ∧
      v.mem = ((l.filter (fun e => p e.2.place)).map (fun e => (s.spillOff c t e.1, e.2))).foldl (s.putWord c) u.mem := by
  induction l generalizing u with
  | nil => exact ⟨h, rfl⟩
  | cons e l ih =>
    rw [List.foldl_cons]
    cases hp : p e.2.place with
    | false => simpa [hp] using ih h
    | true =>
      have hw : (u.ownWord c e.2.dom (u.spillOff c t e.1) e.2.val).mem = s.putWord c u.mem (s.spillOff c t e.1, e.2) := by
        rw [spillOff_of_samePlaces h, State.ownWord_mem u c (s.spillOff c t e.1, e.2), State.putWord_of_samePlaces h]
      have := ih (samePlaces_trans h (samePlaces_ownWord u c e.2.dom (u.spillOff c t e.1) e.2.val))
      rw [hw] at this
      simpa [hp] using this

/-- The step of moveSpills for one slot. -/
theorem spillsMove_slot {s u : State} (h : samePlaces s u) (c t : Nat) (p : SpillPlace → Bool) (hs : u.slot c t = s.slot c t) :
    let v := (u.spillBytes c t p).onSlot c t (Slot.spillsOut p)
    samePlaces s v ∧ v.mem = (s.movedWords c p t).foldl (s.putWord c) u.mem ∧ v.slot c t = (s.slot c t).spillsOut p ∧
      (∀ q, q ≠ t → v.slot c q = u.slot c q) ∧ ∀ d, d ≠ c → v.core d = u.core d := by
  obtain ⟨hp, hm⟩ := foldl_ownWord h c t p (u.slot c t).spill
  refine ⟨samePlaces_trans hp (samePlaces_onSlot _ _ _ _), ?_, ?_, fun q hq => ?_, fun d hd => ?_⟩
  · rw [State.movedWords, ← hs]
    exact hm
  · rw [State.slot_onSlot, State.slot_spillBytes, hs]
  · rw [State.slot_onSlot_ne _ _ _ _ _ hq, State.slot_spillBytes]
  · rw [State.core_onSlot_ne _ _ _ _ _ hd, State.core_spillBytes]

/-- Spill values at places p of the slots of a list move to their words of core memory (R47). -/
theorem foldl_spillsMove {s u : State} (h : samePlaces s u) (c : Nat) (p : SpillPlace → Bool) {l : List Nat} (hl : l.Nodup)
    (hs : ∀ t ∈ l, u.slot c t = s.slot c t) :
    let v := l.foldl (fun s t => (s.spillBytes c t p).onSlot c t (Slot.spillsOut p)) u
    v.mem = (l.flatMap (s.movedWords c p)).foldl (s.putWord c) u.mem ∧
      (∀ q, v.slot c q = if q ∈ l then (s.slot c q).spillsOut p else u.slot c q) ∧ ∀ d, d ≠ c → v.core d = u.core d := by
  induction l generalizing u with
  | nil => exact ⟨rfl, fun q => rfl, fun d _ => rfl⟩
  | cons t l ih =>
    obtain ⟨hnot, hl⟩ := List.nodup_cons.mp hl
    obtain ⟨hp, hm, ht, hq, hd⟩ := spillsMove_slot h c t p (hs t List.mem_cons_self)
    have hne (q : Nat) (hmem : q ∈ l) : q ≠ t := fun e => hnot (e ▸ hmem)
    obtain ⟨im, iq, id⟩ := ih hp hl (fun q hmem => (hq q (hne q hmem)).trans (hs q (List.mem_cons_of_mem _ hmem)))
    refine ⟨?_, fun q => (iq q).trans ?_, fun d hdc => (id d hdc).trans (hd d hdc)⟩
    · rw [List.foldl_cons, im, hm, List.flatMap_cons, List.foldl_append]
    · by_cases hmem : q ∈ l
      · rw [if_pos hmem, if_pos (List.mem_cons_of_mem _ hmem)]
      · by_cases hqt : q = t
        · subst hqt
          rw [if_neg hmem, if_pos List.mem_cons_self, ht]
        · rw [if_neg hmem, if_neg (by simp [hmem, hqt]), hq q hqt]

theorem State.spillsMoved_mem (s : State) (c : Nat) (p : SpillPlace → Bool) :
    (s.spillsMoved c p).mem = ((List.range 13).flatMap (s.movedWords c p)).foldl (s.putWord c) s.mem := by
  rw [← State.moveSpills_eq]
  exact (foldl_spillsMove (samePlaces_refl s) c p List.nodup_range (fun _ _ => rfl)).1

theorem State.spillsMoved_slot (s : State) (c q : Nat) (p : SpillPlace → Bool) :
    (s.spillsMoved c p).slot c q = if q < 13 then (s.slot c q).spillsOut p else s.slot c q := by
  have h := (foldl_spillsMove (samePlaces_refl s) c p (List.nodup_range (n := 13)) (fun _ _ => rfl)).2.1 q
  simp only [List.mem_range] at h
  rw [← State.moveSpills_eq]
  exact h

theorem State.spillsMoved_core_ne (s : State) (c : Nat) (p : SpillPlace → Bool) {d : Nat} (h : d ≠ c) : (s.spillsMoved c p).core d = s.core d := by
  rw [← State.moveSpills_eq]
  exact (foldl_spillsMove (samePlaces_refl s) c p List.nodup_range (fun _ _ => rfl)).2.2 d h

/-! ## The words that move -/

/-- Two words of a core's memory apart. -/
def apart8 (a b : Nat) : Prop := a + 8 ≤ b ∨ b + 8 ≤ a

theorem Memory.readBytes_congr {m m' : List Host.Cell} {k : Nat} (n : Nat) (h : ∀ i, k ≤ i → i < k + n → Memory.read m i = Memory.read m' i) :
    Memory.readBytes m k n = Memory.readBytes m' k n := by
  induction n generalizing k with
  | zero => rfl
  | succ n ih => rw [Memory.readBytes, Memory.readBytes, h k (by omega) (by omega), ih (fun i h1 h2 => h i (by omega) (by omega))]

theorem State.read_putWord (s : State) (c : Nat) (m : List Host.Cell) (w : Nat × SpillEntry) {k : Nat}
    (h : k < coreKey c w.1 ∨ coreKey c w.1 + 8 ≤ k) : Memory.read (s.putWord c m w) k = Memory.read m k := by
  unfold State.putWord
  split
  · rfl
  · exact Memory.read_writeBytes_out _ _ _ _ (by simpa using h)

theorem State.wf_putWord (s : State) (c : Nat) {m : List Host.Cell} (w : Nat × SpillEntry) (h : Memory.wf m = true) :
    Memory.wf (s.putWord c m w) = true := by
  unfold State.putWord
  split
  · exact h
  · exact Memory.wf_writeN _ _ _ _ h

/-- Words that move leave every byte outside them. -/
theorem State.read_foldl_putWord (s : State) (c : Nat) (l : List (Nat × SpillEntry)) (m : List Host.Cell) {k : Nat}
    (h : ∀ w ∈ l, k < coreKey c w.1 ∨ coreKey c w.1 + 8 ≤ k) : Memory.read (l.foldl (s.putWord c) m) k = Memory.read m k := by
  induction l generalizing m with
  | nil => rfl
  | cons w l ih =>
    rw [List.foldl_cons, ih _ (fun x hx => h x (List.mem_cons_of_mem _ hx)), s.read_putWord c m w (h w List.mem_cons_self)]

/-- A word that moves, apart from every other one, is there afterwards. -/
theorem State.readBytes_foldl_putWord (s : State) (c : Nat) {w : Nat × SpillEntry} (hf : s.foreign c w.2.dom w.1 8 = false)
    (hg : s.fieldGuard c w.1 8 = false) {l : List (Nat × SpillEntry)} {m : List Host.Cell} (hm : Memory.wf m = true)
    (hl : ∀ x ∈ l, x = w ∨ apart8 x.1 w.1) (hw : w ∈ l ∨ Memory.readBytes m (coreKey c w.1) 8 = bytesOf 8 w.2.val.toNat) :
    Memory.readBytes (l.foldl (s.putWord c) m) (coreKey c w.1) 8 = bytesOf 8 w.2.val.toNat := by
  induction l generalizing m with
  | nil => simpa using hw
  | cons x l ih =>
    refine ih (s.wf_putWord c x hm) (fun y hy => hl y (List.mem_cons_of_mem _ hy)) ?_
    rcases hl x List.mem_cons_self with rfl | hap
    · have hput : s.putWord c m x = Memory.writeBytes m (coreKey c x.1) (bytesOf 8 x.2.val.toNat) := if_neg (by simp [hf, hg])
      have back := Memory.readBytes_writeBytes (bytesOf 8 x.2.val.toNat) m (coreKey c x.1) hm
      rw [bytesOf_length] at back
      exact .inr (by rw [hput, back])
    · rcases hw with hw | hw
      · rcases List.mem_cons.mp hw with rfl | hw
        · exact absurd hap (by simp only [apart8]; omega)
        · exact .inl hw
      · refine .inr ((Memory.readBytes_congr 8 (fun i h1 h2 => s.read_putWord c m x ?_)).trans hw)
        simp only [apart8, coreKey] at *
        omega

theorem State.coreWord_eq {s : State} {c off : Nat} {v : Word} (h : Memory.readBytes s.mem (coreKey c off) 8 = bytesOf 8 v.toNat) :
    s.coreWord c off = v := by
  apply BitVec.eq_of_toNat_eq
  rw [State.coreWord, Memory.readN, h, ofBytes_bytesOf, BitVec.toNat_ofNat]
  have := v.isLt
  omega

/-! ## A slot whose spill values move -/

/-- Whether a place is in tile t. -/
def inTileNo (t : TileNo) : SpillPlace → Bool
  | .tile u _ _ => u == t.toNat
  | _ => false

theorem inTileNo_iff (t : TileNo) (p : SpillPlace) : inTileNo t p = true ↔ ∃ x y, p = .tile t.toNat x y := by
  cases p with
  | tile u x y => simp [inTileNo]
  | bank u i => simp [inTileNo]
  | memory => simp [inTileNo]

theorem Slot.spillsOut_values (p : SpillPlace → Bool) (x : Slot) :
    (x.spillsOut p).spill.map (fun e => (e.1, e.2.val)) = x.spill.map (fun e => (e.1, e.2.val)) := by
  rw [Slot.spillsOut, List.map_map]
  refine List.map_congr_left (fun e _ => ?_)
  simp only [Function.comp_apply]
  split <;> rfl

theorem Slot.spillsOut_left {p : SpillPlace → Bool} {x : Slot} (hm : p .memory = false) {e : Nat × SpillEntry} (he : e ∈ (x.spillsOut p).spill) :
    p e.2.place = false := by
  obtain ⟨f, _, rfl⟩ := List.mem_map.mp he
  split
  · exact hm
  · next h => simpa using h

theorem Slot.spillsOut_moved {p : SpillPlace → Bool} {x : Slot} {e : Nat × SpillEntry} (he : e ∈ x.spill) (hp : p e.2.place = true) :
    (e.1, { e.2 with place := .memory }) ∈ (x.spillsOut p).spill :=
  List.mem_map.mpr ⟨e, he, if_pos hp⟩

/-- What a slot recalls is its spill values alone. -/
theorem Slot.recalled_congr {x y : Slot} (h : x.spill.map (fun e => (e.1, e.2.val)) = y.spill.map (fun e => (e.1, e.2.val))) (n : Nat) :
    x.recalled n = y.recalled n := by
  have values (z : Slot) : z.recalled n = (((z.spill.map (fun e => (e.1, e.2.val))).find? (fun e => e.1 == n)).map (·.2)).getD 0 := by
    rw [Slot.recalled, List.find?_map]
    change _ = Option.getD (Option.map _ (Option.map _ (z.spill.find? (fun e => e.1 == n)))) 0
    cases z.spill.find? (fun e => e.1 == n) <;> rfl
  rw [values, values, h]

end Sys2Proof.Machine
end

section
/-! PROOFS. TALLOC, TFREE, MPROG and MSTAT (R47, R190, R202, R362). -/

namespace Sys2Proof.Machine

open Sys2Proof Sys2Proof.Safety

/-! ## TALLOC (R47, R190) -/

theorem State.setTile_slot (s : State) (c : Nat) (t : TileNo) (x : Tile) (q : Nat) : (s.setTile c t x).slot c q = s.slot c q := State.slot_onCore rfl q
theorem State.tile_setTile (s : State) (c : Nat) (t : TileNo) (x : Tile) : (s.setTile c t x).tile c t = x := by
  rw [State.tile, State.setTile, State.core_onCore, tget_tset]
theorem State.tile_setTile_ne (s : State) (c : Nat) {t k : TileNo} (x : Tile) (h : k ≠ t) : (s.setTile c t x).tile c k = s.tile c k := by
  rw [State.tile, State.setTile, State.core_onCore, tget_tset_ne _ _ _ _ _ (fun e => h (BitVec.eq_of_toNat_eq e))]
  rfl

theorem State.retire_tile (s : State) (n : Need) (pc : Word) (k : TileNo) : (s.retire n pc).tile s.cur.core k = s.tile s.cur.core k := by
  rw [State.retire_setMe, State.tile, State.core_setMe, if_pos rfl]
  rfl

/-- Retirement leaves the spill values and the calls of every slot. -/
theorem State.retire_spill (s : State) (n : Need) (pc : Word) (q : Nat) :
    ((s.retire n pc).slot s.cur.core q).spill = (s.slot s.cur.core q).spill ∧ ((s.retire n pc).slot s.cur.core q).calls = (s.slot s.cur.core q).calls := by
  by_cases hq : q = s.cur.slot
  · subst hq
    change (s.retire n pc).me.spill = s.me.spill ∧ (s.retire n pc).me.calls = s.me.calls
    rw [State.retire_me, Slot.retired_spill, Slot.retired_calls]
    exact ⟨rfl, rfl⟩
  · have h : (s.retire n pc).slot s.cur.core q = s.slot s.cur.core q := by
      rw [State.retire_setMe, State.slot, State.core_setMe, if_pos rfl, Core.slot_setSlot_ne _ _ _ _ hq]
      rfl
    rw [h]
    exact ⟨rfl, rfl⟩

/-- The machine once TALLOC has emptied tile t of spill values and allocated it. -/
def State.tileTaken (s : State) (t : TileNo) (int : Bool) : State :=
  (s.spillsMoved s.cur.core (inTileNo t)).setTile s.cur.core t { alloc := true, int := int, elems := [] }

theorem execTalloc_done {s : State} {t : TileNo} (int : Bool) (h : mayIssue {} s = true) (ha : (s.tile s.cur.core t).alloc = false) :
    exec (.talloc t int) s = .next ((s.cleared.tileTaken t int).retire {} s.nextPc) := by
  change execTalloc t int s = _
  unfold execTalloc
  refine issue_done h ?_
  simp only [State.cleared_cur, State.cleared_tile, ha, Bool.false_eq_true, if_false]
  rw [State.tileTaken, ← State.moveSpills_eq]
  refine congrArg (fun p => Act.done ((s.cleared.moveSpills s.cur.core p).setTile s.cur.core t { alloc := true, int := int, elems := [] })) (funext fun p => ?_)
  cases p <;> rfl

section
variable (s : State) (t : TileNo) (int : Bool)

theorem State.tileTaken_cur : (s.tileTaken t int).cur = s.cur := (spillsOnly_spillsMoved _ _ _).1

theorem State.tileTaken_mem : (s.tileTaken t int).mem =
    ((List.range 13).flatMap (s.movedWords s.cur.core (inTileNo t))).foldl (s.putWord s.cur.core) s.mem := s.spillsMoved_mem _ _

theorem State.tileTaken_slot (q : Nat) : (s.tileTaken t int).slot s.cur.core q =
    if q < 13 then (s.slot s.cur.core q).spillsOut (inTileNo t) else s.slot s.cur.core q :=
  (State.setTile_slot _ _ _ _ _).trans (s.spillsMoved_slot _ _ _)

/-- The issuing slot changes in its spill map alone. -/
theorem State.tileTaken_me : ∃ l, (s.tileTaken t int).me = { s.me with spill := l } := by
  have h : (s.tileTaken t int).me = (s.tileTaken t int).slot s.cur.core s.cur.slot := by rw [State.me, State.tileTaken_cur]
  rw [h, State.tileTaken_slot]
  split
  · exact ⟨_, rfl⟩
  · exact ⟨_, rfl⟩

theorem State.tileTaken_tile : (s.tileTaken t int).tile s.cur.core t = { alloc := true, int := int, elems := [] } := State.tile_setTile _ _ _ _

theorem State.tileTaken_tile_ne {k : TileNo} (h : k ≠ t) : (s.tileTaken t int).tile s.cur.core k = s.tile s.cur.core k := by
  obtain ⟨y, hy⟩ := (spillsOnly_spillsMoved s s.cur.core (inTileNo t)).2.2.1 s.cur.core
  rw [State.tileTaken, State.tile_setTile_ne _ _ _ h, State.tile, hy]
  rfl

theorem State.tileTaken_core_ne {d : Nat} (h : d ≠ s.cur.core) : (s.tileTaken t int).core d = s.core d := by
  rw [State.tileTaken, State.setTile, State.core_onCore_ne _ _ _ _ h, State.spillsMoved_core_ne _ _ _ h]

end

theorem State.cleared_spill (s : State) (q : Nat) :
    (s.cleared.slot s.cur.core q).spill = (s.mine.slot q).spill ∧ (s.cleared.slot s.cur.core q).calls = (s.mine.slot q).calls := by
  obtain ⟨k, hk⟩ := s.cleared_slot q
  have h : s.cleared.slot s.cur.core q = { s.mine.slot q with park := k } := hk
  rw [h]
  exact ⟨rfl, rfl⟩

/-- The words of core memory to which the values in tile t move, as they stand before TALLOC. -/
theorem State.mem_tileWords {s : State} {t : TileNo} {w : Nat × SpillEntry} :
    w ∈ (List.range 13).flatMap (s.cleared.movedWords s.cur.core (inTileNo t)) ↔
      ∃ q, q < 13 ∧ ∃ e ∈ (s.mine.slot q).spill, (∃ x y, e.2.place = .tile t.toNat x y) ∧ w = (s.spillOff s.cur.core q e.1, e.2) := by
  simp only [List.mem_flatMap, List.mem_range, State.mem_movedWords, (s.cleared_spill _).1, inTileNo_iff, spillOff_of_samePlaces (samePlaces_cleared s)]

/-- The slot's part of TALLOC (R47): its values stay, in core memory where they were in the tile. -/
theorem tallocSlot {s : State} {t : TileNo} (int : Bool) (q : Nat) :
    let u := (s.cleared.tileTaken t int).retire {} s.nextPc
    (u.mine.slot q).spill = (if q < 13 then (s.mine.slot q).spillsOut (inTileNo t) else s.mine.slot q).spill ∧
      (u.mine.slot q).calls = (s.mine.slot q).calls := by
  have hcur := s.cleared.tileTaken_cur t int
  obtain ⟨hs, hc⟩ := (s.cleared.tileTaken t int).retire_spill {} s.nextPc q
  rw [hcur] at hs hc
  have hslot := s.cleared.tileTaken_slot t int q
  obtain ⟨ks, kc⟩ := s.cleared_spill q
  have hmine : ((s.cleared.tileTaken t int).retire {} s.nextPc).mine.slot q = ((s.cleared.tileTaken t int).retire {} s.nextPc).slot s.cleared.cur.core q := by
    rw [← hcur]
    rfl
  simp only [hmine, hs, hc, hslot]
  by_cases hq : q < 13
  · simp only [hq, if_true]
    exact ⟨congrArg (List.map _) ks, kc⟩
  · simp only [hq, if_false]
    exact ⟨ks, kc⟩

/-- What TALLOC of tile t leaves of the spill values of slot q: each keeps its value, and those that were in the tile are in core memory (R47, R190). -/
def valuesLeave (s u : State) (t : TileNo) (q : Nat) : Prop :=
  (u.mine.slot q).spill.map (fun e => (e.1, e.2.val)) = (s.mine.slot q).spill.map (fun e => (e.1, e.2.val)) ∧ (u.mine.slot q).calls = (s.mine.slot q).calls ∧
    ((s.mine.slot q).calls = [] → ∀ n, u.filled s.cur.core q n = s.filled s.cur.core q n) ∧
    (q < 13 → ∀ e ∈ (u.mine.slot q).spill, ∀ x y, e.2.place ≠ .tile t.toNat x y) ∧
    (q < 13 → ∀ e ∈ (s.mine.slot q).spill, (∃ x y, e.2.place = .tile t.toNat x y) →
      (e.1, { e.2 with place := .memory }) ∈ (u.mine.slot q).spill ∧
      (s.foreign s.cur.core e.2.dom (s.spillOff s.cur.core q e.1) 8 = false → s.fieldGuard s.cur.core (s.spillOff s.cur.core q e.1) 8 = false →
        (∀ r, r < 13 → ∀ f ∈ (s.mine.slot r).spill, (∃ x y, f.2.place = .tile t.toNat x y) → r = q ∧ f = e ∨
          s.spillOff s.cur.core r f.1 + 8 ≤ s.spillOff s.cur.core q e.1 ∨ s.spillOff s.cur.core q e.1 + 8 ≤ s.spillOff s.cur.core r f.1) →
        u.coreWord s.cur.core (s.spillOff s.cur.core q e.1) = e.2.val))

theorem talloc_valuesLeave {s : State} {t : TileNo} (int : Bool) (hi : memInv s) (q : Nat) :
    valuesLeave s ((s.cleared.tileTaken t int).retire {} s.nextPc) t q := by
  set u := (s.cleared.tileTaken t int).retire {} s.nextPc
  obtain ⟨hspill, hcalls⟩ := tallocSlot (s := s) (t := t) int q
  have hcur : u.cur = s.cur := s.cleared.tileTaken_cur t int
  have hslot : u.slot s.cur.core q = u.mine.slot q := by rw [← hcur]; rfl
  have values : (u.mine.slot q).spill.map (fun e => (e.1, e.2.val)) = (s.mine.slot q).spill.map (fun e => (e.1, e.2.val)) := by
    rw [hspill]
    split
    · exact Slot.spillsOut_values _ _
    · rfl
  refine ⟨values, hcalls, fun hc n => ?_, fun hq e he x y hp => ?_, fun hq e he hp => ⟨?_, fun hf hg hapart => State.coreWord_eq ?_⟩⟩
  · rw [State.filled_outside (by rw [hslot, hcalls, hc]), State.filled_outside (s := s) hc, hslot]
    exact Slot.recalled_congr values n
  · rw [hspill, if_pos hq] at he
    have out := Slot.spillsOut_left (p := inTileNo t) rfl he
    rw [(inTileNo_iff t _).mpr ⟨x, y, hp⟩] at out
    cases out
  · rw [hspill, if_pos hq]
    exact Slot.spillsOut_moved he ((inTileNo_iff t _).mpr hp)
  · have same := samePlaces_cleared s
    change Memory.readBytes (s.cleared.tileTaken t int).mem _ _ = _
    rw [State.tileTaken_mem]
    refine s.cleared.readBytes_foldl_putWord s.cur.core (w := (s.spillOff s.cur.core q e.1, e.2)) ?_ ?_ hi (fun x hx => ?_)
      (.inl (State.mem_tileWords.mpr ⟨q, hq, e, he, hp, rfl⟩))
    · rw [foreign_of_samePlaces same, hf]
    · rw [fieldGuard_of_samePlaces same, hg]
    · obtain ⟨r, hr, f, hmem, hplace, rfl⟩ := State.mem_tileWords.mp hx
      rcases hapart r hr f hmem hplace with ⟨rfl, rfl⟩ | h
      · exact .inl rfl
      · exact .inr h

theorem talloc_takes {s : State} {t : TileNo} {int : Bool} (h : mayIssue {} s = true) (hi : memInv s) (ha : (s.tile s.cur.core t).alloc = false) :
    ∃ u, exec (.talloc t int) s = .next u ∧ (u.tile s.cur.core t).alloc = true ∧ (u.tile s.cur.core t).int = int ∧ (∀ x y, (u.tile s.cur.core t).el x y = 0) ∧
      (∀ k, k ≠ t → u.tile s.cur.core k = s.tile s.cur.core k) ∧ regsKeep s u ∧ leftAs s u s.nextPc ∧
      (∀ q, valuesLeave s u t q) ∧
      (∀ k, (∀ q, q < 13 → ∀ e ∈ (s.mine.slot q).spill, (∃ x y, e.2.place = .tile t.toNat x y) →
          k < coreKey s.cur.core (s.spillOff s.cur.core q e.1) ∨ coreKey s.cur.core (s.spillOff s.cur.core q e.1) + 8 ≤ k) →
        Memory.read u.mem k = Memory.read s.mem k) ∧ (∀ d, d ≠ s.cur.core → u.core d = s.core d) := by
  have hcur := s.cleared.tileTaken_cur t int
  have tile (k : TileNo) : ((s.cleared.tileTaken t int).retire {} s.nextPc).tile s.cur.core k = (s.cleared.tileTaken t int).tile s.cur.core k := by
    have := (s.cleared.tileTaken t int).retire_tile {} s.nextPc k
    rwa [hcur] at this
  have taken := s.cleared.tileTaken_tile t int
  obtain ⟨l, hme⟩ := s.cleared.tileTaken_me t int
  rw [State.cleared_me] at hme
  refine ⟨_, execTalloc_done int h ha, ?_, ?_, fun x y => ?_, fun k hk => ?_, regsKeep_retire _ _ (by rw [hme]) (by rw [hme]),
    leftAs_retire _ rfl hcur (by rw [hme]) (by rw [hme]) (by rw [hme]) (by rw [hme]), talloc_valuesLeave int hi, fun k hk => ?_, fun d hd => ?_⟩
  · rw [tile]; exact congrArg Tile.alloc taken
  · rw [tile]; exact congrArg Tile.int taken
  · rw [tile]; exact congrArg (fun x' : Tile => x'.el x y) taken
  · rw [tile]; exact (s.cleared.tileTaken_tile_ne t int hk).trans (s.cleared_tile k)
  · rw [State.retire_mem, State.tileTaken_mem]
    refine s.cleared.read_foldl_putWord _ _ _ (fun w hw => ?_)
    obtain ⟨q, hq, e, he, hp, rfl⟩ := State.mem_tileWords.mp hw
    exact hk q hq e he hp
  · refine (State.retire_core_ne _ _ _ (by rw [hcur]; exact hd)).trans ((s.cleared.tileTaken_core_ne t int hd).trans ?_)
    rw [State.cleared_core, if_neg hd]

/-! ## TFREE and TILE (R190, R362) -/

theorem State.cleared_cmds (s : State) (e : Nat) : s.cleared.mine.cmds e = s.mine.cmds e := by
  rw [State.cleared_mine]
  rfl

theorem tfree_frees {s : State} {t : TileNo} (h : mayIssue {} s = true) (ha : (s.tile s.cur.core t).alloc = true)
    (hn : ∀ m ∈ s.mine.cmds 0, tileNamed m.instr ≠ some t) :
    ∃ u, exec (.tfree t) s = .next u ∧ (u.tile s.cur.core t).alloc = false ∧ (∀ k, k ≠ t → u.tile s.cur.core k = s.tile s.cur.core k) ∧ regsKeep s u ∧
      leftAs s u s.nextPc ∧ u.mem = s.mem ∧ onlyMine s u := by
  have unnamed : (s.mine.cmds 0).any (fun m => tileNamed m.instr == some t) = false := by
    rw [List.any_eq_false]
    intro m hm
    simpa using hn m hm
  have hx : exec (.tfree t) s = execTfree t s := rfl
  have tiles {u : State} (ho : onlyMine s u)
      (hm : u.mine = ({ s.cleared.mine with tiles := tset s.cleared.mine.tiles t.toNat Tile.reset } : Core).setSlot s.cur.slot u.me) :
      (u.core s.cur.core).tiles = tset s.mine.tiles t.toNat Tile.reset := by
    have hk : u.core s.cur.core = u.mine := by
      rw [onlyMine] at ho
      rw [ho, State.core_setCore]
      simp [State.mine]
    rw [hk, hm, State.cleared_mine]
    rfl
  rw [hx]
  refine (issue_onMine (g := fun k => { k with tiles := tset k.tiles t.toNat Tile.reset }) h rfl ?_ (fun _ => rfl)).imp
    (fun u ⟨hu, hm, hmem, _, hl, hr, ho⟩ => ⟨hu, ?_, fun k hk => ?_, hr, hl, hmem, ho⟩)
  · simp only [State.cleared_cur, State.cleared_tile, ha, State.cleared_cmds, unnamed, Bool.not_true, Bool.false_eq_true, if_false]
    rfl
  · rw [State.tile, tiles ho hm, tget_tset]
    rfl
  · rw [State.tile, tiles ho hm, tget_tset_ne _ _ _ _ _ (fun e => hk (BitVec.eq_of_toNat_eq e))]
    rfl

theorem tile_traps {s : State} (t : TileNo) (int : Bool) (h : mayIssue {} s = true) :
    ((s.tile s.cur.core t).alloc = true → traps (.talloc t int) s 0x12 0 (BitVec.ofNat 64 (t.toNat + 16))) ∧
    ((s.tile s.cur.core t).alloc = false → traps (.tfree t) s 0x12 0 (BitVec.ofNat 64 (t.toNat + 32))) := by
  have hb := mayIssue_branches h rfl
  refine ⟨fun ha => ?_, fun ha => ?_⟩
  · change execTalloc t int s = _
    refine issue_traps h hb ?_
    simp only [State.cleared_cur, State.cleared_tile, ha, if_true]
    rfl
  · change execTfree t s = _
    refine issue_traps h hb ?_
    simp only [State.cleared_cur, State.cleared_tile, ha, Bool.not_false, if_true]
    rfl

/-! ## MPROG (R202) -/

/-- The slot at hand once a value is on its way to d. -/
def Slot.owed (x : Slot) (d : Reg) (v : Word) : Slot :=
  if d = 0 then x else { x with results := x.results ++ [{ reg := d, val := v, depth := 0, acq := false }] }

/-- An instruction of variable latency that has sent a value to d (R36). -/
theorem sentResult_retire {s w : State} {n : Need} {d : Reg} {v : Word} (hv : n.var = true) (hw : n.ws = [d]) (hc : w.cur = s.cur)
    (hme : w.me = { s.me with park := none }) : sentResult s ((w.onMe (fun x => x.owed d v)).retire n s.nextPc) d v := by
  have hx : (w.onMe (fun x => x.owed d v)).me = ({ s.me with park := none } : Slot).owed d v := by rw [State.me_onMe, hme]
  have fields : ∃ l, ({ s.me with park := none } : Slot).owed d v = { s.me with park := none, results := l } := by
    unfold Slot.owed
    split
    · exact ⟨_, rfl⟩
    · exact ⟨_, rfl⟩
  refine ⟨?_, ?_, ?_⟩
  · rw [State.retire_me, Slot.retired_results, hx, Slot.owed]
    split
    · rfl
    · exact ⟨_, rfl, rfl, rfl⟩
  · obtain ⟨l, hl⟩ := fields
    exact leftPending_retire _ hv hw hc (by rw [hx, hl]) (by rw [hx, hl]) (by rw [hx, hl]) (by rw [hx, hl])
  · obtain ⟨l, hl⟩ := fields
    exact regsKeep_retire _ _ (by rw [hx, hl]) (by rw [hx, hl])

theorem State.cleared_exec (s : State) (e : Nat) : tget s.cleared.mine.exec e [] = tget s.mine.exec e [] := by
  rw [State.cleared_mine]
  rfl

theorem State.cleared_matWork (s : State) (m : Cmd) : s.cleared.matWork s.cur.core m = s.matWork s.cur.core m := by
  simp only [State.matWork, State.cleared_tile]

theorem mprog_idle {s : State} {d : Reg} (h : mayIssue { ws := [d], var := true } s = true) (hn : ∀ m ∈ tget s.mine.exec 0 [], m.slot ≠ s.cur.slot) :
    ∃ u, exec (.mprog d) s = .next u ∧ sentResult s u d 0 ∧ onlyMe s u := by
  have idle : (tget s.mine.exec 0 []).find? (fun m => m.slot == s.cur.slot) = none := by
    rw [List.find?_eq_none]
    intro m hm
    simpa using hn m hm
  have hx : exec (.mprog d) s = execMprog d s := rfl
  rw [hx]
  refine ⟨_, issue_done (t := s.cleared.onMe (fun x => x.owed d 0)) h ?_, sentResult_retire rfl rfl rfl s.cleared_me, onlyMe_retire _ _ ?_⟩
  · simp only [State.cleared_exec, State.cleared_cur, idle]
    rfl
  · rw [State.cleared_onMe]
    exact onlyMe_setMe _ _

theorem mprog_shows {s : State} {d : Reg} {m : Cmd} (h : mayIssue { ws := [d], var := true } s = true)
    (hm : (tget s.mine.exec 0 []).find? (fun m => m.slot == s.cur.slot) = some m) :
    ∃ u n, exec (.mprog d) s = .next u ∧ m.shown ≤ n ∧ n ≤ max m.shown (s.matWork s.cur.core m) ∧
      sentResult s u d (BitVec.ofNat 64 (n + m.num % 2 ^ 32 * 2 ^ 32)) ∧ u.mem = s.mem := by
  have hx : exec (.mprog d) s = execMprog d s := rfl
  have free : Config.progressLag s.fresh % (s.matWork s.cur.core m + 1) ≤ s.matWork s.cur.core m := Nat.le_of_lt_succ (Nat.mod_lt _ (Nat.succ_pos _))
  have hme (n : Nat) : (({ s.cleared with fresh := n } : State).setCmd s.cur.core 0 { m with
      shown := max m.shown (Config.progressLag s.fresh % (s.matWork s.cur.core m + 1)) }).me = { s.me with park := none } :=
    (State.me_onMine (s := { s.cleared with fresh := n }) rfl).trans s.cleared_me
  rw [hx]
  refine ⟨_, max m.shown (Config.progressLag s.fresh % (s.matWork s.cur.core m + 1)), issue_done (t := (({ s.cleared with fresh := s.fresh + 1 } : State).setCmd
    s.cur.core 0 { m with shown := max m.shown (Config.progressLag s.fresh % (s.matWork s.cur.core m + 1)) }).onMe (fun x => x.owed d _)) h ?_,
    le_max_left _ _, max_le_max_left _ free, sentResult_retire rfl rfl rfl (hme _), rfl⟩
  simp only [State.cleared_exec, State.cleared_cur, hm, State.cleared_matWork]
  rfl

/-! ## MSTAT (R202) -/

/-- A slot with its sticky bits cleared, where asked. -/
def Slot.unstuck (x : Slot) (clr : Bool) : Slot := if clr then { x with iovf := false, dnan := false, dovf := false } else x

theorem Slot.unstuck_eq (x : Slot) (clr : Bool) :
    x.unstuck clr = { x with iovf := x.iovf && !clr, dnan := x.dnan && !clr, dovf := x.dovf && !clr } := by
  cases clr with
  | true => simp [Slot.unstuck]
  | false => simp [Slot.unstuck]

theorem Slot.retired_sticky (x : Slot) (n : Need) (now : Nat) (mark : Bool) (pc : Word) :
    (x.retired n now mark pc).iovf = x.iovf ∧ (x.retired n now mark pc).dnan = x.dnan ∧ (x.retired n now mark pc).dovf = x.dovf := by
  obtain ⟨p, u, m, k, h⟩ := x.retired_eq n now mark pc
  rw [h]
  exact ⟨rfl, rfl, rfl⟩

/-- The slot at hand after MSTAT. -/
def State.statRead (s : State) (d : Reg) (clr : Bool) : Slot :=
  (({ s.me with park := none } : Slot).wr d (mstatWord s.me ((s.mine.cmds 0).any (fun m => m.slot == s.cur.slot)))).unstuck clr

theorem State.statRead_eq (s : State) (d : Reg) (clr : Bool) : s.statRead d clr = { s.me with
    park := none, g := (({ s.me with park := none } : Slot).wr d (mstatWord s.me ((s.mine.cmds 0).any (fun m => m.slot == s.cur.slot)))).g,
    iovf := s.me.iovf && !clr, dnan := s.me.dnan && !clr, dovf := s.me.dovf && !clr } := by
  rw [State.statRead, Slot.unstuck_eq, Slot.wr_file]

theorem mstat_shows {s : State} {d : Reg} (clr : Bool) (h : mayIssue { ws := [d] } s = true) :
    ∃ u, exec (.mstat d clr) s = .next u ∧ leftAs s u s.nextPc ∧ othersKeep s u d ∧ u.me.v = s.me.v ∧ onlyMe s u ∧
      u.me.rd d = written d (BitVec.ofNat 64 (ofBool s.me.iovf + ofBool s.me.dnan * 2 + ofBool s.me.dovf * 4 +
        ofBool (s.mine.cmds 0 |>.any (fun m => m.slot == s.cur.slot)) * 8)) ∧
      u.me.iovf = (s.me.iovf && !clr) ∧ u.me.dnan = (s.me.dnan && !clr) ∧ u.me.dovf = (s.me.dovf && !clr) := by
  have hx : exec (.mstat d clr) s = execMstat d clr s := rfl
  have hy : (s.setMe (s.statRead d clr)).me = s.statRead d clr := State.me_setMe _ _
  have hf := s.statRead_eq d clr
  have hu : ((s.setMe (s.statRead d clr)).retire { ws := [d] } s.nextPc).me = (s.statRead d clr).retired { ws := [d] } s.rtime.toNat s.cur.mark s.nextPc := by
    rw [State.retire_me, hy]
    rfl
  have rd (r : Reg) := Slot.rd_congr (x := ((s.setMe (s.statRead d clr)).retire { ws := [d] } s.nextPc).me) (y := ({ s.me with park := none } : Slot).wr d
    (mstatWord s.me ((s.mine.cmds 0).any (fun m => m.slot == s.cur.slot)))) (by rw [hu, Slot.retired_g, hf]) r
  obtain ⟨iovf, dnan, dovf⟩ := (s.statRead d clr).retired_sticky { ws := [d] } s.rtime.toNat s.cur.mark s.nextPc
  rw [hx]
  refine ⟨_, issue_done (t := s.setMe (s.statRead d clr)) h ?_, leftAs_retire _ rfl rfl (by rw [hy, hf]) (by rw [hy, hf]) (by rw [hy, hf]) (by rw [hy, hf]),
    fun r hr => (rd r).trans (Slot.rd_wr_ne _ _ _ _ hr), ?_, onlyMe_retire _ _ (onlyMe_setMe _ _), (rd d).trans (Slot.rd_wr _ _ _), ?_, ?_, ?_⟩
  · simp only [State.cleared_cmds, State.cleared_cur, State.cleared_onMe]
    rfl
  · rw [hu, Slot.retired_v, hf]
  · rw [hu, iovf, hf]
  · rw [hu, dnan, hf]
  · rw [hu, dovf, hf]

end Sys2Proof.Machine

namespace Sys2Proof.Proofs

open Sys2Proof Sys2Proof.Machine Sys2Proof.Safety

/-- Settles O45: TALLOC moves the values of its tile to words of core memory, each written once; the other three change a tile or a register alone. -/
theorem tilesAndStatus : Obligations.TilesAndStatus :=
  ⟨fun _ _ _ h hi ha => talloc_takes h hi ha, fun _ _ h ha hn => tfree_frees h ha hn, fun _ t int h => tile_traps t int h,
    fun _ _ h => ⟨mprog_idle h, fun _ hm => mprog_shows h hm⟩, fun _ _ clr h => mstat_shows clr h⟩

end Sys2Proof.Proofs
end

section
/-! PROOFS. Copy commands at issue, CPROG, and the receive windows (R204 to R212, R363, R370). -/

namespace Sys2Proof.Machine

open Sys2Proof Sys2Proof.Safety

/-! ## Issue (R204 to R209) -/

/-- A word below 2^40 has bits [63:40] clear (R204). -/
theorem fld_high_eq_zero {w : Word} : fld w 40 24 = 0 ↔ w.toNat < 2 ^ 40 := by
  have hw := w.isLt
  simp only [fld, Nat.shiftRight_eq_div_pow]
  omega

theorem copyCmd_enters {i : Instr} {s : State} {a b c : Reg} (h : mayIssue { rs := [a, b, c], late := false } s = true) (ho : queueOpen s 2 = true)
    (hl : (s.me.rd c).toNat < 2 ^ 40) :
    ∃ u, copyCmd i a b c s = .next u ∧ entered s u 2 i [s.me.rd a, s.me.rd b, s.me.rd c] ∧ leftAs s u s.nextPc := by
  refine issue_enters h ho ?_ rfl
  simp only [State.cleared_rd, fld_high_eq_zero.mpr hl, ne_eq, not_true, if_false]

theorem State.cleared_jobgrid (s : State) : s.cleared.mine.jobgrid = s.mine.jobgrid := by
  rw [State.cleared_mine]
  rfl

theorem execCpym_enters {s : State} {a b c : Reg} (h : mayIssue { rs := [a, b, c], late := false } s = true) (ho : queueOpen s 2 = true)
    (hl : (s.me.rd c).toNat < 2 ^ 40) (ha : (s.me.rd a).toNat < 0x80000) (hr : rectInside s.me.ec.cpymask s.mine.jobgrid = true) :
    ∃ u, execCpym a b c s = .next u ∧ entered s u 2 (.cpym a b c) [s.me.rd a, s.me.rd b, s.me.rd c] ∧ leftAs s u s.nextPc := by
  refine issue_enters h ho ?_ rfl
  have offset : ¬Config.coreBytes ≤ (s.me.rd a).toNat := Nat.not_le.mpr ha
  simp only [State.cleared_rd, State.cleared_ec, State.cleared_jobgrid, fld_high_eq_zero.mpr hl, offset, hr, ne_eq, not_true, Bool.true_eq_false, or_self, if_false]

theorem execCpy2_enters {s : State} {a b : Reg} {tr : Bool} {es : BitVec 2} (h : mayIssue { rs := [a, b], late := false } s = true) (ho : queueOpen s 2 = true)
    (ht : tr = true → (s.me.rd a).toNat % 2 ^ es.toNat = 0 ∧ (s.me.rd b).toNat % 2 ^ es.toNat = 0 ∧ s.me.ec.cpyw.toNat % 2 ^ 40 % 2 ^ es.toNat = 0) :
    ∃ u, execCpy2 a b tr es s = .next u ∧ entered s u 2 (.cpy2 a b tr es) [s.me.rd a, s.me.rd b] ∧ leftAs s u s.nextPc := by
  refine issue_enters h ho ?_ rfl
  cases tr with
  | false => simp only [State.cleared_rd, Bool.false_and, Bool.false_eq_true, if_false]
  | true =>
    obtain ⟨ha, hb, hw⟩ := ht rfl
    simp only [State.cleared_rd, State.cleared_ec, fld_low, aligned, ha, hb, hw, beq_self_eq_true, bne_self_eq_false, Bool.not_true, Bool.and_false,
      Bool.false_eq_true, if_false]

/-- A length of 2^40 bytes or more takes ENGINE reason 2 (R204, R363). -/
theorem copyLength_traps {f : State → Act} {s : State} {n : Need} (h : mayIssue n s = true) (hb : s.me.branches = []) (hf : f s.cleared = engTrap 2 2 0 s.cleared) :
    issue n f s = .next (s.issueTrap 0x15 0 (BitVec.ofNat 64 (2 + 2 * 16 + ((ectx s.me.issued 2).toNat + 1) % 2 ^ 32 * 2 ^ 32))) := by
  refine issue_traps h hb ?_
  have next : s.cleared.me.nextNum 2 = (ectx s.me.issued 2).toNat + 1 := by rw [Slot.nextNum, State.cleared_me]
  rw [hf, engTrap, next]
  rfl

theorem copies_trap {i : Instr} {s : State} {a b c : Reg} (hi : i ∈ [Instr.cpy a b c, .cfill a b c, .cpym a b c])
    (h : mayIssue { rs := [a, b, c], late := false } s = true) (hb : s.me.branches = []) (hl : 2 ^ 40 ≤ (s.me.rd c).toNat) :
    traps i s 0x15 0 (BitVec.ofNat 64 (2 + 2 * 16 + ((ectx s.me.issued 2).toNat + 1) % 2 ^ 32 * 2 ^ 32)) := by
  have long : fld (s.me.rd c) 40 24 ≠ 0 := fun e => absurd (fld_high_eq_zero.mp e) (Nat.not_lt.mpr hl)
  have plain (j : Instr) : copyCmd j a b c s = .next (s.issueTrap 0x15 0 (BitVec.ofNat 64 (2 + 2 * 16 + ((ectx s.me.issued 2).toNat + 1) % 2 ^ 32 * 2 ^ 32))) :=
    copyLength_traps h hb (by simp only [State.cleared_rd, long, ne_eq, not_false_eq_true, if_true])
  simp only [List.mem_cons, List.not_mem_nil, or_false] at hi
  rcases hi with rfl | rfl | rfl
  · exact plain _
  · exact plain _
  · change execCpym a b c s = _
    exact copyLength_traps h hb (by simp only [State.cleared_rd, long, ne_eq, not_false_eq_true, true_or, if_true])

/-! ## CPROG (R210) -/

theorem State.cleared_copyBytes (s : State) : s.cleared.me.copyBytes = s.me.copyBytes := congrArg (·.copyBytes) s.cleared_me

theorem cprog_completed {s : State} {d b : Reg} (h : mayIssue { rs := [b], ws := [d] } s = true)
    (hn : ∀ m ∈ tget s.mine.exec 2 [], m.slot = s.cur.slot → m.num ≠ (s.me.rd b).toNat) :
    ∃ u, exec (.cprog d b) s = .next u ∧ wroteReg s u d (BitVec.ofNat 64 (tget s.me.copyBytes (s.me.rd b).toNat 0)) := by
  have hf : (tget s.mine.exec 2 []).find? (fun m => m.slot == s.cur.slot && m.num == (s.me.rd b).toNat) = none := by
    rw [List.find?_eq_none]
    intro m hm
    simpa using hn m hm
  change ∃ u, execCprog d b s = _ ∧ _
  unfold execCprog
  refine issue_writes h rfl ?_
  simp only [State.cleared_rd, State.cleared_exec, State.cleared_cur, State.cleared_copyBytes, hf]

theorem cprog_executing {s : State} {d b : Reg} {m : Cmd} (h : mayIssue { rs := [b], ws := [d] } s = true) (hm : m.isMarker = false)
    (hf : (tget s.mine.exec 2 []).find? (fun m => m.slot == s.cur.slot && m.num == (s.me.rd b).toNat) = some m) :
    ∃ u, exec (.cprog d b) s = .next u ∧ wroteReg s u d (BitVec.ofNat 64 (copyProgress m)) := by
  change ∃ u, execCprog d b s = _ ∧ _
  unfold execCprog
  refine issue_writes h rfl ?_
  simp only [State.cleared_rd, State.cleared_exec, State.cleared_cur, hf, hm, Bool.false_eq_true, if_false]

/-! ## Receive windows (R211, R212) -/

theorem State.cleared_windows (s : State) : s.cleared.mine.windows = s.mine.windows := by
  rw [State.cleared_mine]
  rfl

/-- An instruction that puts window n of its core in a new state, and goes on. -/
theorem issue_setsWindow {n : Need} {f : State → Act} {s : State} (w : Nat) (x : Window) (h : mayIssue n s = true) (hn : n.var = false)
    (hf : f s.cleared = .done (s.cleared.onMine (fun k => { k with windows := tset k.windows w x }))) :
    ∃ u, issue n f s = .next u ∧ tget u.mine.windows w Window.reset = x ∧
      (∀ k, k ≠ w → tget u.mine.windows k Window.reset = tget s.mine.windows k Window.reset) ∧ regsKeep s u ∧ leftAs s u s.nextPc ∧ u.mem = s.mem ∧ onlyMine s u := by
  obtain ⟨u, hu, hm, hmem, _, hl, hr, ho⟩ := issue_onMine h hn hf (fun _ => rfl)
  have windows : u.mine.windows = tset s.mine.windows w x := by
    rw [hm, State.cleared_mine]
    rfl
  exact ⟨u, hu, by rw [windows, tget_tset], fun k hk => by rw [windows, tget_tset_ne _ _ _ _ _ hk], hr, hl, hmem, ho⟩

theorem spaceOf_self {a : Word} {off : Nat} (h : spaceOf a = .self off) : off = a.toNat % 2 ^ 19 := by
  simp only [spaceOf] at h
  split at h
  · cases h
  split at h
  · split at h <;> cases h
  split at h
  · split at h <;> cases h
  split at h
  · split at h
    · rw [← Space.self.inj h, fld_low]
    · cases h
  · cases h

theorem rxopen_opens {s : State} {n : BitVec 2} {w r : Bool} {a b : Reg} {off : Nat} (h : mayIssue { rs := [a, b] } s = true)
    (hs : spaceOf (s.me.rd a) = .self off) (ho : off % 64 = 0) (h0 : 0 < (s.me.rd b).toNat) (hb : (s.me.rd b).toNat % 64 = 0)
    (hl : off + (s.me.rd b).toNat ≤ 0x80000) :
    ∃ u, exec (.rxopen n w r a b) s = .next u ∧
      tget u.mine.windows n.toNat Window.reset = { isOpen := true, w := w, r := r, base := off, len := (s.me.rd b).toNat, cnt := 0, known := true } ∧
      (∀ k, k ≠ n.toNat → tget u.mine.windows k Window.reset = tget s.mine.windows k Window.reset) ∧ regsKeep s u ∧ leftAs s u s.nextPc ∧ u.mem = s.mem ∧ onlyMine s u := by
  have fits : ¬(off % 64 ≠ 0 ∨ (s.me.rd b).toNat = 0 ∨ (s.me.rd b).toNat % 64 ≠ 0 ∨ Config.coreBytes < off + (s.me.rd b).toNat) := by
    have size : Config.coreBytes = 0x80000 := rfl
    omega
  change ∃ u, execRxopen n w r a b s = _ ∧ _
  unfold execRxopen
  refine issue_setsWindow n.toNat _ h rfl ?_
  simp only [State.cleared_rd, hs, if_neg fits]

theorem rxopen_refuses {s : State} {n : BitVec 2} {w r : Bool} {a b : Reg} (h : mayIssue { rs := [a, b] } s = true)
    (hbad : (∀ off, spaceOf (s.me.rd a) ≠ .self off) ∨ (s.me.rd a).toNat % 64 ≠ 0 ∨ (s.me.rd b).toNat = 0 ∨ (s.me.rd b).toNat % 64 ≠ 0 ∨
      0x80000 < (s.me.rd a).toNat % 2 ^ 19 + (s.me.rd b).toNat) : traps (.rxopen n w r a b) s 0x01 0 3 := by
  change execRxopen n w r a b s = _
  refine issue_traps h (mayIssue_branches h rfl) ?_
  simp only [State.cleared_rd]
  split
  · next off hs =>
    have hoff := spaceOf_self hs
    have size : Config.coreBytes = 0x80000 := rfl
    rw [if_pos]
    · rfl
    · rcases hbad with hne | hbad
      · exact absurd hs (hne off)
      · omega
  · rfl

theorem rxclose_closes {s : State} {n : BitVec 2} (h : mayIssue {} s = true) :
    ∃ u, exec (.rxclose n) s = .next u ∧ (tget u.mine.windows n.toNat Window.reset).isOpen = false ∧
      (tget u.mine.windows n.toNat Window.reset).cnt = (tget s.mine.windows n.toNat Window.reset).cnt ∧
      (tget u.mine.windows n.toNat Window.reset).base = (tget s.mine.windows n.toNat Window.reset).base ∧
      (tget u.mine.windows n.toNat Window.reset).len = (tget s.mine.windows n.toNat Window.reset).len ∧
      (∀ k, k ≠ n.toNat → tget u.mine.windows k Window.reset = tget s.mine.windows k Window.reset) ∧ regsKeep s u ∧ leftAs s u s.nextPc ∧ u.mem = s.mem ∧ onlyMine s u := by
  have hx : exec (.rxclose n) s = execRxclose n s := rfl
  have closed : execRxclose n s = issue {} (fun _ => .done (s.cleared.onMine (fun k =>
      { k with windows := tset k.windows n.toNat { tget s.mine.windows n.toNat Window.reset with isOpen := false } }))) s := by
    rw [execRxclose, issue_eq h, issue_eq h, State.onMine_def, State.onMine_def, State.cleared_windows]
  obtain ⟨u, hu, hw, hk, hrest⟩ := issue_setsWindow (f := fun _ => _) n.toNat _ h rfl rfl
  exact ⟨u, hx.trans (closed.trans hu), by rw [hw], by rw [hw], by rw [hw], by rw [hw], hk, hrest⟩

theorem rxcnt_reads {s : State} {d : Reg} {n : BitVec 2} (h : mayIssue { ws := [d] } s = true) :
    ∃ u, exec (.rxcnt d n) s = .next u ∧ wroteReg s u d (tget s.mine.windows n.toNat Window.reset).cnt := by
  change ∃ u, execRxcnt d n s = _ ∧ _
  unfold execRxcnt
  refine issue_writes h rfl ?_
  rw [State.cleared_windows]

end Sys2Proof.Machine
end

section
/-! PROOFS. Where an engine may read and write, and that its own reads and writes do not change that (R205, R309). -/

namespace Sys2Proof.Machine

open Sys2Proof Sys2Proof.Safety

/-! ## The place of an engine's access -/

/-- What lets an engine's access of n bytes go to place p (R195, R245, R338, R371, R377). -/
structure Admits (s : State) (g : Agent) (a : Word) (n acc need : Nat) (p : Place) : Prop where
  space : spaceOf a ≠ .reserved
  page : g.walk.refusal a (accWrites acc) = none
  place : g.place a = some p
  rights : p.lacks acc = false
  row : s.rowCut g.core a = false
  awake : s.targetPaused g.core a = false
  allowed : s.deny g a n p acc .engine = none
  staged : ∀ o, s.objOf p = some o → ∃ e, s.dirCheck o g.core need 0 false = .legal e
  plain : s.objOf p = none → s.capDeny g.core a p acc = none
  port : s.objOf p = none → p.peer ≠ none → s.portUp p = true

theorem State.engPlace_ok {s : State} {g : Agent} {a : Word} {n acc need : Nat} {p : Place} :
    s.engPlace g a n acc need = .ok p ↔ Admits s g a n acc need p := by
  unfold State.engPlace State.unitPlace
  constructor
  · intro h
    split at h
    · cases h
    next hspace =>
    split at h
    · cases h
    · cases h
    next q hpage hplace =>
    split at h
    · cases h
    next hrights =>
    split at h
    · cases h
    next hrow =>
    split at h
    · cases h
    next hawake =>
    split at h
    · cases h
    next hdeny =>
    have place : q = p := by
      split at h
      · split at h <;> cases h
        rfl
      · split at h
        · cases h
        · split at h
          · split at h <;> cases h
            rfl
          · cases h
            rfl
    subst place
    refine ⟨hspace, hpage, hplace, by simpa using hrights, by simpa using hrow, by simpa using hawake, hdeny, fun o ho => ?_, fun ho => ?_, fun ho hpeer => ?_⟩
    · simp only [ho] at h
      split at h
      · next e he => exact ⟨e, he⟩
      · cases h
      · cases h
    · simp only [ho] at h
      split at h
      · cases h
      · next hcap => exact hcap
    · simp only [ho] at h
      split at h
      · cases h
      · split at h
        · split at h
          · next hup => exact hup
          · cases h
        · next hnone => exact absurd hnone hpeer
  · intro ⟨hspace, hpage, hplace, hrights, hrow, hawake, hdeny, hstaged, hplain, hport⟩
    split
    · next h => exact absurd h hspace
    simp only [hpage, hplace, hrights, hrow, hawake, hdeny, Bool.false_eq_true, if_false]
    cases ho : s.objOf p with
    | some o =>
      obtain ⟨e, he⟩ := hstaged o ho
      simp only [he]
    | none =>
      simp only [hplain ho]
      cases hpeer : p.peer with
      | none => rfl
      | some q => simp only [hport ho (by simp [hpeer]), if_true]

/-! ## What engines do not change -/

/-- A window apart from its count. -/
def Window.fixed (x : Window) : Window := { x with cnt := 0 }
/-- A core apart from its engines' commands and its windows. -/
def Core.fixed (k : Core) : Core := { k with queue := [], exec := [], windows := [] }
/-- The machine apart from its cores, its memory, and the free values given out. -/
def State.fixed (s : State) : State := { s with cores := [], mem := [], poison := [], wkey := [], fresh := 0 }

/-- u has the same rules as s for every access: they differ in bytes, in commands and in windows' counts alone. -/
structure SameRules (s u : State) : Prop where
  state : u.fixed = s.fixed
  core : ∀ d, (u.core d).fixed = (s.core d).fixed
  window : ∀ d i, (tget (u.core d).windows i Window.reset).fixed = (tget (s.core d).windows i Window.reset).fixed

theorem SameRules.refl (s : State) : SameRules s s := ⟨rfl, fun _ => rfl, fun _ _ => rfl⟩

theorem SameRules.trans {s u v : State} (h : SameRules s u) (h' : SameRules u v) : SameRules s v :=
  ⟨h'.state.trans h.state, fun d => (h'.core d).trans (h.core d), fun d i => (h'.window d i).trans (h.window d i)⟩

/-- An agent whose walk has gone on, with the same translations found, pages refused and page asked for. -/
structure SameAgent (g h : Agent) : Prop where
  agent : { h with walk := Walk.none } = { g with walk := Walk.none }
  failed : h.walk.failed = g.walk.failed
  ask : h.walk.ask = g.walk.ask

namespace SameAgent

variable {g h : Agent} (same : SameAgent g h)
include same

/-- What does not look at the walk is the same. -/
theorem ofAgent {α : Type} (f : Agent → α) (hf : ∀ x : Agent, f { x with walk := Walk.none } = f x) : f h = f g := by rw [← hf h, same.agent, hf]

theorem core : h.core = g.core := same.ofAgent Agent.core (fun _ => rfl)
theorem dom : h.dom = g.dom := same.ofAgent Agent.dom (fun _ => rfl)
theorem key : h.key = g.key := same.ofAgent Agent.key (fun _ => rfl)

theorem refusal (a : Word) (w : Bool) : h.walk.refusal a w = g.walk.refusal a w := by rw [Walk.refusal, same.failed, Walk.refusal]

theorem place (a : Word) : h.place a = g.place a := by
  have tlb : h.tlb = g.tlb := same.ofAgent Agent.tlb (fun _ => rfl)
  have asid : h.asid = g.asid := same.ofAgent Agent.asid (fun _ => rfl)
  unfold Agent.place Walk.onPage
  rw [same.ask, tlb, asid, same.core]

end SameAgent

namespace SameRules

variable {s u : State} (h : SameRules s u)
include h

theorem ofState {α : Type} (f : State → α) (hf : ∀ x : State, f x.fixed = f x) : f u = f s := by rw [← hf u, h.state, hf]
theorem ofCore {α : Type} (f : Core → α) (hf : ∀ x : Core, f x.fixed = f x) (d : Nat) : f (u.core d) = f (s.core d) := by rw [← hf (u.core d), h.core, hf]
theorem ofWindow {α : Type} (f : Window → α) (hf : ∀ x : Window, f x.fixed = f x) (d i : Nat) :
    f (tget (u.core d).windows i Window.reset) = f (tget (s.core d).windows i Window.reset) := by rw [← hf, h.window, hf]

theorem slot (d t : Nat) : u.slot d t = s.slot d t := by
  have slots : (u.core d).slots = (s.core d).slots := h.ofCore Core.slots (fun _ => rfl) d
  rw [State.slot, Core.slot, slots]
  rfl

theorem holds (d i : Nat) (w : Bool) (o : Nat) : (tget (u.core d).windows i Window.reset).holds w o = (tget (s.core d).windows i Window.reset).holds w o :=
  h.ofWindow (fun x => x.holds w o) (fun _ => rfl) d i

theorem windowAt (d : Nat) (w : Bool) (o : Nat) : (u.core d).windowAt w o = (s.core d).windowAt w o := by
  unfold Core.windowAt
  simp only [h.holds]

theorem foreign (d : Nat) (dom : BitVec 6) (off n : Nat) : u.foreign d dom off n = s.foreign d dom off n := by
  have gates : (u.core d).gatesOn = (s.core d).gatesOn := h.ofCore Core.gatesOn (fun _ => rfl) d
  have ranges : u.domRange = s.domRange := h.ofState State.domRange (fun _ => rfl)
  rw [State.foreign, gates, ranges, State.foreign]

theorem fieldGuard (d off n : Nat) : u.fieldGuard d off n = s.fieldGuard d off n := by
  have fields : (u.core d).fields = (s.core d).fields := h.ofCore Core.fields (fun _ => rfl) d
  rw [State.fieldGuard, fields, State.fieldGuard]

theorem judgeRemote (d : Nat) (dom : BitVec 6) (o n : Nat) : u.judgeRemote d dom o n = s.judgeRemote d dom o n := by
  have past (i w : Nat) : (let x := tget (u.core d).windows w Window.reset; x.known && !x.isOpen && x.w && decide (x.base ≤ o + i ∧ o + i < x.base + x.len)) =
      (let x := tget (s.core d).windows w Window.reset; x.known && !x.isOpen && x.w && decide (x.base ≤ o + i ∧ o + i < x.base + x.len)) :=
    h.ofWindow (fun x => x.known && !x.isOpen && x.w && decide (x.base ≤ o + i ∧ o + i < x.base + x.len)) (fun _ => rfl) d w
  unfold State.judgeRemote
  simp only [h.foreign, h.fieldGuard, h.windowAt, past]

theorem permit {g g' : Agent} (same : SameAgent g g') (p : Place) (acc n : Nat) (sh : AccShape) : u.permit g' p acc n sh = s.permit g p acc n sh := by
  have keys : u.keysLoaded = s.keysLoaded := h.ofState State.keysLoaded (fun _ => rfl)
  unfold State.permit
  rw [keys, same.key, same.dom]

/-- Refusals are the same, for an access that reads nothing or with the same poison. -/
theorem deny {g g' : Agent} (same : SameAgent g g') (a : Word) (n : Nat) (p : Place) {acc : Nat} (sh : AccShape)
    (hp : accReads acc = false ∨ u.poison = s.poison) : u.deny g' a n p acc sh = s.deny g a n p acc sh := by
  have ecc : (if accReads acc then u.poisoned p.key n else none) = (if accReads acc then s.poisoned p.key n else none) := by
    rcases hp with hp | hp
    · rw [hp]
      rfl
    · rw [State.poisoned, hp, State.poisoned]
  unfold State.deny
  simp only [ecc, same.core, same.dom, h.foreign, h.fieldGuard, h.judgeRemote, h.windowAt, h.permit same]

theorem objOf (p : Place) : u.objOf p = s.objOf p := by
  have objs : u.objs = s.objs := h.ofState State.objs (fun _ => rfl)
  unfold State.objOf State.objAt
  rw [objs]

theorem det (d : Nat) : (u.core d).det = (s.core d).det := h.ofCore Core.det (fun _ => rfl) d

theorem capDeny (c : Nat) (a : Word) (p : Place) (acc : Nat) : u.capDeny c a p acc = s.capDeny c a p acc := by
  unfold State.capDeny
  rw [h.det, h.objOf]

theorem dirCheck (o : Obj) (c need x : Nat) (stx : Bool) : u.dirCheck o c need x stx = s.dirCheck o c need x stx := by
  have classes : u.classes = s.classes := h.ofState State.classes (fun _ => rfl)
  have entry (st x : Nat) : u.entry o st x = s.entry o st x := by rw [State.entry, classes, State.entry]
  unfold State.dirCheck
  simp only [h.det, entry]

theorem rowCut (c : Nat) (a : Word) : u.rowCut c a = s.rowCut c a := by
  have seam : u.seam = s.seam := h.ofState State.seam (fun _ => rfl)
  unfold State.rowCut State.rowLost
  rw [seam]

theorem targetPaused (c : Nat) (a : Word) : u.targetPaused c a = s.targetPaused c a := by
  have seam : u.seam = s.seam := h.ofState State.seam (fun _ => rfl)
  have vf (d : Nat) : (u.core d).vf = (s.core d).vf := h.ofCore Core.vf (fun _ => rfl) d
  unfold State.targetPaused State.seamHolds
  simp only [seam, vf]

theorem portUp (p : Place) : u.portUp p = s.portUp p := by
  have fabric : u.fabric = s.fabric := h.ofState State.fabric (fun _ => rfl)
  unfold State.portUp State.port
  rw [fabric]

/-- An access that is let to its place is let there still. -/
theorem engPlace {g g' : Agent} (same : SameAgent g g') {a : Word} {n acc need : Nat} {p : Place} (hp : accReads acc = false ∨ u.poison = s.poison)
    (ho : s.engPlace g a n acc need = .ok p) : u.engPlace g' a n acc need = .ok p := by
  obtain ⟨hspace, hpage, hplace, hrights, hrow, hawake, hdeny, hstaged, hplain, hport⟩ := State.engPlace_ok.mp ho
  refine State.engPlace_ok.mpr ⟨hspace, ?_, ?_, hrights, ?_, ?_, ?_, fun o hobj => ?_, fun hobj => ?_, fun hobj hpeer => ?_⟩
  · rw [same.refusal, hpage]
  · rw [same.place, hplace]
  · rw [h.rowCut, same.core, hrow]
  · rw [h.targetPaused, same.core, hawake]
  · rw [h.deny same a n p .engine hp, hdeny]
  · rw [h.dirCheck, same.core]
    exact hstaged o ((h.objOf p).symm.trans hobj)
  · rw [h.capDeny, same.core]
    exact hplain ((h.objOf p).symm.trans hobj)
  · rw [h.portUp]
    exact hport ((h.objOf p).symm.trans hobj) hpeer

/-- A byte reads the same where memory and its keys are the same. -/
theorem readByte (hm : u.mem = s.mem) (hk : u.wkey = s.wkey) (p : Place) (i : Nat) : u.readByte p i = s.readByte p i := by
  have gen : u.keyGen = s.keyGen := h.ofState State.keyGen (fun _ => rfl)
  unfold State.readByte State.keyOf
  rw [hm, hk, gen]

end SameRules

end Sys2Proof.Machine
end

section
/-! PROOFS. The units in which a command reads its source, and what they hold once read (R205, R206, R309). -/

namespace Sys2Proof.Machine

open Sys2Proof Sys2Proof.Safety

/-! ## Units cover their runs -/

/-- Byte j from a, counted from m bytes on. -/
theorem addr_split (a : Word) {m j : Nat} (h : m ≤ j) : a + BitVec.ofNat 64 j = a + BitVec.ofNat 64 m + BitVec.ofNat 64 (j - m) := by
  rw [BitVec.add_assoc, ← BitVec.ofNat_add, Nat.add_sub_cancel' h]

/-- Address b is one of the n from a on. -/
def within (b a : Word) (n : Nat) : Prop := ∃ j, j < n ∧ b = a + BitVec.ofNat 64 j

theorem pieces_cover (f : Nat) (a : Word) (n : Nat) (hf : n + a.toNat % 64 ≤ 64 * f) {b : Word} (hb : within b a n) :
    ∃ u ∈ pieces f a n, within b u.1 u.2 := by
  obtain ⟨j, hj, rfl⟩ := hb
  induction f generalizing a n j with
  | zero => omega
  | succ f ih =>
    rw [pieces, if_neg (by omega)]
    by_cases hm : j < min n (64 - a.toNat % 64)
    · exact ⟨_, List.mem_cons_self, j, hm, rfl⟩
    · have hmin : min n (64 - a.toNat % 64) = 64 - a.toNat % 64 := by omega
      have next : (a + BitVec.ofNat 64 (min n (64 - a.toNat % 64))).toNat % 64 = 0 := by
        rw [hmin, BitVec.toNat_add, BitVec.toNat_ofNat]
        omega
      obtain ⟨u, hu, hw⟩ := ih (a + BitVec.ofNat 64 (min n (64 - a.toNat % 64))) (n - min n (64 - a.toNat % 64)) (by omega)
        (j - min n (64 - a.toNat % 64)) (by omega)
      rw [← addr_split a (Nat.not_lt.mp hm)] at hw
      exact ⟨u, List.mem_cons_of_mem _ hu, hw⟩

/-- Every byte of a run is in one of its units (R309). -/
theorem unitsOf_cover {a : Word} {n : Nat} {b : Word} (hb : within b a n) : ∃ u ∈ unitsOf a n, within b u.1 u.2 :=
  pieces_cover _ a n (by have := Nat.mod_lt a.toNat (show 0 < 64 by decide); omega) hb

/-- A part joined to a list is in one of its units, and so is every part that was. -/
theorem joinUnit_cover (u : Word × Nat) (l : List ReadUnit) {v : Word × Nat} (hv : v = u ∨ ∃ r ∈ l, v ∈ r) : ∃ r ∈ joinUnit u l, v ∈ r := by
  induction l with
  | nil =>
    rcases hv with rfl | ⟨r, hr, _⟩
    · exact ⟨[v], List.mem_singleton.mpr rfl, List.mem_singleton.mpr rfl⟩
    · cases hr
  | cons w l ih =>
    rw [joinUnit]
    split
    · rcases hv with rfl | ⟨r, hr, hvr⟩
      · exact ⟨_, List.mem_cons_self, by simp⟩
      · rcases List.mem_cons.mp hr with rfl | hr
        · exact ⟨_, List.mem_cons_self, by simp [hvr]⟩
        · exact ⟨r, List.mem_cons_of_mem _ hr, hvr⟩
    · by_cases hw : v ∈ w
      · exact ⟨w, List.mem_cons_self, hw⟩
      · obtain ⟨r, hr, hvr⟩ := ih (hv.imp_right (fun ⟨r, hr, hvr⟩ => ⟨r, (List.mem_cons.mp hr).resolve_left (fun e => hw (e ▸ hvr)), hvr⟩))
        exact ⟨r, List.mem_cons_of_mem _ hr, hvr⟩

theorem foldl_joinUnit_cover (us : List (Word × Nat)) (l : List ReadUnit) {v : Word × Nat} (hv : v ∈ us ∨ ∃ r ∈ l, v ∈ r) :
    ∃ r ∈ us.foldl (fun l u => joinUnit u l) l, v ∈ r := by
  induction us generalizing l with
  | nil => exact hv.resolve_left (List.not_mem_nil)
  | cons u us ih =>
    refine ih (joinUnit u l) ?_
    rcases hv with hv | hv
    · rcases List.mem_cons.mp hv with rfl | hv
      · exact .inr (joinUnit_cover v l (.inl rfl))
      · exact .inl hv
    · exact .inr (joinUnit_cover u l (.inr hv))

/-- Every part of a run is in one of the units by block. -/
theorem blockUnits_cover {runs : List (Word × Nat)} {r v : Word × Nat} (hr : r ∈ runs) (hv : v ∈ unitsOf r.1 r.2) : ∃ u ∈ blockUnits runs, v ∈ u :=
  foldl_joinUnit_cover _ _ (.inl (List.mem_flatMap.mpr ⟨r, hr, hv⟩))

/-- Range h holds range v, as numbers. -/
def spans (h v : Word × Nat) : Prop := h.1.toNat ≤ v.1.toNat ∧ v.1.toNat + v.2 ≤ h.1.toNat + h.2

theorem spans_within {h v : Word × Nat} (hs : spans h v) {b : Word} (hb : within b v.1 v.2) : within b h.1 h.2 := by
  obtain ⟨j, hj, rfl⟩ := hb
  obtain ⟨h1, h2⟩ := hs
  refine ⟨v.1.toNat - h.1.toNat + j, by omega, ?_⟩
  apply BitVec.eq_of_toNat_eq
  simp only [BitVec.toNat_add, BitVec.toNat_ofNat]
  omega

/-- One step of a hull. -/
def hullStep (h v : Word × Nat) : Word × Nat :=
  let lo := min h.1.toNat v.1.toNat
  (BitVec.ofNat 64 lo, max (h.1.toNat + h.2) (v.1.toNat + v.2) - lo)

theorem hull_cons (u : Word × Nat) (r : ReadUnit) : ReadUnit.hull (u :: r) = r.foldl hullStep u := rfl

theorem hullStep_low (h v : Word × Nat) : (hullStep h v).1.toNat = min h.1.toNat v.1.toNat := by
  have := h.1.isLt
  simp only [hullStep, BitVec.toNat_ofNat]
  omega

theorem hullStep_spans (h v : Word × Nat) : spans (hullStep h v) h ∧ spans (hullStep h v) v := by
  have low := hullStep_low h v
  have size : (hullStep h v).2 = max (h.1.toNat + h.2) (v.1.toNat + v.2) - min h.1.toNat v.1.toNat := rfl
  simp only [spans, low, size]
  omega

theorem spans_trans {a b c : Word × Nat} (h : spans a b) (h' : spans b c) : spans a c := ⟨h.1.trans h'.1, h'.2.trans h.2⟩

/-- A hull holds what it begins with and every later part, and begins where one of them does. -/
theorem foldl_hull (r : List (Word × Nat)) (h : Word × Nat) :
    spans (r.foldl hullStep h) h ∧ (∀ v ∈ r, spans (r.foldl hullStep h) v) ∧ ((r.foldl hullStep h).1 = h.1 ∨ ∃ v ∈ r, (r.foldl hullStep h).1 = v.1) := by
  induction r generalizing h with
  | nil => exact ⟨⟨Nat.le_refl _, Nat.le_refl _⟩, fun v hv => absurd hv List.not_mem_nil, .inl rfl⟩
  | cons w r ih =>
    obtain ⟨hfirst, hall, hat⟩ := ih (hullStep h w)
    obtain ⟨sh, sw⟩ := hullStep_spans h w
    refine ⟨spans_trans hfirst sh, fun v hv => ?_, ?_⟩
    · rcases List.mem_cons.mp hv with rfl | hv
      · exact spans_trans hfirst sw
      · exact hall v hv
    · rcases hat with hat | ⟨v, hv, hat⟩
      · have low := hullStep_low h w
        rw [List.foldl_cons, hat]
        rcases Nat.le_total h.1.toNat w.1.toNat with hle | hle
        · exact .inl (BitVec.eq_of_toNat_eq (by rw [low, Nat.min_eq_left hle]))
        · exact .inr ⟨w, List.mem_cons_self, BitVec.eq_of_toNat_eq (by rw [low, Nat.min_eq_right hle])⟩
      · exact .inr ⟨v, List.mem_cons_of_mem _ hv, hat⟩

theorem hull_spans {r : ReadUnit} {v : Word × Nat} (hv : v ∈ r) : spans r.hull v := by
  cases r with
  | nil => cases hv
  | cons u r =>
    obtain ⟨hfirst, hall, _⟩ := foldl_hull r u
    rw [hull_cons]
    rcases List.mem_cons.mp hv with rfl | hv
    · exact hfirst
    · exact hall v hv

theorem hull_begins (u : Word × Nat) (r : ReadUnit) : ∃ v ∈ u :: r, (ReadUnit.hull (u :: r)).1 = v.1 := by
  obtain ⟨_, _, h | ⟨v, hv, h⟩⟩ := foldl_hull r u
  · exact ⟨u, List.mem_cons_self, h⟩
  · exact ⟨v, List.mem_cons_of_mem _ hv, h⟩

/-- Every byte of a run of a copy's source is in one of its units (R205). -/
theorem copyReads_cover {m : Cmd} {r : Word × Nat} (hr : r ∈ copyRuns m) {b : Word} (hb : within b r.1 r.2) : ∃ u ∈ copyReads m, within b u.hull.1 u.hull.2 := by
  obtain ⟨v, hv, hw⟩ := unitsOf_cover hb
  unfold copyReads
  split
  · obtain ⟨u, hu, hvu⟩ := blockUnits_cover hr hv
    exact ⟨u, hu, spans_within (hull_spans hvu) hw⟩
  · exact ⟨[v], List.mem_flatMap.mpr ⟨r, hr, List.mem_map.mpr ⟨v, hv, rfl⟩⟩, hw⟩

/-! ## Bytes that a walk holds -/

/-- What a walk has read is what B says (R195). -/
def Walk.shows (w : Walk) (B : Word → Byte) : Prop :=
  ∀ r ∈ w.reads, r.2.2.length = r.2.1 ∧ ∀ j, j < r.2.1 → r.2.2.getD j 0 = B (r.1 + BitVec.ofNat 64 j)

theorem Walk.has_iff {w : Walk} {a : Word} {n : Nat} : w.has a n = true ↔ ∃ r ∈ w.reads, (a - r.1).toNat + n ≤ r.2.1 := by
  simp [Walk.has, Walk.bytes]

/-- A byte of a unit that has been read. -/
theorem Walk.byteAt_shown {w : Walk} {B : Word → Byte} (hB : w.shows B) {a b : Word} {n : Nat} (hn : w.has a n = true) (hb : within b a n) : w.byteAt b = B b := by
  obtain ⟨j, hj, rfl⟩ := hb
  obtain ⟨r, hr, hle⟩ := Walk.has_iff.mp hn
  have inside : decide ((a + BitVec.ofNat 64 j - r.1).toNat < r.2.1) = true := by
    have e : a + BitVec.ofNat 64 j - r.1 = (a - r.1) + BitVec.ofNat 64 j := add_sub_right_comm _ _ _
    have le : ((a - r.1) + BitVec.ofNat 64 j).toNat ≤ (a - r.1).toNat + j := by
      rw [BitVec.toNat_add, BitVec.toNat_ofNat]
      have := Nat.mod_le ((a - r.1).toNat + j % 2 ^ 64) (2 ^ 64)
      have := Nat.mod_le j (2 ^ 64)
      omega
    rw [e, decide_eq_true_eq]
    omega
  unfold Walk.byteAt
  split
  · next q hq =>
    have hlt : (a + BitVec.ofNat 64 j - q.1).toNat < q.2.1 := by simpa using List.find?_some hq
    rw [(hB q (List.mem_of_find?_eq_some hq)).2 _ hlt, BitVec.ofNat_toNat, BitVec.setWidth_eq, add_sub_cancel]
  · next hq => exact absurd inside (List.find?_eq_none.mp hq r hr)

theorem Walk.shows_latch {w : Walk} {B : Word → Byte} (hB : w.shows B) {a : Word} {bs : List Byte}
    (hbs : ∀ j, j < bs.length → B (a + BitVec.ofNat 64 j) = bs.getD j 0) : (w.latch a bs).shows B := by
  intro r hr
  rcases List.mem_cons.mp hr with rfl | hr
  · exact ⟨rfl, fun j hj => (hbs j hj).symm⟩
  · exact hB r hr

theorem Walk.has_latch (w : Walk) (a : Word) (bs : List Byte) : (w.latch a bs).has a bs.length = true :=
  Walk.has_iff.mpr ⟨_, List.mem_cons_self, by simp⟩

theorem Walk.latch_has {w : Walk} {a : Word} {n : Nat} (b : Word) (bs : List Byte) (h : w.has a n = true) : (w.latch b bs).has a n = true := by
  obtain ⟨r, hr, hle⟩ := Walk.has_iff.mp h
  exact Walk.has_iff.mpr ⟨r, List.mem_cons_of_mem _ hr, hle⟩

/-! ## Reading a unit -/

/-- The parts of a unit are allowed when each of them is. -/
theorem State.partsOk_ok {s : State} {g : Agent} {h : Word × Nat} {r : ReadUnit} :
    s.partsOk g h r = .ok () ↔ ∀ v ∈ r, ∃ p, s.engPlace g v.1 v.2 4 1 = .ok p := by
  induction r with
  | nil => simp [State.partsOk]
  | cons v r ih =>
    obtain ⟨a, n⟩ := v
    rw [State.partsOk, List.forall_mem_cons, ← ih]
    cases hp : s.engPlace g a n 4 1 with
    | ok p => exact ⟨fun h => ⟨⟨p, rfl⟩, h⟩, fun h => h.2⟩
    | wait | park | miss | port | deny => exact ⟨fun h => (by cases h), fun ⟨⟨_, h⟩, _⟩ => (by cases h)⟩

/-- A unit that nothing has read yet, and that may be read: its bytes are those of its place. -/
theorem State.partsRead_ok {s : State} {g : Agent} {r : ReadUnit} {bs : List Byte} (hw : g.walk.bytes r.hull.1 r.hull.2 = none) :
    s.partsRead g r = .ok bs ↔ s.partsOk g r.hull r = .ok () ∧ (g.place r.hull.1).elim [] (fun p => s.readAt p r.hull.2) = bs := by
  unfold State.partsRead
  simp only [hw]
  cases hp : s.partsOk g r.hull r with
  | ok p => exact ⟨fun h => ⟨rfl, EngRes.ok.inj h⟩, fun h => congrArg EngRes.ok h.2⟩
  | wait | park | miss | port | deny => exact ⟨fun h => (by cases h), fun ⟨h, _⟩ => (by cases h)⟩

/-- A unit that is read is read from its first byte to its last. -/
theorem State.partsRead_length {s : State} {g : Agent} {r : ReadUnit} {bs : List Byte} (hw : g.walk.bytes r.hull.1 r.hull.2 = none)
    (h : s.partsRead g r = .ok bs) : bs.length = r.hull.2 := by
  obtain ⟨hok, rfl⟩ := (State.partsRead_ok hw).mp h
  cases r with
  | nil => cases g.place (ReadUnit.hull []).1 <;> rfl
  | cons u r =>
    obtain ⟨v, hv, hat⟩ := hull_begins u r
    obtain ⟨p, hp⟩ := State.partsOk_ok.mp hok v hv
    rw [hat, (State.engPlace_ok.mp hp).place]
    simp [State.readAt]

/-- What an engine reads of a unit, and that it may, is the same under the same rules and bytes. -/
theorem SameRules.partsRead {s u : State} (h : SameRules s u) {g g' : Agent} (same : SameAgent g g') (hm : u.mem = s.mem) (hk : u.wkey = s.wkey)
    (hp : u.poison = s.poison) {r : ReadUnit} {bs : List Byte} (hw : g.walk.bytes r.hull.1 r.hull.2 = none) (hw' : g'.walk.bytes r.hull.1 r.hull.2 = none)
    (ho : s.partsRead g r = .ok bs) : u.partsRead g' r = .ok bs := by
  obtain ⟨hok, hbs⟩ := (State.partsRead_ok hw).mp ho
  refine (State.partsRead_ok hw').mpr ⟨State.partsOk_ok.mpr (fun v hv => ?_), ?_⟩
  · obtain ⟨p, hpl⟩ := State.partsOk_ok.mp hok v hv
    exact ⟨p, h.engPlace same (.inr hp) hpl⟩
  · have bytes : u.readByte = s.readByte := funext fun p => funext fun i => h.readByte hm hk p i
    rw [same.place, ← hbs]
    simp only [State.readAt, bytes]

end Sys2Proof.Machine
end

section
/-! PROOFS. An executing copy between its reads and writes: what its engine has kept, and that the rest of its core stands (R205, R206, R309). -/

namespace Sys2Proof.Machine

open Sys2Proof Sys2Proof.Safety

/-! ## A command whose walk has gone on -/

/-- The commands of a list, with walk w for those of one number. -/
def walkTo (id : Nat) (w : Walk) (l : List Cmd) : List Cmd := l.map (fun q => if q.id = id then { q with walk := w } else q)

/-- In u core c's command m has walk w, which finds and refuses the pages that m's own does; the rules and the other commands are those of s. -/
structure CopyAt (s u : State) (c : Nat) (m : Cmd) (w : Walk) : Prop where
  rules : SameRules s u
  exec : (u.core c).exec = (s.core c).exec.map (fun p => (p.1, walkTo m.id w p.2))
  failed : w.failed = m.walk.failed
  ask : w.ask = m.walk.ask
  xlat : w.xlat = m.walk.xlat

/-- Memory, its keys and its poison are the same. -/
structure SameBytes (s u : State) : Prop where
  mem : u.mem = s.mem
  wkey : u.wkey = s.wkey
  poison : u.poison = s.poison

theorem mem_of_mem_tget {α : Type} {l : Tbl (List α)} {n : Nat} {q : α} (h : q ∈ tget l n []) : ∃ p ∈ l, q ∈ p.2 := by
  induction l with
  | nil => cases h
  | cons p l ih =>
    rw [tget] at h
    split at h
    · exact ⟨p, List.mem_cons_self, h⟩
    · obtain ⟨r, hr, hq⟩ := ih h
      exact ⟨r, List.mem_cons_of_mem _ hr, hq⟩

/-- An untouched command is the only one of its number. -/
theorem untouched_only {s : State} {c e k : Nat} {m q : Cmd} (h : untouched s c e k m) (hq : q ∈ tget (s.core c).exec e []) (hid : q.id = m.id) : q = m := by
  obtain ⟨_, _, _, _, only⟩ := h
  obtain ⟨p, hp, hqp⟩ := mem_of_mem_tget hq
  exact only p hp q hqp hid

/-- The commands of one number with the walk of the only one stay as they are. -/
theorem walkTo_own {m : Cmd} {l : List Cmd} (only : ∀ q ∈ l, q.id = m.id → q = m) : walkTo m.id m.walk l = l := by
  refine (List.map_congr_left (fun q hq => ?_)).trans (List.map_id l)
  split
  · next hid => rw [only q hq hid, id]
  · rfl

/-- A change of the walks of one number, on commands that have walk w. -/
theorem map_walkTo (id : Nat) (w : Walk) (f : Walk → Walk) (l : List Cmd) :
    (walkTo id w l).map (fun q => if q.id = id then { q with walk := f q.walk } else q) = walkTo id (f w) l := by
  rw [walkTo, List.map_map, walkTo]
  refine List.map_congr_left (fun q _ => ?_)
  by_cases hq : q.id = id
  · simp [hq]
  · simp [hq]

theorem CopyAt.start {s : State} {c k : Nat} {m : Cmd} (h : untouched s c 2 k m) : CopyAt s s c m m.walk := by
  obtain ⟨_, _, _, _, only⟩ := h
  refine ⟨.refl s, ?_, rfl, rfl, rfl⟩
  refine ((List.map_congr_left (fun p hp => ?_)).trans (List.map_id _)).symm
  rw [walkTo_own (only p hp), id]

namespace CopyAt

variable {s u : State} {c : Nat} {m : Cmd} {w : Walk} (h : CopyAt s u c m w)
include h

/-- A change of the command's walk that keeps what it finds and refuses. -/
theorem onWalk {f : Walk → Walk} (hf : (f w).failed = w.failed) (ha : (f w).ask = w.ask) (hx : (f w).xlat = w.xlat) :
    CopyAt s (u.onWalk c (.cmd m.id) f) c m (f w) := by
  refine ⟨h.rules.trans ⟨rfl, fun d => ?_, fun d i => ?_⟩, ?_, hf.trans h.failed, ha.trans h.ask, hx.trans h.xlat⟩
  · by_cases hd : d = c
    · subst hd
      simp only [State.onWalk, State.core_onCore]
      rfl
    · simp only [State.onWalk, State.core_onCore_ne _ _ _ _ hd]
  · by_cases hd : d = c
    · subst hd
      simp only [State.onWalk, State.core_onCore]
    · simp only [State.onWalk, State.core_onCore_ne _ _ _ _ hd]
  · simp only [State.onWalk, State.core_onCore, h.exec, List.map_map, Function.comp_def, map_walkTo]

theorem sameAgent : SameAgent (s.cmdAgent c 2 m) (u.cmdAgent c 2 { m with walk := w }) := by
  refine ⟨?_, h.failed, h.ask⟩
  have tlb : (u.core c).pipeTlb 2 = (s.core c).pipeTlb 2 := h.rules.ofCore (fun k => k.pipeTlb 2) (fun _ => rfl) c
  simp only [State.cmdAgent, tlb, h.xlat]

/-- The executing commands of the copy's engine. -/
theorem commands : tget (u.core c).exec 2 [] = walkTo m.id w (tget (s.core c).exec 2 []) := by
  rw [h.exec]
  exact tget_map (walkTo m.id w) _ 2 []

/-- Once the copy leaves, the others are as they were. -/
theorem others : (tget (u.core c).exec 2 []).filter (fun q => q.id != m.id) = (tget (s.core c).exec 2 []).filter (fun q => q.id != m.id) := by
  rw [h.commands]
  generalize tget (s.core c).exec 2 [] = l
  induction l with
  | nil => rfl
  | cons q l ih =>
    rw [walkTo, List.map_cons]
    by_cases hq : q.id = m.id
    · rw [if_pos hq, List.filter_cons_of_neg (by simp [hq]), List.filter_cons_of_neg (by simp [hq])]
      exact ih
    · rw [if_neg hq, List.filter_cons_of_pos (by simp [hq]), List.filter_cons_of_pos (by simp [hq])]
      exact congrArg _ ih

theorem cmdNow {k : Nat} (one : untouched s c 2 k m) : u.cmdNow c 2 m = { m with walk := w } := by
  have only {q : Cmd} := untouched_only (q := q) one
  obtain ⟨here, _⟩ := one
  have hm := List.mem_of_getElem? here
  rw [State.cmdNow, h.commands, walkTo, List.find?_map]
  cases hf : (tget (s.core c).exec 2 []).find? ((fun q => q.id == m.id) ∘ fun q => if q.id = m.id then { q with walk := w } else q) with
  | none => exact absurd (List.find?_eq_none.mp hf m hm) (by simp)
  | some q =>
    have hid : q.id = m.id := by
      have found := List.find?_some hf
      simp only [Function.comp_apply, beq_iff_eq] at found
      split at found
      · assumption
      · exact found
    have hq : q = m := only (List.mem_of_find?_eq_some hf) hid
    subst hq
    simp

end CopyAt

/-! ## The source read -/

theorem SameBytes.refl (s : State) : SameBytes s s := ⟨rfl, rfl, rfl⟩

theorem SameBytes.onWalk {s u : State} (h : SameBytes s u) (c id : Nat) (f : Walk → Walk) : SameBytes s (u.onWalk c (.cmd id) f) := ⟨h.mem, h.wkey, h.poison⟩

/-- Unit r may be read, and B is what it reads (R205, R309). -/
def unitReads (s : State) (c : Nat) (m : Cmd) (B : Word → Byte) (r : ReadUnit) : Prop :=
  ∃ bs, s.partsRead (s.cmdAgent c 2 m) r = .ok bs ∧ ∀ j, j < r.hull.2 → B (r.hull.1 + BitVec.ofNat 64 j) = bs.getD j 0

theorem Walk.bytes_of_has {w : Walk} {a : Word} {n : Nat} (h : w.has a n = true) : ∃ bs, w.bytes a n = some bs := Option.isSome_iff_exists.mp h

theorem Walk.bytes_of_not_has {w : Walk} {a : Word} {n : Nat} (h : w.has a n = false) : w.bytes a n = Option.none :=
  Option.not_isSome_iff_eq_none.mp (by simpa [Walk.has] using h)

/-- A unit that has been read is not read again. -/
theorem State.partsRead_had {s : State} {g : Agent} {r : ReadUnit} (h : g.walk.has r.hull.1 r.hull.2 = true) : ∃ bs, s.partsRead g r = .ok bs := by
  obtain ⟨bs, hbs⟩ := Walk.bytes_of_has h
  refine ⟨bs, ?_⟩
  unfold State.partsRead
  simp only [hbs]

section
variable {s : State} {c k : Nat} {m : Cmd} (one : untouched s c 2 k m)
include one

/-- One unit of a copy that has been read already: nothing changes. -/
theorem latchUnits_had {u : State} {w : Walk} (at_ : CopyAt s u c m w) {r : ReadUnit} (l : List ReadUnit) (h : w.has r.hull.1 r.hull.2 = true) :
    u.latchUnits c 2 m (r :: l) = u.latchUnits c 2 m l := by
  have had : (u.cmdAgent c 2 (u.cmdNow c 2 m)).walk.has r.hull.1 r.hull.2 = true := by
    rw [at_.cmdNow one]
    exact h
  obtain ⟨bs, hbs⟩ := State.partsRead_had (s := u) had
  rw [State.latchUnits]
  simp only [hbs, had, if_true, EngRes.bind]

/-- One that has not: its bytes are kept. -/
theorem latchUnits_reads {u : State} {w : Walk} {B : Word → Byte} (at_ : CopyAt s u c m w) (same : SameBytes s u) {r : ReadUnit} (l : List ReadUnit)
    (h : w.has r.hull.1 r.hull.2 = false) (hr : unitReads s c m B r) : ∃ bs, bs.length = r.hull.2 ∧
      (∀ j, j < r.hull.2 → B (r.hull.1 + BitVec.ofNat 64 j) = bs.getD j 0) ∧
      u.latchUnits c 2 m (r :: l) = (u.onWalk c (.cmd m.id) (fun w => w.latch r.hull.1 bs)).latchUnits c 2 m l := by
  obtain ⟨bs, hbs, hB⟩ := hr
  have now := at_.cmdNow one
  obtain ⟨_, _, unread, _⟩ := one
  have none_s : (s.cmdAgent c 2 m).walk.bytes r.hull.1 r.hull.2 = none := by
    change m.walk.bytes _ _ = none
    rw [Walk.bytes, unread]
    rfl
  have none_u : (u.cmdAgent c 2 { m with walk := w }).walk.bytes r.hull.1 r.hull.2 = none := Walk.bytes_of_not_has h
  have reads := at_.rules.partsRead at_.sameAgent same.mem same.wkey same.poison none_s none_u hbs
  have hnot : (u.cmdAgent c 2 { m with walk := w }).walk.has r.hull.1 r.hull.2 = false := h
  refine ⟨bs, State.partsRead_length none_s hbs, hB, ?_⟩
  rw [State.latchUnits]
  simp only [now, reads, hnot, Bool.false_eq_true, if_false, EngRes.bind]

/-- The units of a source are read, one after another, and kept (R205, R309). -/
theorem latchUnits_ok (l : List ReadUnit) {u : State} {w : Walk} {B : Word → Byte} (at_ : CopyAt s u c m w) (same : SameBytes s u) (hB : w.shows B)
    (hl : ∀ r ∈ l, unitReads s c m B r) : ∃ v w', u.latchUnits c 2 m l = .ok v ∧ CopyAt s v c m w' ∧ SameBytes s v ∧ w'.shows B ∧
      (∀ r ∈ l, w'.has r.hull.1 r.hull.2 = true) ∧ ∀ a n, w.has a n = true → w'.has a n = true := by
  induction l generalizing u w with
  | nil => exact ⟨u, w, rfl, at_, same, hB, fun r hr => absurd hr List.not_mem_nil, fun _ _ h => h⟩
  | cons r l ih =>
    obtain ⟨hr, hl⟩ := List.forall_mem_cons.mp hl
    cases h : w.has r.hull.1 r.hull.2 with
    | true =>
      obtain ⟨v, w', hv, at', same', hB', hall, mono⟩ := ih at_ same hB hl
      exact ⟨v, w', (latchUnits_had one at_ l h).trans hv, at', same', hB', List.forall_mem_cons.mpr ⟨mono _ _ h, hall⟩, mono⟩
    | false =>
      obtain ⟨bs, hlen, hbs, step⟩ := latchUnits_reads one at_ same l h hr
      obtain ⟨v, w', hv, at', same', hB', hall, mono⟩ := ih (at_.onWalk (f := fun w => w.latch r.hull.1 bs) rfl rfl rfl) (same.onWalk c m.id _)
        (Walk.shows_latch hB (fun j hj => hbs j (hlen ▸ hj))) hl
      refine ⟨v, w', step.trans hv, at', same', hB', List.forall_mem_cons.mpr ⟨mono _ _ ?_, hall⟩, fun a n ha => mono a n (Walk.latch_has _ bs ha)⟩
      exact hlen ▸ Walk.has_latch w r.hull.1 bs

/-- Units that have all been read leave the state as it is. -/
theorem latchUnits_again (l : List ReadUnit) {u : State} {w : Walk} (at_ : CopyAt s u c m w) (hl : ∀ r ∈ l, w.has r.hull.1 r.hull.2 = true) :
    u.latchUnits c 2 m l = .ok u := by
  induction l with
  | nil => rfl
  | cons r l ih =>
    obtain ⟨hr, hl⟩ := List.forall_mem_cons.mp hl
    rw [latchUnits_had one at_ l hr, ih hl]

end

/-! ## One byte written -/

theorem State.landByte_keeps (s : State) (d o : Nat) : SameRules s (s.landByte d o) ∧ (s.landByte d o).wkey = s.wkey ∧
    ∀ e, ((s.landByte d o).core e).exec = (s.core e).exec := by
  unfold State.landByte
  split
  · next w _ =>
    refine ⟨⟨rfl, fun e => ?_, fun e i => ?_⟩, rfl, fun e => ?_⟩
    · by_cases he : e = d
      · subst he
        rw [State.core_onCore]
        rfl
      · rw [State.core_onCore_ne _ _ _ _ he]
    · by_cases he : e = d
      · subst he
        rw [State.core_onCore]
        by_cases hi : i = w
        · subst hi
          simp [Core.countByte, Window.fixed]
        · simp [Core.countByte, tget_tset_ne _ _ _ _ _ hi]
      · rw [State.core_onCore_ne _ _ _ _ he]
    · by_cases he : e = d
      · subst he
        rw [State.core_onCore]
        rfl
      · rw [State.core_onCore_ne _ _ _ _ he]
  · exact ⟨.refl s, rfl, fun _ => rfl⟩

theorem State.countLanding_keeps (s : State) (d o n : Nat) :
    SameRules s (s.countLanding d o n) ∧ (s.countLanding d o n).wkey = s.wkey ∧ ∀ e, ((s.countLanding d o n).core e).exec = (s.core e).exec := by
  induction n with
  | zero => exact ⟨.refl s, rfl, fun _ => rfl⟩
  | succ n ih =>
    obtain ⟨rules, wkey, exec⟩ := ih
    obtain ⟨rules', wkey', exec'⟩ := (s.countLanding d o n).landByte_keeps d (o + n)
    rw [State.countLanding_succ]
    exact ⟨rules.trans rules', wkey'.trans wkey, fun e => (exec' e).trans (exec e)⟩

theorem State.writeAt_rules (s : State) (p : Place) (bs : List Byte) : SameRules s (s.writeAt p bs) := by
  refine ⟨?_, fun d => by rw [State.writeAt_core], fun d i => by rw [State.writeAt_core]⟩
  unfold State.writeAt
  simp only
  split
  · rfl
  · rfl

/-- A permitted write changes bytes and windows' counts alone. -/
theorem State.writeThrough_keeps (s : State) (a : Word) (p : Place) (bs : List Byte) : SameRules s (s.writeThrough a p bs) ∧
    (s.writeThrough a p bs).wkey = (s.writeAt p bs).wkey ∧ ∀ e, ((s.writeThrough a p bs).core e).exec = (s.core e).exec := by
  unfold State.writeThrough
  simp only
  split
  · next d off _ =>
    obtain ⟨rules, wkey, exec⟩ := (s.writeAt p bs).countLanding_keeps d off bs.length
    exact ⟨(s.writeAt_rules p bs).trans rules, wkey, fun e => by rw [exec, State.writeAt_core]⟩
  · exact ⟨s.writeAt_rules p bs, rfl, fun e => by rw [State.writeAt_core]⟩

theorem State.writeAt_wkey (s : State) (p : Place) (b : Byte) :
    (s.writeAt p [b]).wkey = if p.sealed then tset s.wkey p.key (s.keyOf p.kidx) else s.wkey := by
  unfold State.writeAt
  simp only
  split
  · rfl
  · rfl

/-- Under the same rules a key is the same. -/
theorem SameRules.keyOf {s u : State} (h : SameRules s u) (k : BitVec 7) : u.keyOf k = s.keyOf k := by
  have gen : u.keyGen = s.keyGen := h.ofState State.keyGen (fun _ => rfl)
  rw [State.keyOf, gen, State.keyOf]

theorem State.read_writeThrough_one (s : State) (a : Word) (p : Place) (b : Byte) {x : Nat} (hx : x ≠ p.key) :
    Memory.read (s.writeThrough a p [b]).mem x = Memory.read s.mem x := by
  rw [State.writeThrough_mem]
  exact Memory.read_writeBytes_out [b] s.mem p.key x (by simp; omega)

/-- A byte written is read back through its place. -/
theorem State.readByte_writeThrough (s : State) (a : Word) (p : Place) (b : Byte) (hi : memInv s) : (s.writeThrough a p [b]).readByte p 0 = b := by
  obtain ⟨rules, wkey, _⟩ := s.writeThrough_keeps a p [b]
  have data : Memory.read (s.writeThrough a p [b]).mem p.key = b := by
    rw [State.writeThrough_mem]
    exact Memory.read_write s.mem p.key b hi
  unfold State.readByte
  simp only [Nat.add_zero, data, wkey, State.writeAt_wkey, rules.keyOf]
  split
  · simp only [find_tset, if_true]
  · rfl

/-- One at another place is not changed by it. -/
theorem State.readByte_writeThrough_ne (s : State) (a : Word) (p q : Place) (b : Byte) (hq : q.key ≠ p.key) :
    (s.writeThrough a p [b]).readByte q 0 = s.readByte q 0 := by
  obtain ⟨rules, wkey, _⟩ := s.writeThrough_keeps a p [b]
  have keys : (if p.sealed then tset s.wkey p.key (s.keyOf p.kidx) else s.wkey).find? (fun w => w.1 == q.key) = s.wkey.find? (fun w => w.1 == q.key) := by
    split
    · rw [find_tset, if_neg hq]
    · rfl
  unfold State.readByte
  simp only [Nat.add_zero, s.read_writeThrough_one a p b hq, wkey, State.writeAt_wkey, rules.keyOf, keys]

theorem State.writeThrough_inv (s : State) (a : Word) (p : Place) (bs : List Byte) (hi : memInv s) : memInv (s.writeThrough a p bs) := by
  rw [memInv, State.writeThrough_mem]
  exact Memory.wf_writeBytes bs s.mem p.key hi

end Sys2Proof.Machine
end

section
/-! PROOFS. The flits of a copy: what they are, and that performing them puts each byte in its place (R205 to R210). -/

namespace Sys2Proof.Machine

open Sys2Proof Sys2Proof.Safety

/-! ## Which bytes the flits hold -/

/-- One flit of l writes byte i to destination d. -/
def flitsHold (l : List CopyFlit) (d i : Nat) : Prop := ∃ f ∈ l, f.dest = d ∧ i ∈ f.idx

theorem flitsHold_cons {f : CopyFlit} {l : List CopyFlit} {d i : Nat} : flitsHold (f :: l) d i ↔ (f.dest = d ∧ i ∈ f.idx) ∨ flitsHold l d i := by
  simp only [flitsHold, List.exists_mem_cons_iff]

theorem flitsHold_joinFlit (d b i : Nat) (l : List CopyFlit) (e j : Nat) : flitsHold (joinFlit d b i l) e j ↔ (d = e ∧ j = i) ∨ flitsHold l e j := by
  induction l with
  | nil => simp [joinFlit, flitsHold]
  | cons f l ih =>
    rw [joinFlit]
    split
    · next h =>
      obtain ⟨rfl, _⟩ := h
      rw [flitsHold_cons, flitsHold_cons, List.mem_append, List.mem_singleton]
      tauto
    · rw [flitsHold_cons, flitsHold_cons, ih]
      tauto

theorem flitsHold_byte (m : Cmd) (i : Nat) (ds : List Nat) (l : List CopyFlit) (e j : Nat) :
    flitsHold (ds.foldl (fun l d => joinFlit d ((copyDst m d i).toNat / 64) i l) l) e j ↔ (e ∈ ds ∧ j = i) ∨ flitsHold l e j := by
  induction ds generalizing l with
  | nil => simp
  | cons d ds ih =>
    rw [List.foldl_cons, ih, flitsHold_joinFlit, List.mem_cons, eq_comm (a := d)]
    tauto

theorem flitsHold_bytes (m : Cmd) (is : List Nat) (l : List CopyFlit) (e j : Nat) :
    flitsHold (is.foldl (fun l i => (copyTo m).foldl (fun l d => joinFlit d ((copyDst m d i).toNat / 64) i l) l) l) e j ↔
      (e ∈ copyTo m ∧ j ∈ is) ∨ flitsHold l e j := by
  induction is generalizing l with
  | nil => simp
  | cons i is ih =>
    rw [List.foldl_cons, ih, flitsHold_byte, List.mem_cons]
    tauto

/-- The flits of a copy hold every byte of every destination, and no other (R205). -/
theorem flitsHold_copyFlits (m : Cmd) (d i : Nat) : flitsHold (copyFlits m) d i ↔ d ∈ copyTo m ∧ i < copyTotal m := by
  rw [copyFlits, flitsHold_bytes, List.mem_range]
  simp [flitsHold]

/-! ## Bytes put in their places -/

/-- u is s with byte val d i at place Q d i wherever W d i, and every other byte as it was. -/
structure Put (s u : State) (Q : Nat → Nat → Place) (val : Nat → Nat → Byte) (W : Nat → Nat → Prop) : Prop where
  inv : memInv u
  done : ∀ d i, W d i → u.readByte (Q d i) 0 = val d i
  other : ∀ y, (∀ d i, W d i → (Q d i).key ≠ y) → Memory.read u.mem y = Memory.read s.mem y

/-- No two bytes of W are at one place. -/
def placesApart (Q : Nat → Nat → Place) (W : Nat → Nat → Prop) : Prop := ∀ d i e j, W d i → W e j → (Q d i).key = (Q e j).key → d = e ∧ i = j

theorem placesApart.mono {Q : Nat → Nat → Place} {V W : Nat → Nat → Prop} (h : placesApart Q W) (sub : ∀ d i, V d i → W d i) : placesApart Q V :=
  fun d i e j hx hy => h d i e j (sub d i hx) (sub e j hy)

/-- W with the bytes idx of destination d. -/
def withBytes (W : Nat → Nat → Prop) (d : Nat) (idx : List Nat) (e j : Nat) : Prop := (e = d ∧ j ∈ idx) ∨ W e j

section
variable {s u : State} {Q : Nat → Nat → Place} {val : Nat → Nat → Byte} {W : Nat → Nat → Prop}

theorem Put.start (hi : memInv s) (Q : Nat → Nat → Place) (val : Nat → Nat → Byte) : Put s s Q val (fun _ _ => False) :=
  ⟨hi, fun _ _ hx => hx.elim, fun _ _ => rfl⟩

theorem Put.congr {V : Nat → Nat → Prop} (h : Put s u Q val W) (hv : ∀ d i, V d i ↔ W d i) : Put s u Q val V :=
  ⟨h.inv, fun d i hx => h.done d i ((hv d i).mp hx), fun y hy => h.other y (fun d i hx => hy d i ((hv d i).mpr hx))⟩

theorem Put.write (h : Put s u Q val W) (a : Word) (d i : Nat) (apart : placesApart Q (withBytes W d [i])) :
    Put s (u.writeThrough a (Q d i) [val d i]) Q val (withBytes W d [i]) := by
  have here : withBytes W d [i] d i := .inl ⟨rfl, List.mem_singleton.mpr rfl⟩
  refine ⟨u.writeThrough_inv a _ _ h.inv, fun e j hx => ?_, fun y hy => ?_⟩
  · by_cases same : e = d ∧ j = i
    · obtain ⟨rfl, rfl⟩ := same
      exact State.readByte_writeThrough u a _ _ h.inv
    · rw [State.readByte_writeThrough_ne _ _ _ _ _ (fun k => same (apart e j d i hx here k))]
      exact h.done e j (hx.resolve_left (fun ⟨he, hj⟩ => same ⟨he, List.mem_singleton.mp hj⟩))
  · rw [State.read_writeThrough_one _ _ _ _ (hy d i here).symm]
    exact h.other y (fun e j hx => hy e j (.inr hx))

/-- What follows keeps the bytes that have been put. -/
theorem Put.keep {v : State} (h : Put s u Q val W) (hm : v.mem = u.mem) (hk : v.wkey = u.wkey) (hg : v.keyGen = u.keyGen) : Put s v Q val W := by
  refine ⟨by rw [memInv, hm]; exact h.inv, fun d i hx => ?_, fun y hy => by rw [hm]; exact h.other y hy⟩
  rw [← h.done d i hx]
  unfold State.readByte State.keyOf
  rw [hm, hk, hg]

/-- Bytes written one after another, each at its own address and place. -/
def State.putBytes (s : State) (parts : List (Word × Place × List Byte)) : State := parts.foldl (fun s r => s.writeThrough r.1 r.2.1 r.2.2) s

/-- A write unit of plain data writes its parts; beyond that it can only clear poison (R155, R383). -/
theorem State.unitWrite_two (s : State) (parts : List (Word × Place × List Byte)) :
    ∃ t, s.unitWrite 2 parts = { s.putBytes parts with poison := t } := by
  unfold State.unitWrite
  simp only [Nat.reduceEqDiff, if_false]
  split
  · split
    · exact ⟨_, rfl⟩
    · exact ⟨_, rfl⟩
  · exact ⟨_, rfl⟩

theorem State.putBytes_keeps (parts : List (Word × Place × List Byte)) (s : State) :
    SameRules s (s.putBytes parts) ∧ ∀ e, ((s.putBytes parts).core e).exec = (s.core e).exec := by
  induction parts generalizing s with
  | nil => exact ⟨.refl s, fun _ => rfl⟩
  | cons r parts ih =>
    obtain ⟨rules, _, exec⟩ := s.writeThrough_keeps r.1 r.2.1 r.2.2
    obtain ⟨rules', exec'⟩ := ih (s.writeThrough r.1 r.2.1 r.2.2)
    exact ⟨rules.trans rules', fun e => (exec' e).trans (exec e)⟩

theorem withBytes_cons (W : Nat → Nat → Prop) (d i : Nat) (idx : List Nat) (e j : Nat) :
    withBytes W d (i :: idx) e j ↔ withBytes (withBytes W d [i]) d idx e j := by
  simp only [withBytes, List.mem_cons, List.not_mem_nil, or_false]
  tauto

/-- The bytes idx of destination d, written. -/
theorem Put.bytes (h : Put s u Q val W) (at_ : Nat → Word) (d : Nat) (idx : List Nat) (apart : placesApart Q (withBytes W d idx)) :
    Put s (u.putBytes (idx.map (fun i => (at_ i, Q d i, [val d i])))) Q val (withBytes W d idx) := by
  induction idx generalizing u W with
  | nil => exact h.congr (fun e j => by simp [withBytes])
  | cons i idx ih =>
    have apart' : placesApart Q (withBytes (withBytes W d [i]) d idx) := apart.mono (fun e j => (withBytes_cons W d i idx e j).mpr)
    exact (ih (h.write (at_ i) d i (apart'.mono (fun _ _ => .inr))) apart').congr (withBytes_cons W d i idx)

end

/-! ## The byte that a copy puts -/

/-- Whether a copy fills memory with a pattern (R209). -/
def copyFills (m : Cmd) : Bool := match m.instr with | .cfill _ _ _ => true | _ => false

/-- Whether what a copy writes depends on where its source and destination overlap (R206 to R208). -/
def copyOverlaps (m : Cmd) : Bool := match m.instr with | .cfill _ _ _ | .cpy _ _ _ => false | _ => true

theorem copyFills_iff {m : Cmd} : copyFills m = true ↔ ∃ x y z, m.instr = .cfill x y z := by
  unfold copyFills
  split
  · next hm => exact ⟨fun _ => ⟨_, _, _, hm⟩, fun _ => rfl⟩
  · next hm => exact ⟨fun h => absurd h Bool.false_ne_true, fun ⟨x, y, z, h⟩ => (hm x y z h).elim⟩

theorem copyOverlaps_of {m : Cmd} (nofill : ∀ x y z, m.instr ≠ .cfill x y z) (nocpy : ∀ x y z, m.instr ≠ .cpy x y z) : copyOverlaps m = true := by
  unfold copyOverlaps
  split
  · next hm => exact absurd hm (nofill _ _ _)
  · next hm => exact absurd hm (nocpy _ _ _)
  · rfl

/-- Byte i of a copy of a source that reads B: for CFILL the pattern's (R206, R207, R209). -/
def copyVal (m : Cmd) (B : Word → Byte) (i : Nat) : Byte :=
  if copyFills m then BitVec.ofNat 8 (fld (m.args.getD 1 0) (8 * (((m.args.getD 0 0).toNat + i) % 8)) 8) else B (copySrc m i)

/-- Every source byte of a copy is in one of its runs. -/
theorem copySrc_within {m : Cmd} {i : Nat} (hi : i < copyTotal m) (hf : copyFills m = false) : ∃ r ∈ copyRuns m, within (copySrc m i) r.1 r.2 := by
  unfold copyRuns
  split
  · next hm => exact ⟨_, List.mem_singleton.mpr rfl, i, hi, by simp only [copySrc, hm]⟩
  · next hm => exact ⟨_, List.mem_singleton.mpr rfl, i, hi, by simp only [copySrc, hm]⟩
  · next hm =>
    have size : copyTotal m = fld m.ec.cpyw 0 40 * fld m.ec.cpyh 0 32 := by simp only [copyTotal, hm]
    rw [size] at hi
    have hw : 0 < fld m.ec.cpyw 0 40 := Nat.pos_of_mul_pos_right (Nat.zero_lt_of_lt hi)
    exact ⟨_, List.mem_map.mpr ⟨i / fld m.ec.cpyw 0 40, List.mem_range.mpr (Nat.div_lt_of_lt_mul hi), rfl⟩, i % fld m.ec.cpyw 0 40, Nat.mod_lt _ hw,
      by simp only [copySrc, hm]⟩
  · next nocpy nocpym nocpy2 =>
    unfold copyTotal at hi
    split at hi
    · next hm => exact (nocpy2 _ _ _ _ hm).elim
    · next hm => exact (nocpy _ _ _ hm).elim
    · next hm => exact (nocpym _ _ _ hm).elim
    · next hm => exact absurd (copyFills_iff.mpr ⟨_, _, _, hm⟩) (by simp [hf])
    · exact absurd hi (Nat.not_lt_zero i)

/-! ## A copy at work -/

/-- u is s with copy m of core c at work: its source has been read, and its walk w keeps what B says of it. -/
structure Latched (s u : State) (c : Nat) (m : Cmd) (B : Word → Byte) (w : Walk) : Prop where
  at_ : CopyAt s u c m w
  shows : w.shows B
  has : ∀ r ∈ copyReads m, w.has r.hull.1 r.hull.2 = true

theorem CopyAt.keep {s u v : State} {c : Nat} {m : Cmd} {w : Walk} (h : CopyAt s u c m w) (rules : SameRules u v)
    (exec : (v.core c).exec = (u.core c).exec) : CopyAt s v c m w := ⟨h.rules.trans rules, exec.trans h.exec, h.failed, h.ask, h.xlat⟩

theorem copyKeys_at {s u : State} {c : Nat} {m : Cmd} {w : Walk} (h : CopyAt s u c m w) : u.copyKeys c { m with walk := w } = s.copyKeys c m := by
  unfold State.copyKeys
  simp only [h.sameAgent.place]
  rfl

section
variable {s u : State} {c : Nat} {m : Cmd} {B : Word → Byte} {w : Walk} (h : Latched s u c m B w)
include h

/-- The walk gives each source byte. -/
theorem Latched.byteAt {i : Nat} (hi : i < copyTotal m) (hf : copyFills m = false) : w.byteAt (copySrc m i) = B (copySrc m i) := by
  obtain ⟨r, hr, hw⟩ := copySrc_within hi hf
  obtain ⟨q, hq, hw⟩ := copyReads_cover hr hw
  exact Walk.byteAt_shown h.shows (h.has q hq) hw

/-- What a copy writes at index i, at a place off its source where that matters. -/
theorem Latched.copyByte {i : Nat} (hi : i < copyTotal m) {p : Place} (off : copyOverlaps m = true → ∀ r ∈ s.copyKeys c m, meets r.1 r.2 p.key 1 = false)
    (n : Nat) : u.copyByte c { m with walk := w } i p n = copyVal m B i := by
  have clear : copyOverlaps m = true → ∀ r ∈ u.copyKeys c { m with walk := w }, ¬meets r.1 r.2 p.key 1 = true := fun ho => by
    rw [copyKeys_at h.at_]
    exact fun r hr => by simp [off ho r hr]
  have src : copySrc { m with walk := w } i = copySrc m i := rfl
  unfold State.copyByte copyVal
  simp only [src]
  split
  · next hm => rw [if_pos (copyFills_iff.mpr ⟨_, _, _, hm⟩)]
  · next hm =>
    have hf : copyFills m = false := by simp only [copyFills, hm]
    rw [hf, h.byteAt hi hf, if_neg Bool.false_ne_true]
  · next nofill nocpy =>
    have hf : copyFills m = false := Bool.eq_false_iff.mpr (fun hf => (copyFills_iff.mp hf).elim fun x ⟨y, z, hm⟩ => nofill x y z hm)
    have ho : copyOverlaps m = true := copyOverlaps_of nofill nocpy
    rw [if_neg (by rw [List.any_eq_true]; exact fun ⟨r, hr, hm⟩ => clear ho r hr hm), hf, h.byteAt hi hf, if_neg Bool.false_ne_true]

/-- The places of bytes idx of destination d, each of which may be written (R370). -/
theorem Latched.flitPlaces {Q : Nat → Nat → Place} {f : CopyFlit} (idx : List Nat)
    (hQ : ∀ i ∈ idx, s.engPlace (s.cmdAgent c 2 m) (copyDst m f.dest i) 1 5 2 = .ok (Q f.dest i)) :
    u.flitPlaces c { m with walk := w } f idx = .ok (idx.map (fun i => (i, Q f.dest i))) := by
  induction idx with
  | nil => rfl
  | cons i idx ih =>
    obtain ⟨hi, hrest⟩ := List.forall_mem_cons.mp hQ
    have here : u.engPlace (u.cmdAgent c 2 { m with walk := w }) (copyDst { m with walk := w } f.dest i) 1 5 2 = .ok (Q f.dest i) :=
      h.at_.rules.engPlace h.at_.sameAgent (.inl rfl) hi
    rw [State.flitPlaces]
    simp only [here, ih hrest, EngRes.bind, List.map_cons]

end

/-- Where a copy's bytes go: each may be written, no two are at one place, and where it matters they are off its source (R205, R370). -/
structure Targets (s : State) (c : Nat) (m : Cmd) (Q : Nat → Nat → Place) : Prop where
  place : ∀ d ∈ copyTo m, ∀ i, i < copyTotal m → s.engPlace (s.cmdAgent c 2 m) (copyDst m d i) 1 5 2 = .ok (Q d i)
  apart : placesApart Q (fun d i => d ∈ copyTo m ∧ i < copyTotal m)
  off : copyOverlaps m = true → ∀ d ∈ copyTo m, ∀ i, i < copyTotal m → ∀ r ∈ s.copyKeys c m, meets r.1 r.2 (Q d i).key 1 = false

/-- A flit of bytes that are the copy's. -/
def ownFlit (m : Cmd) (f : CopyFlit) : Prop := ∀ i ∈ f.idx, f.dest ∈ copyTo m ∧ i < copyTotal m

theorem copyFlits_own {m : Cmd} {f : CopyFlit} (hf : f ∈ copyFlits m) : ownFlit m f := fun i hi => (flitsHold_copyFlits m f.dest i).mp ⟨f, hf, rfl, hi⟩

/-- What a flit writes: addresses, places and bytes. -/
def flitParts (m : Cmd) (B : Word → Byte) (Q : Nat → Nat → Place) (f : CopyFlit) : List (Word × Place × List Byte) :=
  f.idx.map (fun i => (copyDst m f.dest i, Q f.dest i, [copyVal m B i]))

/-- The flit's write unit puts its bytes and keeps the rules and the commands. -/
theorem unitWrite_puts {s u : State} {c : Nat} {m : Cmd} {B : Word → Byte} {w : Walk} {Q : Nat → Nat → Place} {W : Nat → Nat → Prop} {f : CopyFlit}
    (at_ : CopyAt s u c m w) (put : Put s u Q (fun _ => copyVal m B) W) (apart : placesApart Q (withBytes W f.dest f.idx)) (n : Nat) :
    CopyAt s ({ u with fresh := n }.unitWrite 2 (flitParts m B Q f)) c m w ∧
      Put s ({ u with fresh := n }.unitWrite 2 (flitParts m B Q f)) Q (fun _ => copyVal m B) (withBytes W f.dest f.idx) := by
  obtain ⟨t, ht⟩ := State.unitWrite_two { u with fresh := n } (flitParts m B Q f)
  obtain ⟨rules, exec⟩ := State.putBytes_keeps (flitParts m B Q f) { u with fresh := n }
  have start : CopyAt s { u with fresh := n } c m w := at_.keep ⟨rfl, fun _ => rfl, fun _ _ => rfl⟩ rfl
  have begun : Put s { u with fresh := n } Q (fun _ => copyVal m B) W := put.keep rfl rfl rfl
  rw [ht]
  exact ⟨(start.keep rules (exec c)).keep ⟨rfl, fun _ => rfl, fun _ _ => rfl⟩ rfl, (begun.bytes (copyDst m f.dest) f.dest f.idx apart).keep rfl rfl rfl⟩

section
variable {s : State} {c k : Nat} {m : Cmd} (one : untouched s c 2 k m)
include one

/-- An untouched copy has all its flits still to perform. -/
theorem flitsLeft_untouched : (flitsLeft m).map (·.1) = copyFlits m := by
  obtain ⟨_, _, _, unwritten, _⟩ := one
  have all : flitsLeft m = (copyFlits m).zipIdx := by
    rw [flitsLeft, List.filter_eq_self]
    intro q _
    rw [unwritten]
    rfl
  rw [all]
  exact List.zipIdx_map_fst _ _

variable {B : Word → Byte} {Q : Nat → Nat → Place} (goal : Targets s c m Q)
include goal

/-- A flit is performed whole: its bytes are put, and nothing else (R205). -/
theorem copyFlit_puts {u : State} {w : Walk} {W : Nat → Nat → Prop} (h : Latched s u c m B w) (put : Put s u Q (fun _ => copyVal m B) W) (j : Nat) {f : CopyFlit}
    (own : ownFlit m f) (inside : ∀ d i, W d i → d ∈ copyTo m ∧ i < copyTotal m) :
    ∃ v w', u.copyFlit c m j f = .ok v ∧ Latched s v c m B w' ∧ Put s v Q (fun _ => copyVal m B) (withBytes W f.dest f.idx) := by
  have needs : u.latchUnits c 2 m (u.copyNeeds c m f) = .ok u := latchUnits_again one _ h.at_ (fun r hr => h.has r (List.mem_of_mem_filter hr))
  have places := h.flitPlaces f.idx (fun i hi => goal.place _ (own i hi).1 i (own i hi).2)
  have parts : f.idx.map (fun i => (copyDst m f.dest i, Q f.dest i, [u.copyByte c { m with walk := w } i (Q f.dest i) (u.fresh + i)])) = flitParts m B Q f :=
    List.map_congr_left (fun i hi => by rw [h.copyByte (own i hi).2 (fun ho => goal.off ho _ (own i hi).1 i (own i hi).2)])
  have run : u.copyFlit c m j f = .ok (({ u with fresh := u.fresh + copyTotal m }.unitWrite 2 (flitParts m B Q f)).onWalk c (.cmd m.id)
      (fun w => w.wroteUnit j (f.idx.map (copyDst m f.dest)))) := by
    rw [State.copyFlit, needs, ← parts]
    simp only [EngRes.bind, h.at_.cmdNow one, places, EngRes.parkAs, List.map_map, Function.comp_def]
    rfl
  have apart : placesApart Q (withBytes W f.dest f.idx) := goal.apart.mono (fun e i hx => hx.elim (fun ⟨he, hi⟩ => he ▸ own i hi) (inside e i))
  obtain ⟨at_, put'⟩ := unitWrite_puts h.at_ put apart (u.fresh + copyTotal m)
  exact ⟨_, w.wroteUnit j (f.idx.map (copyDst m f.dest)), run, ⟨at_.onWalk (f := fun w => w.wroteUnit j (f.idx.map (copyDst m f.dest))) rfl rfl rfl, h.shows, h.has⟩,
    put'.keep rfl rfl rfl⟩

/-- A copy's flits, one after another, put all their bytes. -/
theorem copyFlitsRun_puts (l : List (CopyFlit × Nat)) {u : State} {w : Walk} {W : Nat → Nat → Prop} (h : Latched s u c m B w)
    (put : Put s u Q (fun _ => copyVal m B) W) (own : ∀ q ∈ l, ownFlit m q.1) (inside : ∀ d i, W d i → d ∈ copyTo m ∧ i < copyTotal m) :
    ∃ v w', u.copyFlitsRun c m l = .ok v ∧ Latched s v c m B w' ∧ Put s v Q (fun _ => copyVal m B) (fun d i => flitsHold (l.map (·.1)) d i ∨ W d i) := by
  induction l generalizing u w W with
  | nil => exact ⟨u, w, rfl, h, put.congr (fun d i => by simp [flitsHold])⟩
  | cons q l ih =>
    obtain ⟨hq, hl⟩ := List.forall_mem_cons.mp own
    obtain ⟨v, w', hv, h', put'⟩ := copyFlit_puts one goal h put q.2 hq inside
    obtain ⟨v', w'', hv', h'', put''⟩ := ih h' put' hl
      (fun d i hx => hx.elim (fun ⟨hd, hi⟩ => hd ▸ hq i hi) (inside d i))
    refine ⟨v', w'', ?_, h'', put''.congr (fun d i => ?_)⟩
    · rw [State.copyFlitsRun, hv]
      exact hv'
    · rw [List.map_cons, flitsHold_cons, withBytes, eq_comm (a := q.1.dest)]
      tauto

/-- What is left of an untouched copy: its source is read and then all its bytes put (R205, R206). -/
theorem copyEffect_puts (hi : memInv s) (hsrc : sourceReads s c m B) : ∃ v w, s.copyEffect c m = .ok v ∧ CopyAt s v c m w ∧
    Put s v Q (fun _ => copyVal m B) (fun d i => d ∈ copyTo m ∧ i < copyTotal m) := by
  have unread : m.walk.shows B := fun r hr => by
    obtain ⟨_, _, hreads, _⟩ := one
    rw [hreads] at hr
    cases hr
  obtain ⟨u, w, hu, at_, same, shows, has, _⟩ := latchUnits_ok one (copyReads m) (.start one) (.refl s) unread hsrc
  have own : ∀ q ∈ flitsLeft m, ownFlit m q.1 := fun q hq => copyFlits_own (flitsLeft_untouched one ▸ List.mem_map_of_mem hq)
  have begun : Put s u Q (fun _ => copyVal m B) (fun _ _ => False) := (Put.start hi _ _).keep same.mem same.wkey (at_.rules.ofState State.keyGen (fun _ => rfl))
  obtain ⟨v, w', hv, h', put⟩ := copyFlitsRun_puts one goal (flitsLeft m) ⟨at_, shows, has⟩ begun own (fun _ _ hx => hx.elim)
  refine ⟨v, w', ?_, h'.at_, put.congr (fun d i => ?_)⟩
  · rw [State.copyEffect, hu]
    exact hv
  · rw [flitsLeft_untouched one, flitsHold_copyFlits, or_false]

end

end Sys2Proof.Machine
end

section
/-! PROOFS. Copies completed: CPY, CPYM, CPY2 and CFILL, each by its operands (R206 to R210). -/

namespace Sys2Proof.Machine

open Sys2Proof Sys2Proof.Safety

/-! ## Completion (R41, R210) -/

/-- An untouched copy of a source that reads B, completed (R41, R205, R206, R210). -/
theorem copies_completed {s : State} {c k : Nat} {m : Cmd} {B : Word → Byte} (one : untouched s c 2 k m) (hi : memInv s) (hsrc : sourceReads s c m B)
    (hm : m.isMarker = false) (hb : m.readsB = false) :
    copies s c k m (copyOverlaps m) (copyTotal m) (copyTo m) (copyDst m) (fun _ i => copyVal m B i) := by
  intro Q place apart off
  obtain ⟨v, w, hv, at_, put⟩ := copyEffect_puts one ⟨place, fun d i e j ⟨hd, hi⟩ ⟨he, hj⟩ => apart d hd e he i j hi hj, off⟩ hi hsrc
  have performed : s.cmdEffect c 2 m = .ok v := hv
  obtain ⟨here, dead, _⟩ := one
  refine ⟨v.leave c 2 m (copyTotal m), ?_, fun d hd i hi => ?_, fun x hx => ?_, fun hn => ?_, ?_, ?_⟩
  · rw [engineCommandComplete_performs here (by decide) hm dead hb, performed]
    rfl
  · exact (put.keep (v := v.leave c 2 m (copyTotal m)) (v.leave_mem _ _ _ _) rfl rfl).done d i ⟨hd, hi⟩
  · rw [State.leave_mem]
    exact put.other x (fun d i ⟨hd, hi⟩ => hx d hd i hi)
  · rw [State.leave_slot, Slot.copied, if_pos ⟨rfl, by omega⟩, tget_tset]
  · rw [State.leave_g, at_.rules.slot]
  · rw [State.leave_exec, at_.others]

/-! ## Each copy by its operands -/

/-- The cores of a rectangle word that lies in an empty one are none. -/
theorem gridCores_of_inside_empty {r : Word} (h : rectInside r 0 = true) : gridCores r = [] := by
  have zero (a b : Nat) : fld (0 : Word) a b = 0 := by simp [fld]
  have none : fld r 16 7 = 0 ∨ fld r 24 6 = 0 := by
    simp only [rectInside, zero, Bool.or_eq_true, beq_iff_eq, decide_eq_true_eq] at h
    omega
  rcases none with h | h
  · simp [gridCores, rectCores, h]
  · simp [gridCores, rectCores, h]

section
variable {s : State} {c k : Nat} {m : Cmd} (one : untouched s c 2 k m) (hi : memInv s)
include one hi

theorem cpy_copies {B : Word → Byte} {x y z : Reg} (hsrc : sourceReads s c m B) (hm : m.instr = .cpy x y z) :
    copies s c k m false ((m.args.getD 2 0).toNat % 2 ^ 40) [0] (fun _ i => m.args.getD 0 0 + BitVec.ofNat 64 i) (fun _ i => B (m.args.getD 1 0 + BitVec.ofNat 64 i)) := by
  have done := copies_completed one hi hsrc (by rw [Cmd.isMarker, hm]; rfl) (by simp [Cmd.readsB, hm])
  have dst : copyDst m = fun _ i => m.args.getD 0 0 + BitVec.ofNat 64 i := by
    funext d i
    simp only [copyDst, hm]
  simpa only [dst, copyOverlaps, copyTotal, copyTo, copyVal, copyFills, copySrc, hm, fld_low, Bool.false_eq_true, if_false] using done

theorem cpym_copies {B : Word → Byte} {x y z : Reg} (hsrc : sourceReads s c m B) (hm : m.instr = .cpym x y z) :
    copies s c k m true ((m.args.getD 2 0).toNat % 2 ^ 40) (gridCores m.ec.cpymask) (fun d i => windowAddr d ((m.args.getD 0 0).toNat + i))
      (fun _ i => B (m.args.getD 1 0 + BitVec.ofNat 64 i)) := by
  have done := copies_completed one hi hsrc (by rw [Cmd.isMarker, hm]; rfl) (by simp [Cmd.readsB, hm])
  have dst : copyDst m = fun d i => windowAddr d ((m.args.getD 0 0).toNat + i) := by
    funext d i
    simp only [copyDst, hm]
  have dests : copyTo m = gridCores m.ec.cpymask := by
    simp only [copyTo, hm]
    split
    · next h => exact (gridCores_of_inside_empty h).symm
    · rfl
  simpa only [dst, dests, copyOverlaps, copyTotal, copyVal, copyFills, copySrc, hm, fld_low, Bool.false_eq_true, if_false] using done

theorem cpy2_copies {B : Word → Byte} {x y : Reg} {tr : Bool} {es : BitVec 2} (hsrc : sourceReads s c m B) (hm : m.instr = .cpy2 x y tr es) :
    let w := m.ec.cpyw.toNat % 2 ^ 40
    let n := 2 ^ es.toNat
    copies s c k m true (w * (m.ec.cpyh.toNat % 2 ^ 32)) [0]
      (fun _ i => if tr then m.args.getD 0 0 + BitVec.ofNat 64 (i % w / n) * m.ec.cpyds + BitVec.ofNat 64 (i / w * n + i % w % n)
        else m.args.getD 0 0 + BitVec.ofNat 64 (i / w) * m.ec.cpyds + BitVec.ofNat 64 (i % w))
      (fun _ i => B (m.args.getD 1 0 + BitVec.ofNat 64 (i / w) * m.ec.cpyss + BitVec.ofNat 64 (i % w))) := by
  intro w n
  have done := copies_completed one hi hsrc (by rw [Cmd.isMarker, hm]; rfl) (by simp [Cmd.readsB, hm])
  have dst : copyDst m = fun _ i => if tr then m.args.getD 0 0 + BitVec.ofNat 64 (i % w / n) * m.ec.cpyds + BitVec.ofNat 64 (i / w * n + i % w % n)
      else m.args.getD 0 0 + BitVec.ofNat 64 (i / w) * m.ec.cpyds + BitVec.ofNat 64 (i % w) := by
    funext d i
    simp only [copyDst, hm, fld_low, w, n]
  rw [dst] at done
  simpa only [copyOverlaps, copyTotal, copyTo, copyVal, copyFills, copySrc, hm, fld_low, Bool.false_eq_true, if_false] using done

theorem cfill_copies {x y z : Reg} (hm : m.instr = .cfill x y z) :
    copies s c k m false ((m.args.getD 2 0).toNat % 2 ^ 40) [0] (fun _ i => m.args.getD 0 0 + BitVec.ofNat 64 i)
      (fun _ i => BitVec.ofNat 8 ((m.args.getD 1 0).toNat / 2 ^ (8 * (((m.args.getD 0 0).toNat + i) % 8)))) := by
  have nothing : copyReads m = [] := by simp only [copyReads, copyRuns, hm, List.flatMap_nil]
  have hsrc : sourceReads s c m (fun _ => 0) := fun r hr => by
    rw [nothing] at hr
    cases hr
  have done := copies_completed one hi hsrc (by rw [Cmd.isMarker, hm]; rfl) (by simp [Cmd.readsB, hm])
  have dst : copyDst m = fun _ i => m.args.getD 0 0 + BitVec.ofNat 64 i := by
    funext d i
    simp only [copyDst, hm]
  have byte (v : Word) (l : Nat) : BitVec.ofNat 8 (fld v l 8) = BitVec.ofNat 8 (v.toNat / 2 ^ l) := by
    apply BitVec.eq_of_toNat_eq
    simp [fld, Nat.shiftRight_eq_div_pow]
  simpa only [dst, byte, copyOverlaps, copyTotal, copyTo, copyVal, copyFills, hm, fld_low, if_true] using done

end

end Sys2Proof.Machine

namespace Sys2Proof.Proofs

open Sys2Proof Sys2Proof.Machine Sys2Proof.Safety

/-- CPY and CFILL enter alike (R206, R209). -/
theorem cpy_cfill_enter (i : Instr) (s : State) (a b c : Reg) (hi : i ∈ [Instr.cpy a b c, .cfill a b c])
    (h : mayIssue { rs := [a, b, c], late := false } s = true) (ho : queueOpen s 2 = true) (hl : (s.me.rd c).toNat < 2 ^ 40) :
    ∃ u, exec i s = .next u ∧ entered s u 2 i [s.me.rd a, s.me.rd b, s.me.rd c] ∧ leftAs s u s.nextPc := by
  simp only [List.mem_cons, List.not_mem_nil, or_false] at hi
  rcases hi with rfl | rfl
  · exact copyCmd_enters h ho hl
  · exact copyCmd_enters h ho hl

/-- Settles O46: a copy's units cover its source and its flits its destinations; once read, the flits put each byte at its own place and nothing else. -/
theorem copiesAndWindows : Obligations.CopiesAndWindows :=
  ⟨cpy_cfill_enter,
    fun _ _ _ _ h ho hl ha hr => execCpym_enters h ho hl ha hr,
    fun _ _ _ _ _ h ho ht => execCpy2_enters h ho ht,
    fun _ _ _ _ _ hi h hb hl => copies_trap hi h hb hl,
    fun _ _ _ h hn => cprog_completed h hn,
    fun _ _ _ _ h hm hf => cprog_executing h hm hf,
    fun _ _ _ _ _ _ _ h hs ho h0 hb hl => rxopen_opens h hs ho h0 hb hl,
    fun _ _ _ _ _ _ h hbad => rxopen_refuses h hbad,
    fun _ _ h => rxclose_closes h,
    fun _ _ _ h => rxcnt_reads h,
    fun _ _ _ _ _ _ _ _ one hi hsrc hm => cpy_copies one hi hsrc hm,
    fun _ _ _ _ _ _ _ _ one hi hsrc hm => cpym_copies one hi hsrc hm,
    fun _ _ _ _ _ _ _ _ _ one hi hsrc hm => cpy2_copies one hi hsrc hm,
    fun _ _ _ _ _ _ _ one hi hm => cfill_copies one hi hm⟩

end Sys2Proof.Proofs
end
